-- ==== Sys2Proof/Word.lean ====
section
/-! DEFINITION. The word and byte types of the N7 and the one-line notions of width every file uses. -/

namespace Sys2Proof

/-- A 64-bit word: an instruction word, a literal, a scalar register (R28, R30, R43). -/
abbrev Word := BitVec 64

/-- One byte of memory (R10). -/
abbrev Byte := BitVec 8

/-- A 32-bit vector register of one lane, or a lane mask (R118, R123). -/
abbrev Lane32 := BitVec 32

end Sys2Proof
end

