-- ==== Sys2Proof/Machine/Bits.lean ====
section
/-! DEFINITION. Bit fields, extensions, packing of instruction fields and little-endian byte strings (R7, R9, R10). -/

namespace Sys2Proof.Machine

/-- x[lo+n-1:lo] of a natural number (R7). -/
def bits (x lo n : Nat) : Nat := x / 2 ^ lo % 2 ^ n

/-- x[lo] as a truth value. -/
def bitAt (x lo : Nat) : Bool := x.testBit lo

/-- 1 for true, 0 for false. -/
def ofBool (b : Bool) : Nat := if b then 1 else 0

/-- SInt of the low `n` bits of `x` (R9). -/
def sint (n : Nat) (x : Nat) : Int :=
  let u := x % 2 ^ n
  if u < 2 ^ (n - 1) then (u : Int) else (u : Int) - (2 ^ n : Nat)

/-- UInt of the low `n` bits of `x` (R9). -/
def uint (n : Nat) (x : Nat) : Int := ((x % 2 ^ n : Nat) : Int)

/-- Trunc`n` of an exact integer, as the natural number of its bits (R9). -/
def truncN (n : Nat) (e : Int) : Nat := (e % ((2 ^ n : Nat) : Int)).toNat

/-- SExt64 of the low `n` bits. -/
def sext64 (n : Nat) (x : Nat) : Word := BitVec.ofInt 64 (sint n x)

/-- ZExt64 of the low `n` bits. -/
def zext64 (n : Nat) (x : Nat) : Word := BitVec.ofNat 64 (x % 2 ^ n)

/-- Fields given least significant first as (width, value), packed into one number. -/
def packBits : List (Nat × Nat) → Nat
  | [] => 0
  | (w, v) :: r => v % 2 ^ w + 2 ^ w * packBits r

/-- The values of fields of the given widths, least significant first. -/
def unpackBits : List Nat → Nat → List Nat
  | [], _ => []
  | w :: r, x => x % 2 ^ w :: unpackBits r (x / 2 ^ w)

/-- The little-endian number of a byte string (R10). -/
def leNat : List Byte → Nat
  | [] => 0
  | b :: r => b.toNat + 256 * leNat r

/-- The `n` little-endian bytes of a number (R10). -/
def leBytes : Nat → Nat → List Byte
  | 0, _ => []
  | n + 1, x => BitVec.ofNat 8 x :: leBytes n (x / 256)

/-- The lanes 0 to 31. -/
def lanes : List Nat := List.range 32

/-- The lanes whose bit is set in a mask, ascending. -/
def maskLanes (m : Lane32) : List Nat := lanes.filter (fun l => m.getLsbD l)

/-- The mask of the lanes a predicate picks. -/
def laneMask (p : Nat → Bool) : Lane32 := BitVec.ofNat 32 ((lanes.filter p).foldl (fun a l => a + 2 ^ l) 0)

/-- Index of the lowest set bit of a mask, 32 for none. -/
def lowestLane (m : Lane32) : Nat := (maskLanes m).headD 32

/-- Number of set bits among the low `n`. -/
def popcount (n x : Nat) : Nat := ((List.range n).filter (fun i => x.testBit i)).length

/-- Number of leading zero bits of an `n`-bit value. -/
def leadZeros (n x : Nat) : Nat :=
  match n with
  | 0 => 0
  | k + 1 => if x.testBit k then 0 else 1 + leadZeros k x

/-- The 64-byte line of a byte address. -/
def lineOf (a : Nat) : Nat := a / 64

/-- A list with each number once. -/
def nub : List Nat → List Nat
  | [] => []
  | a :: r => a :: (nub r).filter (· ≠ a)

/-- Rounding a quotient up. -/
def ceilDiv (a b : Nat) : Nat := (a + b - 1) / b

end Sys2Proof.Machine
end

