-- ==== Sys2Proof/Machine/Flags.lean ====
section
/-! DEFINITION. The FLAGS bits (R32) and the flag results of arithmetic. -/

namespace Sys2Proof.Machine

/-- FLAGS.NV, invalid operation. -/
def flagNV : Nat := 1
/-- FLAGS.DZ, divide by zero. -/
def flagDZ : Nat := 2
/-- FLAGS.OF, overflow. -/
def flagOF : Nat := 4
/-- FLAGS.UF, underflow. -/
def flagUF : Nat := 8
/-- FLAGS.NX, inexact. -/
def flagNX : Nat := 16

/-- One flag where a condition holds. -/
def flagIf (b : Bool) (f : Nat) : Nat := if b then f else 0

/-- The flags of two operations together. -/
def flagOr (a b : Nat) : Nat := a ||| b

/-- The flags any of a list raises (R74). -/
def flagAll (l : List Nat) : Nat := l.foldl flagOr 0

end Sys2Proof.Machine
end

