-- ==== Sys2Proof/Config.lean ====
section
/-! DEFINITION. What one N7 fixes and the manual leaves open: the free values, and the constants fused into a part. None of the opaque constants has a body, so no proof sees a value of one. -/

namespace Sys2Proof.Config

/-- The free values (log 2). `freeValue k tag` is what the device produces in place `tag` of draw number `k` where R4 calls a value unspecified or two outcomes are allowed. -/
opaque freeValue : Nat → Nat → Nat

/-- R158: the candidate value an approximate form (0 vrsq, 1 vexp2, 2 vlog2, 3 vsin, 4 vcos) returns for a `.f32` input, fixed for each input (log 13). -/
opaque approx : Nat → BitVec 32 → BitVec 32

/-- R226: the set of an L1, of a remote cache and of a home cache that the line with a number falls in (log 10). -/
opaque l1Set : Nat → Nat
/-- R226: as for the L1 (log 10, DESIGN CHOICE). -/
opaque remoteSet : Nat → Nat
/-- R226: as for the L1 (log 10, DESIGN CHOICE). -/
opaque homeSet : Nat → Nat

/-- SHA-512 of a byte string (R480, R481; log 11). -/
opaque sha512 : List Byte → List Byte

/-- R480: whether a 512-byte signature verifies over a byte string under an RSA-4096 modulus, by RSASSA-PSS (log 11). -/
opaque pssVerifies : List Byte → List Byte → List Byte → Bool

/-- R481: the signature of the identity key over a report (log 11). -/
opaque identitySign : List Byte → List Byte

/-- R481: the fused identity public modulus, 512 bytes (log 11). -/
opaque identityModulus : List Byte

/-- R480: the fused root-key digest (log 11). -/
opaque rootKeyDigest : List Byte

/-- R483 KEY_LOAD: the 64-byte key pair inside a wrapped key, where it unwraps under the identity key (log 11). -/
opaque unwrapKey : List Byte → Option (List Byte)

/-- R480: the anti-rollback fuse count of the part, a number of blown fuses (log 11; log 120, DESIGN CHOICE). -/
opaque fuseCount : Nat

/-- R485: the cycles of a millisecond, at 2.0 GHz. -/
def msCycles : Nat := 2000000

/-- R485: the bytes of a millisecond at 1 Gb/s. -/
def msBytes : Nat := 125000

/-- R31: the default of WDLIMIT, 2³². -/
def wdlimitDefault : Nat := 4294967296

/-- R224: the default gap limit, in cycles. -/
def gapLimitDefault : Nat := 2000000

/-- R405: the default pre-emption limit, in cycles. -/
def preemptLimitDefault : Nat := 200000

/-- R402: the default peer access limit, in cycles. -/
def peerLimitDefault : Nat := 100000

/-- R358: the default census peer timeout, in cycles. -/
def peerTimeoutDefault : Nat := 100000

/-- R355: the default responder limit, in cycles. -/
def responderLimitDefault : Nat := 2000000

/-- R454: the default collective limit, in cycles. -/
def collectiveLimitDefault : Nat := 2000000

/-- R449: the cycles after which an unacknowledged frame is resent. -/
def resendCycles : Nat := 4000

end Sys2Proof.Config
end

