-- ==== Sys2Proof/Syntax.lean ====
section
/-! DEFINITION. The instructions of the N7 as syntax: the nine formats of R47 with the manual's own fields, the payloads of the device's other steps, and `Instr`, one constructor for each of the 252 rows of the operation table. -/

namespace Sys2Proof

/-- R57: the type codes. -/
inductive Ty where
  | dflt | i8 | i16 | i32 | i64 | n8 | n16 | n32 | n64 | f16 | bf16 | f32 | f64 | fq
  deriving DecidableEq, Repr, Inhabited

/-- R48: the rounding field; `mode` is MODE.RM. -/
inductive Rnd where
  | mode | ne | tz | up | dn
  deriving DecidableEq, Repr, Inhabited

/-- R45: guard fields G and N. -/
structure Guard where
  p : Nat := 7
  neg : Bool := false
  deriving DecidableEq, Repr, Inhabited

/-- R45: G = 7 with N = 0 is no guard. -/
def Guard.none : Guard := ⟨7, false⟩

/-- R48: format RRR. Operand fields stand as their values of R58. -/
structure RRR where
  g : Guard := .none
  lit : Option Word := Option.none
  d : Nat := 0
  a : Nat := 0
  b : Nat := 0
  c : Nat := 0
  last : Bool := false
  first : Bool := false
  sa : Bool := false
  sb : Bool := false
  sc : Bool := false
  ty : Ty := .dflt
  x2 : Bool := false
  rnd : Rnd := .mode
  sat : Bool := false
  fn : Nat := 0
  deriving DecidableEq, Repr, Inhabited

/-- R49: format RI; `imm` is the immediate sign-extended to 64 bits. -/
structure RI where
  lit : Option Word := Option.none
  d : Nat := 0
  a : Nat := 0
  last : Bool := false
  first : Bool := false
  imm : Word := 0
  deriving DecidableEq, Repr, Inhabited

/-- R50: format CV. -/
structure CV where
  g : Guard := .none
  d : Nat := 0
  a : Nat := 0
  stype : Ty := .dflt
  sfmt : Nat := 0
  dfmt : Nat := 0
  last : Bool := false
  first : Bool := false
  sa : Bool := false
  ty : Ty := .dflt
  rnd : Rnd := .mode
  sat : Bool := false
  deriving DecidableEq, Repr, Inhabited

/-- R51: format MEM; `c` is field C whole (SGN, WID, SCOPE, ORD, or the stream field). -/
structure MEM where
  g : Guard := .none
  lit : Option Word := Option.none
  d : Nat := 0
  a : Nat := 0
  b : Nat := 0
  c : Nat := 0
  last : Bool := false
  first : Bool := false
  off : Word := 0
  deriving DecidableEq, Repr, Inhabited

/-- R52: format ATM; `c` is field C whole (SPACE, WID, SCOPE, ORD). -/
structure ATM where
  g : Guard := .none
  d : Nat := 0
  a : Nat := 0
  b : Nat := 0
  c : Nat := 0
  last : Bool := false
  first : Bool := false
  atop : Nat := 0
  off : Word := 0
  deriving DecidableEq, Repr, Inhabited

/-- R53: format BR; `off` is the signed word offset O, sign-extended. -/
structure BR where
  d : Nat := 0
  off : Word := 0
  deriving DecidableEq, Repr, Inhabited

/-- R54: format SR. -/
structure SR where
  d : Nat := 0
  a : Nat := 0
  sel : Nat := 0
  deriving DecidableEq, Repr, Inhabited

/-- R55: format EN. -/
structure EN where
  produce : Bool := false
  ncons : Nat := 0
  kout : Nat := 0
  a : Nat := 0
  b : Nat := 0
  c : Nat := 0
  last : Bool := false
  first : Bool := false
  ka : Nat := 0
  kb : Nat := 0
  kc : Nat := 0
  deriving DecidableEq, Repr, Inhabited

/-- R56: format LP; `len` is the body length in words. -/
structure LP where
  d : Nat := 0
  a : Nat := 0
  b : Nat := 0
  len : Nat := 0
  deriving DecidableEq, Repr, Inhabited

/-- R483: a command payload as the host sent it: bytes 2-3 of the head, the operand length field and the operands. -/
structure Payload where
  zero : Nat := 0
  len : Nat := 0
  ops : List Byte := []
  seq : Nat := 0
  deriving DecidableEq, Repr, Inhabited

/-- R449: a Pyzan frame. -/
structure Frame where
  port : Nat := 0
  src : Nat := 0
  dst : Nat := 0
  tag : Nat := 0
  seq : Nat := 0
  addr : Nat := 0
  core : Nat := 0
  status : Nat := 0
  bytes : List Byte := []
  ver : Nat := 1
  ty : Nat := 0
  deriving DecidableEq, Repr, Inhabited

/-- The access a load or atomic frame asks for: its size and, for an atomic, ATOP and the operands (R272). -/
structure FrameOp where
  size : Nat := 0
  atop : Nat := 0
  b : Word := 0
  c : Word := 0
  deriving DecidableEq, Repr, Inhabited

/-- R355, R376, R483: the fields of a context table (its layout in memory is not given; log 14). -/
structure CtxTable where
  root : Nat := 0
  mirrored : Bool := false
  streamBase : Nat := 0
  streamSize : Nat := 0
  readWord : Nat := 0
  tvec : Word := 0
  wdlimit : Nat := 4294967296
  ctxKeyring : Nat := 256
  pinQuota : Nat := 0
  postQueue : Nat := 0
  gapLimit : Nat := 2000000
  preemptLimit : Nat := 200000
  peerLimit : Nat := 100000
  peerTimeout : Nat := 100000
  responderLimit : Nat := 2000000
  responderLimits : List (Nat × Nat) := []
  collectiveLimit : Nat := 2000000
  tileAreas : List (Nat × Nat × Nat) := []
  responders : List (Nat × Nat × Nat) := []
  class0 : List (Nat × Nat) := []
  cohortRecords : Nat := 0
  cardPool : Nat := 0
  cardPoolBase : Nat := 0
  coreAreas : Nat := 0
  inDomain : Bool := false
  domainTag : Nat := 0
  replayLogs : List ((Nat × Nat × Nat × Nat) × Nat × Nat) := []
  deriving DecidableEq, Repr, Inhabited

/-- R414 to R428, R451: the register a DEBUG_WRITE names (selectors are not given; log 32). -/
inductive DebugReg where
  | control (ctx : Nat)
  | wctl (die i : Nat)
  | waddr (die i : Nat)
  | ringBase (die : Nat)
  | ringSize (die : Nat)
  | ringRead (die : Nat)
  | traceBase (core : Nat)
  | traceSize (core : Nat)
  | traceMode (core : Nat)
  | eventBase
  | eventSize
  deriving DecidableEq, Repr, Inhabited

/-- R483 DEBUG_READ: what is read (selectors are not given; log 32). -/
inductive DebugSrc where
  | stopRecord (wave : Nat)
  | loopCounter (wave level which : Nat)
  | frame (wave block : Nat)
  | placement (cohort : Nat)
  | lost (die : Nat)
  deriving DecidableEq, Repr, Inhabited

/-- R212: where an uncorrectable error strikes. -/
inductive ErrorSite where
  | memLine (line : Nat)
  | spadByte (core off : Nat)
  deriving DecidableEq, Repr, Inhabited

/-- The operation table: one constructor for each row. The first part are the instructions a kernel can name, each with its format's fields; the rest are the device's, the peers', the host's and the sensors' steps, each with what identifies the step. -/
inductive Instr where
  -- group 0: scalar integer (R90 to R96)
  | sadd (f : RRR) | ssub (f : RRR) | smul (f : RRR) | smulh (f : RRR) | sdiv (f : RRR) | srem (f : RRR) | smin (f : RRR) | smax (f : RRR)
  | sand (f : RRR) | sor (f : RRR) | sxor (f : RRR) | sandn (f : RRR) | sshl (f : RRR) | sshr (f : RRR) | ssar (f : RRR) | srot (f : RRR)
  | sabs (f : RRR) | sclz (f : RRR) | spopc (f : RRR) | smov (f : RRR) | sext (f : RRR) | sbfx (f : RRR) | sbfi (f : RRR) | scmp (f : RRR) | ssel (f : RRR) | sli (f : RI)
  -- scalar floating point (R98 to R100)
  | sfadd (f : RRR) | sfmul (f : RRR) | sffma (f : RRR) | sfcmp (f : RRR) | sfcvt (f : CV)
  -- group 1: control (R102 to R114, R395, R423, R446)
  | jmp (f : BR) | jc (f : BR) | jmpx (f : RRR) | call (f : BR) | callx (f : MEM) | ret (f : RRR) | endThread (f : RRR) | nop (f : RRR)
  | sld (f : MEM) | sst (f : MEM) | sread (f : SR) | swrite (f : SR) | trap (f : RI) | tret (f : RRR) | tretPark (f : RRR) | mark (f : RI) | brk (f : RI) | remap (f : RRR)
  -- group 2: vector integer (R145 to R152)
  | vadd (f : RRR) | vsub (f : RRR) | vmul (f : RRR) | vmulh (f : RRR) | vmin (f : RRR) | vmax (f : RRR) | vmad (f : RRR)
  | vand (f : RRR) | vor (f : RRR) | vxor (f : RRR) | vandn (f : RRR) | vshl (f : RRR) | vshr (f : RRR) | vsar (f : RRR)
  | vabs (f : RRR) | vclz (f : RRR) | vpopc (f : RRR) | vmov (f : RRR) | vbfx (f : RRR) | vbfi (f : RRR) | vcmp (f : RRR) | vsel (f : RRR) | vaddc (f : RRR)
  -- group 3: vector floating point (R154 to R161)
  | vfadd (f : RRR) | vfsub (f : RRR) | vfmul (f : RRR) | vffma (f : RRR) | vfmin (f : RRR) | vfmax (f : RRR) | vfcmp (f : RRR) | vrcp (f : RRR) | vsqrt (f : RRR)
  | vrsq (f : RRR) | vexp2 (f : RRR) | vlog2 (f : RRR) | vsin (f : RRR) | vcos (f : RRR) | vfclass (f : RRR) | vcvt (f : CV)
  -- group 4: predicates, lane operations, SIMT control, streams, flat lanes (R162 to R179)
  | plog (f : RRR) | pmov (f : RRR) | pcnt (f : RRR) | vshf (f : RRR) | vshfi (f : RRR) | vbcast (f : RRR) | vrfl (f : RRR) | vwlane (f : RRR)
  | vballot (f : RRR) | vvote (f : RRR) | vred (f : RRR) | vscan (f : RRR) | brv (f : BR) | join (f : RRR) | wend (f : RRR)
  | vunpk (f : MEM) | vpack (f : MEM) | vld (f : MEM) | vst (f : MEM)
  -- group 5: scratchpad, atomics, markers, cache control (R265 to R282)
  | lds (f : MEM) | sts (f : MEM) | stm (f : MEM) | vlds (f : MEM) | vatom (f : ATM) | satom (f : ATM) | fence (f : MEM) | align (f : MEM)
  | prefetch (f : MEM) | discard (f : MEM) | pin (f : MEM) | unpin (f : MEM) | waitv (f : RRR)
  -- group 6: engines (R297 to R316, R326 to R334, R343 to R359, R377 to R380, R452)
  | trec (f : EN) | tcopy (f : EN) | kwait (f : EN) | kjoin (f : EN) | gset (f : EN) | garr (f : EN) | gwait (f : EN) | gsync (f : EN) | yield (f : EN)
  | fset (f : EN) | mbld (f : EN) | mma (f : EN) | mclr (f : EN) | mst (f : EN) | mlat (f : EN) | jld (f : EN)
  | treg (f : EN) | tdrop (f : EN) | tfind (f : EN) | tmove (f : EN) | solicit (f : EN) | answer (f : EN) | cwait (f : EN)
  | post (f : EN) | rnext (f : EN) | qbind (f : EN) | creduce (f : EN)
  -- group 7: bundle mode (R183 to R203)
  | xmodeB (f : RRR) | xmodeBMx (f : RRR) | xmodeS (f : RRR) | xmov (f : RRR) | xbcast (f : RRR) | loop (f : LP) | lexit (f : RRR)
  -- steps of a wave or bundle thread
  | bundleIssue (words : List Word) | operationLands (w k : Nat) | regionCommit (w : Nat) | subwaveAged (w x : Nat) | watchdog (w : Nat)
  | xmodeConvert (w : Nat) | returnDrainEnd (w : Nat) | endingDrainEnd (w : Nat) | trapEntry (w : Nat) | bundleTrapDrainEnd (w : Nat)
  | callxWake (w x : Nat) | callxReread (w x : Nat) | waitvWake (w x : Nat)
  -- steps of the memory system
  | loadPerformed (w k : Nat) | storePerformed (w k : Nat) | atomicPerformed (w k : Nat) | gapLimit (ctx gap : Nat)
  -- steps of the engines
  | engineBegin (k : Nat) | tcopyChunk (k chunk : Nat) | vldsComplete (k : Nat) | matrixComplete (k : Nat)
  | kwaitComplete (w x : Nat) | gateWaitComplete (w x : Nat) | yieldResume (w : Nat) | channelEntryArrive (core ch entry : Nat)
  -- tile moves and census
  | tmoveReservation (k : Nat) | tmoveReply (k : Nat) | tmoveHandoff (k : Nat) | tmoveCopy (k : Nat) | tmoveArrival (k : Nat) | tmoveComplete (k : Nat) | tmoveAbort (k : Nat)
  | tileAreaWithdraw (ctx core : Nat) | censusStamp (k : Nat) | solicitAccept (core : Nat) | responderSpawn (core : Nat) | responderLimit (w : Nat)
  | coreAnswer (core stamp : Nat) | censusComplete (stamp : Nat) | peerTimeout (stamp : Nat)
  -- dispatch
  | emptyRecord (ctx : Nat) | unknownRecord (ctx : Nat) | launchRecord (ctx : Nat) | cohortPlace (launch : Nat) | launchComplete (launch : Nat)
  | jobCard (ctx : Nat) (posted : Bool) | cardStart (card : Nat) | rangeCard (ctx : Nat) (posted : Bool) | ask (core ctx : Nat)
  | preemptLimit (w : Nat) | park (w : Nat) | placeParked (cohort : Nat)
  -- heat and power
  | migrationRequest (quad : Nat) | throttle105 (quad : Nat) | trip115 (quad : Nat) | thermalClear (quad celsius : Nat) | powerLimit (on : Bool)
  -- peers and ports
  | peerAccessLimit (w k : Nat) | pyzanLoad (fr : Frame) (op : FrameOp) | pyzanStore (fr : Frame) | pyzanAtomic (fr : Frame) (op : FrameOp)
  | pyzanResponse (fr : Frame) | pyzanAcknowledgement (fr : Frame) | pyzanSolicit (fr : Frame) | pyzanCensusAnswer (fr : Frame) | pyzanCollective (fr : Frame)
  | pyzanResend (dst seq : Nat) | nonPyzanFrame (port : Nat) | collectiveLimit (k : Nat)
  -- stops, bring-up
  | foghorn (k : Nat) | packageReset (image : List Byte) | memoryTraining (ok : Bool) | linkTraining (port : Nat) (ok : Bool) | linkRetry
  -- host commands
  | openSession (p : Payload) | status (p : Payload) | attest (p : Payload) | ctxSet (p : Payload) (t : CtxTable) | streamWrite (p : Payload) | invalidate (p : Payload)
  | preempt (p : Payload) | coreSave (p : Payload) | coreRestore (p : Payload) | gapAnswer (p : Payload) | keyLoad (p : Payload) | keyRetire (p : Payload) | partitionSet (p : Payload)
  | grantSetHost (p : Payload) | grantSetInbound (p : Payload) | grantSetRoute (p : Payload) | grantSetRank (p : Payload) | debugWrite (p : Payload) (r : DebugReg) | debugRead (p : Payload) (r : DebugSrc)
  | stop (p : Payload) | step (p : Payload) | resume (p : Payload) | unknownCommand (opcode : Nat) (p : Payload)
  -- errors
  | uncorrectableError (e : ErrorSite)
  deriving DecidableEq, Repr, Inhabited

end Sys2Proof
end

