-- ==== Sys2Proof/Machine/Num.lean ====
section
/-! DEFINITION. Integer arithmetic on operands of n bits: wrapping, saturation, division, comparison, bit fields (R67, R68, R89 to R95). -/

namespace Sys2Proof.Machine

/-- The width of an integer type; the entry's default is passed for TYPE 0. -/
def tyBits (dflt : Nat) (t : Ty) : Nat :=
  match t with
  | .dflt => dflt
  | .i8 | .n8 => 8
  | .i16 | .n16 | .f16 | .bf16 => 16
  | .i32 | .n32 | .f32 => 32
  | .i64 | .n64 | .f64 => 64
  | .fq => 8

/-- Whether a type is signed; TYPE 0 is an `.i` type in every integer entry. -/
def tySigned (t : Ty) : Bool :=
  match t with
  | .n8 | .n16 | .n32 | .n64 => false
  | _ => true

/-- R89: Int of the low n bits. -/
def toInt (sg : Bool) (n : Nat) (x : Nat) : Int := if sg then sint n x else uint n x

/-- R9: SatS and SatU, as the n bits of the result. -/
def satN (sg : Bool) (n : Nat) (e : Int) : Nat :=
  let lo : Int := if sg then -(2 ^ (n - 1) : Nat) else 0
  let hi : Int := if sg then (2 ^ (n - 1) : Nat) - 1 else (2 ^ n : Nat) - 1
  truncN n (if e < lo then lo else if hi < e then hi else e)

/-- R67: an exact result wrapped, or saturated under `.sat`. -/
def fitN (sat sg : Bool) (n : Nat) (e : Int) : Nat := if sat then satN sg n e else truncN n e

/-- R89: Ext64 of an n-bit result. -/
def ext64 (sg : Bool) (n : Nat) (r : Nat) : Word := if sg then sext64 n r else zext64 n r

/-- R142: an n-bit result narrower than 32 bits extended to 32. -/
def ext32 (sg : Bool) (n : Nat) (r : Nat) : Nat := if n < 32 then (if sg then truncN 32 (sint n r) else r % 2 ^ n) else r

/-- R68: quotient and remainder exactly, and whether the divisor is zero. -/
def divRem (sg : Bool) (n : Nat) (x y : Int) : Int × Int × Bool :=
  if y = 0 then (0, x, true)
  else if sg && decide (x = -(2 ^ (n - 1) : Nat)) && decide (y = -1) then (x, 0, false)
  else (x.tdiv y, x.tmod y, false)

/-- R95: the integer conditions, FN 0 to 5: eq ne lt le gt ge. -/
def intCond (fn : Nat) (x y : Int) : Bool :=
  match fn with
  | 0 => decide (x = y)
  | 1 => decide (x ≠ y)
  | 2 => decide (x < y)
  | 3 => decide (x ≤ y)
  | 4 => decide (y < x)
  | _ => decide (y ≤ x)

/-- The bitwise and shift operations of R91 and R147. -/
inductive BitOp where
  | and | or | xor | andn | shl | shr | sar | rot
  deriving DecidableEq, Repr, Inhabited

/-- R91: a bitwise operation, or a shift by k below n, on n bits. -/
def bitOp (o : BitOp) (n a b : Nat) : Nat :=
  let k := b % n
  match o with
  | .and => a &&& b
  | .or => a ||| b
  | .xor => a ^^^ b
  | .andn => a &&& (2 ^ n - 1 - b)
  | .shl => a * 2 ^ k % 2 ^ n
  | .shr => a / 2 ^ k
  | .sar => truncN n (sint n a / (2 ^ k : Nat))
  | .rot => (a * 2 ^ k % 2 ^ n) ||| (if k = 0 then 0 else a / 2 ^ (n - k))

/-- The two-source integer operations of R90 and R145. -/
inductive IntOp where
  | add | sub | mul | mulh | min | max
  deriving DecidableEq, Repr, Inhabited

/-- R90: the exact result of a two-source integer operation. -/
def intOp (o : IntOp) (n : Nat) (x y : Int) : Int :=
  match o with
  | .add => x + y
  | .sub => x - y
  | .mul => x * y
  | .mulh => x * y / (2 ^ n : Nat)
  | .min => if x ≤ y then x else y
  | .max => if x ≤ y then y else x

/-- R94: bits pos to pos+w−1 of a value of n bits, bit pos as bit 0, bits above reading as zero. -/
def bitField (n x pos w : Nat) : Nat := x % 2 ^ n / 2 ^ pos % 2 ^ w

/-- R94: the low w bits of x put at pos of d, n bits wide. -/
def bitInsert (n d x pos w : Nat) : Nat :=
  let m := (2 ^ w - 1) * 2 ^ pos % 2 ^ n
  (d &&& (2 ^ n - 1 - m)) ||| (x % 2 ^ w * 2 ^ pos % 2 ^ n)

end Sys2Proof.Machine
end

