-- ==== Sys2Proof/Machine/Float.lean ====
section
/-! DEFINITION. Floating point: the four formats, exact values, the one rounding, arithmetic, comparison, conversion and the narrow formats (R69 to R81). -/

namespace Sys2Proof.Machine

/-- R69: a binary format by its exponent and fraction bits. -/
structure FFmt where
  eb : Nat
  fb : Nat
  deriving DecidableEq, Repr, Inhabited

/-- R69: the format of a float type; TYPE 0 takes the entry's default. -/
def fmtOf (dflt : Ty) (t : Ty) : FFmt :=
  match (if t = .dflt then dflt else t) with
  | .f16 => ⟨5, 10⟩
  | .bf16 => ⟨8, 7⟩
  | .f64 => ⟨11, 52⟩
  | _ => ⟨8, 23⟩

/-- Width in bits. -/
def FFmt.width (f : FFmt) : Nat := 1 + f.eb + f.fb
/-- R69: exponent bias. -/
def FFmt.bias (f : FFmt) : Int := (2 ^ (f.eb - 1) : Nat) - 1
/-- Exponent of the unit of subnormal values. -/
def FFmt.emin (f : FFmt) : Int := 1 - f.bias - f.fb
/-- R69: the canonical NaN. -/
def FFmt.nan (f : FFmt) : Nat := (2 ^ f.eb - 1) * 2 ^ f.fb + 2 ^ (f.fb - 1)
/-- An infinity. -/
def FFmt.inf (f : FFmt) (neg : Bool) : Nat := ofBool neg * 2 ^ (f.eb + f.fb) + (2 ^ f.eb - 1) * 2 ^ f.fb
/-- A zero. -/
def FFmt.zero (f : FFmt) (neg : Bool) : Nat := ofBool neg * 2 ^ (f.eb + f.fb)
/-- The largest finite value. -/
def FFmt.maxFin (f : FFmt) (neg : Bool) : Nat := f.inf neg - 1

/-- A floating-point datum: a NaN, signalling or quiet, an infinity, or ±m·2^e exactly. -/
inductive FVal where
  | nan (sig : Bool)
  | inf (neg : Bool)
  | fin (neg : Bool) (m : Nat) (e : Int)
  deriving DecidableEq, Repr, Inhabited

/-- R69, R73: the datum of a bit pattern. -/
def decodeF (f : FFmt) (x : Nat) : FVal :=
  let neg := x.testBit (f.eb + f.fb)
  let e := bits x f.fb f.eb
  let m := bits x 0 f.fb
  if e = 2 ^ f.eb - 1 then (if m = 0 then .inf neg else .nan (!m.testBit (f.fb - 1)))
  else if e = 0 then .fin neg m f.emin
  else .fin neg (m + 2 ^ f.fb) (f.emin + e - 1)

/-- R69: whether a pattern is subnormal. -/
def isSub (f : FFmt) (x : Nat) : Bool := decide (bits x f.fb f.eb = 0) && decide (bits x 0 f.fb ≠ 0)

/-- R72: an input under MODE.FTZ. -/
def flushIn (f : FFmt) (ftz : Bool) (x : Nat) : Nat := if ftz && isSub f x then f.zero (x.testBit (f.eb + f.fb)) else x

/-- An input read under MODE.FTZ. -/
def readF (f : FFmt) (ftz : Bool) (x : Nat) : FVal := decodeF f (flushIn f ftz x)

/-- R32: the rounding modes by their codes: 0 NE, 1 TZ, 2 UP, 3 DN. -/
def rndMode (rm : Nat) (r : Rnd) : Nat :=
  match r with
  | .mode => rm
  | .ne => 0
  | .tz => 1
  | .up => 2
  | .dn => 3

/-- The number of bits of a natural number. -/
def bitLen (m : Nat) : Nat := if m = 0 then 0 else m.log2 + 1

/-- R70: whether a magnitude q with remainder r of 2^k below it (and more below that where sticky) rounds away. -/
def roundUp (mode : Nat) (neg : Bool) (q r k : Nat) (sticky : Bool) : Bool :=
  let inexact := decide (r ≠ 0) || sticky
  match mode with
  | 0 => let h := 2 * r
         decide (2 ^ k < h) || (decide (h = 2 ^ k) && (sticky || decide (q % 2 = 1)))
  | 1 => false
  | 2 => !neg && inexact
  | _ => neg && inexact

/-- m·2^e (and more below where sticky) rounded to p bits, with units no finer than 2^emin where one is given: the magnitude, its unit, inexact. -/
def roundMag (p : Nat) (emin : Option Int) (mode : Nat) (neg : Bool) (m : Nat) (e : Int) (sticky : Bool) : Nat × Int × Bool :=
  let u0 := e + (bitLen m : Int) - p
  let u := match emin with
    | some b => if u0 < b then b else u0
    | none => u0
  if u ≤ e then (m * 2 ^ (e - u).toNat, u, sticky)
  else
    let k := (u - e).toNat
    let q := m / 2 ^ k
    let r := m % 2 ^ k
    (if roundUp mode neg q r k sticky then q + 1 else q, u, decide (r ≠ 0) || sticky)

/-- Whether q·2^u is below 2^k. -/
def below2 (q : Nat) (u : Int) (k : Int) : Bool := decide (q = 0) || decide ((bitLen q : Int) + u ≤ k)

/-- The bits of q·2^u, known to fit the format exactly. -/
def encodeF (f : FFmt) (neg : Bool) (q : Nat) (u : Int) : Nat :=
  let s := ofBool neg * 2 ^ (f.eb + f.fb)
  if q < 2 ^ f.fb then s + q
  else
    let (q, u) := if q = 2 ^ (f.fb + 1) then (2 ^ f.fb, u + 1) else (q, u)
    s + (u - f.emin + 1).toNat * 2 ^ f.fb + (q - 2 ^ f.fb)

/-- R71: what an overflow delivers. -/
def overflowF (f : FFmt) (mode : Nat) (neg : Bool) : Nat :=
  match mode with
  | 0 => f.inf neg
  | 1 => f.maxFin neg
  | 2 => if neg then f.maxFin true else f.inf false
  | _ => if neg then f.inf true else f.maxFin false

/-- R70 to R72: a nonzero magnitude rounded to a format, with the flags raised. -/
def roundF (f : FFmt) (mode : Nat) (ftz neg : Bool) (m : Nat) (e : Int) (sticky : Bool) : Nat × Nat :=
  let (qu, uu, _) := roundMag (f.fb + 1) none mode neg m e sticky
  let tiny := below2 qu uu (1 - f.bias)
  let (q, u, nx) := roundMag (f.fb + 1) (some f.emin) mode neg m e sticky
  if !(below2 q u (f.bias + 1)) then (overflowF f mode neg, flagOF ||| flagNX)
  else if tiny && ftz then (f.zero neg, flagUF ||| flagNX)
  else (encodeF f neg q u, flagIf nx flagNX ||| flagIf (tiny && nx) flagUF)

/-- R70: the sign of an exact zero that no operand fixes. -/
def zeroSign (mode : Nat) : Bool := decide (mode = 3)

/-- An exact sum of signed dyadics: its mantissa and exponent. -/
def sumExact (a b : Int × Int) : Int × Int :=
  let e := if a.2 ≤ b.2 then a.2 else b.2
  (a.1 * 2 ^ (a.2 - e).toNat + b.1 * 2 ^ (b.2 - e).toNat, e)

/-- A signed mantissa. -/
def signed (neg : Bool) (m : Nat) : Int := if neg then -(m : Int) else m

/-- R73: FLAGS.NV of a signalling NaN among the inputs. -/
def sigFlag (l : List FVal) : Nat := flagIf (l.any (fun v => v = .nan true)) flagNV

/-- Whether a datum is a NaN. -/
def FVal.isNan (v : FVal) : Bool := match v with | .nan _ => true | _ => false

/-- R98: a datum with its sign flipped; a NaN stays a NaN. -/
def FVal.negIf (v : FVal) (b : Bool) : FVal :=
  match v with
  | .nan s => .nan s
  | .inf n => .inf (n != b)
  | .fin n m e => .fin (n != b) m e

/-- R70, R73: a sum. -/
def addF (f : FFmt) (mode : Nat) (ftz : Bool) (a b : FVal) : Nat × Nat :=
  match a, b with
  | .nan _, _ | _, .nan _ => (f.nan, sigFlag [a, b])
  | .inf x, .inf y => if x = y then (f.inf x, 0) else (f.nan, flagNV)
  | .inf x, _ => (f.inf x, 0)
  | _, .inf y => (f.inf y, 0)
  | .fin n1 m1 e1, .fin n2 m2 e2 =>
    let (s, e) := sumExact (signed n1 m1, e1) (signed n2 m2, e2)
    if s = 0 then (f.zero (if m1 = 0 ∧ m2 = 0 ∧ n1 = n2 then n1 else zeroSign mode), 0)
    else roundF f mode ftz (decide (s < 0)) s.natAbs e false

/-- R73: the exact product as a datum, with FLAGS.NV of 0 × ∞; NaN inputs stay NaNs. -/
def mulVal (a b : FVal) : FVal × Nat :=
  match a, b with
  | .nan x, .nan y => (.nan (x || y), 0)
  | .nan x, _ => (.nan x, 0)
  | _, .nan y => (.nan y, 0)
  | .inf x, .inf y => (.inf (x != y), 0)
  | .inf x, .fin y m _ => if m = 0 then (.nan false, flagNV) else (.inf (x != y), 0)
  | .fin y m _, .inf x => if m = 0 then (.nan false, flagNV) else (.inf (x != y), 0)
  | .fin n1 m1 e1, .fin n2 m2 e2 => (.fin (n1 != n2) (m1 * m2) (e1 + e2), 0)

/-- R70: a datum rounded to a format; a zero keeps its sign. -/
def deliverF (f : FFmt) (mode : Nat) (ftz : Bool) (v : FVal) : Nat × Nat :=
  match v with
  | .nan _ => (f.nan, sigFlag [v])
  | .inf n => (f.inf n, 0)
  | .fin n m e => if m = 0 then (f.zero n, 0) else roundF f mode ftz n m e false

/-- R70, R73: a product. -/
def mulF (f : FFmt) (mode : Nat) (ftz : Bool) (a b : FVal) : Nat × Nat :=
  let (v, fl) := mulVal a b
  let (r, fl2) := deliverF f mode ftz v
  (r, fl ||| fl2)

/-- R70, R73, R98: a fused multiply-add of (−1)^np·a·b and (−1)^nc·c. -/
def fmaF (f : FFmt) (mode : Nat) (ftz np nc : Bool) (a b c : FVal) : Nat × Nat :=
  let (p, fl) := mulVal a b
  let (r, fl2) := addF f mode ftz (p.negIf np) (c.negIf nc)
  (r, fl ||| fl2 ||| sigFlag [a, b, c])

/-- R157: 1 ÷ a. -/
def rcpF (f : FFmt) (mode : Nat) (ftz : Bool) (a : FVal) : Nat × Nat :=
  match a with
  | .nan _ => (f.nan, sigFlag [a])
  | .inf n => (f.zero n, 0)
  | .fin n m e =>
    if m = 0 then (f.inf n, flagDZ)
    else
      let k := bitLen m + f.fb + 4
      roundF f mode ftz n (2 ^ k / m) (-(k : Int) - e) (decide (2 ^ k % m ≠ 0))

/-- The integer square root, by halving intervals; `n` bounds the bits of the root. -/
def isqrt (x : Nat) : Nat → Nat → Nat
  | 0, r => r
  | n + 1, r => if (r + 2 ^ n) * (r + 2 ^ n) ≤ x then isqrt x n (r + 2 ^ n) else isqrt x n r

/-- R157: √a. -/
def sqrtF (f : FFmt) (mode : Nat) (ftz : Bool) (a : FVal) : Nat × Nat :=
  match a with
  | .nan _ => (f.nan, sigFlag [a])
  | .inf n => if n then (f.nan, flagNV) else (f.inf false, 0)
  | .fin n m e =>
    if m = 0 then (f.zero n, 0)
    else if n then (f.nan, flagNV)
    else
      let k := 2 * (f.fb + 4) + (if (e - (2 * (f.fb + 4) : Nat)) % 2 = 0 then 0 else 1)
      let x := m * 2 ^ k
      let r := isqrt x (bitLen x / 2 + 1) 0
      roundF f mode ftz false r ((e - k) / 2) (decide (r * r ≠ x))

/-- The order of two data that are no NaNs, −0 equal to +0. -/
def cmpF (a b : FVal) : Ordering :=
  match a, b with
  | .inf x, .inf y => if x = y then .eq else if x then .lt else .gt
  | .inf x, _ => if x then .lt else .gt
  | _, .inf y => if y then .gt else .lt
  | .fin n1 m1 e1, .fin n2 m2 e2 =>
    let d := (sumExact (signed n1 m1, e1) (signed (!n2) m2, e2)).1
    if d < 0 then .lt else if d = 0 then .eq else .gt
  | _, _ => .eq

/-- R99: a float condition and the flags it raises. -/
def condF (fn : Nat) (a b : FVal) : Bool × Nat :=
  let un := a.isNan || b.isNan
  let sig := sigFlag [a, b]
  let o := cmpF a b
  match fn with
  | 0 => (!un && decide (o = .eq), sig)
  | 1 => (un || decide (o ≠ .eq), sig)
  | 2 => (!un && decide (o = .lt), sig ||| flagIf un flagNV)
  | 3 => (!un && decide (o ≠ .gt), sig ||| flagIf un flagNV)
  | 4 => (!un && decide (o = .gt), sig ||| flagIf un flagNV)
  | 5 => (!un && decide (o ≠ .lt), sig ||| flagIf un flagNV)
  | _ => (un, sig)

/-- The order key of R155: −0 below +0. -/
def orderKey (f : FFmt) (x : Nat) : Int := if x.testBit (f.eb + f.fb) then -(bits x 0 (f.eb + f.fb) : Int) - 1 else bits x 0 (f.eb + f.fb)

/-- R155: the lesser, or the greater, of two patterns, FN 1 preferring a number to a NaN. -/
def minMaxF (f : FFmt) (mx num ftz : Bool) (x y : Nat) : Nat × Nat :=
  let a := decodeF f x
  let b := decodeF f y
  let sig := sigFlag [a, b]
  let pick (z : Nat) : Nat × Nat := if ftz && isSub f z then (f.zero (z.testBit (f.eb + f.fb)), sig ||| flagUF ||| flagNX) else (z, sig)
  if a.isNan || b.isNan then
    if num && !(a.isNan && b.isNan) then pick (if a.isNan then y else x) else (f.nan, sig)
  else if orderKey f x ≤ orderKey f y then pick (if mx then y else x) else pick (if mx then x else y)

/-- R160: the class of a pattern, one bit. -/
def classF (f : FFmt) (x : Nat) : Nat :=
  let k := match decodeF f x with
    | .nan true => 0
    | .nan false => 1
    | .inf true => 2
    | .inf false => 9
    | .fin neg m _ => if m = 0 then (if neg then 5 else 6) else if isSub f x then (if neg then 4 else 7) else (if neg then 3 else 8)
  2 ^ k

/-- R80: ±m·2^e rounded to an integer, and whether it was inexact. -/
def roundInt (mode : Nat) (neg : Bool) (m : Nat) (e : Int) : Int × Bool :=
  if 0 ≤ e then (signed neg (m * 2 ^ e.toNat), false)
  else
    let k := (-e).toNat
    let q := m / 2 ^ k
    let r := m % 2 ^ k
    (signed neg (if roundUp mode neg q r k false then q + 1 else q), decide (r ≠ 0))

/-- R80: a datum to an n-bit integer. -/
def floatToInt (mode : Nat) (sg : Bool) (n : Nat) (v : FVal) : Nat × Nat :=
  let lo : Int := if sg then -(2 ^ (n - 1) : Nat) else 0
  let hi : Int := if sg then (2 ^ (n - 1) : Nat) - 1 else (2 ^ n : Nat) - 1
  match v with
  | .nan _ => (0, flagNV)
  | .inf neg => (truncN n (if neg then lo else hi), flagNV)
  | .fin neg m e =>
    let (i, nx) := roundInt mode neg m e
    if i < lo then (truncN n lo, flagNV) else if hi < i then (truncN n hi, flagNV) else (truncN n i, flagIf nx flagNX)

/-- R75: a format register's fields. -/
structure NFmt where
  m : Nat
  e : Nat
  s : Bool
  bias : Int
  spc : Nat
  ovf : Nat
  blk : Nat
  scf : Bool
  rsv : Nat
  deriving DecidableEq, Repr, Inhabited

/-- R75: the fields of a format register's value. -/
def nfmtOf (w : Word) : NFmt :=
  let x := w.toNat
  { m := bits x 0 4, e := bits x 4 3, s := bitAt x 7, bias := sint 8 (bits x 8 8), spc := bits x 16 2, ovf := bits x 18 2, blk := bits x 20 3, scf := bitAt x 23, rsv := bits x 24 40 }

/-- R77: the width of a code. -/
def NFmt.width (f : NFmt) : Nat := ofBool f.s + f.e + f.m

/-- R76: a valid format register value. -/
def NFmt.valid (f : NFmt) : Bool :=
  decide (1 ≤ f.width) && decide (f.width ≤ 8) && decide (f.rsv = 0) && decide (f.blk ≤ 4) && decide (f.ovf ≤ 1) && decide (f.spc ≤ 2) && decide (f.m ≤ 8)
    && (decide (f.e ≠ 0) || (decide (f.spc = 0) && decide (f.ovf = 0))) && (decide (f.spc ≠ 1) || decide (1 ≤ f.e)) && (decide (f.spc ≠ 2) || decide (1 ≤ f.e + f.m))

/-- R77: the container of a code, in bits. -/
def NFmt.container (f : NFmt) : Nat := if f.width ≤ 1 then 1 else if f.width ≤ 2 then 2 else if f.width ≤ 4 then 4 else 8

/-- R78: the datum of a code. -/
def decodeN (f : NFmt) (x : Nat) : FVal :=
  let neg := f.s && x.testBit (f.width - 1)
  if f.e = 0 then
    let k : Int := if f.s then sint f.width x else uint f.width x
    .fin (decide (k < 0)) k.natAbs (-f.bias)
  else
    let e := bits x f.m f.e
    let m := bits x 0 f.m
    if f.spc = 1 ∧ e = 2 ^ f.e - 1 then (if m = 0 then .inf neg else .nan false)
    else if f.spc = 2 ∧ e = 2 ^ f.e - 1 ∧ m = 2 ^ f.m - 1 then .nan false
    else if e = 0 then .fin neg m (1 - f.bias - f.m)
    else .fin neg (m + 2 ^ f.m) (e - f.bias - f.m)

/-- R78: whether a format has a NaN. -/
def NFmt.hasNan (f : NFmt) : Bool := decide (f.e ≠ 0) && (decide (f.spc = 2) || (decide (f.spc = 1) && decide (1 ≤ f.m)))

/-- R78: the canonical narrow NaN. -/
def NFmt.nan (f : NFmt) : Nat := if f.spc = 2 then 2 ^ (f.e + f.m) - 1 else (2 ^ f.e - 1) * 2 ^ f.m + 2 ^ (f.m - 1)

/-- R78: the code of the largest finite magnitude of a floating narrow format. -/
def NFmt.maxCode (f : NFmt) : Nat :=
  if f.spc = 1 then (2 ^ f.e - 1) * 2 ^ f.m - 1 else if f.spc = 2 then 2 ^ (f.e + f.m) - 2 else 2 ^ (f.e + f.m) - 1

/-- R81 steps 4 and 5: a finite magnitude to a floating narrow format. -/
def roundN (f : NFmt) (mode : Nat) (neg : Bool) (m : Nat) (e : Int) : Nat × Nat :=
  let sg := ofBool (f.s && neg) * 2 ^ (f.e + f.m)
  let (q0, u0, nx) := roundMag (f.m + 1) (some (1 - f.bias - f.m)) mode neg m e false
  let (q, u) := if q0 = 2 ^ (f.m + 1) then (2 ^ f.m, u0 + 1) else (q0, u0)
  let code : Nat := if q < 2 ^ f.m then q else (u + f.bias + f.m).toNat * 2 ^ f.m + (q - 2 ^ f.m)
  if code ≤ f.maxCode then (sg + code, flagIf nx flagNX)
  else
    let big := sg + f.maxCode
    (if f.ovf = 0 then big else if f.spc = 1 then sg + (2 ^ f.e - 1) * 2 ^ f.m else if f.spc = 2 then f.nan else big, flagOF ||| flagNX)

/-- R81: a datum to a narrow format. -/
def toNarrow (f : NFmt) (mode : Nat) (v : FVal) : Nat × Nat :=
  let hi : Int := if f.s then (2 ^ (f.width - 1) : Nat) - 1 else (2 ^ f.width : Nat) - 1
  let lo : Int := if f.s then -(2 ^ (f.width - 1) : Nat) else 0
  match v with
  | .nan sig => if f.hasNan then (f.nan, flagIf sig flagNV) else (0, flagNV)
  | .inf neg =>
    if neg && !f.s then (0, flagNV)
    else if f.e = 0 then (truncN f.width (if neg then lo else hi), flagOF ||| flagNX)
    else
      let sg := ofBool (f.s && neg) * 2 ^ (f.e + f.m)
      (if f.ovf = 0 then sg + f.maxCode else if f.spc = 1 then sg + (2 ^ f.e - 1) * 2 ^ f.m else if f.spc = 2 then f.nan else sg + f.maxCode, 0)
  | .fin neg m e =>
    if m = 0 then (if f.e ≠ 0 ∧ f.s ∧ neg then 2 ^ (f.e + f.m) else 0, 0)
    else if neg && !f.s then (0, flagNV)
    else if f.e = 0 then
      let (k, nx) := roundInt mode neg m (e + f.bias)
      if k < lo then (truncN f.width lo, flagOF ||| flagNX) else if hi < k then (truncN f.width hi, flagOF ||| flagNX) else (truncN f.width k, flagIf nx flagNX)
    else roundN f mode neg m e

/-- Whether a type is a float type of R69. -/
def isFloatTy (t : Ty) : Bool := match t with | .f16 | .bf16 | .f32 | .f64 => true | _ => false

/-- R80, R81: a conversion of a source of type `st` to type `dt`: result bits and flags. Narrow formats are given where the types name them. -/
def convert (st dt : Ty) (sf df : NFmt) (mode : Nat) (ftz sat : Bool) (x : Nat) : Nat × Nat :=
  let ns := tyBits 64 st
  let nd := tyBits 64 dt
  if isFloatTy st || decide (st = .fq) then
    let v := if st = .fq then decodeN sf (x % 2 ^ sf.width) else readF (fmtOf .f32 st) ftz (x % 2 ^ ns)
    if dt = .fq then toNarrow df mode v
    else if isFloatTy dt then deliverF (fmtOf .f32 dt) mode ftz v
    else floatToInt mode (tySigned dt) nd v
  else
    let i := toInt (tySigned st) ns x
    if dt = .fq then toNarrow df mode (.fin (decide (i < 0)) i.natAbs 0)
    else if isFloatTy dt then
      (if i = 0 then (0, 0) else roundF (fmtOf .f32 dt) mode ftz (decide (i < 0)) i.natAbs 0 false)
    else (fitN sat (tySigned dt) nd i, 0)

end Sys2Proof.Machine
end

