-- ==== Sys2Proof/Machine/OpSpec.lean ====
section
/-! DEFINITION. What each instruction accepts: its slots, its operand classes (R58), its types, functions and modifiers, as its own entry states them; and the tests of R64 over them. -/

namespace Sys2Proof

/-- Whether an operand of the type is 64 bits wide. -/
def Ty.is64 : Ty → Bool
  | .i64 | .n64 | .f64 => true
  | _ => false

end Sys2Proof

namespace Sys2Proof.Machine

/-- R60: the bundle slots. -/
inductive Slot where
  | ln | sc | mx | cp | xq
  deriving DecidableEq, Repr, Inhabited

/-- Where a word is decoded: the slot (none in SIMT mode), the vector allocation, and whether the rules of width-16 code apply (R465, R467). -/
structure DecEnv where
  slot : Option Slot := none
  alloc : Nat := 256
  w16 : Bool := false
  deriving DecidableEq, Repr, Inhabited

/-- R58: operand classes, with the narrower ranges that entries give. -/
inductive Cls where
  | zero            -- an unused field
  | idx0            -- 110 only: no index is taken
  | vec             -- one vector register
  | vec2            -- an even register and the next
  | ssrc            -- scalar source
  | sdst            -- scalar destination
  | sreg            -- s0 to s95 only
  | spair           -- s0 to s94
  | sgrp            -- s0, s4, ... s88
  | strd            -- an even s0 to s90, or 255
  | pred            -- 0 to 7
  | lim (n : Nat)   -- below n
  | tok             -- a token
  | recd            -- a tensor record
  | ctl             -- a control field: its bits are tested by the entry
  deriving DecidableEq, Repr, Inhabited

/-- What one instruction accepts. -/
structure OpSpec where
  simt : Bool := true
  slots : List Slot := []
  guard : Bool := false
  d : Cls := .zero
  a : Cls := .zero
  b : Cls := .zero
  c : Cls := .zero
  dSrc : Bool := false
  tys : List Ty := [.dflt]
  fns : List Nat := [0]
  sat : Bool := false
  x2 : Bool := false
  rnd : Bool := false
  lit : Bool := false
  deriving DecidableEq, Repr, Inhabited

/-- R67: the eight integer types with the entry's default. -/
def intTys : List Ty := [.dflt, .i8, .i16, .i32, .i64, .n8, .n16, .n32, .n64]
/-- R67: the signed ones. -/
def sintTys : List Ty := [.dflt, .i8, .i16, .i32, .i64]
/-- R69: the four IEEE types with the entry's default. -/
def floatTys : List Ty := [.dflt, .f16, .bf16, .f32, .f64]
/-- R158: the types of the approximate forms. -/
def approxTys : List Ty := [.dflt, .f16, .bf16, .f32]
/-- R100: every type but the default. -/
def cvtTys : List Ty := [.i8, .i16, .i32, .i64, .n8, .n16, .n32, .n64, .f16, .bf16, .f32, .f64, .fq]
/-- R166 and others: 32 bits, or pairs. -/
def wordTys : List Ty := [.dflt, .i64, .n64]

/-- The vector class at a type's width (R142). -/
def vecAt (t : Ty) : Cls := if t.is64 then .vec2 else .vec

/-- R54 C, R51 C: SGN, WID, SCOPE and ORD of field C. -/
def cSgn (c : Nat) : Bool := bitAt c 7
def cWid (c : Nat) : Nat := bits c 5 2
def cScope (c : Nat) : Nat := bits c 2 3
def cOrd (c : Nat) : Nat := bits c 0 2

/-- A two-source scalar form of group 0 (R90, R91). -/
def sBin (tys : List Ty) (sat : Bool) : OpSpec :=
  { slots := [.sc], d := .sdst, a := .ssrc, b := .ssrc, tys := tys, sat := sat, lit := true }
/-- A one-source scalar form (R92). -/
def sOne (tys : List Ty) (sat : Bool) : OpSpec := { slots := [.sc], d := .sdst, a := .ssrc, tys := tys, sat := sat }
/-- A two-source vector form (R145, R147, R154). -/
def vBin (t : Ty) (tys : List Ty) (sat x2 rnd : Bool) : OpSpec :=
  { slots := [.ln], guard := true, d := vecAt t, a := vecAt t, b := vecAt t, tys := tys, sat := sat, x2 := x2, rnd := rnd, lit := true }
/-- A one-source vector form (R148, R157, R158). -/
def vOne (t : Ty) (tys : List Ty) (sat x2 rnd : Bool) : OpSpec :=
  { slots := [.ln], guard := true, d := vecAt t, a := vecAt t, tys := tys, sat := sat, x2 := x2, rnd := rnd }
/-- A lane operation (R165). -/
def laneOp (d a b : Cls) (tys : List Ty) (fns : List Nat) (lit : Bool) : OpSpec := { d := d, a := a, b := b, c := .ssrc, tys := tys, fns := fns, lit := lit }
/-- A flat scalar MEM form of SIMT mode (R111, R280 to R282). -/
def memFlat (d : Cls) (dSrc : Bool) : OpSpec := { d := d, a := .ssrc, b := .ssrc, dSrc := dSrc, lit := true }
/-- A form of group 6 for the `cp` slot. -/
def enCp (a b c : Cls) : OpSpec := { slots := [.cp], a := a, b := b, c := c }
/-- A form of group 6 for the `mx` slot. -/
def enMx (a b c : Cls) : OpSpec := { slots := [.mx], a := a, b := b, c := c }

/-- R163: the classes of `pmov` by FN. -/
def pmovSpec (fn : Nat) : OpSpec :=
  let s : OpSpec := { slots := [.ln], guard := true, fns := [0, 1, 2] }
  match fn with
  | 0 => { s with d := .vec, a := .pred }
  | 1 => { s with d := .pred, a := .vec }
  | _ => { s with d := .pred, a := .ssrc }

/-- R46, R162: the classes of `plog` by FN; a predicate is no source that a literal can stand for (log 17, DEDUCED). -/
def plogSpec (fn : Nat) : OpSpec :=
  let s : OpSpec := { slots := [.ln], guard := true, d := .pred, fns := [0, 1, 2, 3, 4, 5, 6] }
  if fn < 4 then { s with a := .pred, b := .pred } else if fn = 4 then { s with a := .pred } else s

/-- R170: FN and types of `vred` and `vscan`; explicit rounding is a float add's (log 15, DEDUCED). -/
def redSpec (ty : Ty) (fn : Nat) : List Ty × Bool × Bool :=
  (if fn ≤ 2 then intTys ++ [.f16, .bf16, .f32, .f64] else intTys,
   decide (fn = 0) && !(ty ∈ [Ty.f16, .bf16, .f32, .f64]),
   decide (fn = 0) && decide (ty ∈ [Ty.f16, .bf16, .f32, .f64]))

/-- The class of B of `mma` by ASRC (R324). -/
def mmaB (a : Nat) : Cls := match bits a 6 2 with
  | 0 => .recd
  | 1 => .vec
  | 2 => .lim 4
  | _ => .zero

/-- The width class of a MEM data register in a vector form. -/
def memVec (c : Nat) : Cls := if cWid c = 3 then .vec2 else .vec

/-- R272, R273: the data registers of `vatom`: pairs at 64 bits, but not for `.cas`, which has no such width. -/
def atmVec (f : ATM) : Cls := if f.atop = 1 then .vec else memVec f.c

/-- What an instruction accepts, as its entry states; a step that is no instruction accepts nothing. A literal stands in `trap` too, as R114 says (log 17, DEDUCED; log 110, DEDUCED). -/
def specOf (slot : Option Slot) (i : Instr) : OpSpec :=
  match i with
  | .sadd _ | .ssub _ | .smul _ => sBin intTys true
  | .smulh _ | .sdiv _ | .srem _ | .smin _ | .smax _ | .sand _ | .sor _ | .sxor _ | .sandn _ | .sshl _ | .sshr _ | .ssar _ | .srot _ => sBin intTys false
  | .sabs _ => sOne sintTys true
  | .sclz _ | .spopc _ | .smov _ => sOne intTys false
  | .sext _ => sBin [.dflt, .i64, .n64] false
  | .sbfx _ => { sBin [.dflt, .i64, .n64] false with c := .ssrc }
  | .sbfi _ => { sBin [.dflt] false with d := .sreg, c := .ssrc }
  | .scmp _ => { sBin intTys false with fns := [0, 1, 2, 3, 4, 5] }
  | .ssel _ => { sBin [.dflt] false with c := .ssrc }
  | .sli _ => { slots := [.sc], d := .sdst, lit := true }
  | .sfadd _ => { sBin floatTys false with fns := [0, 1], rnd := true }
  | .sfmul _ => { sBin floatTys false with rnd := true }
  | .sffma _ => { sBin floatTys false with c := .ssrc, fns := [0, 1, 2, 3], rnd := true }
  | .sfcmp _ => { sBin floatTys false with fns := [0, 1, 2, 3, 4, 5, 6] }
  | .sfcvt f => { slots := [.sc], d := .sdst, a := .ssrc, tys := cvtTys, sat := decide (f.ty ∈ intTys), rnd := true }
  | .jmp _ => { slots := [.sc] }
  | .jc _ => { slots := [.sc], d := .ssrc, dSrc := true }
  | .jmpx f => { d := if f.fn = 1 then .sdst else .zero, a := .ssrc, fns := [0, 1] }
  | .call _ => { d := .sreg }
  | .callx _ => { d := .sreg, a := .ssrc, b := .ssrc, lit := true }
  | .ret _ => { a := .ssrc }
  | .endThread _ => { slots := [.sc] }
  | .nop _ => { slots := [.ln, .sc, .mx, .cp, .xq] }
  | .sld _ => memFlat .sdst false
  | .sst _ => memFlat .ssrc true
  | .sread _ => { slots := [.sc], d := .sdst }
  | .swrite _ => { slots := [.sc], a := .ssrc }
  | .trap _ => { slots := [.sc], lit := true }
  | .tret _ => { slots := [.sc] }
  | .tretPark _ => { slots := [.sc], fns := [1] }
  | .mark _ | .brk _ => { slots := [.sc] }
  | .remap _ => { d := .sdst, a := .ssrc, b := .ssrc, lit := true }
  | .vadd f | .vsub f | .vmul f => vBin f.ty intTys true true false
  | .vmulh f => vBin f.ty intTys false false false
  | .vmin f | .vmax f => vBin f.ty intTys false true false
  | .vmad f => { vBin f.ty intTys true true false with c := vecAt f.ty }
  | .vand f | .vor f | .vxor f | .vandn f => vBin f.ty intTys false false false
  | .vshl f | .vshr f | .vsar f => vBin f.ty intTys false true false
  | .vabs f => vOne f.ty sintTys true true false
  | .vclz f | .vpopc f | .vmov f => vOne f.ty intTys false false false
  | .vbfx f => { vBin f.ty [.dflt, .i32, .n32, .i64, .n64] false false false with b := .vec, c := .vec }
  | .vbfi f => { vBin f.ty [.dflt, .n64] false false false with b := .vec, c := .vec }
  | .vcmp f => { vBin f.ty intTys false false false with d := .pred, fns := [0, 1, 2, 3, 4, 5] }
  | .vsel f => { vBin f.ty wordTys false false false with c := .pred }
  | .vaddc _ => { vBin .dflt [.dflt] false false false with c := .pred, fns := [0, 1] }
  | .vfadd f | .vfsub f | .vfmul f => vBin f.ty floatTys false true true
  | .vffma f => { vBin f.ty floatTys false true true with c := vecAt f.ty, fns := [0, 1, 2, 3] }
  | .vfmin f | .vfmax f => { vBin f.ty floatTys false true false with fns := [0, 1] }
  | .vfcmp f => { vBin f.ty floatTys false false false with d := .pred, fns := [0, 1, 2, 3, 4, 5, 6] }
  | .vrcp f | .vsqrt f => vOne f.ty floatTys false false true
  | .vrsq f | .vexp2 f | .vlog2 f | .vsin f | .vcos f => vOne f.ty approxTys false false false
  | .vfclass f => { vOne f.ty floatTys false false false with d := .vec }
  | .vcvt f => { slots := [.ln], guard := true, d := vecAt f.ty, a := vecAt f.stype, tys := cvtTys, sat := decide (f.ty ∈ intTys), rnd := true }
  | .plog f => plogSpec f.fn
  | .pmov f => pmovSpec f.fn
  | .pcnt _ => { d := .sdst, a := .pred, fns := [0, 1] }
  | .vshf f => laneOp (vecAt f.ty) (vecAt f.ty) .vec wordTys [0] true
  | .vshfi f => laneOp (vecAt f.ty) (vecAt f.ty) .ssrc wordTys [0, 1, 2] true
  | .vbcast f => laneOp (vecAt f.ty) (vecAt f.ty) .ssrc wordTys [0] true
  | .vrfl f => { d := .sdst, a := vecAt f.ty, tys := [.dflt, .i32, .i64, .n64] }
  | .vwlane f => { d := vecAt f.ty, a := .ssrc, b := .ssrc, tys := wordTys, lit := true }
  | .vballot _ => laneOp .sdst .pred .zero [.dflt] [0] false
  | .vvote _ => laneOp .pred .pred .zero [.dflt] [0, 1, 2] false
  | .vred f => let r := redSpec f.ty f.fn
    { laneOp .sdst (vecAt f.ty) .zero r.1 [0, 1, 2, 3, 4, 5] false with sat := r.2.1, rnd := r.2.2 }
  | .vscan f => let r := redSpec f.ty f.fn
    { laneOp (vecAt f.ty) (vecAt f.ty) (.lim 2) r.1 [0, 1, 2, 3, 4, 5] false with sat := r.2.1, rnd := r.2.2 }
  | .brv _ => { d := .pred }
  | .join _ => {}
  | .wend _ => { guard := true }
  | .vunpk _ => { d := .vec, a := .ssrc, b := .idx0 }
  | .vpack _ => { d := .vec, a := .ssrc, b := .idx0, dSrc := true }
  | .vld f => { d := memVec f.c, a := .ssrc, b := .ssrc, guard := true, lit := true }
  | .vst f => { d := memVec f.c, a := .ssrc, b := .ssrc, guard := true, lit := true, dSrc := true }
  | .lds f => if slot = some .sc then { slots := [.ln, .sc], d := .sdst, a := .ssrc, b := .lim 1 }
    else { slots := [.ln, .sc], guard := true, d := memVec f.c, a := if f.b = 1 then .vec else .ssrc, b := .lim 2, lit := true }
  | .sts f => if slot = some .sc then { slots := [.ln, .sc], d := .ssrc, a := .ssrc, b := .lim 1, dSrc := true }
    else { slots := [.ln, .sc], guard := true, d := memVec f.c, a := if f.b = 1 then .vec else .ssrc, b := .lim 2, lit := true, dSrc := true }
  | .stm f => { slots := [.ln], guard := true, d := memVec f.c, a := .lim 16, b := .idx0, dSrc := true }
  | .vlds _ => { d := .lim 16, a := .ssrc, b := .ssrc }
  | .vatom f => { guard := true, d := atmVec f, a := if cSgn f.c then .vec else .vec2, b := atmVec f }
  | .satom f => { slots := [.sc], d := .sdst, a := .ssrc, b := if f.atop = 1 then .spair else .ssrc }
  | .fence _ | .align _ => { slots := [.sc] }
  | .prefetch _ => memFlat (.lim 2) false
  | .discard _ => memFlat .zero false
  | .pin _ | .unpin _ => memFlat .sdst false
  | .waitv _ => { d := .sdst, a := .ssrc, b := .ssrc, c := .ssrc, tys := [.dflt, .n32, .n64], fns := [0, 1, 2, 3] }
  | .trec _ => enCp .ssrc .recd .zero
  | .tcopy _ => enCp .ctl .ssrc .ssrc
  | .kwait _ | .kjoin _ => enCp .zero .zero .zero
  | .gset _ => enCp (.lim 16) .ssrc .zero
  | .garr _ | .gwait _ | .gsync _ => enCp (.lim 16) .zero .zero
  | .yield f => { a := .ctl, b := if bits f.a 0 2 = 1 then .zero else .lim 16, c := .ssrc }
  | .fset _ => enMx (.lim 8) .ssrc .zero
  | .mbld _ => enMx .ctl .recd .ssrc
  | .mma f => enMx .ctl (mmaB f.a) .ssrc
  | .mclr _ => enMx .ctl .zero .zero
  | .mst _ => enMx .ctl .recd .ssrc
  | .mlat _ | .jld _ => enMx .ctl .recd .ssrc
  | .treg _ => enCp .sdst .ssrc .ssrc
  | .tdrop _ => enCp .sdst .ssrc .ctl
  | .tfind _ => enCp .spair .ssrc .ssrc
  | .tmove _ => enCp .sdst .ssrc .ssrc
  | .solicit _ => enCp (.lim 16) .sgrp .ctl
  | .answer _ => { a := .ssrc }
  | .cwait _ => enCp .spair (.lim 16) .zero
  | .post _ => enCp .sdst .ssrc .zero
  | .rnext _ => enCp .spair .zero .zero
  | .qbind f => { a := .lim 8, b := if f.c = 2 then .idx0 else .ssrc, c := .ctl }
  | .creduce _ => { a := .ssrc }
  | .xmodeB f => { slots := if f.fn = 0 then [] else [.sc] }
  | .xmodeBMx _ => { fns := [1] }
  | .xmodeS _ => { simt := false, slots := [.sc], fns := [2] }
  | .xmov f => { simt := false, slots := [.ln], guard := true, d := vecAt f.ty, a := vecAt f.ty, b := .lim 32, tys := wordTys }
  | .xbcast f => { simt := false, slots := [.xq], d := vecAt f.ty, a := vecAt f.ty, b := .lim 32, tys := wordTys }
  | .loop _ => { simt := false, slots := [.sc], d := .strd, a := .ssrc, b := .strd }
  | .lexit _ => { simt := false, slots := [.sc], a := .ssrc }
  | _ => { simt := false }

/-- The fields every format has in common, read off an instruction. -/
structure Fields where
  g : Guard := .none
  lit : Option Word := none
  d : Nat := 0
  a : Nat := 0
  b : Nat := 0
  c : Nat := 0
  last : Bool := false
  first : Bool := false
  sa : Bool := false
  sb : Bool := false
  sc : Bool := false
  ty : Ty := .dflt
  x2 : Bool := false
  rnd : Rnd := .mode
  sat : Bool := false
  fn : Nat := 0
  deriving DecidableEq, Repr, Inhabited

end Sys2Proof.Machine

namespace Sys2Proof

/-- The common fields of format RRR (R48). -/
def RRR.fields (f : RRR) : Machine.Fields :=
  { g := f.g, lit := f.lit, d := f.d, a := f.a, b := f.b, c := f.c, last := f.last, first := f.first, sa := f.sa, sb := f.sb, sc := f.sc, ty := f.ty, x2 := f.x2, rnd := f.rnd, sat := f.sat, fn := f.fn }
/-- The common fields of format RI (R49). -/
def RI.fields (f : RI) : Machine.Fields := { lit := f.lit, d := f.d, a := f.a, last := f.last, first := f.first }
/-- The common fields of format CV (R50). -/
def CV.fields (f : CV) : Machine.Fields := { g := f.g, d := f.d, a := f.a, last := f.last, first := f.first, sa := f.sa, ty := f.ty, rnd := f.rnd, sat := f.sat }
/-- The common fields of format MEM (R51). -/
def MEM.fields (f : MEM) : Machine.Fields := { g := f.g, lit := f.lit, d := f.d, a := f.a, b := f.b, last := f.last, first := f.first }
/-- The common fields of format ATM (R52). -/
def ATM.fields (f : ATM) : Machine.Fields := { g := f.g, d := f.d, a := f.a, b := f.b, last := f.last, first := f.first }
/-- The common fields of format BR (R53). -/
def BR.fields (f : BR) : Machine.Fields := { d := f.d }
/-- The common fields of format SR (R54). -/
def SR.fields (f : SR) : Machine.Fields := { d := f.d, a := f.a }
/-- The common fields of format EN (R55). -/
def EN.fields (f : EN) : Machine.Fields := { a := f.a, b := f.b, c := f.c, last := f.last, first := f.first }
/-- The common fields of format LP (R56). -/
def LP.fields (f : LP) : Machine.Fields := { d := f.d, a := f.a, b := f.b }

end Sys2Proof

namespace Sys2Proof.Machine

/-- The common fields of an instruction; a device step has none. -/
def fieldsOf (i : Instr) : Fields :=
  match i with
  | .sadd f | .ssub f | .smul f | .smulh f | .sdiv f | .srem f | .smin f | .smax f | .sand f | .sor f | .sxor f | .sandn f | .sshl f | .sshr f | .ssar f | .srot f
  | .sabs f | .sclz f | .spopc f | .smov f | .sext f | .sbfx f | .sbfi f | .scmp f | .ssel f | .sfadd f | .sfmul f | .sffma f | .sfcmp f
  | .jmpx f | .ret f | .endThread f | .nop f | .tret f | .tretPark f | .remap f
  | .vadd f | .vsub f | .vmul f | .vmulh f | .vmin f | .vmax f | .vmad f | .vand f | .vor f | .vxor f | .vandn f | .vshl f | .vshr f | .vsar f
  | .vabs f | .vclz f | .vpopc f | .vmov f | .vbfx f | .vbfi f | .vcmp f | .vsel f | .vaddc f
  | .vfadd f | .vfsub f | .vfmul f | .vffma f | .vfmin f | .vfmax f | .vfcmp f | .vrcp f | .vsqrt f | .vrsq f | .vexp2 f | .vlog2 f | .vsin f | .vcos f | .vfclass f
  | .plog f | .pmov f | .pcnt f | .vshf f | .vshfi f | .vbcast f | .vrfl f | .vwlane f | .vballot f | .vvote f | .vred f | .vscan f | .join f | .wend f | .waitv f
  | .xmodeB f | .xmodeBMx f | .xmodeS f | .xmov f | .xbcast f | .lexit f => f.fields
  | .sli f | .trap f | .mark f | .brk f => f.fields
  | .sfcvt f | .vcvt f => f.fields
  | .jmp f | .jc f | .call f | .brv f => f.fields
  | .callx f | .sld f | .sst f | .vunpk f | .vpack f | .vld f | .vst f | .lds f | .sts f | .stm f | .vlds f | .fence f | .align f | .prefetch f | .discard f | .pin f | .unpin f => f.fields
  | .vatom f | .satom f => f.fields
  | .sread f | .swrite f => f.fields
  | .trec f | .tcopy f | .kwait f | .kjoin f | .gset f | .garr f | .gwait f | .gsync f | .yield f | .fset f | .mbld f | .mma f | .mclr f | .mst f | .mlat f | .jld f
  | .treg f | .tdrop f | .tfind f | .tmove f | .solicit f | .answer f | .cwait f | .post f | .rnext f | .qbind f | .creduce f => f.fields
  | .loop f => f.fields
  | _ => {}

/-- Whether a class has vector registers, which SA, SB or SC may turn into a scalar operand (R48). -/
def Cls.isVec : Cls → Bool
  | .vec | .vec2 => true
  | _ => false

/-- R58: whether a vector register number is accepted: below the allocation, or a bypass name in a lane word. -/
def vecOk (env : DecEnv) (v : Nat) : Bool :=
  if env.slot.isSome && decide (248 ≤ v) && decide (v ≤ 255) then decide (env.slot = some .ln) else decide (v < env.alloc)

/-- R58, R467: whether a scalar register number is accepted. -/
def sregOk (env : DecEnv) (v : Nat) : Bool := decide (v < if env.w16 then 46 else 96)

/-- R58: whether a value lies in its class. -/
def clsOk (env : DecEnv) (k : Cls) (v : Nat) : Bool :=
  match k with
  | .zero => decide (v = 0)
  | .idx0 => decide (v = 110)
  | .vec => vecOk env v
  | .vec2 => decide (v % 2 = 0) && vecOk env v && vecOk env (v + 1)
  | .ssrc => sregOk env v || (decide (96 ≤ v) && decide (v < 128))
  | .sdst => sregOk env v || (decide (96 ≤ v) && decide (v < 104))
  | .sreg => sregOk env v
  | .spair => sregOk env v && sregOk env (v + 1)
  | .sgrp => decide (v % 4 = 0) && decide (v ≤ 88) && sregOk env (v + 3)
  | .strd => (decide (v % 2 = 0) && decide (v ≤ 90)) || decide (v = 255)
  | .pred => decide (v < 8)
  | .lim n => decide (v < n)
  | .tok => decide (v < if env.w16 then 16 else 32)
  | .recd => decide (v < if env.w16 then 8 else 16)
  | .ctl => decide (v < 256)

/-- A source field whose scalar bit may be set. -/
def srcOk (env : DecEnv) (k : Cls) (s : Bool) (v : Nat) : Bool := if s then clsOk env .ssrc v else clsOk env k v

/-- R46, R51: whether a literal stands for source B; in format MEM it stands for the offset, and B stays the index. -/
def litIsB (i : Instr) : Bool :=
  match i with
  | .callx _ | .sld _ | .sst _ | .vld _ | .vst _ | .lds _ | .sts _ | .prefetch _ | .discard _ | .pin _ | .unpin _ => false
  | _ => (fieldsOf i).lit.isSome

/-- R46: whether the literal, if there is one, is not permitted (log 17, DEDUCED). -/
def litBad (env : DecEnv) (i : Instr) : Bool :=
  let f := fieldsOf i
  let s := specOf env.slot i
  match f.lit with
  | none => false
  | some _ => !s.lit || env.slot.isSome || match i with
    | .sli _ => false
    | .trap f => decide (f.imm ≠ 0)
    | .callx f | .sld f | .sst f | .vld f | .vst f | .lds f | .sts f | .prefetch f | .discard f | .pin f | .unpin f => decide (f.off ≠ 0)
    | _ => decide (f.b ≠ 0) || (s.b.isVec && !f.sb)

/-- R45, R63: whether the guard is not accepted. -/
def guardBad (env : DecEnv) (i : Instr) : Bool :=
  let f := fieldsOf i
  let s := specOf env.slot i
  !(decide (f.g = Guard.none)) && (!s.guard || decide (f.g.p = 7) || !(env.slot.isNone || decide (env.slot = some .ln)))

/-- R51: SGN, WID and the stream field as each MEM or ATM form accepts them, and the reserved SCOPE codes. -/
def memModBad (i : Instr) (slot : Option Slot) : Bool :=
  match i with
  | .callx f => decide (f.c ≠ 96)
  | .sld f => decide (6 ≤ cScope f.c) || (cSgn f.c && decide (cWid f.c = 3))
  | .sst f => decide (6 ≤ cScope f.c) || cSgn f.c
  | .vld f => decide (6 ≤ cScope f.c) || (cSgn f.c && decide (2 ≤ cWid f.c))
  | .vst f => decide (6 ≤ cScope f.c) || cSgn f.c
  | .lds f => decide (6 ≤ cScope f.c) || (cSgn f.c && if slot = some .sc then decide (cWid f.c = 3) else decide (2 ≤ cWid f.c))
  | .sts f => decide (6 ≤ cScope f.c) || cSgn f.c
  | .stm f | .vlds f => decide (6 ≤ cScope f.c) || cSgn f.c
  | .vunpk f | .vpack f => decide (32 ≤ f.c)
  | .fence f => decide (6 ≤ cScope f.c) || cSgn f.c || decide (cWid f.c ≠ 0) || decide (f.off ≠ 0)
  | .align f => decide (6 ≤ cScope f.c) || cSgn f.c || decide (cWid f.c ≠ 0) || decide (f.off ≠ 0)
  | .prefetch f | .discard f | .pin f | .unpin f => decide (6 ≤ cScope f.c) || cSgn f.c || decide (cWid f.c ≠ 0)
  | .vatom f | .satom f => decide (6 ≤ cScope f.c) || decide (12 < f.atop)
  | .tcopy f => decide (32 ≤ f.a)
  | .yield f => decide (3 ≤ f.a)
  | .mbld f => decide (8 ≤ f.a)
  | .mma f => bitAt f.a 3 || decide (bits f.a 6 2 = 3)
  | .mclr f | .mst f => decide (8 ≤ f.a)
  | .mlat f => decide (bits f.a 0 2 ≠ 0) || (bitAt f.a 7 && !bitAt f.a 6)
  | .jld f => decide (16 ≤ f.a)
  | .tdrop f => decide (3 ≤ f.c)
  | .solicit f => decide (64 ≤ f.c) || decide (9 ≤ bits f.c 0 4)
  | .qbind f => decide (3 ≤ f.c)
  | _ => false

/-- R143: the types of a packed form. -/
def x2Ty (t : Ty) : Bool := decide (t ∈ [Ty.i16, .n16, .f16, .bf16])

/-- R109, R110, R183, R203, R277, R395: the forms whose whole M, or all of it above FN, is zero, so that LAST and FIRST are too. -/
def noIter (i : Instr) : Bool :=
  match i with
  | .endThread _ | .nop _ | .tret _ | .tretPark _ | .xmodeB _ | .xmodeBMx _ | .xmodeS _ | .lexit _ | .fence _ | .align _ => true
  | _ => false

/-- R64 step 4: a modifier bit, type, rounding or function code the entry does not accept (REASON 3) (log 6, DEDUCED). -/
def modBad (env : DecEnv) (i : Instr) : Bool :=
  let f := fieldsOf i
  let s := specOf env.slot i
  ((env.slot.isNone || noIter i) && (f.last || f.first)) || (f.sa && !s.a.isVec) || (f.sb && !s.b.isVec) || (f.sc && !s.c.isVec)
  || !(decide (f.ty ∈ s.tys)) || !(decide (f.fn ∈ s.fns)) || (f.sat && !s.sat) || (f.x2 && !(s.x2 && x2Ty f.ty)) || (decide (f.rnd ≠ .mode) && !s.rnd)
  || memModBad i env.slot
  || match i with
    | .sfcvt f | .vcvt f => !(decide (f.stype ∈ cvtTys))
    | .pmov f | .xmov f | .xbcast f => f.sa
    | _ => false

/-- R55, R467: the token fields beyond those used, and their range. -/
def tokBad (env : DecEnv) (f : EN) : Bool :=
  (!f.produce && decide (f.kout ≠ 0)) || (decide (f.ncons < 1) && decide (f.ka ≠ 0)) || (decide (f.ncons < 2) && decide (f.kb ≠ 0)) || (decide (f.ncons < 3) && decide (f.kc ≠ 0))
  || !(clsOk env .tok f.kout && clsOk env .tok f.ka && clsOk env .tok f.kb && clsOk env .tok f.kc)

/-- R64 step 4: an operand value outside its class, a loop body of no word (R56; log 94, DEDUCED), or a nonzero unused operand field (REASON 4). -/
def opndBad (env : DecEnv) (i : Instr) : Bool :=
  let f := fieldsOf i
  let s := specOf env.slot i
  !(clsOk env s.d f.d && srcOk env s.a f.sa f.a && (litIsB i || srcOk env s.b f.sb f.b) && srcOk env s.c f.sc f.c)
  || match i with
    | .sfcvt f | .vcvt f => (decide (f.stype ≠ .fq) && decide (f.sfmt ≠ 0)) || (decide (f.ty ≠ .fq) && decide (f.dfmt ≠ 0))
    | .vatom f => decide (f.atop = 1) && !(vecOk env (f.b + 1))
    | .tcopy f => (env.w16 && decide (8 ≤ f.a % 16)) || tokBad env f
    | .loop f => decide (f.len = 0)
    | .mma f => (decide (bits f.a 6 2 = 1) && !(decide (f.b + 15 < env.alloc) && decide (f.b + 15 < 256))) || tokBad env f
    | .trec f | .kwait f | .kjoin f | .gset f | .garr f | .gwait f | .gsync f | .yield f | .fset f | .mbld f | .mclr f | .mst f | .mlat f | .jld f
    | .treg f | .tdrop f | .tfind f | .tmove f | .solicit f | .answer f | .cwait f | .post f | .rnext f | .qbind f | .creduce f => tokBad env f
    | _ => false

/-- R112, R264: the orders a form accepts: plain, or `ok` with a scope. -/
def ordOk (ok : List Nat) (c : Nat) : Bool :=
  (decide (cOrd c = 0) && decide (cScope c = 0)) || (decide (cOrd c ∈ ok) && decide (1 ≤ cScope c))

/-- R291, R321, R342: the numbers of tokens a form of group 6 accepts. -/
def tokensOk (prod : List Bool) (lo hi : Nat) (f : EN) : Bool := decide (f.produce ∈ prod) && decide (lo ≤ f.ncons) && decide (f.ncons ≤ hi)

/-- The conditions of an entry that its fields alone decide (REASON 10). -/
def entryBad (env : DecEnv) (i : Instr) : Bool :=
  match i with
  | .sld f | .vld f => !(ordOk [1] f.c)
  | .sst f | .vst f => !(ordOk [2] f.c)
  | .lds f => !(ordOk (if env.slot.isSome then [] else [1]) f.c)
  | .sts f => !(ordOk (if env.slot.isSome then [] else [2]) f.c)
  | .stm f => !(ordOk [] f.c) || !(decide (f.off.toNat < 4096))
  | .vlds f | .align f | .prefetch f | .discard f | .pin f | .unpin f => !(ordOk [] f.c)
  | .fence f => !(decide (1 ≤ cOrd f.c) && decide (1 ≤ cScope f.c))
  | .vatom f => !(ordOk [1, 2, 3] f.c) || decide (cWid f.c < 2) || (decide (f.atop = 1) && decide (cWid f.c = 3))
  | .satom f => !(ordOk [1, 2, 3] f.c) || decide (cWid f.c < 2) || (env.slot.isSome && decide (f.d < 96))
  | .mark f | .brk f => !(decide (f.imm.toNat < 65536))
  | .trec f | .gset f | .gwait f | .gsync f | .fset f | .treg f | .tdrop f | .tfind f | .solicit f | .answer f | .cwait f | .rnext f | .qbind f => !(tokensOk [false] 0 0 f)
  | .post f => !(tokensOk [false] 0 0 f) || (env.slot.isSome && decide (f.a < 96))
  | .tcopy f | .creduce f => !(tokensOk [false, true] 0 3 f)
  | .tmove f => !(tokensOk [false, true] 0 3 f) || (env.slot.isSome && decide (f.a < 96))
  | .kwait f => !(tokensOk [false] 1 3 f)
  | .kjoin f => !(tokensOk [true] 1 3 f)
  | .garr f => !(tokensOk [false] 0 3 f)
  | .yield f => if bits f.a 0 2 = 1 then !(tokensOk [false] 1 3 f) else !(tokensOk [false] 0 0 f)
  | .mbld f => !(tokensOk [false, true] 0 (if env.slot.isSome then 0 else 3) f) || (env.slot.isSome && bitAt f.a 2)
  | .mma f | .mclr f | .mst f | .mlat f | .jld f => !(tokensOk [false, true] 0 (if env.slot.isSome then 0 else 3) f)
  | _ => false

/-- R465: whether the opcode is accepted in a width-16 kernel. -/
def w16Op (i : Instr) : Bool :=
  match i with
  | .remap _ | .stm _ | .vlds _ | .prefetch _ | .discard _ | .pin _ | .unpin _ | .waitv _ | .yield _ | .fset _ | .mbld _ | .mma _ | .mclr _ | .mst _ | .mlat _ | .jld _
  | .treg _ | .tdrop _ | .tfind _ | .tmove _ | .solicit _ | .answer _ | .cwait _ | .post _ | .rnext _ | .qbind _ | .creduce _
  | .xmodeB _ | .xmodeBMx _ | .xmodeS _ | .xmov _ | .xbcast _ | .loop _ | .lexit _ => false
  | _ => true

/-- R60: whether the opcode is legal where it stands: in SIMT mode, or in bundle mode in some slot. -/
def modeOk (env : DecEnv) (i : Instr) : Bool :=
  let s := specOf env.slot i
  match env.slot with
  | none => s.simt
  | some _ => !s.slots.isEmpty

/-- What R64 raises: ILLEGAL or MODE, with REASON. -/
inductive DecFault where
  | illegal (reason : Nat)
  | mode (reason : Nat)
  deriving DecidableEq, Repr, Inhabited

/-- R64 steps 2 to 5, as far as the instruction and its place alone decide; the first failing test gives the trap (log 4, DEDUCED; log 6, DEDUCED; log 17, DEDUCED; log 94, DEDUCED). -/
def check (env : DecEnv) (i : Instr) : Option DecFault :=
  if env.w16 && !(w16Op i) then some (.illegal 1)
  else if !(modeOk env i) then some (.mode 9)
  else if env.slot.any (fun k => !(decide (k ∈ (specOf env.slot i).slots))) then some (.illegal 7)
  else if litBad env i then some (.illegal 6)
  else if guardBad env i then some (.illegal 5)
  else if modBad env i then some (.illegal 3)
  else if opndBad env i then some (.illegal 4)
  else if entryBad env i then some (.illegal 10)
  else none

end Sys2Proof.Machine
end

