-- ==== Sys2Proof/WellFormed.lean ====
section
/-! DEFINITION. Which instruction terms a word of the encoding can hold: every field in the range of its bits (R48 to R56), and every test of R64 passed. -/

namespace Sys2Proof

open Sys2Proof.Machine

/-- Guard fields within their four bits. -/
def Guard.fits (g : Guard) : Bool := decide (g.p < 8)

/-- A word that is the sign extension of its low `n` bits. -/
def fitsSigned (n : Nat) (w : Word) : Bool := decide (sext64 n w.toNat = w)

/-- R48: RRR fields within their bits. -/
def RRR.fits (f : RRR) : Bool := f.g.fits && decide (f.d < 256) && decide (f.a < 256) && decide (f.b < 256) && decide (f.c < 256) && decide (f.fn < 8)
/-- R49: RI fields within their bits; with a literal the immediate field is zero. -/
def RI.fits (slot : Bool) (f : RI) : Bool :=
  decide (f.d < 256) && decide (f.a < 256) && (if f.lit.isSome then decide (f.imm = 0) else fitsSigned (if slot then 31 else 33) f.imm)
/-- R50: CV fields within their bits. -/
def CV.fits (f : CV) : Bool := f.g.fits && decide (f.d < 256) && decide (f.a < 256) && decide (f.sfmt < 8) && decide (f.dfmt < 8)
/-- R51: MEM fields within their bits. -/
def MEM.fits (slot : Bool) (f : MEM) : Bool :=
  f.g.fits && decide (f.d < 256) && decide (f.a < 256) && decide (f.b < 256) && decide (f.c < 256) && fitsSigned (if slot then 15 else 17) f.off
/-- R52: ATM fields within their bits. -/
def ATM.fits (f : ATM) : Bool :=
  f.g.fits && decide (f.d < 256) && decide (f.a < 256) && decide (f.b < 256) && decide (f.c < 256) && decide (f.atop < 32) && fitsSigned 10 f.off
/-- R53: BR fields within their bits. -/
def BR.fits (f : BR) : Bool := decide (f.d < 256) && fitsSigned 41 f.off
/-- R54: SR fields within their bits. -/
def SR.fits (f : SR) : Bool := decide (f.d < 256) && decide (f.a < 256) && decide (f.sel < 256)
/-- R55: EN fields within their bits. -/
def EN.fits (f : EN) : Bool :=
  decide (f.ncons < 4) && decide (f.kout < 32) && decide (f.a < 256) && decide (f.b < 256) && decide (f.c < 256) && decide (f.ka < 32) && decide (f.kb < 32) && decide (f.kc < 32)
/-- R56: LP fields within their bits. -/
def LP.fits (f : LP) : Bool := decide (f.d < 256) && decide (f.a < 256) && decide (f.b < 256) && decide (f.len < 32768)

/-- Whether the fields of an instruction fit the bits of its word; `slot` for an operation word of a bundle. A step that is no instruction has no word. -/
def Instr.fits (slot : Bool) (i : Instr) : Bool :=
  match i with
  | .sadd f | .ssub f | .smul f | .smulh f | .sdiv f | .srem f | .smin f | .smax f | .sand f | .sor f | .sxor f | .sandn f | .sshl f | .sshr f | .ssar f | .srot f
  | .sabs f | .sclz f | .spopc f | .smov f | .sext f | .sbfx f | .sbfi f | .scmp f | .ssel f | .sfadd f | .sfmul f | .sffma f | .sfcmp f
  | .jmpx f | .ret f | .endThread f | .nop f | .tret f | .tretPark f | .remap f
  | .vadd f | .vsub f | .vmul f | .vmulh f | .vmin f | .vmax f | .vmad f | .vand f | .vor f | .vxor f | .vandn f | .vshl f | .vshr f | .vsar f
  | .vabs f | .vclz f | .vpopc f | .vmov f | .vbfx f | .vbfi f | .vcmp f | .vsel f | .vaddc f
  | .vfadd f | .vfsub f | .vfmul f | .vffma f | .vfmin f | .vfmax f | .vfcmp f | .vrcp f | .vsqrt f | .vrsq f | .vexp2 f | .vlog2 f | .vsin f | .vcos f | .vfclass f
  | .plog f | .pmov f | .pcnt f | .vshf f | .vshfi f | .vbcast f | .vrfl f | .vwlane f | .vballot f | .vvote f | .vred f | .vscan f | .join f | .wend f | .waitv f
  | .xmodeB f | .xmodeBMx f | .xmodeS f | .xmov f | .xbcast f | .lexit f => f.fits
  | .sli f | .trap f | .mark f | .brk f => f.fits slot
  | .sfcvt f | .vcvt f => f.fits
  | .jmp f | .jc f | .call f | .brv f => f.fits
  | .callx f | .sld f | .sst f | .vunpk f | .vpack f | .vld f | .vst f | .lds f | .sts f | .stm f | .vlds f | .fence f | .align f | .prefetch f | .discard f | .pin f | .unpin f => f.fits slot
  | .vatom f | .satom f => f.fits
  | .sread f | .swrite f => f.fits
  | .trec f | .tcopy f | .kwait f | .kjoin f | .gset f | .garr f | .gwait f | .gsync f | .yield f | .fset f | .mbld f | .mma f | .mclr f | .mst f | .mlat f | .jld f
  | .treg f | .tdrop f | .tfind f | .tmove f | .solicit f | .answer f | .cwait f | .post f | .rnext f | .qbind f | .creduce f => f.fits
  | .loop f => f.fits
  | _ => false

/-- A well-formed instruction where `env` says it stands: its fields fit and every test of R64 passes. -/
def Instr.wfIn (env : DecEnv) (i : Instr) : Bool := i.fits env.slot.isSome && decide (check env i = none)

/-- A well-formed instruction of native SIMT code, for a wave of 256 registers a lane. -/
def Instr.wf (i : Instr) : Bool := i.wfIn {}

end Sys2Proof
end

