-- ==== Sys2Proof/Decode.lean ====
section
/-! DEFINITION. From words to instructions and back: the opcode map of R59 and R60, the formats of R48 to R56 as lists of bit fields, the bundle header of R61, decoding with the tests of R64, and the encoder. -/

namespace Sys2Proof

open Sys2Proof.Machine

/-- A row of the opcode map: the format and the instruction it makes. -/
inductive OpRow where
  | rrr (mk : RRR → Instr)
  | ri (mk : RI → Instr)
  | cv (mk : CV → Instr)
  | mem (mk : MEM → Instr)
  | atm (mk : ATM → Instr)
  | br (mk : BR → Instr)
  | sr (mk : SR → Instr)
  | en (mk : EN → Instr)
  | lp (mk : LP → Instr)

/-- R183: `xmode` by FN. FN 3 to 7 keep their value, which the test of FN refuses in either mode. -/
def xmodeOf (f : RRR) : Instr := if f.fn = 1 then .xmodeBMx f else if f.fn = 2 then .xmodeS f else .xmodeB f

/-- R395: `tret` by M[0]. -/
def tretOf (f : RRR) : Instr := if f.fn = 1 then .tretPark f else .tret f

/-- R60: the assigned codes of group 0. -/
def opGroup0 (op : Nat) : Option OpRow :=
  match op with
  | 0x000 => some (.rrr .sadd)
  | 0x001 => some (.rrr .ssub)
  | 0x002 => some (.rrr .smul)
  | 0x003 => some (.rrr .smulh)
  | 0x004 => some (.rrr .sdiv)
  | 0x005 => some (.rrr .srem)
  | 0x006 => some (.rrr .sand)
  | 0x007 => some (.rrr .sor)
  | 0x008 => some (.rrr .sxor)
  | 0x009 => some (.rrr .sandn)
  | 0x00A => some (.rrr .sshl)
  | 0x00B => some (.rrr .sshr)
  | 0x00C => some (.rrr .ssar)
  | 0x00D => some (.rrr .srot)
  | 0x00E => some (.rrr .smin)
  | 0x00F => some (.rrr .smax)
  | 0x010 => some (.rrr .sabs)
  | 0x011 => some (.rrr .sclz)
  | 0x012 => some (.rrr .spopc)
  | 0x013 => some (.rrr .sbfx)
  | 0x014 => some (.rrr .sbfi)
  | 0x015 => some (.rrr .sext)
  | 0x016 => some (.rrr .scmp)
  | 0x017 => some (.rrr .ssel)
  | 0x018 => some (.rrr .smov)
  | 0x019 => some (.ri .sli)
  | 0x020 => some (.rrr .sfadd)
  | 0x021 => some (.rrr .sfmul)
  | 0x022 => some (.rrr .sffma)
  | 0x023 => some (.rrr .sfcmp)
  | 0x024 => some (.cv .sfcvt)
  | _ => none

/-- R60: the assigned codes of group 1. -/
def opGroup1 (op : Nat) : Option OpRow :=
  match op with
  | 0x080 => some (.br .jmp)
  | 0x081 => some (.br .jc)
  | 0x082 => some (.rrr .jmpx)
  | 0x083 => some (.br .call)
  | 0x084 => some (.mem .callx)
  | 0x085 => some (.rrr .ret)
  | 0x086 => some (.rrr .endThread)
  | 0x087 => some (.rrr .nop)
  | 0x088 => some (.mem .sld)
  | 0x089 => some (.mem .sst)
  | 0x08A => some (.sr .sread)
  | 0x08B => some (.sr .swrite)
  | 0x08C => some (.ri .trap)
  | 0x090 => some (.rrr tretOf)
  | 0x091 => some (.ri .mark)
  | 0x092 => some (.ri .brk)
  | 0x098 => some (.rrr .remap)
  | _ => none

/-- R60: the assigned codes of group 2. -/
def opGroup2 (op : Nat) : Option OpRow :=
  match op with
  | 0x100 => some (.rrr .vadd)
  | 0x101 => some (.rrr .vsub)
  | 0x102 => some (.rrr .vmul)
  | 0x103 => some (.rrr .vmulh)
  | 0x104 => some (.rrr .vmad)
  | 0x105 => some (.rrr .vand)
  | 0x106 => some (.rrr .vor)
  | 0x107 => some (.rrr .vxor)
  | 0x108 => some (.rrr .vandn)
  | 0x109 => some (.rrr .vshl)
  | 0x10A => some (.rrr .vshr)
  | 0x10B => some (.rrr .vsar)
  | 0x10C => some (.rrr .vmin)
  | 0x10D => some (.rrr .vmax)
  | 0x10E => some (.rrr .vabs)
  | 0x10F => some (.rrr .vclz)
  | 0x110 => some (.rrr .vpopc)
  | 0x111 => some (.rrr .vbfx)
  | 0x112 => some (.rrr .vbfi)
  | 0x113 => some (.rrr .vcmp)
  | 0x114 => some (.rrr .vsel)
  | 0x115 => some (.rrr .vmov)
  | 0x116 => some (.rrr .vaddc)
  | _ => none

/-- R60: the assigned codes of group 3. -/
def opGroup3 (op : Nat) : Option OpRow :=
  match op with
  | 0x180 => some (.rrr .vfadd)
  | 0x181 => some (.rrr .vfsub)
  | 0x182 => some (.rrr .vfmul)
  | 0x183 => some (.rrr .vffma)
  | 0x184 => some (.rrr .vfmin)
  | 0x185 => some (.rrr .vfmax)
  | 0x186 => some (.rrr .vfcmp)
  | 0x187 => some (.rrr .vrcp)
  | 0x188 => some (.rrr .vrsq)
  | 0x189 => some (.rrr .vsqrt)
  | 0x18A => some (.rrr .vexp2)
  | 0x18B => some (.rrr .vlog2)
  | 0x18C => some (.rrr .vsin)
  | 0x18D => some (.rrr .vcos)
  | 0x18E => some (.cv .vcvt)
  | 0x18F => some (.rrr .vfclass)
  | _ => none

/-- R60: the assigned codes of group 4. -/
def opGroup4 (op : Nat) : Option OpRow :=
  match op with
  | 0x200 => some (.rrr .vshf)
  | 0x201 => some (.rrr .vshfi)
  | 0x202 => some (.rrr .vbcast)
  | 0x203 => some (.rrr .vrfl)
  | 0x204 => some (.rrr .vwlane)
  | 0x205 => some (.rrr .vballot)
  | 0x206 => some (.rrr .vvote)
  | 0x207 => some (.rrr .vred)
  | 0x208 => some (.rrr .vscan)
  | 0x210 => some (.rrr .plog)
  | 0x211 => some (.rrr .pmov)
  | 0x212 => some (.rrr .pcnt)
  | 0x218 => some (.br .brv)
  | 0x219 => some (.rrr .join)
  | 0x21A => some (.rrr .wend)
  | 0x220 => some (.mem .vunpk)
  | 0x221 => some (.mem .vpack)
  | 0x228 => some (.mem .vld)
  | 0x229 => some (.mem .vst)
  | _ => none

/-- R60: the assigned codes of group 5. -/
def opGroup5 (op : Nat) : Option OpRow :=
  match op with
  | 0x280 => some (.mem .lds)
  | 0x281 => some (.mem .sts)
  | 0x282 => some (.mem .stm)
  | 0x283 => some (.mem .vlds)
  | 0x288 => some (.atm .vatom)
  | 0x289 => some (.atm .satom)
  | 0x290 => some (.mem .fence)
  | 0x291 => some (.mem .align)
  | 0x298 => some (.mem .prefetch)
  | 0x299 => some (.mem .discard)
  | 0x29A => some (.mem .pin)
  | 0x29B => some (.mem .unpin)
  | 0x29C => some (.rrr .waitv)
  | _ => none

/-- R60: the assigned codes of group 6. -/
def opGroup6 (op : Nat) : Option OpRow :=
  match op with
  | 0x300 => some (.en .trec)
  | 0x301 => some (.en .tcopy)
  | 0x302 => some (.en .kwait)
  | 0x303 => some (.en .kjoin)
  | 0x304 => some (.en .gset)
  | 0x305 => some (.en .garr)
  | 0x306 => some (.en .gwait)
  | 0x307 => some (.en .gsync)
  | 0x308 => some (.en .yield)
  | 0x310 => some (.en .fset)
  | 0x311 => some (.en .mbld)
  | 0x312 => some (.en .mma)
  | 0x313 => some (.en .mclr)
  | 0x314 => some (.en .mst)
  | 0x315 => some (.en .mlat)
  | 0x316 => some (.en .jld)
  | 0x320 => some (.en .treg)
  | 0x321 => some (.en .tdrop)
  | 0x322 => some (.en .tfind)
  | 0x323 => some (.en .tmove)
  | 0x324 => some (.en .solicit)
  | 0x325 => some (.en .answer)
  | 0x326 => some (.en .cwait)
  | 0x330 => some (.en .post)
  | 0x331 => some (.en .rnext)
  | 0x332 => some (.en .qbind)
  | 0x338 => some (.en .creduce)
  | _ => none

/-- R60: the assigned codes of group 7. -/
def opGroup7 (op : Nat) : Option OpRow :=
  match op with
  | 0x380 => some (.rrr xmodeOf)
  | 0x381 => some (.rrr .xmov)
  | 0x382 => some (.rrr .xbcast)
  | 0x388 => some (.lp .loop)
  | 0x389 => some (.rrr .lexit)
  | _ => none

/-- R59, R60: the row of an opcode, where one is assigned. -/
def opRow (op : Nat) : Option OpRow :=
  match op / 128 with
  | 0 => opGroup0 op
  | 1 => opGroup1 op
  | 2 => opGroup2 op
  | 3 => opGroup3 op
  | 4 => opGroup4 op
  | 5 => opGroup5 op
  | 6 => opGroup6 op
  | 7 => opGroup7 op
  | _ => none

/-- R59: the codes reserved for a later minor version. -/
def opReserved (op : Nat) : Bool := if op / 128 = 7 then decide (0x3C0 ≤ op) else decide (96 ≤ op % 128)

/-- R60: the opcode of an instruction; a step that is no instruction has none. -/
def opOf (i : Instr) : Option Nat :=
  match i with
  | .sadd _ => some 0x000
  | .ssub _ => some 0x001
  | .smul _ => some 0x002
  | .smulh _ => some 0x003
  | .sdiv _ => some 0x004
  | .srem _ => some 0x005
  | .sand _ => some 0x006
  | .sor _ => some 0x007
  | .sxor _ => some 0x008
  | .sandn _ => some 0x009
  | .sshl _ => some 0x00A
  | .sshr _ => some 0x00B
  | .ssar _ => some 0x00C
  | .srot _ => some 0x00D
  | .smin _ => some 0x00E
  | .smax _ => some 0x00F
  | .sabs _ => some 0x010
  | .sclz _ => some 0x011
  | .spopc _ => some 0x012
  | .sbfx _ => some 0x013
  | .sbfi _ => some 0x014
  | .sext _ => some 0x015
  | .scmp _ => some 0x016
  | .ssel _ => some 0x017
  | .smov _ => some 0x018
  | .sli _ => some 0x019
  | .sfadd _ => some 0x020
  | .sfmul _ => some 0x021
  | .sffma _ => some 0x022
  | .sfcmp _ => some 0x023
  | .sfcvt _ => some 0x024
  | .jmp _ => some 0x080
  | .jc _ => some 0x081
  | .jmpx _ => some 0x082
  | .call _ => some 0x083
  | .callx _ => some 0x084
  | .ret _ => some 0x085
  | .endThread _ => some 0x086
  | .nop _ => some 0x087
  | .sld _ => some 0x088
  | .sst _ => some 0x089
  | .sread _ => some 0x08A
  | .swrite _ => some 0x08B
  | .trap _ => some 0x08C
  | .tret _ | .tretPark _ => some 0x090
  | .mark _ => some 0x091
  | .brk _ => some 0x092
  | .remap _ => some 0x098
  | .vadd _ => some 0x100
  | .vsub _ => some 0x101
  | .vmul _ => some 0x102
  | .vmulh _ => some 0x103
  | .vmad _ => some 0x104
  | .vand _ => some 0x105
  | .vor _ => some 0x106
  | .vxor _ => some 0x107
  | .vandn _ => some 0x108
  | .vshl _ => some 0x109
  | .vshr _ => some 0x10A
  | .vsar _ => some 0x10B
  | .vmin _ => some 0x10C
  | .vmax _ => some 0x10D
  | .vabs _ => some 0x10E
  | .vclz _ => some 0x10F
  | .vpopc _ => some 0x110
  | .vbfx _ => some 0x111
  | .vbfi _ => some 0x112
  | .vcmp _ => some 0x113
  | .vsel _ => some 0x114
  | .vmov _ => some 0x115
  | .vaddc _ => some 0x116
  | .vfadd _ => some 0x180
  | .vfsub _ => some 0x181
  | .vfmul _ => some 0x182
  | .vffma _ => some 0x183
  | .vfmin _ => some 0x184
  | .vfmax _ => some 0x185
  | .vfcmp _ => some 0x186
  | .vrcp _ => some 0x187
  | .vrsq _ => some 0x188
  | .vsqrt _ => some 0x189
  | .vexp2 _ => some 0x18A
  | .vlog2 _ => some 0x18B
  | .vsin _ => some 0x18C
  | .vcos _ => some 0x18D
  | .vcvt _ => some 0x18E
  | .vfclass _ => some 0x18F
  | .vshf _ => some 0x200
  | .vshfi _ => some 0x201
  | .vbcast _ => some 0x202
  | .vrfl _ => some 0x203
  | .vwlane _ => some 0x204
  | .vballot _ => some 0x205
  | .vvote _ => some 0x206
  | .vred _ => some 0x207
  | .vscan _ => some 0x208
  | .plog _ => some 0x210
  | .pmov _ => some 0x211
  | .pcnt _ => some 0x212
  | .brv _ => some 0x218
  | .join _ => some 0x219
  | .wend _ => some 0x21A
  | .vunpk _ => some 0x220
  | .vpack _ => some 0x221
  | .vld _ => some 0x228
  | .vst _ => some 0x229
  | .lds _ => some 0x280
  | .sts _ => some 0x281
  | .stm _ => some 0x282
  | .vlds _ => some 0x283
  | .vatom _ => some 0x288
  | .satom _ => some 0x289
  | .fence _ => some 0x290
  | .align _ => some 0x291
  | .prefetch _ => some 0x298
  | .discard _ => some 0x299
  | .pin _ => some 0x29A
  | .unpin _ => some 0x29B
  | .waitv _ => some 0x29C
  | .trec _ => some 0x300
  | .tcopy _ => some 0x301
  | .kwait _ => some 0x302
  | .kjoin _ => some 0x303
  | .gset _ => some 0x304
  | .garr _ => some 0x305
  | .gwait _ => some 0x306
  | .gsync _ => some 0x307
  | .yield _ => some 0x308
  | .fset _ => some 0x310
  | .mbld _ => some 0x311
  | .mma _ => some 0x312
  | .mclr _ => some 0x313
  | .mst _ => some 0x314
  | .mlat _ => some 0x315
  | .jld _ => some 0x316
  | .treg _ => some 0x320
  | .tdrop _ => some 0x321
  | .tfind _ => some 0x322
  | .tmove _ => some 0x323
  | .solicit _ => some 0x324
  | .answer _ => some 0x325
  | .cwait _ => some 0x326
  | .post _ => some 0x330
  | .rnext _ => some 0x331
  | .qbind _ => some 0x332
  | .creduce _ => some 0x338
  | .xmodeB _ | .xmodeBMx _ | .xmodeS _ => some 0x380
  | .xmov _ => some 0x381
  | .xbcast _ => some 0x382
  | .loop _ => some 0x388
  | .lexit _ => some 0x389
  | _ => none

/-- R57: the code of a type. -/
def tyCode (t : Ty) : Nat :=
  match t with
  | .dflt => 0 | .i8 => 1 | .i16 => 2 | .i32 => 3 | .i64 => 4 | .n8 => 5 | .n16 => 6 | .n32 => 7 | .n64 => 8 | .f16 => 9 | .bf16 => 10 | .f32 => 11 | .f64 => 12 | .fq => 13

/-- R57: the type of a code; 14 and 15 are reserved. -/
def tyOf (n : Nat) : Option Ty :=
  match n with
  | 0 => some .dflt | 1 => some .i8 | 2 => some .i16 | 3 => some .i32 | 4 => some .i64 | 5 => some .n8 | 6 => some .n16 | 7 => some .n32 | 8 => some .n64
  | 9 => some .f16 | 10 => some .bf16 | 11 => some .f32 | 12 => some .f64 | 13 => some .fq | _ => none

/-- R48: the code of a rounding field. -/
def rndCode (r : Rnd) : Nat := match r with | .mode => 0 | .ne => 1 | .tz => 2 | .up => 3 | .dn => 4

/-- R48: the rounding field of a code; 5 to 7 are reserved. -/
def rndOf (n : Nat) : Option Rnd := match n with | 0 => some .mode | 1 => some .ne | 2 => some .tz | 3 => some .up | 4 => some .dn | _ => none

/-- R43: the fields above D of every word: G, N, L, OP. -/
def headBits (g : Guard) (lit : Bool) (op : Nat) : List (Nat × Nat) := [(3, g.p), (1, ofBool g.neg), (1, ofBool lit), (10, op)]

/-- R48: a word of format RRR, fields from bit 0. -/
def rrrBits (f : RRR) (op : Nat) : List (Nat × Nat) :=
  [(3, f.fn), (1, ofBool f.sat), (3, rndCode f.rnd), (1, ofBool f.x2), (4, tyCode f.ty), (1, ofBool f.sc), (1, ofBool f.sb), (1, ofBool f.sa), (1, ofBool f.first), (1, ofBool f.last),
   (8, f.c), (8, f.b), (8, f.a), (8, f.d)] ++ headBits f.g f.lit.isSome op
/-- R49: a word of format RI. -/
def riBits (slot : Bool) (f : RI) (op : Nat) : List (Nat × Nat) :=
  (if slot then [(15, f.imm.toNat), (1, ofBool f.first), (1, ofBool f.last), (16, f.imm.toNat / 2 ^ 15)] else [(33, f.imm.toNat)]) ++ [(8, f.a), (8, f.d)] ++ headBits .none f.lit.isSome op
/-- R50: a word of format CV. -/
def cvBits (f : CV) (op : Nat) : List (Nat × Nat) :=
  [(3, 0), (1, ofBool f.sat), (3, rndCode f.rnd), (1, 0), (4, tyCode f.ty), (1, 0), (1, 0), (1, ofBool f.sa), (1, ofBool f.first), (1, ofBool f.last),
   (3, f.dfmt), (5, 0), (3, f.sfmt), (1, 0), (4, tyCode f.stype), (8, f.a), (8, f.d)] ++ headBits f.g false op
/-- R51: a word of format MEM. -/
def memBits (slot : Bool) (f : MEM) (op : Nat) : List (Nat × Nat) :=
  (if slot then [(15, f.off.toNat), (1, ofBool f.first), (1, ofBool f.last)] else [(17, f.off.toNat)]) ++ [(8, f.c), (8, f.b), (8, f.a), (8, f.d)] ++ headBits f.g f.lit.isSome op
/-- R52: a word of format ATM. -/
def atmBits (f : ATM) (op : Nat) : List (Nat × Nat) :=
  [(10, f.off.toNat), (5, f.atop), (1, ofBool f.first), (1, ofBool f.last), (8, f.c), (8, f.b), (8, f.a), (8, f.d)] ++ headBits f.g false op
/-- R53: a word of format BR. -/
def brBits (f : BR) (op : Nat) : List (Nat × Nat) := [(41, f.off.toNat), (8, f.d)] ++ headBits .none false op
/-- R54: a word of format SR. -/
def srBits (f : SR) (op : Nat) : List (Nat × Nat) := [(17, 0), (8, f.sel), (8, 0), (8, f.a), (8, f.d)] ++ headBits .none false op
/-- R55: a word of format EN. -/
def enBits (f : EN) (op : Nat) : List (Nat × Nat) :=
  [(5, f.kc), (5, f.kb), (5, f.ka), (1, ofBool f.first), (1, ofBool f.last), (8, f.c), (8, f.b), (8, f.a), (5, f.kout), (2, f.ncons), (1, ofBool f.produce)] ++ headBits .none false op
/-- R56: a word of format LP. -/
def lpBits (f : LP) (op : Nat) : List (Nat × Nat) := [(15, f.len), (2, 0), (8, 0), (8, f.b), (8, f.a), (8, f.d)] ++ headBits .none false op

/-- The bit fields of an instruction's word under an opcode. -/
def wordBits (slot : Bool) (i : Instr) (op : Nat) : List (Nat × Nat) :=
  match i with
  | .sadd f | .ssub f | .smul f | .smulh f | .sdiv f | .srem f | .sand f | .sor f | .sxor f | .sandn f | .sshl f | .sshr f | .ssar f | .srot f | .smin f | .smax f => rrrBits f op
  | .sabs f | .sclz f | .spopc f | .sbfx f | .sbfi f | .sext f | .scmp f | .ssel f | .smov f | .sfadd f | .sfmul f | .sffma f | .sfcmp f | .jmpx f | .ret f | .endThread f => rrrBits f op
  | .nop f | .tret f | .tretPark f | .remap f | .vadd f | .vsub f | .vmul f | .vmulh f | .vmad f | .vand f | .vor f | .vxor f | .vandn f | .vshl f | .vshr f | .vsar f => rrrBits f op
  | .vmin f | .vmax f | .vabs f | .vclz f | .vpopc f | .vbfx f | .vbfi f | .vcmp f | .vsel f | .vmov f | .vaddc f | .vfadd f | .vfsub f | .vfmul f | .vffma f | .vfmin f => rrrBits f op
  | .vfmax f | .vfcmp f | .vrcp f | .vrsq f | .vsqrt f | .vexp2 f | .vlog2 f | .vsin f | .vcos f | .vfclass f | .vshf f | .vshfi f | .vbcast f | .vrfl f | .vwlane f | .vballot f => rrrBits f op
  | .vvote f | .vred f | .vscan f | .plog f | .pmov f | .pcnt f | .join f | .wend f | .waitv f | .xmodeB f | .xmodeBMx f | .xmodeS f | .xmov f | .xbcast f | .lexit f => rrrBits f op
  | .sli f | .trap f | .mark f | .brk f => riBits slot f op
  | .sfcvt f | .vcvt f => cvBits f op
  | .jmp f | .jc f | .call f | .brv f => brBits f op
  | .callx f | .sld f | .sst f | .vunpk f | .vpack f | .vld f | .vst f | .lds f | .sts f | .stm f | .vlds f | .fence f | .align f | .prefetch f | .discard f | .pin f => memBits slot f op
  | .unpin f => memBits slot f op
  | .sread f | .swrite f => srBits f op
  | .vatom f | .satom f => atmBits f op
  | .trec f | .tcopy f | .kwait f | .kjoin f | .gset f | .garr f | .gwait f | .gsync f | .yield f | .fset f | .mbld f | .mma f | .mclr f | .mst f | .mlat f | .jld f => enBits f op
  | .treg f | .tdrop f | .tfind f | .tmove f | .solicit f | .answer f | .cwait f | .post f | .rnext f | .qbind f | .creduce f => enBits f op
  | .loop f => lpBits f op
  | _ => []

/-- The literal an instruction carries. -/
def litOf (i : Instr) : Option Word := (fieldsOf i).lit

/-- The words of an instruction, an operation word of a bundle where `slot` says so; none for a step that is no instruction. -/
def encodeIn (slot : Bool) (i : Instr) : List Word :=
  match opOf i with
  | none => []
  | some op => BitVec.ofNat 64 (packBits (wordBits slot i op)) :: (litOf i).toList

/-- The words of an instruction of SIMT code. -/
def encode (i : Instr) : List Word := encodeIn false i

/-- What a word decodes to before the tests of R64, with the tests its format alone fails: a literal not permitted, a guard not accepted, a reserved modifier bit, an unused operand field. -/
structure Parsed where
  i : Instr
  bad6 : Bool := false
  bad5 : Bool := false
  bad3 : Bool := false
  bad4 : Bool := false

/-- R43: G and N of a word. -/
def guardOf (w : Nat) : Guard := ⟨bits w 49 3, bitAt w 52⟩

/-- R44: the format has no guard, so G is 7 and N is 0. -/
def noGuardBad (w : Nat) : Bool := decide (guardOf w ≠ Guard.none)

/-- Bit L of a word. -/
def hasLit (w : Nat) : Bool := bitAt w 53

/-- R48. -/
def parseRRR (slot : Bool) (mk : RRR → Instr) (w : Nat) (lit : Option Word) : Parsed :=
  match unpackBits [3, 1, 3, 1, 4, 1, 1, 1, 1, 1, 8, 8, 8, 8] w with
  | [fn, sat, rnd, x2, ty, sc, sb, sa, first, last, c, b, a, d] =>
    { i := mk { g := guardOf w, lit := lit, d := d, a := a, b := b, c := c, last := decide (last = 1), first := decide (first = 1), sa := decide (sa = 1), sb := decide (sb = 1), sc := decide (sc = 1),
                ty := (tyOf ty).getD .dflt, x2 := decide (x2 = 1), rnd := (rndOf rnd).getD .mode, sat := decide (sat = 1), fn := fn },
      bad6 := slot && hasLit w, bad3 := (tyOf ty).isNone || (rndOf rnd).isNone }
  | _ => { i := mk {} }

/-- R49. -/
def parseRI (slot : Bool) (mk : RI → Instr) (w : Nat) (lit : Option Word) : Parsed :=
  if slot then
    { i := mk { lit := lit, d := bits w 41 8, a := bits w 33 8, last := bitAt w 16, first := bitAt w 15, imm := sext64 31 (bits w 0 15 + 2 ^ 15 * bits w 17 16) }, bad6 := hasLit w, bad5 := noGuardBad w }
  else
    { i := mk { lit := lit, d := bits w 41 8, a := bits w 33 8, imm := sext64 33 w }, bad5 := noGuardBad w, bad6 := hasLit w && decide (bits w 0 33 ≠ 0) }

/-- R50. -/
def parseCV (mk : CV → Instr) (w : Nat) : Parsed :=
  match unpackBits [3, 1, 3, 1, 4, 1, 1, 1, 1, 1, 3, 5, 3, 1, 4, 8, 8] w with
  | [fn, sat, rnd, x2, ty, sc, sb, sa, first, last, dfmt, z5, sfmt, z1, stype, a, d] =>
    { i := mk { g := guardOf w, d := d, a := a, stype := (tyOf stype).getD .dflt, sfmt := sfmt, dfmt := dfmt, last := decide (last = 1), first := decide (first = 1), sa := decide (sa = 1),
                ty := (tyOf ty).getD .dflt, rnd := (rndOf rnd).getD .mode, sat := decide (sat = 1) },
      bad6 := hasLit w,
      bad3 := (tyOf ty).isNone || (tyOf stype).isNone || (rndOf rnd).isNone || decide (fn ≠ 0) || decide (x2 ≠ 0) || decide (sc ≠ 0) || decide (sb ≠ 0) || decide (z5 ≠ 0) || decide (z1 ≠ 0) }
  | _ => { i := mk {} }

/-- R51. -/
def parseMEM (slot : Bool) (mk : MEM → Instr) (w : Nat) (lit : Option Word) : Parsed :=
  if slot then
    { i := mk { g := guardOf w, lit := lit, d := bits w 41 8, a := bits w 33 8, b := bits w 25 8, c := bits w 17 8, last := bitAt w 16, first := bitAt w 15, off := sext64 15 w }, bad6 := hasLit w }
  else
    { i := mk { g := guardOf w, lit := lit, d := bits w 41 8, a := bits w 33 8, b := bits w 25 8, c := bits w 17 8, off := sext64 17 w } }

/-- R52. -/
def parseATM (mk : ATM → Instr) (w : Nat) : Parsed :=
  { i := mk { g := guardOf w, d := bits w 41 8, a := bits w 33 8, b := bits w 25 8, c := bits w 17 8, last := bitAt w 16, first := bitAt w 15, atop := bits w 10 5, off := sext64 10 w }, bad6 := hasLit w }

/-- R53. -/
def parseBR (mk : BR → Instr) (w : Nat) : Parsed := { i := mk { d := bits w 41 8, off := sext64 41 w }, bad6 := hasLit w, bad5 := noGuardBad w }

/-- R54. -/
def parseSR (mk : SR → Instr) (w : Nat) : Parsed :=
  { i := mk { d := bits w 41 8, a := bits w 33 8, sel := bits w 17 8 }, bad6 := hasLit w, bad5 := noGuardBad w, bad3 := decide (bits w 0 17 ≠ 0), bad4 := decide (bits w 25 8 ≠ 0) }

/-- R55. -/
def parseEN (mk : EN → Instr) (w : Nat) : Parsed :=
  { i := mk { produce := bitAt w 48, ncons := bits w 46 2, kout := bits w 41 5, a := bits w 33 8, b := bits w 25 8, c := bits w 17 8, last := bitAt w 16, first := bitAt w 15,
              ka := bits w 10 5, kb := bits w 5 5, kc := bits w 0 5 }, bad6 := hasLit w, bad5 := noGuardBad w }

/-- R56. -/
def parseLP (mk : LP → Instr) (w : Nat) : Parsed :=
  { i := mk { d := bits w 41 8, a := bits w 33 8, b := bits w 25 8, len := bits w 0 15 }, bad6 := hasLit w, bad5 := noGuardBad w, bad3 := decide (bits w 15 2 ≠ 0), bad4 := decide (bits w 17 8 ≠ 0) }

/-- The instruction of a word whose opcode is assigned. `lit` is the next word where bit L is set. -/
def parseRow (slot : Bool) (r : OpRow) (w : Nat) (lit : Option Word) : Parsed :=
  match r with
  | .rrr mk => parseRRR slot mk w lit
  | .ri mk => parseRI slot mk w lit
  | .cv mk => parseCV mk w
  | .mem mk => parseMEM slot mk w lit
  | .atm mk => parseATM mk w
  | .br mk => parseBR mk w
  | .sr mk => parseSR mk w
  | .en mk => parseEN mk w
  | .lp mk => parseLP mk w

/-- R64 over a parsed word, the order within step 4 being literal, guard, modifier, operand, entry (log 4). -/
def checkParsed (env : DecEnv) (p : Parsed) : Option DecFault :=
  match check env p.i with
  | some (.illegal 1) => some (.illegal 1)
  | some (.mode 9) => some (.mode 9)
  | some (.illegal 7) => some (.illegal 7)
  | r =>
    if p.bad6 || decide (r = some (.illegal 6)) then some (.illegal 6)
    else if p.bad5 || decide (r = some (.illegal 5)) then some (.illegal 5)
    else if p.bad3 || decide (r = some (.illegal 3)) then some (.illegal 3)
    else if p.bad4 || decide (r = some (.illegal 4)) then some (.illegal 4)
    else r

/-- R64: the instruction of a word, or the trap it raises. `next` is the word that follows, read only where bit L is set. -/
def decodeWord (env : DecEnv) (w : Word) (next : Word) : Except DecFault Instr :=
  let n := w.toNat
  let op := bits n 54 10
  match opRow op with
  | none => .error (.illegal (if opReserved op then 2 else 1))
  | some r =>
    let p := parseRow env.slot.isSome r n (if hasLit n then some next else none)
    match checkParsed env p with
    | some e => .error e
    | none => .ok p.i

/-- R29, R46: whether a literal follows a word of SIMT code. -/
def wordHasLit (w : Word) : Bool := hasLit w.toNat

/-- R61: the fields of a bundle header. -/
structure BundleHeader where
  lanes : Lane32
  psc : Bool
  pmx : Bool
  pcp : Bool
  pxq : Bool
  spread : Bool
  latch : Nat
  len : Nat
  stamp : Nat
  ver : Nat
  deriving DecidableEq, Repr, Inhabited

/-- R61: the header of a word. -/
def headerOf (w : Word) : BundleHeader :=
  let n := w.toNat
  { lanes := BitVec.ofNat 32 (bits n 32 32), psc := bitAt n 31, pmx := bitAt n 30, pcp := bitAt n 29, pxq := bitAt n 28, spread := bitAt n 27, latch := bits n 25 2, len := bits n 16 9,
    stamp := bits n 4 12, ver := bits n 0 4 }

/-- R61: the word of a header. -/
def encodeHeader (h : BundleHeader) : Word :=
  BitVec.ofNat 64 (packBits [(4, h.ver), (12, h.stamp), (9, h.len), (2, h.latch), (1, ofBool h.spread), (1, ofBool h.pxq), (1, ofBool h.pcp), (1, ofBool h.pmx), (1, ofBool h.psc), (32, h.lanes.toNat)])

/-- R62: the lane words of a bundle as the clusters each applies to, then the engine slots present, in the order the words stand. -/
def headerSlots (h : BundleHeader) : List (Slot × Lane32) :=
  let ln := maskLanes h.lanes
  (if h.spread then [(Slot.ln, h.lanes)] else ln.map (fun k => (Slot.ln, BitVec.ofNat 32 (2 ^ k))))
    ++ (if h.psc then [(Slot.sc, 0)] else []) ++ (if h.pmx then [(Slot.mx, 0)] else []) ++ (if h.pcp then [(Slot.cp, 0)] else []) ++ (if h.pxq then [(Slot.xq, 0)] else [])

/-- R62, R64: whether a header is valid. -/
def headerOk (h : BundleHeader) : Bool :=
  decide (h.latch ≠ 3) && decide (h.ver = 1) && !(h.spread && decide (h.lanes = 0)) && decide (h.len = 1 + (headerSlots h).length)

/-- An operation of a decoded bundle: its slot, the clusters it names, the instruction. -/
structure BundleOp where
  slot : Slot
  clusters : Lane32
  i : Instr
  deriving DecidableEq, Repr, Inhabited

/-- R64: the operation words of a bundle, decoded in the order of R62; `pos` is the position of the first. -/
def decodeOps (alloc : Nat) (slots : List (Slot × Lane32)) (words : List Word) (pos : Nat) : Except (DecFault × Nat) (List BundleOp) :=
  match slots, words with
  | (sl, cl) :: ss, w :: ws =>
    match decodeWord { slot := some sl, alloc := alloc } w 0 with
    | .error e => .error (e, pos)
    | .ok i =>
      match decodeOps alloc ss ws (pos + 1) with
      | .error e => .error e
      | .ok r => .ok ({ slot := sl, clusters := cl, i := i } :: r)
  | _, _ => .ok []

/-- R64: the first operation word that fails one of steps 2 to 4; a condition of an entry (step 5, REASON 10) is left to the words' own decoding. -/
def opsFault (alloc : Nat) (slots : List (Slot × Lane32)) (words : List Word) (pos : Nat) : Option (DecFault × Nat) :=
  match slots, words with
  | (sl, _) :: ss, w :: ws =>
    match decodeWord { slot := some sl, alloc := alloc } w 0 with
    | .error (.illegal 10) | .ok _ => opsFault alloc ss ws (pos + 1)
    | .error e => some (e, pos)
  | _, _ => none

/-- R61, R62, R64: a bundle from its words, the header first; the failing word's position with the trap. -/
def decodeBundle (alloc : Nat) (words : List Word) : Except (DecFault × Nat) (BundleHeader × List BundleOp) :=
  match words with
  | [] => .error (.illegal 8, 0)
  | w :: ws =>
    let h := headerOf w
    if headerOk h then
      match opsFault alloc (headerSlots h) ws 1 with
      | some e => .error e
      | none =>
        match decodeOps alloc (headerSlots h) ws 1 with
        | .error e => .error e
        | .ok ops => .ok (h, ops)
    else .error (.illegal 8, 0)

/-- The places a word is tried in, in order: SIMT code, then each bundle slot. -/
def tableEnvs : List DecEnv := [{}, { slot := some .ln }, { slot := some .sc }, { slot := some .mx }, { slot := some .cp }, { slot := some .xq }]

/-- The first place that accepts a word, with the instruction. -/
def firstAccepted (envs : List DecEnv) (w next : Word) : Option (DecEnv × Instr) :=
  match envs with
  | [] => none
  | e :: r =>
    match decodeWord e w next with
    | .ok i => some (e, i)
    | .error _ => firstAccepted r w next

/-- The instruction whose bits are `w`, first word in bits 63..0, literal above; every bit above `nbits` is 0. -/
def decodeTableWord (nbits w : Nat) : Option Instr :=
  let v := w % 2 ^ nbits
  (firstAccepted tableEnvs (BitVec.ofNat 64 v) (BitVec.ofNat 64 (v / 2 ^ 64))).map (·.2)

end Sys2Proof
end

