-- ==== Sys2Proof/Machine/Tbl.lean ====
section
/-! DEFINITION. Sparse tables: a list of (key, value) pairs in one canonical form, keys strictly rising and no entry equal to the default. Memory, register files and every numbered collection of the state are such tables. -/

namespace Sys2Proof.Machine

/-- A sparse table. An unlisted key reads as the table's default. -/
abbrev Tbl (α : Type) := List (Nat × α)

variable {α : Type}

/-- The entry listed under `k`, if there is one. -/
def tblFind (t : Tbl α) (k : Nat) : Option α :=
  match t with
  | [] => none
  | (j, v) :: r => if k = j then some v else tblFind r k

/-- The value read under `k`: the listed one, or the default `d`. -/
def tblGet (d : α) (t : Tbl α) (k : Nat) : α := (tblFind t k).getD d

/-- Without the entries of `k`. -/
def tblErase (t : Tbl α) (k : Nat) : Tbl α :=
  match t with
  | [] => []
  | (j, v) :: r => if k = j then tblErase r k else (j, v) :: tblErase r k

/-- `(k, v)` put before the first larger key. -/
def tblIns (t : Tbl α) (k : Nat) (v : α) : Tbl α :=
  match t with
  | [] => [(k, v)]
  | (j, u) :: r => if k < j then (k, v) :: (j, u) :: r else (j, u) :: tblIns r k v

/-- The table with `k` listed as `v`, whatever `v` is. -/
def tblPut (t : Tbl α) (k : Nat) (v : α) : Tbl α := tblIns (tblErase t k) k v

/-- The table with `k` reading as `v`: writing the default removes the entry. -/
def tblSet [DecidableEq α] (d : α) (t : Tbl α) (k : Nat) (v : α) : Tbl α :=
  if v = d then tblErase t k else tblPut t k v

/-- Every key is above `lo`, and the keys rise. -/
def tblRising (t : Tbl α) (lo : Nat) : Bool :=
  match t with
  | [] => true
  | (j, _) :: r => decide (lo ≤ j) && tblRising r (j + 1)

/-- The canonical form: keys strictly rising and no entry equal to the default. -/
def tblWf [DecidableEq α] (d : α) (t : Tbl α) : Bool := tblRising t 0 && t.all (fun e => decide (e.2 ≠ d))

/-- The keys listed. -/
def tblKeys (t : Tbl α) : List Nat := t.map (·.1)

/-- The values listed. -/
def tblVals (t : Tbl α) : List α := t.map (·.2)

/-- The first key from 0 that is not listed, among the first `n`. -/
def tblFirstFree (t : Tbl α) (n : Nat) : Option Nat := (List.range n).find? (fun k => (tblFind t k).isNone)

/-- `f` applied to the value under `k`, where one is listed. -/
def tblMod (t : Tbl α) (k : Nat) (f : α → α) : Tbl α :=
  match t with
  | [] => []
  | (j, v) :: r => if k = j then (j, f v) :: tblMod r k f else (j, v) :: tblMod r k f

end Sys2Proof.Machine
end

