-- ==== Sys2Proof/Machine/WaveTypes.lean ====
section
/-! DEFINITION. The plain data of a wave: its control thread, lanes, sub-waves, hinge stack, bundle thread, tokens, ports, accesses in flight and handler state (R28, R118, R127, R181, R240, R391). -/

namespace Sys2Proof.Machine

/-- R389: trap causes by their codes. -/
inductive Cause where
  | illegal | mode | member | splitOverflow | fetchBounds | page | protection | hazard | watchdog | engineFault
  | peerFault | peerTimeout | watch | step | break | preempt | migrate | bind | software | diverge
  deriving DecidableEq, Repr, Inhabited

/-- R389: the code of a cause. -/
def causeCode (c : Cause) : Nat :=
  match c with
  | .illegal => 1 | .mode => 2 | .member => 3 | .splitOverflow => 4 | .fetchBounds => 5 | .page => 6 | .protection => 7 | .hazard => 8 | .watchdog => 9 | .engineFault => 10
  | .peerFault => 11 | .peerTimeout => 12 | .watch => 13 | .step => 14 | .break => 15 | .preempt => 16 | .migrate => 17 | .bind => 18 | .software => 19 | .diverge => 20

/-- A trap to take: cause, TPC (the instruction's own address where none is given), TADDR, TINFO. -/
structure Trap where
  cause : Cause := .illegal
  tpc : Option Word := none
  addr : Word := 0
  info : Word := 0
  deriving DecidableEq, Repr, Inhabited

/-- R37: a kernel header. -/
structure Kernel where
  h : Word := 0
  major : Nat := 3
  minor : Nat := 1
  w16 : Bool := false
  vregs : Nat := 3
  spad : Nat := 0
  conv : Bool := false
  mtx : Bool := false
  rsv : Nat := 0
  codeLen : Nat := 0
  deriving DecidableEq, Repr, Inhabited

/-- R118: vector registers of a lane. -/
def Kernel.alloc (k : Kernel) : Nat := 8 * (k.vregs + 1)

/-- R127: branch states. -/
inductive BrState where
  | run | split | wait | gone
  deriving DecidableEq, Repr, Inhabited

/-- R127: a split record; VALID when listed. -/
structure Hinge where
  mask : Lane32 := 0
  parent : Nat := 0
  pbranch : Bool := true
  tst : BrState := .run
  fst : BrState := .run
  deriving DecidableEq, Repr, Inhabited

/-- R210, R213, R339: where one byte of an access lies: device memory, a cohort's scratchpad on a logical core, a context's tile area on a physical core, a window. -/
inductive Place where
  | dev (pa : Nat)
  | spad (cohort core off : Nat)
  | tile (core ctx off : Nat)
  | peer (pa : Nat)
  | host (pa : Nat)
  deriving DecidableEq, Repr, Inhabited

/-- A place a result goes: a scalar register, a register of one lane (248 and above in a bundle: a bypass name), a predicate bit, a queue port. -/
inductive Dst where
  | s (r : Nat)
  | v (r l : Nat)
  | p (k l : Nat)
  | chan (core ch entry : Nat)
  | freg (n : Nat)
  | tensor (n : Nat)
  | mem (at_ : Place)
  | flags
  deriving DecidableEq, Repr, Inhabited

/-- R278: a `waitv` that waits: what it compares, where it writes, when it began, the granule it watches, and the channel entries it pops when it completes (R279). -/
structure WaitV where
  flat : Bool := true
  addr : Nat := 0
  n : Nat := 8
  eq : Bool := false
  cmp : Nat := 0
  limit : Nat := 0
  dst : List Dst := []
  next : Word := 0
  t0 : Nat := 0
  since : Nat := 0
  granule : Option Nat := none
  woken : Bool := false
  pops : List (Nat × Nat × Nat) := []
  deriving DecidableEq, Repr, Inhabited

/-- Why a sub-wave issues nothing (R134). `peer` waits for the responses of the accesses that one instruction queued (R402). -/
inductive Hold where
  | run
  | atJoin
  | callx (slot : Nat) (tabled : Bool) (since : Nat) (woken : Bool)
  | waitv (q : WaitV)
  | kwait (toks : List Nat) (next : Word)
  | gate (g : Nat) (next : Word) (sync : Bool)
  | cwait (e : Nat)
  | gap (seq : Nat)
  | peer (issue : Nat) (next : Word) (pops : List (Nat × Nat × Nat))
  deriving DecidableEq, Repr, Inhabited

/-- R127: a sub-wave, listed under 2·parent + branch. -/
structure Sub where
  pc : Word := 0
  mask : Lane32 := 0
  hold : Hold := .run
  aged : Nat := 0
  deriving DecidableEq, Repr, Inhabited

/-- R199: an open loop level. -/
structure LoopLevel where
  firstit : Bool := true
  start : Word := 0
  remain : Nat := 0
  len : Nat := 0
  dreg : Nat := 255
  breg : Nat := 255
  deriving DecidableEq, Repr, Inhabited

/-- A result: where it goes and its bits. -/
structure Wr where
  dst : Dst
  val : Nat
  deriving DecidableEq, Repr, Inhabited

/-- A part of what a load reads: where it goes, which bits, and whether they come sign-extended. -/
structure LdPart where
  dst : Dst
  lo : Nat := 0
  n : Nat := 32
  sgn : Bool := false
  deriving DecidableEq, Repr, Inhabited

/-- R191: results of a bundle on their way: issued in cycle `issue`, in their places from `due`. A scratchpad load (`src`) takes its value when it lands, a store (`st`) writes then (R257); an `exact` store lands in cycle `due` and no other (R205). -/
structure Flight where
  wr : List Wr := []
  issue : Nat
  due : Nat
  landed : Bool := false
  src : Option (List Place × List LdPart) := none
  st : List (Place × Byte) := []
  exact : Bool := false
  since : Nat := 0
  unit : Nat := 0
  got : Tbl Byte := []
  deriving DecidableEq, Repr, Inhabited

/-- R194: a value a bypass name holds from `lo` to `hi`, written by an operation issued in cycle `issue` (log 34, DEDUCED). -/
structure Bypass where
  name : Nat
  lane : Nat
  val : Nat
  issue : Nat
  lo : Nat
  hi : Nat
  deriving DecidableEq, Repr, Inhabited

/-- R189: how the section runs the wave. -/
inductive Phase where
  | simt
  | converting (until_ : Nat)
  | bundle
  | ret (pc : Word)
  | ending
  | drain (t : Trap) (isAsync : Bool)
  | tretDrain (park : Bool)
  deriving DecidableEq, Repr, Inhabited

/-- R396 to R398: a gated scratchpad store. -/
structure Gated where
  cells : List (Place × Byte)
  issue : Nat
  unit : Nat := 0
  deriving DecidableEq, Repr, Inhabited

/-- R397: an undo-log entry: what to restore. -/
inductive Undo where
  | v (r : Nat) (vals : List Nat)
  | p (k : Nat) (val : Lane32)
  | s (r : Nat) (val : Word)
  deriving DecidableEq, Repr, Inhabited

/-- R396, R398: a pure region not yet committed: the address of its marked bundle, the cycle it began, the last cycle of its issue once it has ended, the loop levels at its mark, its gated stores, its undo log, and the committing words whose effect waits for it: the accesses, engine instructions and census slots that are gated. -/
structure Region where
  mark : Word := 0
  start : Nat := 0
  stop : Option Nat := none
  loops : List LoopLevel := []
  gate : List Gated := []
  undo : List Undo := []
  accs : List Nat := []
  engs : List Nat := []
  slots : List Nat := []
  deriving DecidableEq, Repr, Inhabited

/-- A fault found by a bundle's check after its issue (R400), with the results of the word that will not come. -/
structure Pending where
  t : Trap
  header : Word
  issue : Nat
  later : Bool := false
  res : List Dst := []
  deriving DecidableEq, Repr, Inhabited

/-- R181: what a bundle thread has besides the wave's state. `pure_` tells whether the last bundle belongs to a pure region (R396). -/
structure BunSt where
  pure_ : Bool := false
  loops : List LoopLevel := []
  flights : List Flight := []
  bypass : List Bypass := []
  regions : List Region := []
  claim : Bool := false
  claimWait : Bool := false
  gsyncHold : Option Nat := none
  firstAt : Nat := 0
  faults : List Pending := []
  mxWin : List (Nat × Nat × Nat) := []
  counters : Tbl Nat := []
  faultAddr : Word := 0
  lastHdr : Word := 0
  lastStamp : Nat := 0
  lastCyc : Nat := 0
  deriving DecidableEq, Repr, Inhabited

/-- R305: a token. -/
inductive Token where
  | done
  | pending (bad : Option (Nat × Word × Word))
  | failed (addr info : Word)
  deriving DecidableEq, Repr, Inhabited

/-- R379: the binding of a queue port. -/
structure PortBind where
  core : Nat
  chan : Nat
  write : Bool
  deriving DecidableEq, Repr, Inhabited

/-- A translated leaf's attributes (R218). -/
structure Attr where
  key : Nat := 0
  part : Nat := 0
  pol : Nat := 0
  ro : Bool := false
  deriving DecidableEq, Repr, Inhabited

/-- One byte of an access: where it lies, under which attributes, and the number of the granule that its own address falls in (R239). -/
structure AByte where
  at_ : Place
  attr : Attr := {}
  gran : Nat := 0
  deriving DecidableEq, Repr, Inhabited

/-- What an access does when it performs: `pack` rewrites the bits of a mask in the bytes `old` it has read first, none yet where that list is empty (R176); `slot` is the slot access of `callx`, `poll` a read of `waitv`. -/
inductive AKind where
  | load (parts : List LdPart)
  | store (data : List Byte)
  | pack (data mask old : List Byte)
  | discard
  | atomic (op : Nat) (b c : Word) (parts : List LdPart)
  | slot (link : List Dst)
  | poll
  | align
  | fence
  deriving DecidableEq, Repr, Inhabited

/-- R240: an access of a wave in its queues, in program order. `stage` is how far a store has come: 0 in the queue, 1 at die scope, 2 at package scope, 3 at system scope; a peer access is sent at stage 1 and waits for `need` frames. `got` holds the bytes of a load that have their values, or those of a store that are accepted, where it comes apart in units of `unit` bytes, 0 for a single-copy atomic access (R248); `seen` tells that a load has returned the store's bytes (R247). In a bundle `cyc` is the cycle of issue and `hdr` the bundle's header address. -/
structure Acc where
  id : Nat := 0
  issue : Nat := 0
  kind : AKind
  va : Nat := 0
  n : Nat := 1
  flat : Bool := true
  bytes : List AByte := []
  lane : Nat := 0
  ord : Nat := 0
  scope : Nat := 0
  stage : Nat := 0
  began : Option (List Nat) := none
  sub : Nat := 1
  need : Nat := 0
  got : Tbl Byte := []
  unit : Nat := 0
  seen : Bool := false
  bad : Option (Bool × Nat × Nat) := none
  sent : Nat := 0
  gated : Bool := false
  gap : Option Nat := none
  cyc : Nat := 0
  hdr : Word := 0
  deriving DecidableEq, Repr, Inhabited

/-- R315, R316: what a yielded wave waits for, and the cycle its `yield` issued in. -/
structure YieldSt where
  kind : Nat := 0
  idx : Nat := 0
  phase : Nat := 0
  toks : List Nat := []
  cont : Word := 0
  since : Nat := 0
  deriving DecidableEq, Repr, Inhabited

/-- R391: the handler state of a wave; `yield` is the yield whose resumption raised DIVERGE, which stays as it was (R431). -/
structure Handler where
  sub : Nat := 1
  mask : Lane32 := 0
  bundle : Bool := false
  migrate : Bool := false
  claim : Bool := false
  yield : Option YieldSt := none
  deriving DecidableEq, Repr, Inhabited

/-- R420: the stop record of a wave. -/
structure StopRec where
  seq : Nat := 0
  skid : Nat := 0
  flags : Nat := 0
  cause : Nat := 0
  pc : Word := 0
  stamp : Nat := 0
  imm : Nat := 0
  deriving DecidableEq, Repr, Inhabited

/-- What started a wave. -/
inductive Origin where
  | cohort
  | card (card : Nat) (record : Nat)
  | responder (stamp entry : Nat)
  deriving DecidableEq, Repr, Inhabited

/-- R403: a peer store that failed. -/
structure FailedStore where
  order : Nat
  timeout : Bool
  addr : Word
  rank : Nat
  fault : Nat
  deriving DecidableEq, Repr, Inhabited

/-- R28, R118, R127, R181, R240, R391: a wave with everything it holds. `still` counts the cycles a responder was stopped in, which its limit leaves out (R421); `endedAt` is the cycle it ended in; `began` the stores that the release of a responder's answer waits for, once it has begun (R356). -/
structure Wave where
  ctx : Nat := 0
  launch : Nat := 0
  cohort : Nat := 0
  origin : Origin := .cohort
  index : Nat := 0
  cohortIdx : Nat := 0
  launchId : Nat := 0
  core : Nat := 0
  sect : Nat := 0
  place : Nat := 0
  started : Nat := 0
  still : Nat := 0
  kernel : Kernel := {}
  conv : Bool := false
  code : List Host.Cell := []
  frame : Nat := 0
  -- control thread
  s : Tbl Word := []
  rm : Nat := 0
  ftz : Bool := false
  flags : Nat := 0
  ctxbase : Word := 0
  wdlimit : Word := 0
  tpc : Word := 0
  tcause : Word := 0
  taddr : Word := 0
  tinfo : Word := 0
  tvec : Word := 0
  -- lanes and sub-waves
  v : Tbl Lane32 := []
  p : Tbl Lane32 := []
  rootMask : Lane32 := 0
  hinge : Tbl Hinge := []
  subs : Tbl Sub := []
  wd : Nat := 0
  -- bundle thread
  phase : Phase := .simt
  bun : BunSt := {}
  -- tokens, records, formats, ports, gates
  toks : Tbl Token := []
  recs : Tbl (List Word) := []
  fregs : Tbl Word := []
  ports : Tbl PortBind := []
  wph : Tbl Nat := []
  yield_ : Option YieldSt := none
  -- memory
  accs : List Acc := []
  nextAcc : Nat := 0
  failed : List FailedStore := []
  owed : List Dst := []
  -- traps
  handler : Option Handler := none
  held : List (Cause × Word × Word) := []
  async : Option (Cause × Word × Word × Nat) := none
  parkReq : Option (Nat × Bool) := none
  preemptAt : Option Nat := none
  replayPos : Nat := 0
  ended : Bool := false
  endedAt : Nat := 0
  respFault : Bool := false
  answer : Option Word := none
  began : Option (List Nat) := none
  -- debug
  stopped : Bool := false
  stepping : Bool := false
  stepDeliver : Bool := false
  stepAsk : Bool := false
  stopRec : Option StopRec := none
  retired : Nat := 0
  deriving DecidableEq, Repr, Inhabited

/-- R430: how system software names a wave whose replay log it places: its kind, its launch and cohort, or pool record, or stamp and entry, and its index (log 29, DESIGN CHOICE). -/
def Wave.logName (v : Wave) : Nat × Nat × Nat × Nat :=
  match v.origin with
  | .cohort => (0, v.launchId, v.cohortIdx, v.index)
  | .card _ record => (1, v.launchId, record, 0)
  | .responder stamp entry => (2, stamp, entry, 0)

/-- R319: the work a wave belongs to: its launch, its card, or the responder it is. -/
def Wave.work (v : Wave) : Nat :=
  match v.origin with
  | .cohort => 3 * v.launch
  | .card c _ => 3 * c + 1
  | .responder stamp entry => 3 * (65536 * stamp + entry) + 2

end Sys2Proof.Machine
end

