-- ==== Sys2Proof/Machine/DeviceTypes.lean ====
section
/-! DEFINITION. The plain data of what waves share: cohorts, contexts, cores, dies (R121, R210, R216, R226, R361). -/

namespace Sys2Proof.Machine

/-- R226, R227: a line in a core's L1 or a remote cache, with the policy of the access that filled it (log 88, DEDUCED). -/
structure L1Line where
  key : Nat := 0
  pol : Nat := 0
  ro : Bool := false
  bytes : List Byte := []
  deriving DecidableEq, Repr, Inhabited

/-- R219: what a walk answers for one address: the physical address, the leaf's fields, and the bits that the page's size takes of an address. -/
structure Leaf where
  pa : Nat := 0
  size : Nat := 12
  key : Nat := 0
  part : Nat := 0
  pol : Nat := 0
  h : Bool := false
  x : Bool := false
  w : Bool := false
  r : Bool := false
  deriving DecidableEq, Repr, Inhabited

/-- R222: a TLB entry, one leaf of any page size: context, first virtual address, the leaf at the page's first byte (log 88, DEDUCED). -/
structure TlbEntry where
  ctx : Nat
  base : Nat
  leaf : Leaf
  deriving DecidableEq, Repr, Inhabited

/-- R223: memory as it was when a range of a context was last invalidated on a core: its tables give the old translations there (log 88, DEDUCED). -/
structure Snap where
  ctx : Nat := 0
  va : Nat := 0
  n : Nat := 2 ^ 64
  mem : List Host.Cell := []
  deriving DecidableEq, Repr, Inhabited

/-- R222, R223: what an agent looks the addresses of a context up in: the entries its TLB holds, the old tables. -/
structure View where
  tlb : List TlbEntry := []
  snaps : List Snap := []
  deriving DecidableEq, Repr, Inhabited

/-- R245: a store a die accepted that is not yet performed at package scope: its bytes with their keys. -/
structure DieStore where
  id : Nat
  wave : Nat
  acc : Nat
  cells : List (Nat × Byte × Nat)
  home : Bool := false
  deriving DecidableEq, Repr, Inhabited

/-- R230: a pinned line's context, partition and way. -/
structure PinRec where
  ctx : Nat
  part : Nat
  way : Nat := 0
  deriving DecidableEq, Repr, Inhabited

/-- R311: a gate's state word. -/
structure Gate where
  phase : Nat := 0
  count : Nat := 0
  expect : Nat := 0
  nextV : Bool := false
  nextExp : Nat := 0
  err : Bool := false
  deriving DecidableEq, Repr, Inhabited

/-- R213: a cohort's scratchpad on one core: where the dispatcher placed it, its bytes, and the 64-byte lines that a migration has brought to another physical core (R445). -/
structure SpadAlloc where
  base : Nat := 0
  size : Nat := 0
  bytes : Tbl Byte := []
  poison : List Nat := []
  away : Tbl Nat := []
  deriving DecidableEq, Repr, Inhabited

/-- R379: an entry of a channel: its value once pushed, and the last cycle in which it arrives. -/
structure ChanEntry where
  id : Nat
  val : Option Word := none
  due : Nat := 0
  arrived : Bool := false
  deriving DecidableEq, Repr, Inhabited

/-- A section's mode and issue history (R116, R135). -/
structure Sect where
  last : Option (Nat × Nat) := none
  issuedAt : Option Nat := none
  deriving DecidableEq, Repr, Inhabited

/-- R415, R417: a die's watchpoints and its watch ring. -/
structure WatchUnit where
  wctl : Tbl Word := []
  waddr : Tbl Word := []
  base : Nat := 0
  size : Nat := 0
  rd : Nat := 0
  wr : Nat := 0
  lost : Nat := 0
  seq : Nat := 0
  deriving DecidableEq, Repr, Inhabited

/-- R428: a mark that waits in a trace unit's queue, with the cycle it issued in. -/
structure TraceMark where
  imm : Nat := 0
  place : Nat := 0
  bundle : Bool := false
  at_ : Nat := 0
  deriving DecidableEq, Repr, Inhabited

/-- R427, R428: a core's trace buffer, and the marks that its unit has still to write. -/
structure TraceUnit where
  queue : List TraceMark := []
  base : Nat := 0
  size : Nat := 0
  ring : Bool := false
  on : Bool := false
  stopped : Bool := false
  first : Bool := true
  pos : Nat := 0
  lost : Nat := 0
  last : Nat := 0
  deriving DecidableEq, Repr, Inhabited

/-- R419: a stop on its way through the beacon tree: its event, its stop group, the cores it has reached, how many instructions or bundles each wave had issued by the end of the event cycle, and whether a STOP command waits for it. -/
structure Fog where
  seq : Nat
  cycle : Nat
  core : Nat
  ctx : Nat
  cause : Nat
  wave : Option Nat := none
  brk : Nat := 0
  group : Nat := 0
  ask : Bool := false
  reached : List Nat := []
  base : Tbl Nat := []
  deriving DecidableEq, Repr, Inhabited

/-- What a read of the peer or host window outside a wave's queues is for: the code of a wave, an instruction that waits at issue, an image that an engine instruction reads, a header of a context's kernel (R402, R478) (log 113, DESIGN CHOICE). -/
inductive WinFor where
  | code (w : Nat)
  | sub (w x : Nat)
  | eng (k : Nat)
  | header (ctx va : Nat)
  deriving DecidableEq, Repr, Inhabited

/-- A read of the peer or host window that has been sent, with its answer: the bytes, or the fault bits of the target (log 113, DESIGN CHOICE). -/
structure WinRead where
  who : WinFor
  pa : Nat
  n : Nat
  sent : Nat := 0
  bytes : Option (List Byte) := none
  bad : Option Nat := none
  deriving DecidableEq, Repr, Inhabited

/-- What an unacknowledged frame belongs to: an access of a wave with the place of its first byte, an engine instruction, a census, a collective, a read outside the queues, the completion word of a launch with its status, a record to the host by its number in `State.out`. -/
inductive TxFor where
  | acc (w k at_ n : Nat)
  | eng (k at_ n : Nat)
  | census (stamp : Nat)
  | coll
  | win (who : WinFor) (pa : Nat)
  | compl (ctx launch status : Nat)
  | msg (i : Nat)
  deriving DecidableEq, Repr, Inhabited

/-- R449: a frame sent and not acknowledged or answered. -/
structure TxFrame where
  ty : Nat
  fr : Frame
  op : FrameOp := {}
  sent : Nat := 0
  tries : Nat := 0
  tx : TxFor := .coll
  deriving DecidableEq, Repr, Inhabited

end Sys2Proof.Machine
end

