-- ==== Sys2Proof/Machine/EngineTypes.lean ====
section
/-! DEFINITION. The plain data of the engines: engine instructions issued and not complete, tensor records, gaps (R224, R293, R302, R306). -/

namespace Sys2Proof.Machine

/-- R294: a valid tensor record's fields. -/
structure TRec where
  gbase : Word := 0
  spbase : Nat := 0
  clip : Bool := false
  ndim : Nat := 0
  esz : Nat := 0
  e : List Nat := []
  gs : List Word := []
  ss : List Nat := []
  glim0 : Nat := 0
  glim1 : Nat := 0
  deriving DecidableEq, Repr, Inhabited

/-- R306: a consumed token as it stood at issue: the engine instructions still to complete it, and a failure. -/
structure Dep where
  tok : Nat
  ops : List Nat
  bad : Option (Nat × Word × Word)
  deriving DecidableEq, Repr, Inhabited

/-- R453, R454: a contribution that has arrived under a TAG of a domain: its member's rank, what its descriptor names, its elements. -/
structure CollIn where
  dom : Nat := 0
  tag : Nat := 0
  rank : Nat := 0
  count : Nat := 1
  ty : Nat := 0
  op : Nat := 0
  mode : Nat := 0
  members : Nat := 0
  bytes : List Byte := []
  deriving DecidableEq, Repr, Inhabited

/-- R449: a frame that has arrived. -/
structure RxFrame where
  ty : Nat := 0
  fr : Frame := {}
  op : FrameOp := {}
  deriving DecidableEq, Repr, Inhabited

/-- R452: a collective descriptor as read at issue, with the bytes of SRC read and the frames a peer or the host has still to answer (R453); whether the contribution has gone, and whether the end only waits for what it stored in a window. -/
structure CollDesc where
  at_ : Word := 0
  src : Word := 0
  dst : Word := 0
  count : Nat := 1
  ty : Nat := 0
  op : Nat := 0
  mode : Nat := 0
  members : Nat := 0
  tag : Nat := 0
  got : Tbl Nat := []
  wait : List Nat := []
  given : Bool := false
  closing : Bool := false
  deriving DecidableEq, Repr, Inhabited

/-- R347: the step of a move that comes next, with the destination and its entry, and its handoff stamp. -/
structure MoveSt where
  entry : Nat := 0
  dst : Nat := 0
  off : Nat := 0
  step : Nat := 1
  dentry : Nat := 0
  d : Nat := 0
  stamp : Nat := 0
  left : List Nat := []
  res : List Dst := []
  card : Option Nat := none
  refuse : Nat := 0
  deriving DecidableEq, Repr, Inhabited

/-- R336: the matrix state that an instruction of a bundle read at issue. -/
structure MxIn where
  acc : List Nat := []
  station : List Nat := []
  stage : List Nat := []
  proj : List Nat := []
  deriving DecidableEq, Repr, Inhabited

/-- What a matrix or latent instruction reads and writes (R327 to R334): its kind (0 mbld, 1 mma, 2 mclr, 3 mst, 4 mlat, 5 jld), its control field, and what it took at issue: record, value of C, format registers, `.reg` rows, the buffer's rank and type; in a bundle the matrix state read, the cycle its bound ends, and the tile computed; of a load from the peer window whether its frames are sent, those not answered, and the bytes that have come. -/
structure MxOp where
  k : Nat := 0
  ctl : Nat := 0
  r : TRec := {}
  c : Word := 0
  fa : Word := 0
  fb : Word := 0
  reg : List Nat := []
  rank : Nat := 0
  f16 : Bool := false
  inp : Option MxIn := none
  due : Nat := 0
  landed : Bool := false
  res : Option (List Nat) := none
  asked : Bool := false
  wait : List Nat := []
  peer : Tbl Byte := []
  deriving DecidableEq, Repr, Inhabited

/-- What an engine instruction does once begun: `moved` are the chunks or elements it has moved, `wait` those a peer has not answered, one entry for each frame; `arr` is an arrival of a bundle that waits for its release. -/
inductive EPay where
  | tcopy (st : Bool) (r : TRec) (goff : Word) (soff : Nat) (moved wait : List Nat)
  | kjoin
  | garr (g : Nat)
  | arr (g phase : Nat)
  | vlds (g : Nat) (elems : List (List AByte × List Place)) (moved wait : List Nat)
  | move (m : MoveSt)
  | mx (m : MxOp)
  | coll (d : CollDesc)
  | reg (key : Word) (off len : Nat) (res : List Dst)
  | post (bytes : List AByte) (res : List Dst)
  deriving DecidableEq, Repr, Inhabited

/-- An engine instruction that has issued and not completed (R238, R306). -/
structure EngOp where
  wave : Nat
  ctx : Nat := 0
  core : Nat := 0
  sect : Nat := 0
  issue : Nat := 0
  deps : List Dep := []
  out : Option Nat := none
  begun : Bool := false
  pay : EPay
  fences : List Nat := []
  mark : Nat := 0
  gap : Option Nat := none
  fault : Option (Word × Word) := none
  gated : Bool := false
  prior : Token := .done
  deriving DecidableEq, Repr, Inhabited

/-- R224: a gap the driver has not answered. -/
structure Gap where
  va : Word := 0
  since : Nat := 0
  kind : Nat := 0
  by_ : Nat := 0
  wave : Option (Nat × Nat) := none
  eng : Option Nat := none
  trap : Trap := {}
  unmapped : Bool := false
  deriving DecidableEq, Repr, Inhabited

/-- R340: the states of a live keyring entry. -/
inductive KSt where
  | resident | pinned | lent | arriving
  deriving DecidableEq, Repr, Inhabited

/-- R340: a live keyring entry; `handed` once S is recorded, `mig` the cohort and logical core of a migration entry (R444), `upTo` the handoff stamp of the move that brought the tile, until the core has accepted it: its source answers solicits up to there (R353). -/
structure KeyEntry where
  key : Word := 0
  st : KSt := .resident
  peer : Nat := 0
  len : Nat := 0
  off : Nat := 0
  stamp : Nat := 0
  owner : Nat := 0
  ctx : Nat := 0
  handed : Bool := false
  mig : Option (Nat × Nat) := none
  upTo : Option Nat := none
  deriving DecidableEq, Repr, Inhabited

/-- R349, R351: a solicit with its stamp. -/
structure Solicit where
  stamp : Nat := 0
  ctx : Nat := 0
  core : Nat := 0
  scope : Nat := 0
  key : Word := 0
  mask : Word := 0
  arg : Word := 0
  hdr : Word := 0
  deriving DecidableEq, Repr, Inhabited

/-- R352: a pending match: the entry, the core whose answer it counts in, its responder once running, and whether the entry has become FREE since (R340). -/
structure Match where
  so : Solicit
  entry : Nat
  ansCore : Nat
  wave : Option Nat := none
  gone : Bool := false
  deriving DecidableEq, Repr, Inhabited

/-- R352, R354: a deferral of an arriving entry. -/
structure Defer where
  so : Solicit
  entry : Nat
  deriving DecidableEq, Repr, Inhabited

/-- R357, R358: what a core has for one census: its responses by entry, the matches counted, the faults. -/
structure CAns where
  resp : List (Nat × Word) := []
  matches_ : Nat := 0
  flt : Bool := false
  deriving DecidableEq, Repr, Inhabited

/-- R357, R358: the answer of a peer package. -/
structure PeerAns where
  rank : Nat
  value : Word
  matches_ : Nat
  answers : Nat
  flt : Bool
  deriving DecidableEq, Repr, Inhabited

/-- R358: a census slot that is not IDLE. -/
structure CSlot where
  done : Bool := false
  value : Word := 0
  status : Word := 0
  cohort : Nat := 0
  scope : Nat := 0
  wave : Option Nat := none
  deriving DecidableEq, Repr, Inhabited

/-- R351, R358: a census at the root: its solicit, its slot and operation, the wave that opened it with the accesses its release covers and the cycle of its issue, what its slot was before, for an inbound one the peer that asked and its own tag; then who has accepted, who has answered, what. -/
structure Census where
  so : Solicit := {}
  slot : Nat := 0
  comb : Nat := 0
  opener : Option Nat := none
  mark : Nat := 0
  issue : Nat := 0
  prior : Option CSlot := none
  began : Option (List Nat) := none
  gated : Bool := false
  stamped : Bool := false
  fromPeer : Option (Nat × Nat) := none
  cores : Tbl CAns := []
  accepted : List Nat := []
  answered : List Nat := []
  peers : List Nat := []
  peerAns : List PeerAns := []
  pto : Bool := false
  since : Nat := 0
  deriving DecidableEq, Repr, Inhabited

/-- R318, R319: the matrix state of a core, of the context it last served: accumulators (64 rows), stations (128 columns), staging tiles (64 rows), projection buffers (their rows), each row or column one number; a station column with bit 256 set holds canonical NaNs (R337); ranks with T = `.f16`; the cycle of the last `mma`, and of the last into each accumulator (R198); `own`, the work it was zeroed for, and `by_`, the work that last wrote each piece (R319, log 35). -/
structure Matrix where
  ctx : Option Nat := none
  acc : Tbl (List Nat) := []
  station : Tbl (List Nat) := []
  stage : Tbl (List Nat) := []
  proj : Tbl (List Nat) := []
  rank : Tbl (Nat × Bool) := []
  lastMma : Option Nat := none
  accMma : Tbl Nat := []
  own : Nat := 0
  by_ : Tbl Nat := []
  deriving DecidableEq, Repr, Inhabited

end Sys2Proof.Machine
end

