-- ==== Sys2Proof/Machine/DispatchTypes.lean ====
section
/-! DEFINITION. The plain data of the dispatchers, of parked cohorts, of heat, bring-up and the host session (R362 to R378, R406 to R409, R442, R479 to R485). -/

namespace Sys2Proof.Machine

/-- R121: a cohort that has a place; `waves` are those that have not ended, of `total` (R410). `cls` is the class of its launch or card (R376), `conv` a SPLIT with a code of 10 or 11 (R441). -/
structure Cohort where
  ctx : Nat := 0
  launch : Nat := 0
  index : Nat := 0
  threads : Nat := 0
  quad : Nat := 0
  spad : Tbl SpadAlloc := []
  gates : Tbl Gate := []
  waves : List Nat := []
  kernel : Kernel := {}
  qlock : Bool := false
  migr : Bool := false
  migReq : List Nat := []
  recNo : Nat := 0
  card : Option Nat := none
  total : Nat := 0
  cls : Nat := 3
  conv : Bool := false
  deriving DecidableEq, Repr, Inhabited

/-- R362, R369: a launch whose record has been read. `placed` counts by die the cohorts placed, `left` the cohorts not ended, `readAt` the step that read its record, `status` is the completion status once decided, `held` the stores its completion word still waits for (R250, R366). -/
structure Launch where
  ctx : Nat := 0
  id : Nat := 0
  cls : Nat := 0
  qlock : Bool := false
  migr : Bool := false
  gang : Bool := false
  split : Nat := 0
  dies : Nat := 0
  cores : Nat := 1
  hdr : Word := 0
  arg : Word := 0
  grid : Nat := 0
  threads : Nat := 0
  deps : List Nat := []
  compl : Word := 0
  kernel : Kernel := {}
  code : List Host.Cell := []
  deadline : Nat := 0
  order : Nat := 0
  placed : Tbl Nat := []
  left : Nat := 0
  readAt : Nat := 0
  status : Option Nat := none
  held : List Nat := []
  deriving DecidableEq, Repr, Inhabited

/-- R370 to R374: a card queued or started. `core` with `sect`, `place` and the scratchpad `base` is the choice of R371, `moving` the tiles whose move is open, `range` the range slot (lo, hi, grain), `pins` the operand entries this card pinned on `pinCore`. -/
structure Card where
  ctx : Nat := 0
  cls : Nat := 0
  stream : Nat := 0
  entry : Word := 0
  deadline : Nat := 0
  arg : Word := 0
  tiles : List (Word × Nat) := []
  range : Option (Nat × Nat × Nat) := none
  kernel : Kernel := {}
  order : Nat := 0
  core : Option Nat := none
  sect : Nat := 0
  place : Nat := 0
  base : Nat := 0
  recNo : Nat := 0
  moving : List Nat := []
  wave : Option Nat := none
  pins : List Nat := []
  pinCore : Nat := 0
  since : Option Nat := none
  deriving DecidableEq, Repr, Inhabited

/-- R406 to R409: a cohort that is parked: its record's address, what the record does not hold of it, its waves as they were, who wrote the matrix state of each core it left (log 35), and the station columns there that hold canonical NaNs (R337). -/
structure Parked where
  co : Cohort := {}
  recNo : Nat := 0
  waves : List Wave := []
  slots : List (Nat × List Nat) := []
  cores : List Nat := []
  owners : Tbl (Nat × Tbl Nat) := []
  marks : Tbl (List (Nat × Nat)) := []
  deriving DecidableEq, Repr, Inhabited

/-- R375: a wave place of a physical core that has freed while a cohort of a launch waits at the head of its context's order on that die, and that this launch has taken: its section, the registers per lane, the launch by the number of its record, the context (log 39, DEDUCED). -/
structure Taken where
  core : Nat := 0
  sect : Nat := 0
  regs : Nat := 0
  ord : Nat := 0
  ctx : Nat := 0
  deriving DecidableEq, Repr, Inhabited

/-- R442, R485: the quads at half rate, the quads with a migration request, the package power limit, the trip (log 87, DESIGN CHOICE). -/
structure Heat where
  half : List Nat := []
  hot : List Nat := []
  power : Bool := false
  tripped : Bool := false
  deriving DecidableEq, Repr, Inhabited

/-- R479: the states of bring-up. -/
inductive BootState where
  | root | train | link | session | attest | ready | failRoot | failMem
  deriving DecidableEq, Repr, Inhabited

/-- R479, R482: how far bring-up has come, the firmware image's digest and security version, the links that are up (port 16 is the host port), the peer ports that stay down, the cycle of the host port's next try, the session, and by how much firmware has raised the anti-rollback count (R480) (log 87, DESIGN CHOICE). -/
structure Boot where
  st : BootState := .root
  digest : List Byte := []
  version : Nat := 0
  links : List Nat := []
  down : List Nat := []
  retry : Option Nat := none
  session : Option Nat := none
  fuses : Nat := 0
  deriving DecidableEq, Repr, Inhabited

/-- R448: a grant. -/
structure Grant where
  tag : Nat := 0
  key : Nat := 0
  part : Nat := 0
  valid : Bool := false
  r : Bool := false
  w : Bool := false
  pol : Nat := 0
  base : Nat := 0
  limit : Nat := 0
  deriving DecidableEq, Repr, Inhabited

/-- R484: a command that waits: a PREEMPT of cohorts, a save or restore of a context's area for a core. -/
inductive HostWait where
  | preempt (cohorts : List Nat)
  | save (ctx core : Nat)
  | restore (ctx core : Nat)
  deriving DecidableEq, Repr, Inhabited

/-- R483: a command of the host as the device holds it, one for each step of the table; `t` and `r` are what the table of CTX_SET and the selector name. -/
inductive HostCmd where
  | openSession (p : Payload) | status (p : Payload) | attest (p : Payload) | ctxSet (p : Payload) (t : CtxTable) | streamWrite (p : Payload) | invalidate (p : Payload) | preempt (p : Payload)
  | coreSave (p : Payload) | coreRestore (p : Payload) | gapAnswer (p : Payload) | keyLoad (p : Payload) | keyRetire (p : Payload) | partitionSet (p : Payload)
  | grantSetHost (p : Payload) | grantSetInbound (p : Payload) | grantSetRoute (p : Payload) | grantSetRank (p : Payload) | debugWrite (p : Payload) (r : DebugReg) | debugRead (p : Payload) (r : DebugSrc)
  | stop (p : Payload) | step (p : Payload) | resume (p : Payload) | unknown (opcode : Nat) (p : Payload)
  deriving DecidableEq, Repr, Inhabited

/-- R483: what system software loaded and granted: key pairs by index, inbound and host grants; the command that waits; the commands held behind one that waits, in order (R484); the frames of other EtherTypes dropped (R476). -/
structure HostSide where
  keys : Tbl (List Byte) := []
  inbound : Tbl Grant := []
  hostGrants : Tbl Grant := []
  waiting : Option HostWait := none
  dropped : Nat := 0
  queue : List HostCmd := []
  deriving DecidableEq, Repr, Inhabited

end Sys2Proof.Machine
end

