-- ==== Sys2Proof/Machine/State.lean ====
section
/-! DEFINITION. The whole state of one N7 as plain data, its state after reset, and the reasons a step stops. -/

namespace Sys2Proof.Machine

/-- R483: a context that CTX_SET installed, with what it has in use; `mem0` is memory as CTX_SET found it (R223), `recent` the identifiers of its last 256 launches, the latest first (R367), `saved` the logical cores whose area holds what its last wave left there, with the channels as they were (R406). -/
structure Ctx where
  t : CtxTable := {}
  gapSeq : Nat := 0
  gaps : Tbl Gap := []
  dbgWord : Word := 0
  faulted : Option (Nat × Nat) := none
  readIdx : Nat := 0
  writeIdx : Nat := 0
  hist : List (Nat × Nat × Nat) := []
  recent : List Nat := []
  posts : List (Nat × List Byte) := []
  code : Tbl (Nat × List Host.Cell) := []
  mem0 : List Host.Cell := []
  saved : Tbl (Tbl (List ChanEntry)) := []
  deriving DecidableEq, Repr, Inhabited

/-- What one physical core holds. -/
structure Core where
  l1 : Tbl L1Line := []
  tlb : List TlbEntry := []
  walk : List TlbEntry := []
  snaps : List Snap := []
  sects : Tbl Sect := []
  tiles : Tbl SpadAlloc := []
  lastCtx : Option Nat := none
  chans : Tbl (List ChanEntry) := []
  nextEntry : Nat := 0
  trace : TraceUnit := {}
  keyring : Tbl KeyEntry := []
  hiStamp : Nat := 0
  seen : Nat := 0
  matches_ : List Match := []
  defers : List Defer := []
  slots : Tbl CSlot := []
  mx : Matrix := {}
  deriving DecidableEq, Repr, Inhabited

/-- What one die holds. -/
structure Die where
  remote : Tbl L1Line := []
  pend : List DieStore := []
  partition : Tbl Nat := []
  watch : WatchUnit := {}
  traceBytes : Nat := 0
  deriving DecidableEq, Repr, Inhabited

/-- A record the device sent to the host. -/
inductive HostMsg where
  | gap (record : List Byte)
  | ctxFault (ctx frame cause : Nat)
  | badRecord (ctx index : Nat)
  | launchRead (ctx index info : Nat)
  | complFault (ctx launch status info : Nat)
  | card (stream reason info : Nat)
  | trip
  | lost (die : Nat)
  | traceLost (core : Nat)
  | reply (opcode status : Nat) (results : List Byte)
  | frame (fr : Frame)
  deriving DecidableEq, Repr, Inhabited

/-- R447, R449: what the device knows of its peers: its rank, the route table, the next sequence number to each rank and from each rank, frames not acknowledged, frames held behind a gap, the answers sent with the rank and number of what they answer, contributions to collectives, reads of the windows under way, the event ring; commands held behind a gap of the host's series, how many of `State.out` have been given to the port, which of them the host port has sent, in order, and what firmware's frames of the last millisecond took (R477, R485) (log 87, DESIGN CHOICE). -/
structure Net where
  rank : Option Nat := none
  routes : Tbl Nat := []
  txSeq : Tbl Nat := []
  rxSeq : Tbl Nat := []
  tx : List TxFrame := []
  held : List RxFrame := []
  replies : List (Nat × Nat × Nat × Frame) := []
  colls : List CollIn := []
  reads : List WinRead := []
  ringBase : Nat := 0
  ringSize : Nat := 0
  ringAt : Nat := 0
  ringSeq : Nat := 0
  early : List (Nat × HostCmd) := []
  told : Nat := 0
  wire : List Nat := []
  sent : List (Nat × Nat) := []
  deriving DecidableEq, Repr, Inhabited

/-- The state of the N7. `inputs` is what the world outside sends, each with the cycle it comes in; `agenda`, `cur`, `wlog` and `fresh` are the model's own (log 2, 3). -/
structure State where
  clock : Nat := 0
  fresh : Nat := 0
  agenda : List Instr := []
  inputs : List (Nat × Instr) := []
  cur : Option (Nat × Nat) := none
  waves : Tbl Wave := []
  nextWave : Nat := 0
  cohorts : Tbl Cohort := []
  ctxs : Tbl Ctx := []
  cores : Tbl Core := []
  dies : Tbl Die := []
  remap : Tbl Nat := []
  mem : List Host.Cell := []
  wlog : List Host.Cell := []
  unspec : List Nat := []
  lineKey : Tbl Nat := []
  poison : List Nat := []
  pins : Tbl PinRec := []
  eng : Tbl EngOp := []
  nextEng : Nat := 0
  nextDs : Nat := 0
  censuses : List Census := []
  lastStamp : Nat := 0
  solicits : List Solicit := []
  launches : Tbl Launch := []
  cards : Tbl Card := []
  parked : Tbl Parked := []
  taken : List Taken := []
  nextCohort : Nat := 0
  order : Nat := 0
  temps : Tbl Nat := []
  heat : Heat := {}
  boot : Boot := {}
  host : HostSide := {}
  fogs : List Fog := []
  stops : List Fog := []
  fogSeq : Nat := 1
  net : Net := {}
  out : List HostMsg := []
  deriving DecidableEq, Repr, Inhabited

/-- The reasons the machine stops with a fault. -/
inductive Fault where
  /-- Raised by `step` in a state whose memory lists a byte at an address that R210 reserves; safe: no step from reset leaves such a byte. -/
  | addressSpace (pa : Nat)
  deriving DecidableEq, Repr, Inhabited

/-- The reasons a step has no next state. -/
inductive Refusal where
  /-- Raised by an arm of `exec` whose instruction has no meaning yet; safe. -/
  | notModelled (mnemonic : String)
  /-- Raised by an instruction executed while no wave issues one; safe: no device does that. -/
  | noIssuer
  /-- Raised by a device step whose condition does not hold in the state; safe: the device takes no such step. -/
  | notEnabled
  deriving DecidableEq, Repr, Inhabited

/-- R479: the machine right after reset (log 1, DESIGN CHOICE; log 87, DESIGN CHOICE). -/
def State.reset : State := {}

end Sys2Proof.Machine
end

