-- ==== Sys2Proof/Machine/Ops.lean ====
section
/-! DEFINITION. The named operations over memory, waves, registers and tables that every meaning uses; the end of a step; taking a trap and returning from one (R391, R394, R395). -/

namespace Sys2Proof.Machine

/-- The outcome of a step of this machine. -/
abbrev Out := Host.Outcome State Fault Refusal

/-- R4: the free value of the current step in place `tag` (log 2, DESIGN CHOICE). -/
def free (s : State) (tag : Nat) : Nat := Config.freeValue s.fresh tag

/-- A free choice of the current step between two outcomes the manual allows (log 2, DESIGN CHOICE). -/
def freeBool (s : State) (tag : Nat) : Bool := Config.freeValue s.fresh tag % 2 = 1

/-- R210: whether an address lies in near or LP6 memory (log 45, DESIGN CHOICE). -/
def inDevice (pa : Nat) : Bool :=
  (decide (pa < 4 * 0x1000000000) && decide (pa % 0x1000000000 < 0xC00000000)) || (decide (0x20000000000 ≤ pa) && decide (pa < 0x40000000000))

/-- The byte of device memory at a physical address: the step's own writes first, then memory; a byte nothing has written reads as 0 (log 1), a reserved address holds none (log 45). -/
def rdByte (s : State) (pa : Nat) : Byte := if inDevice pa then (s.wlog.lookup pa).getD (tblGet 0 s.mem pa) else BitVec.ofNat 8 (free s (2 ^ 58 + pa))

/-- A byte of device memory written by this step. -/
def wrByte (s : State) (pa : Nat) (b : Byte) : State := { s with wlog := (pa, b) :: s.wlog, unspec := s.unspec.filter (· ≠ pa) }

/-- `n` bytes of device memory from a physical address. -/
def rdBytes (s : State) (pa : Nat) : Nat → List Byte
  | 0 => []
  | n + 1 => rdByte s pa :: rdBytes s (pa + 1) n

/-- Bytes written from a physical address on. -/
def wrBytes (s : State) (pa : Nat) : List Byte → State
  | [] => s
  | b :: r => wrBytes (wrByte s pa b) (pa + 1) r

/-- The little-endian number of `n` bytes of device memory. -/
def rdNat (s : State) (pa n : Nat) : Nat := leNat (rdBytes s pa n)

/-- A number written as `n` little-endian bytes. -/
def wrNat (s : State) (pa n x : Nat) : State := wrBytes s pa (leBytes n x)

/-- A byte put into memory, in its canonical form; a reserved address takes none (R210; log 45) (log 1, DESIGN CHOICE). -/
def memPut (m : List Host.Cell) (a : Nat) (b : Byte) : List Host.Cell := if inDevice a then tblSet 0 m a b else m

/-- The step's writes, oldest last, performed on memory. -/
def memApply (m : List Host.Cell) : List Host.Cell → List Host.Cell
  | [] => m
  | (a, b) :: r => memPut (memApply m r) a b

/-- The canonical form of memory: addresses of device memory (R210), strictly rising, no byte listed that reads as an unlisted one does. -/
def Memory.wf (m : List Host.Cell) : Bool := tblWf 0 m && m.all (fun c => inDevice c.1)

/-- The end of a step that began in `s`: its writes are performed on the memory it began with, and the next step draws fresh free values (log 2; log 3, DESIGN CHOICE). -/
def finish (s t : State) : State := { t with mem := memApply s.mem t.wlog, wlog := [], fresh := s.fresh + 1, cur := none }

/-- A step that ends in the next state `t`. -/
def nextOf (s t : State) : Out := .next (finish s t)

/-- R442: the physical core of a logical one. -/
def physCore (s : State) (c : Nat) : Nat := tblGet c s.remap c

/-- R440: the die of a core. -/
def dieOf (c : Nat) : Nat := c / 80

/-- R31: the quad of a core. -/
def quadOf (c : Nat) : Nat := c / 4

/-- A physical core's contents. -/
def coreAt (s : State) (p : Nat) : Core := tblGet {} s.cores p

/-- A physical core's contents changed. -/
def modCore (s : State) (p : Nat) (f : Core → Core) : State := { s with cores := tblPut s.cores p (f (coreAt s p)) }

/-- A die's contents. -/
def dieAt (s : State) (d : Nat) : Die := tblGet {} s.dies d

/-- A die's contents changed. -/
def modDie (s : State) (d : Nat) (f : Die → Die) : State := { s with dies := tblPut s.dies d (f (dieAt s d)) }

/-- A wave's state, where it exists. -/
def waveAt (s : State) (w : Nat) : Option Wave := tblFind s.waves w

/-- A wave's state changed. -/
def modWave (s : State) (w : Nat) (f : Wave → Wave) : State := { s with waves := tblMod s.waves w f }

/-- A context's state. -/
def ctxAt (s : State) (c : Nat) : Ctx := tblGet {} s.ctxs c

/-- A context's state changed. -/
def modCtx (s : State) (c : Nat) (f : Ctx → Ctx) : State := { s with ctxs := tblMod s.ctxs c f }

/-- A cohort's state changed. -/
def modCohort (s : State) (c : Nat) (f : Cohort → Cohort) : State := { s with cohorts := tblMod s.cohorts c f }

/-- A section of a core changed. -/
def modSect (s : State) (p k : Nat) (f : Sect → Sect) : State :=
  modCore s p (fun c => { c with sects := tblPut c.sects k (f (tblGet {} c.sects k)) })

/-- A record sent to the host (R477). -/
def tellHost (s : State) (m : HostMsg) : State := { s with out := s.out ++ [m] }

/-- R225: a gap record. -/
def gapRecord (ctx seq core initiator kind : Nat) (va : Word) : List Byte :=
  leBytes 8 va.toNat ++ leBytes 4 ctx ++ leBytes 2 core ++ leBytes 1 initiator ++ leBytes 1 kind ++ leBytes 8 seq ++ leBytes 8 0

/-- R28: scalar register r. -/
def Wave.getS (v : Wave) (r : Nat) : Word := tblGet 0 v.s r

/-- R30: scalar register r written. -/
def Wave.setS (v : Wave) (r : Nat) (x : Word) : Wave := { v with s := tblSet 0 v.s r x }

/-- R118: vector register r of lane l. -/
def Wave.getV (v : Wave) (r l : Nat) : Lane32 := tblGet 0 v.v (32 * r + l)

/-- Vector register r of lane l written. -/
def Wave.setV (v : Wave) (r l : Nat) (x : Lane32) : Wave := { v with v := tblSet 0 v.v (32 * r + l) x }

/-- R123: predicate k as a lane mask; p7 reads as ones. -/
def Wave.getP (v : Wave) (k : Nat) : Lane32 := if k = 7 then BitVec.allOnes 32 else tblGet 0 v.p k

/-- R123: predicate k written; a write to p7 is discarded. -/
def Wave.setP (v : Wave) (k : Nat) (x : Lane32) : Wave := if k = 7 then v else { v with p := tblSet 0 v.p k x }

/-- One bit of a predicate written. -/
def Wave.setPBit (v : Wave) (k l : Nat) (b : Bool) : Wave :=
  v.setP k (if b then v.getP k ||| BitVec.ofNat 32 (2 ^ l) else v.getP k &&& ~~~(BitVec.ofNat 32 (2 ^ l)))

/-- R32: MODE as software reads it. -/
def Wave.modeReg (v : Wave) : Word := BitVec.ofNat 64 (ofBool v.kernel.w16 * 8 + ofBool v.ftz * 4 + v.rm)

/-- R305: a token. -/
def Wave.tok (v : Wave) (k : Nat) : Token := tblGet .done v.toks k

/-- A token written. -/
def Wave.setTok (v : Wave) (k : Nat) (t : Token) : Wave := { v with toks := tblSet .done v.toks k t }

/-- A token is DONE or FAILED. -/
def Token.settled (t : Token) : Bool :=
  match t with
  | .pending _ => false
  | _ => true

/-- R294: a record image from the number of its 64 bytes, field by field. -/
def recOf (x : Nat) : TRec :=
  let ctl := bits x 96 8
  { gbase := BitVec.ofNat 64 x, spbase := bits x 64 32, clip := bitAt ctl 4, ndim := bits ctl 2 2, esz := 2 ^ bits ctl 0 2,
    e := (List.range 4).map (fun i => bits x (128 + 16 * i) 16), gs := (List.range 3).map (fun i => BitVec.ofNat 64 (x / 2 ^ (192 + 64 * i))), ss := (List.range 3).map (fun i => bits x (384 + 32 * i) 32),
    glim0 := bits x 480 16, glim1 := bits x 496 16 }

/-- R296: whether an image is valid. -/
def recValid (x : Nat) : Bool :=
  let r := recOf x
  decide (bits x 101 27 = 0) && decide (r.spbase < 2 ^ 21)
    && (List.range 4).all (fun i => if i ≤ r.ndim then decide (1 ≤ r.e.getD i 0) else decide (r.e.getD i 0 = 0) && decide (r.gs.getD (i - 1) 0 = 0) && decide (r.ss.getD (i - 1) 0 = 0))
    && r.ss.all (fun v => decide (v < 2 ^ 21)) && (r.clip || (decide (r.glim0 = 0) && decide (r.glim1 = 0))) && !(r.clip && decide (r.ndim = 0) && decide (r.glim1 ≠ 0))

/-- The eight words of a 64-byte number. -/
def words8 (x : Nat) : List Word := (List.range 8).map (fun i => BitVec.ofNat 64 (x / 2 ^ (64 * i)))

/-- The number of a list of words, the first lowest. -/
def wordsNat : List Word → Nat
  | [] => 0
  | w :: r => w.toNat + 2 ^ 64 * wordsNat r

/-- One result put where it goes; channel entries are the core's and are put by `landWr`. -/
def Wave.put (v : Wave) (x : Wr) : Wave :=
  match x.dst with
  | .s r => v.setS r (BitVec.ofNat 64 x.val)
  | .v r l => v.setV r l (BitVec.ofNat 32 x.val)
  | .p k l => v.setPBit k l (x.val % 2 = 1)
  | .freg n => { v with fregs := tblSet 0 v.fregs n (BitVec.ofNat 64 x.val) }
  | .tensor n => { v with recs := if recValid x.val then tblPut v.recs n (words8 x.val) else tblErase v.recs n }
  | .flags => { v with flags := v.flags ||| x.val }
  | .chan _ _ _ | .mem _ => v

/-- R379: the value of a channel entry put, to arrive by `due`. -/
def chanPut (s : State) (core ch entry : Nat) (x : Word) (due : Nat) (arrived : Bool) : State :=
  modCore s core (fun c => { c with chans := tblMod c.chans ch (List.map (fun e => if e.id = entry then { e with val := some x, due := due, arrived := arrived } else e)) })

/-- R213, R339: the byte at a place of scratchpad; other places hold none. -/
def spadByte (s : State) (p : Place) : Byte :=
  match p with
  | .spad cohort core off => tblGet 0 (tblGet {} (tblGet {} s.cohorts cohort).spad core).bytes off
  | .tile core ctx off => tblGet 0 (tblGet {} (coreAt s core).tiles ctx).bytes off
  | _ => 0

/-- A byte of an allocation written; the write of a whole byte leaves its poison (R212). -/
def allocPut (off : Nat) (b : Byte) (a : SpadAlloc) : SpadAlloc := { a with bytes := tblSet 0 a.bytes off b }

/-- An allocation changed at a place of scratchpad. -/
def modAlloc (s : State) (p : Place) (f : Nat → SpadAlloc → SpadAlloc) : State :=
  match p with
  | .spad cohort core off => modCohort s cohort (fun c => { c with spad := tblMod c.spad core (f off) })
  | .tile core ctx off => modCore s core (fun c => { c with tiles := tblMod c.tiles ctx (f off) })
  | _ => s

/-- R213, R339: a scratchpad byte written. -/
def spadPut (s : State) (p : Place) (b : Byte) : State := modAlloc s p (fun off => allocPut off b)

/-- R212: whether a scratchpad byte is poisoned. -/
def spadPoisoned (s : State) (p : Place) : Bool :=
  match p with
  | .spad cohort core off => decide (off ∈ (tblGet {} (tblGet {} s.cohorts cohort).spad core).poison)
  | .tile core ctx off => decide (off ∈ (tblGet {} (coreAt s core).tiles ctx).poison)
  | _ => false

/-- R212, R271: a scratchpad byte poisoned, or its poison cleared. -/
def spadPoison (s : State) (p : Place) (on : Bool) : State :=
  modAlloc s p (fun off a => { a with poison := if on then off :: a.poison.filter (· ≠ off) else a.poison.filter (· ≠ off) })

/-- Entries of channels gone: each by its core, channel and number. -/
def dropEntries (s : State) (l : List (Nat × Nat × Nat)) : State :=
  l.foldl (fun t d => modCore t d.1 (fun c => { c with chans := tblMod c.chans d.2.1 (List.filter (fun e => decide (e.id ≠ d.2.2))) })) s

/-- The channel entries that results were to fill are released. -/
def freeDsts (s : State) (ds : List Dst) : State :=
  dropEntries s (ds.filterMap (fun d => match d with | .chan core ch entry => some (core, ch, entry) | _ => none))

/-- A result put in its place for wave `w`. -/
def landWr (s : State) (w : Nat) (x : Wr) : State :=
  match x.dst with
  | .chan core ch entry => chanPut s core ch entry (BitVec.ofNat 64 x.val) (s.clock + 32) (((waveAt s w).map (fun v => physCore s v.core)) = some core)
  | .mem p => spadPut s p (BitVec.ofNat 8 x.val)
  | _ => modWave s w (·.put x)

/-- Results put in their places in order. -/
def landAll (s : State) (w : Nat) : List Wr → State
  | [] => s
  | x :: r => landAll (landWr s w x) w r

/-- The single sub-wave of an unsplit wave is listed under 1: parent the root, taken branch. -/
def rootSub : Nat := 1

/-- R466: the root of the second half of a width-16 wave is entry 8, its unsplit sub-wave listed under 17. -/
def rootSub1 : Nat := 17

/-- R127: the parent entry of a sub-wave. -/
def subParent (x : Nat) : Nat := x / 2

/-- R127: whether an entry is a root. -/
def isRoot (w16 : Bool) (h : Nat) : Bool := decide (h = 0) || (w16 && decide (h = 8))

/-- R466: the half a sub-wave lies in, 0 in a native kernel. -/
def halfOf (v : Wave) (x : Nat) : Nat := if v.kernel.w16 && decide (16 ≤ x) then 1 else 0

/-- A sub-wave changed. -/
def Wave.modSub (v : Wave) (x : Nat) (f : Sub → Sub) : Wave := { v with subs := tblMod v.subs x f }

/-- Why a sub-wave waits. -/
def Wave.holdOf (v : Wave) (x : Nat) : Hold := match tblFind v.subs x with | some u => u.hold | none => .run

/-- R127: whether a wave is unsplit: one sub-wave whose parent is the root (log 9, DEDUCED). -/
def Wave.unsplit (v : Wave) : Bool := decide (v.subs.length = 1) && v.subs.all (fun e => isRoot v.kernel.w16 (subParent e.1))

/-- R224: whether a wave waits for the answer to a gap. -/
def Wave.inGap (v : Wave) : Bool := v.subs.any (fun u => match u.2.hold with | .gap _ => true | _ => false) || v.accs.any (fun a => a.gap.isSome)

/-- R391: whether a wave is in its handler state. -/
def Wave.inHandler (v : Wave) : Bool := v.handler.isSome

/-- R391: whether a sub-wave is not one that the handler of its wave has stopped (log 105, DEDUCED). -/
def Wave.awake (v : Wave) (x : Nat) : Bool :=
  match v.handler, tblFind v.subs x with
  | some h, some u => decide (u.mask &&& ~~~h.mask = 0)
  | _, _ => true

/-- Whether an access has bytes in the peer or host window. -/
def Acc.isAway (a : Acc) : Bool := a.bytes.any (fun b => match b.at_ with | .peer _ | .host _ => true | _ => false)

/-- R402: whether every access of an instruction that goes away has its responses. -/
def awayReady (l : List Acc) : Bool := (l.filter (·.isAway)).all (fun a => decide (a.stage = 1) && (decide (a.need = 0) || a.bad.isSome))

/-- R402: whether an instruction has all its responses: those from away, and, where none of them is a fault, the values of its other lanes. -/
def peerReady (l : List Acc) : Bool := awayReady l && (l.any (fun a => a.bad.isSome) || l.all (·.isAway))

/-- R402: whether an access belongs to an instruction that waits for responses from away. -/
def Wave.inPeer (v : Wave) (a : Acc) : Bool :=
  v.subs.any (fun u => match u.2.hold with | .peer g _ _ => decide (g = a.issue) | _ => false)

/-- R402: whether an access in device memory may take effect: an instruction that also goes away has no effect before every response from there has come, none of them a fault. -/
def Wave.peersOk (v : Wave) (a : Acc) : Bool :=
  let l := v.accs.filter (fun b => decide (b.issue = a.issue))
  !(v.inPeer a) || (awayReady l && l.all (fun b => b.bad.isNone))

/-- R391: whether another sub-wave has issued an instruction that waits for responses, which completes before a trap is entered. -/
def Wave.othersOut (v : Wave) (x : Nat) : Bool :=
  v.subs.any (fun u => decide (u.1 ≠ x) && match u.2.hold with
    | .peer g _ _ => !(peerReady (v.accs.filter (fun a => decide (a.issue = g))))
    | _ => false)

/-- R391, R421: whether a trap of a waiting sub-wave is entered later: its wave is stopped, or an instruction of another sub-wave has not completed (log 105, DEDUCED). -/
def Wave.trapLater (v : Wave) (x : Nat) : Bool := (v.stopped && !v.stepping) || v.othersOut x

/-- R355, R409: a responder wave. -/
def Wave.isResponder (v : Wave) : Bool :=
  match v.origin with
  | .responder _ _ => true
  | _ => false

/-- R411: the address of a wave's handler area. -/
def frameHandler (frame : Nat) : Nat := frame + 0x9000

/-- R401: a fault that a check finds of an access of a bundle thread, after later bundles where some have issued. -/
def Wave.accPending (v : Wave) (t : Trap) (a : Acc) : Pending := { t := t, header := a.hdr, issue := a.cyc, later := decide (a.cyc < v.bun.lastCyc) }

/-- R186, R400: whether a wave in its handler state keeps the claim of the bundle thread that trapped. -/
def Wave.keptClaim (v : Wave) : Bool := v.handler.any (·.claim)

/-- R189, R400: whether a bundle thread drains towards a return, an end or a trap. -/
def Wave.draining (v : Wave) : Bool := match v.phase with | .ret _ | .tretDrain _ | .ending | .drain _ _ => true | _ => false

/-- R394: a wave of a context as it is faulted: it parks with the code of the trap as REASON, also where it was asked to park for another (log 47, DEDUCED). -/
def faultAsk (reason : Nat) (v : Wave) : Wave := { v with parkReq := some (reason, match v.parkReq with | some r => r.2 | none => v.inHandler) }

/-- R405: a wave asked to park with a REASON; one asked already keeps its own. -/
def parkAsk (reason : Nat) (inh : Bool) (v : Wave) : Wave :=
  if v.parkReq.isSome then v else { v with parkReq := some (reason, inh) }

/-- R394: the context of wave `w` is faulted by a trap: every wave of it other than responders parks with the trap's code as REASON, and the host is told of the first. -/
def contextFault (s : State) (w : Nat) (c : Cause) : State :=
  match waveAt s w with
  | none => s
  | some v =>
    if let some y := (ctxAt s v.ctx).faulted then modWave s w (faultAsk y.2)
    else
      let s1 := modCtx s v.ctx (fun x => { x with faulted := some (v.frame, causeCode c) })
      let s2 := { s1 with waves := s1.waves.map (fun e => if e.2.ctx = v.ctx ∧ e.2.isResponder = false then (e.1, faultAsk (causeCode c) e.2) else e) }
      tellHost s2 (.ctxFault v.ctx v.frame (causeCode c))

/-- R390: TCAUSE from its fields. -/
def tcauseOf (c : Cause) (bundle rollback imprec : Bool) : Word :=
  BitVec.ofNat 64 (causeCode c + 256 * ofBool bundle + 512 * ofBool rollback + 1024 * ofBool imprec)

/-- R391: TPC, TCAUSE, TADDR and TINFO as trap entry writes them. -/
def Wave.trapRegs (v : Wave) (t : Trap) (tpc : Word) (tcause : Word) : Wave := { v with tpc := tpc, tcause := tcause, taddr := t.addr, tinfo := t.info }

/-- R391: a wave with its handler entered by sub-wave `x`: the trap registers written, the handler state entered, sub-wave `x` at TVEC with its own mask. -/
def Wave.enterHandler (v : Wave) (x : Nat) (t : Trap) (tpc tcause : Word) (h : Handler) : Wave :=
  let v1 := v.trapRegs t tpc tcause
  { v1 with handler := some { h with sub := x, mask := ((tblFind v.subs x).map (·.mask)).getD 0 }, subs := tblMod v1.subs x (fun u => { u with pc := v.tvec, hold := .run }) }

/-- R132, R310, R382: whether a wave that has ended may release its place: its stores are performed, its tokens are DONE or FAILED, its pushes hold their values (log 22, DEDUCED). -/
def Wave.drained (v : Wave) : Bool := v.accs.isEmpty && v.owed.all (fun d => match d with | .chan _ _ _ => false | _ => true) && v.toks.all (fun t => t.2.settled) && v.bun.flights.isEmpty

/-- R128, R132: a wave that issues nothing further from a cycle on. -/
def Wave.stopIssue (v : Wave) (clock : Nat) : Wave := { v with ended := true, endedAt := clock, subs := [], handler := none }

/-- R355: a responder that faults ends without answering. -/
def responderFault (s : State) (w : Nat) : State := modWave s w (fun v => { v.stopIssue s.clock with respFault := true, answer := none })

/-- R391, R392, R394, R355: a SIMT wave `w` takes trap `t` at sub-wave `x`. A responder faults; a wave in its handler, or with TVEC 0, faults its context; any other wave enters its handler. -/
def enterTrap (s : State) (w x : Nat) (t : Trap) : State :=
  match waveAt s w with
  | none => s
  | some v =>
    if v.isResponder then responderFault s w
    else if v.inHandler || decide (v.tvec = 0) then contextFault s w t.cause
    else
      let tpc := t.tpc.getD (((tblFind v.subs x).map (·.pc)).getD 0)
      modWave s w (fun u => u.enterHandler x t tpc (tcauseOf t.cause false false false) { migrate := decide (t.cause = .migrate) })

/-- R400 step 1: a bundle thread that takes trap `t` issues no further bundle and drains. -/
def drainTrap (s : State) (w : Nat) (t : Trap) (isAsync : Bool) : State := modWave s w (fun v => { v with phase := .drain t isAsync })

/-- R401: a bundle thread that a fault found before its next bundle stops (log 58, DEDUCED). -/
def foundFault (s : State) (w : Nat) (v : Wave) : State := drainTrap s w ((v.bun.faults.headD { t := {}, header := 0, issue := 0 }).t) false

/-- R391, R400: a trap of a wave at sub-wave `x`, in the mode it is in. -/
def raiseTrap (s : State) (w x : Nat) (t : Trap) : State :=
  match waveAt s w with
  | none => s
  | some v => match v.phase with
    | .bundle => drainTrap s w t false
    | .simt => enterTrap s w x t
    | _ => s

/-- R395: the plain return of a SIMT handler: the handler state is left, the handler's sub-wave is at TPC, every other one resumes at its own PC. -/
def Wave.leaveHandler (v : Wave) (x : Nat) : Wave := { v with handler := none, subs := tblMod v.subs x (fun u => { u with pc := v.tpc, hold := .run }) }

end Sys2Proof.Machine
end

