-- ==== Sys2Proof/Machine/Memory.lean ====
section
/-! DEFINITION. Translation, permission, reachability, and what a byte reads as at each level of the hierarchy (R210 to R236, R243 to R246, R339). -/

namespace Sys2Proof.Machine

/-- R210: the die a line of device memory is homed on. -/
def homeDie (pa : Nat) : Nat := if pa < 0x20000000000 then pa / 0x1000000000 else bits pa 12 2

/-- R210: whether an address lies in the peer window. -/
def inPeer (pa : Nat) : Bool := decide (0x8000000000000 ≤ pa) && decide (pa < 0xC000000000000)

/-- R210: whether an address lies in the host window. -/
def inHost (pa : Nat) : Bool := decide (0xC000000000000 ≤ pa) && decide (pa < 0x10000000000000)

/-- R35: a canonical virtual address. -/
def canonical (va : Nat) : Bool := decide (va < 2 ^ 56) || (decide (2 ^ 64 - 2 ^ 56 ≤ va) && decide (va < 2 ^ 64))

/-- R235, R236: a byte of device memory as its home serves it to an access under an owner key: free where it is unspecified or was written under another key; a line that no access has brought into the home cache has none (log 12, DESIGN CHOICE; log 45, DESIGN CHOICE; log 68, DEDUCED). -/
def homeByte (s : State) (key pa tag : Nat) : Byte :=
  if pa ∈ s.unspec then BitVec.ofNat 8 (free s (2 ^ 59 + tag + pa))
  else match tblFind s.lineKey (lineOf pa) with
    | some k => if k = key then rdByte s pa else BitVec.ofNat 8 (free s (2 ^ 59 + tag + pa))
    | none => rdByte s pa

/-- `n` bytes as their home serves them. -/
def homeBytes (s : State) (key pa tag : Nat) : Nat → List Byte
  | 0 => []
  | n + 1 => homeByte s key pa tag :: homeBytes s key (pa + 1) tag n

/-- R236: the bytes of a line (log 12, DESIGN CHOICE). -/
def lineBytes (line : Nat) : List Nat := (List.range 64).map (fun i => 64 * line + i)

/-- R226, R236: a line that its home takes in under an owner key; one held under another key becomes unspecified (log 12, DESIGN CHOICE). -/
def lineTake (s : State) (key line : Nat) : State :=
  match tblFind s.lineKey line with
  | some k => if k = key then s else { s with unspec := lineBytes line ++ s.unspec, lineKey := tblPut s.lineKey line key }
  | none => { s with lineKey := tblPut s.lineKey line key }

/-- R236, R247: a byte accepted by its home under an owner key (log 12, DESIGN CHOICE). -/
def homePut (s : State) (key pa : Nat) (b : Byte) : State := wrByte (lineTake s key (lineOf pa)) pa b

/-- R212: whether a byte lies in a poisoned line. -/
def poisoned (s : State) (pa : Nat) : Bool := decide (lineOf pa ∈ s.poison)

/-- R219: what a walk answers: a leaf, or PAGE with its reason and level. -/
inductive WalkRes where
  | leaf (l : Leaf)
  | page (reason level : Nat)
  deriving DecidableEq, Repr, Inhabited

/-- R218, R219: the leaf of an entry at level n for an address; `cont` for a member of a 64 KiB page. -/
def leafOf (e va n : Nat) (cont : Bool) : Leaf :=
  let pa := if cont then bits e 16 36 * 2 ^ 16 + va % 2 ^ 16 else bits e (12 + 9 * n) (40 - 9 * n) * 2 ^ (12 + 9 * n) + va % 2 ^ (12 + 9 * n)
  { pa := pa, size := if cont then 16 else 12 + 9 * n, key := bits e 52 12, part := bits e 8 4, pol := bits e 6 2, h := bitAt e 5, x := bitAt e 4, w := bitAt e 3, r := bitAt e 2 }

/-- R219: the tests of a leaf entry. -/
def leafRes (e va n : Nat) (cont : Bool) : WalkRes :=
  if (n = 2 ∧ bits e 12 18 ≠ 0) ∨ (n = 1 ∧ bits e 12 9 ≠ 0) then .page 1 n
  else
    let l := leafOf e va n cont
    if !l.h && !(inDevice l.pa || inPeer l.pa) then .page 2 n
    else if l.h && !(inHost l.pa) then .page 2 n
    else .leaf l

/-- R219: whether two members of a 64 KiB page agree in every field but OA[15:12]. -/
def sameMember (a b : Nat) : Bool := decide (a / 2 ^ 16 = b / 2 ^ 16) && decide (a % 2 ^ 12 = b % 2 ^ 12)

/-- R219: the entries of the group of 16 that index i lies in. -/
def groupOf (s : State) (table i : Nat) : List Nat :=
  (List.range 16).map (fun k => leNat (homeBytes s 0 (table + 8 * (i / 16 * 16 + k)) 0 8))

/-- R219: a disagreeing group. -/
def disagrees (g : List Nat) : Bool :=
  g.any (fun e => bitAt e 0 && bitAt e 1) && !(g.all (fun e => bitAt e 0 && bitAt e 1 && sameMember e (g.headD 0)))

/-- R219: a level-0 entry for an address; in a disagreeing group one of the entries the rule allows, freely chosen. -/
def walkLast (s : State) (table va tag : Nat) : WalkRes :=
  let i := bits va 12 9
  let own := leNat (homeBytes s 0 (table + 8 * i) 0 8)
  let g := groupOf s table i
  let one (e : Nat) : WalkRes := if bitAt e 0 then leafRes e va 0 (bitAt e 1) else .page 0 0
  if disagrees g then
    let ch := (g.filter (fun e => bitAt e 0 && bitAt e 1)) ++ [own]
    one (ch.getD (free s tag % ch.length) own)
  else one own

/-- R219: the walk from a table of level n. -/
def walkFrom (s : State) (va tag : Nat) : Nat → Nat → WalkRes
  | 0, table => if poisoned s (table + 8 * bits va 12 9) then .page 3 0 else walkLast s table va tag
  | n + 1, table =>
    let a := table + 8 * bits va (12 + 9 * (n + 1)) 9
    let e := leNat (homeBytes s 0 a 0 8)
    if poisoned s a then .page 3 (n + 1)
    else if !(bitAt e 0) then .page 0 (n + 1)
    else if n + 1 ≤ 2 ∧ bitAt e 1 then leafRes e va (n + 1) false
    else if bits e 52 12 ≠ 0 ∨ bits e 1 11 ≠ 0 then .page 1 (n + 1)
    else
      let t := bits e 12 40 * 2 ^ 12
      if inDevice t then walkFrom s va tag n t else .page 2 (n + 1)

/-- R219: the walk of a context's tables. -/
def walk (s : State) (ctx va tag : Nat) : WalkRes := walkFrom s va tag 4 (ctxAt s ctx).t.root

/-- R222: whether a TLB entry holds an address of a context. -/
def TlbEntry.covers (t : TlbEntry) (ctx va : Nat) : Bool := decide (t.ctx = ctx) && decide (t.base ≤ va) && decide (va < t.base + 2 ^ t.leaf.size)

/-- The leaf a TLB entry gives for an address of its page. -/
def TlbEntry.at_ (t : TlbEntry) (va : Nat) : Leaf := { t.leaf with pa := t.leaf.pa + (va - t.base) }

/-- R223: the leaf that the tables gave for an address when its range was last invalidated, or its context installed, if they gave one (log 88, DEDUCED). -/
def oldLeaf (s : State) (snaps : List Snap) (ctx va tag : Nat) : List Leaf :=
  match snaps.find? (fun p => decide (p.ctx = ctx) && decide (p.va ≤ va) && decide (va < p.va + p.n)) with
  | some p => (match walk { s with mem := p.mem, wlog := [] } ctx va tag with
    | .leaf l => [l]
    | .page _ _ => [])
  | none => []

/-- R223: the old translations of an address: of the entry the TLB holds, and of the old tables. -/
def View.old (u : View) (s : State) (ctx va tag : Nat) : List Leaf :=
  (match u.tlb.find? (fun t => t.covers ctx va) with | some t => [t.at_ va] | none => []) ++ oldLeaf s u.snaps ctx va tag

/-- R222, R223: an address translated: where the tables have changed since their range was invalidated, an old translation or the new one, freely chosen (log 88, DEDUCED). -/
def translate (s : State) (u : View) (ctx va tag : Nat) : WalkRes :=
  let new := walk s ctx va tag
  let old := (u.old s ctx va tag).filter (fun l => decide (new ≠ .leaf l))
  if old.isEmpty then new else (old.map WalkRes.leaf).getD (free s (tag + 1) % (old.length + 1)) new

/-- R222: a TLB of `cap` entries that has served a translation; a full one loses an entry, freely chosen (log 88, DEDUCED). -/
def tlbFill (cap : Nat) (tlb : List TlbEntry) (ctx va : Nat) (l : Leaf) (draw : Nat → Nat) : List TlbEntry :=
  let rest := tlb.filter (fun t => !(t.covers ctx va))
  { ctx := ctx, base := va - va % 2 ^ l.size, leaf := { l with pa := l.pa - va % 2 ^ l.size } } :: (if rest.length < cap then rest else rest.eraseIdx (draw rest.length))

/-- R237: a core whose L1 and TLBs are about to serve a context invalidates them where they served another. -/
def serveCore (c : Core) (ctx : Nat) : Core :=
  if c.lastCtx = some ctx then c else { c with lastCtx := some ctx, l1 := [], tlb := [], walk := [] }

/-- R223: the old tables of a context, as a core may still use them. -/
def coreSnaps (s : State) (p ctx : Nat) : List Snap := (coreAt s p).snaps ++ [{ ctx := ctx, mem := (ctxAt s ctx).mem0 }]

/-- R222: what per-lane and scalar accesses, atomics and fetches of a context look their addresses up in on a core. -/
def coreView (s : State) (p ctx : Nat) : View := { tlb := (serveCore (coreAt s p) ctx).tlb, snaps := coreSnaps s p ctx }

/-- R222: what the copy engine of a core looks the tiles of a context up in. -/
def walkView (s : State) (p ctx : Nat) : View := { tlb := (serveCore (coreAt s p) ctx).walk, snaps := coreSnaps s p ctx }

/-- The kinds of access of R221. -/
inductive Kind where
  | load | store | atomic | fetch
  deriving DecidableEq, Repr, Inhabited

/-- R221: KIND. -/
def Kind.code (k : Kind) : Nat := match k with | .load => 0 | .store => 1 | .atomic => 2 | .fetch => 3

/-- R220: whether a leaf's permissions allow an access. -/
def Leaf.allows (l : Leaf) (k : Kind) : Bool :=
  match k with
  | .load => l.r
  | .store => l.w
  | .atomic => l.r && l.w
  | .fetch => l.x

/-- R221, R225: a fault of a memory access: the lowest address of the access, the lowest faulting virtual address. -/
structure MemFault where
  cause : Cause
  addr : Nat
  va : Nat := addr
  reason : Nat
  level : Nat := 0
  second : Bool := false
  deriving DecidableEq, Repr, Inhabited

/-- R221: TINFO; LEVEL is 0 for the other reasons, a poisoned table entry of R219 among them (log 111, DEDUCED). -/
def MemFault.info (f : MemFault) (k : Kind) (lane : Nat) : Nat :=
  ofBool f.second * 4096 + f.reason * 1024 + k.code * 256 + (if f.cause = .page ∧ f.reason < 3 then f.level else 0) * 32 + lane

/-- R221: the trap of a memory fault. -/
def MemFault.trap (f : MemFault) (k : Kind) (lane : Nat) : Trap := { cause := f.cause, addr := BitVec.ofNat 64 f.addr, info := BitVec.ofNat 64 (f.info k lane) }

/-- R224: whether a fault is one that a mirrored context reports as a gap. -/
def MemFault.isGap (f : MemFault) : Bool := decide (f.cause = .page) && decide (f.reason = 0)

/-- The place of a translated byte. -/
def placeOf (l : Leaf) : Place := if l.h then .host l.pa else if inPeer l.pa then .peer l.pa else .dev l.pa

/-- R226: the attributes of a translated byte; windows act as bypass. -/
def attrOf (l : Leaf) : Attr := { key := l.key, part := l.part, pol := if l.h || inPeer l.pa then 3 else l.pol, ro := !l.w }

/-- R212, R219, R220: one page of an access checked. -/
def checkPage (s : State) (u : View) (ctx : Nat) (k : Kind) (va base tag : Nat) (second : Bool) : Except MemFault Leaf :=
  match translate s u ctx va tag with
  | .page r l => .error { cause := .page, addr := base, va := va, reason := r, level := l, second := second }
  | .leaf l => if l.allows k then .ok l else .error { cause := .protection, addr := base, va := va, reason := 0, second := second }

/-- R212: the lines of a span that a read may not touch. -/
def spanPoisoned (s : State) (pa n : Nat) : Bool := poisoned s pa || poisoned s (pa + n - 1)

/-- The bytes of an access of `n` bytes, `n1` of them in the first page. -/
def spanBytes (l1 l2 : Leaf) (n1 n : Nat) : List AByte :=
  (List.range n).map (fun i =>
    if i < n1 then { at_ := placeOf { l1 with pa := l1.pa + i }, attr := attrOf l1 } else { at_ := placeOf { l2 with pa := l2.pa + (i - n1) }, attr := attrOf l2 })

/-- R212: the first byte of a flat read that lies in a poisoned line; stores meet none (log 23, DEDUCED). -/
def poisonAt (s : State) (k : Kind) (bs : List AByte) : Option Nat :=
  if k = .store then none else bs.findIdx? (fun b => match b.at_ with | .dev pa => poisoned s pa | _ => false)

/-- R212: whether a flat read meets a poisoned line (log 23, DEDUCED). -/
def readPoison (s : State) (k : Kind) (bs : List AByte) : Bool := (poisonAt s k bs).isSome

/-- How many bytes of an access of `n` bytes at `va` lie in its first page of 2^size bytes. -/
def firstSpan (size va n : Nat) : Nat := min n (2 ^ size - va % 2 ^ size)

/-- R35, R219, R220: a flat access of `n` bytes at `va` translated and checked, both pages before any byte; the answer is where each byte lies. A byte that is not canonical is found before either page is (log 112, DEDUCED). -/
def checkMap (s : State) (u : View) (ctx : Nat) (k : Kind) (va n tag : Nat) : Except MemFault (List AByte) :=
  let last := (va + n - 1) % 2 ^ 64
  if !(canonical va) then .error { cause := .protection, addr := va, reason := 1 }
  else if !(canonical last) then .error { cause := .protection, addr := va, va := last / 4096 * 4096, reason := 1, second := decide (va / 4096 ≠ last / 4096) }
  else match checkPage s u ctx k va va tag false with
    | .error f => .error f
    | .ok l1 =>
      let n1 := firstSpan l1.size va n
      let r2 := if n1 = n then .ok l1 else checkPage s u ctx k ((va + n1) % 2 ^ 64) va (tag + 2) true
      match r2 with
      | .error f => .error f
      | .ok l2 => .ok (spanBytes l1 l2 n1 n)

/-- R221: how many bytes of an access that passes its checks lie in its first page. -/
def pageSpan (s : State) (u : View) (ctx va n tag : Nat) : Nat :=
  match translate s u ctx va tag with
  | .leaf l => firstSpan l.size va n
  | .page _ _ => n

/-- R212: a flat access checked, its data lines among the checks (log 18, DEDUCED; log 23, DEDUCED). -/
def checkFlat (s : State) (u : View) (ctx : Nat) (k : Kind) (va n tag : Nat) : Except MemFault (List AByte) :=
  match checkMap s u ctx k va n tag with
  | .error f => .error f
  | .ok bs =>
    match poisonAt s k bs with
    | some i => .error { cause := .page, addr := va, va := (va + i) % 2 ^ 64, reason := 3, second := decide (pageSpan s u ctx va n tag ≤ i) }
    | none => .ok bs

/-- R222: the entries of a TLB of `cap` entries after it has served translations, each with the draw it used. -/
def tlbServed (s : State) (cap : Nat) (u : View) (ctx : Nat) (vas : List (Nat × Nat)) : List TlbEntry :=
  vas.foldl (fun t a => match translate s u ctx a.1 a.2 with
    | .leaf l => tlbFill cap t ctx a.1 l (fun n => free s (a.2 + 4) % n)
    | .page _ _ => t) u.tlb

/-- R222, R237: a core whose TLB has served translations. -/
def coreServed (s : State) (p ctx : Nat) (vas : List (Nat × Nat)) : State :=
  modCore s p (fun c => { (serveCore c ctx) with tlb := tlbServed s 512 (coreView s p ctx) ctx vas })

/-- R213, R339: where a scratchpad byte lies, if the wave reaches it. -/
def spadPlace (s : State) (v : Wave) (a : Nat) : Option Place :=
  let c := 4 * quadOf v.core + bits a 19 2
  let off := bits a 0 19
  if a < 2 ^ 21 then
    (if v.isResponder then none
     else match tblFind s.cohorts v.cohort with
      | none => none
      | some co =>
        match tblFind co.spad c with
        | some al => if off < al.size then some (.spad v.cohort c off) else none
        | none => none)
  else if a < 2 ^ 22 then
    match tblFind (coreAt s (physCore s c)).tiles v.ctx with
    | some al => if off < al.size then some (.tile (physCore s c) v.ctx off) else none
    | none => none
  else none

/-- R213: where the bytes of a scratchpad access lie, if every one is reachable. -/
def spadPlaces (s : State) (v : Wave) (a : Nat) : Nat → Option (List Place)
  | 0 => some []
  | n + 1 =>
    match spadPlace s v (a % 2 ^ 64), spadPlaces s v (a + 1) n with
    | some p, some r => some (p :: r)
    | _, _ => none

/-- R213, R268: a scratchpad access checked; reads of a poisoned byte are PAGE reason 3 (log 23, DEDUCED). -/
def checkSpad (s : State) (v : Wave) (k : Kind) (a n : Nat) : Except MemFault (List AByte) :=
  match spadPlaces s v a n with
  | none => .error { cause := .protection, addr := a % 2 ^ 64, reason := 2 }
  | some ps =>
    if decide (k ≠ .store) && ps.any (spadPoisoned s) then .error { cause := .page, addr := a % 2 ^ 64, reason := 3 }
    else .ok (ps.map (fun p => { at_ := p }))

/-- R245: the byte of a store the die accepted last for an address, not yet at package scope. -/
def pendByte (s : State) (die pa key : Nat) : Option Byte :=
  ((((dieAt s die).pend.filter (fun d => !d.home)).map (·.cells)).flatten.reverse.find? (fun c => decide (c.1 = pa) && decide (c.2.2 = key))).map (·.2.1)

/-- R415: a watchpoint's fields: the enabled one's first byte and length. -/
def watchRange (u : WatchUnit) (i : Nat) : Nat × Nat := ((tblGet 0 u.waddr i).toNat, bits (tblGet 0 u.wctl i).toNat 32 12 + 1)

/-- R416: whether an enabled watchpoint with LD set covers a line of device memory. -/
def ldWatched (s : State) (line : Nat) : Bool :=
  let u := (dieAt s (homeDie (64 * line))).watch
  (List.range 8).any (fun i =>
    let c := (tblGet 0 u.wctl i).toNat
    bitAt c 63 && decide (bits c 61 2 = 0) && bitAt c 56 && decide ((watchRange u i).1 < 64 * line + 64) && decide (64 * line < (watchRange u i).1 + (watchRange u i).2))

/-- R227, R229: an eviction, a free choice: the core's L1 copy of a line and the die's remote copy may be gone before a read looks them up (log 88, DEDUCED). -/
def evict (s : State) (core die line tag : Nat) : State :=
  let s1 := if freeBool s tag then modCore s core (fun c => { c with l1 := tblErase c.l1 line }) else s
  if freeBool s (tag + 1) then modDie s1 die (fun d => { d with remote := tblErase d.remote line }) else s1

/-- R227: the lines of a set among which a victim is chosen: evict-first lines first, then those without retain priority, in a remote cache, then those with it. -/
def victims (retain : Bool) (l : Tbl L1Line) : Tbl L1Line :=
  let a := l.filter (fun e => decide (e.2.pol = 1))
  let b := l.filter (fun e => decide (e.2.pol ≠ 2))
  if !a.isEmpty then a else if retain && !b.isEmpty then b else l

/-- R226, R227: a line put into a cache of so many ways; a full set loses a line, freely chosen among the victims (log 10, DESIGN CHOICE; log 88, DEDUCED). -/
def cachePut (ways : Nat) (setOf : Nat → Nat) (retain : Bool) (draw : Nat → Nat) (l : Tbl L1Line) (line : Nat) (x : L1Line) : Tbl L1Line :=
  let rest := l.filter (fun e => decide (e.1 ≠ line))
  if rest.length < ways then tblPut l line x
  else
    let set := rest.filter (fun e => decide (setOf e.1 = setOf line))
    if set.length < ways then tblPut l line x
    else
      let vs := victims retain set
      tblPut (tblErase l ((vs.getD (draw vs.length) (line, x)).1)) line x

/-- R229: the byte of a remote copy, where the die holds one under the key. -/
def remoteByte (s : State) (die pa key : Nat) : Option Byte :=
  match tblFind (dieAt s die).remote (lineOf pa) with
  | some l => if l.key = key then some (l.bytes.getD (pa % 64) 0) else none
  | none => none

/-- R245: a byte at the issuing die's point of coherence. -/
def pocByte (s : State) (die : Nat) (at_ : Attr) (pa tag : Nat) : Byte :=
  match pendByte s die pa at_.key with
  | some b => b
  | none => if homeDie pa = die then homeByte s at_.key pa tag else (remoteByte s die pa at_.key).getD (homeByte s at_.key pa tag)

/-- R245: a byte a plain load reads: the L1 copy where the core holds one under the key, else the point of coherence. -/
def l1Byte (s : State) (core die : Nat) (at_ : Attr) (pa tag : Nat) : Byte :=
  match tblFind (coreAt s core).l1 (lineOf pa) with
  | some l => if l.key = at_.key then l.bytes.getD (pa % 64) 0 else pocByte s die at_ pa tag
  | none => pocByte s die at_ pa tag

/-- R226: whether a core's L1 holds the line of a byte under its key. -/
def l1Holds (s : State) (core : Nat) (b : AByte) : Bool :=
  match b.at_ with
  | .dev pa => (tblFind (coreAt s core).l1 (lineOf pa)).any (fun l => decide (l.key = b.attr.key))
  | _ => false

/-- R245: whether a store that a die has accepted for one of these lines has still to go to its home: what follows it from the die waits. -/
def lineHeld (s : State) (die : Nat) (lines : List Nat) : Bool :=
  (dieAt s die).pend.any (fun d => !d.home && d.cells.any (fun c => decide (lineOf c.1 ∈ lines)))

/-- R250: the stores that a die's home cache or remote cache has accepted and that are not yet performed at package scope: its own cores', and those of other dies for its lines. -/
def accepted (s : State) (die : Nat) : List DieStore :=
  (dieAt s die).pend ++ ((s.dies.filter (fun d => decide (d.1 ≠ die))).map (fun d => d.2.pend.filter (fun x => x.home && x.cells.any (fun c => decide (homeDie c.1 = die))))).flatten

/-- R245: whether a read of a byte that misses waits behind a store of its line that the die has accepted and not yet passed to the home. -/
def missWaits (s : State) (die : Nat) (b : AByte) : Bool :=
  match b.at_ with
  | .dev pa => decide (homeDie pa ≠ die) && (remoteByte s die pa b.attr.key).isNone
      && lineHeld s die [lineOf pa]
  | _ => false

/-- R227, R416: the die's remote cache after a read of a line: it fills on a miss unless the policy is bypass, the line is homed there, or a watchpoint covers it (log 88, DEDUCED). -/
def fillRemote (s : State) (die : Nat) (at_ : Attr) (line tag : Nat) : State :=
  if at_.pol = 3 ∨ homeDie (64 * line) = die ∨ ldWatched s line = true then s
  else modDie s die (fun d => { d with remote := cachePut 16 (fun n => Config.remoteSet n % 65536) true (fun n => free s (2 ^ 70 + 2 * line + 1) % n) d.remote line { key := at_.key, pol := at_.pol, ro := at_.ro, bytes := (lineBytes line).map (fun pa => pocByte s die at_ pa tag) } })

/-- R227, R416: the core's L1 after a load of a line: it fills on a miss unless the policy is bypass or a watchpoint covers the line; the line records whether the page of the latest access that looked it up is read-only (log 88, DEDUCED). -/
def fillL1 (s : State) (core die : Nat) (at_ : Attr) (line tag : Nat) : State :=
  if at_.pol = 3 ∨ ldWatched s line = true then s
  else modCore s core (fun c => { c with l1 := cachePut 8 (fun n => Config.l1Set n % 256) false (fun n => free s (2 ^ 70 + 2 * line) % n) c.l1 line { key := at_.key, pol := at_.pol, ro := at_.ro, bytes := (lineBytes line).map (fun pa => l1Byte s core die at_ pa tag) } })

/-- R226, R227, R236: the caches after a read of a line that the L1 did not serve: the remote cache, the L1 of a core where it may, and the home cache, which takes the line in under the read's key unless the remote cache had it. -/
def fillRead (s : State) (core : Option Nat) (die : Nat) (at_ : Attr) (line : Nat) : State :=
  let s1 := fillRemote s die at_ line 0
  let s2 := match core with | some c => fillL1 s1 c die at_ line 0 | none => s1
  if at_.pol = 3 ∨ (remoteByte s die (64 * line) at_.key).isSome = true then s2 else lineTake s2 at_.key line

/-- R226: a cached line updated by a store's byte, where its KEY is the store's. -/
def L1Line.update (l : L1Line) (key pa : Nat) (b : Byte) : L1Line := if l.key = key then { l with bytes := l.bytes.set (pa % 64) b } else l

/-- R226: a present L1 line of the core updated by a store's byte. -/
def updateL1 (s : State) (core key pa : Nat) (b : Byte) : State := modCore s core (fun c => { c with l1 := tblMod c.l1 (lineOf pa) (·.update key pa b) })

/-- R229: a present remote copy of the die updated by a store's byte. -/
def updateRemote (s : State) (die key pa : Nat) (b : Byte) : State := modDie s die (fun d => { d with remote := tblMod d.remote (lineOf pa) (·.update key pa b) })

/-- R229: the core's L1 copy of a line dropped. -/
def dropLine (s : State) (core line : Nat) : State := modCore s core (fun c => { c with l1 := tblErase c.l1 line })

/-- R229: every remote copy of a line but the given die's is invalidated. -/
def invalidateOthers (s : State) (keep : Option Nat) (line : Nat) : State :=
  { s with dies := s.dies.map (fun e => if keep = some e.1 then e else (e.1, { e.2 with remote := tblErase e.2.remote line })) }

/-- What a write to a granule does to a waiting sub-wave: `callx` waits on a line of device memory, `waitv` on its granule (log 31, DEDUCED). -/
def wakeHold (line : Option Nat) (granule : Nat) (h : Hold) : Hold :=
  match h with
  | .callx g t c k => .callx g t c (k || decide (line = some (g / 64)))
  | .waitv q => .waitv { q with woken := q.woken || decide (q.granule = some granule) }
  | h => h

/-- The waves that wait on a written granule are woken. -/
def wakeAll (s : State) (line : Option Nat) (granule : Nat) : State :=
  { s with waves := s.waves.map (fun e => (e.1, { e.2 with subs := e.2.subs.map (fun u => (u.1, { u.2 with hold := wakeHold line granule u.2.hold })) })) }

/-- R279: the granule of a place, as `waitv` watches it: lines of device memory and 64-byte blocks of scratchpad have distinct numbers. -/
def granuleOf (p : Place) : Nat :=
  match p with
  | .dev pa | .peer pa | .host pa => 3 * lineOf pa
  | .spad cohort core off => 3 * ((cohort * 512 + core) * 2 ^ 14 + off / 64) + 1
  | .tile core ctx off => 3 * ((ctx * 512 + core) * 2 ^ 14 + off / 64) + 2

/-- R108, R279: the waves that wait on a written line of device memory are woken. -/
def wakeLine (s : State) (line : Nat) : State := wakeAll s (some line) (3 * line)

/-- R244, R229: a byte performed at package scope at once, as engines, atomics and the device itself store: the home takes it, every remote copy goes (log 25, DESIGN CHOICE). -/
def packagePut (s : State) (key pa : Nat) (b : Byte) : State := wakeLine (invalidateOthers (homePut s key pa b) none (lineOf pa)) (lineOf pa)

/-- Bytes performed at package scope under key 0 by the device itself (log 40, DEDUCED). -/
def packagePutAll (s : State) (key pa : Nat) : List Byte → State
  | [] => s
  | b :: r => packagePutAll (packagePut s key pa b) key (pa + 1) r

/-- A scratchpad byte written, waking those who wait on its granule. -/
def spadStore (s : State) (p : Place) (b : Byte) : State := wakeAll (spadPut s p b) none (granuleOf p)

end Sys2Proof.Machine
end

