-- ==== Sys2Proof/Machine/Operands.lean ====
section
/-! DEFINITION. Reading operands: scalars, special operands, constants and ports, vector registers, predicates and guards, under the latency windows of a bundle (R17, R48, R58, R87, R120, R123, R142, R191, R194); results and the interlock (R86, R180). -/

namespace Sys2Proof.Machine

/-- What an instruction sees when it executes: the wave as it stood before the instruction or bundle, who issues, where, in which lanes, the port values it popped and the entries its pushes reserved. -/
structure Env where
  w : Nat := 0
  x : Nat := 1
  v : Wave := {}
  slot : Option Slot := none
  w16 : Bool := false
  half : Nat := 0
  act : Lane32 := 0
  mask : Lane32 := 0
  p : Word := 0
  next : Word := 0
  now : Nat := 0
  draw : Nat := 0
  tag : Nat := 0
  pops : Tbl Word := []
  pushes : Tbl (Nat × Nat × Nat) := []
  die : Nat := 0
  core : Nat := 0
  deriving DecidableEq, Repr, Inhabited

/-- R4: the free value of this issue in place `k` of this word: `k` is below 65536, and the places of words lie apart from each other and from those of the device (log 2, DESIGN CHOICE). -/
def Env.free (e : Env) (k : Nat) : Nat := Config.freeValue e.draw (2 ^ 24 + 65536 * e.tag + k)

/-- R191: whether a result on its way makes a read of its place in cycle `now` unspecified (log 34, DEDUCED). -/
def Flight.inWindow (f : Flight) (now : Nat) : Bool := decide (f.issue < now) && decide (now < f.due)

/-- The places that results on their way go to. -/
def Flight.dsts (f : Flight) : List Dst := f.wr.map (·.dst) ++ match f.src with | some (_, ps) => ps.map (·.dst) | none => []

/-- R191: whether a result on its way to a place makes a read of it unspecified; so does a result that an engine instruction of a bundle owes (log 34, DEDUCED). -/
def Env.windowed (e : Env) (d : Dst) : Bool :=
  e.v.bun.flights.any (fun f => f.inWindow e.now && decide (d ∈ f.dsts)) || (e.slot.isSome && decide (d ∈ e.v.owed))

/-- R191: a place read under the windows of a bundle thread: its stored bits, or a free value while a result is on its way (log 2, DESIGN CHOICE). -/
def Env.under (e : Env) (d : Dst) (k n stored : Nat) : Nat := if e.windowed d then e.free k % 2 ^ n else stored

/-- R466: the native scalar register of a scalar number: legacy scalars of half 1 are s46 to s91 (log 90, DEDUCED). -/
def Env.sreg (e : Env) (r : Nat) : Nat := if e.w16 then r + 46 * e.half else r

/-- R466: the native token of a token number. -/
def Env.tokNo (e : Env) (k : Nat) : Nat := if e.w16 then k + 16 * e.half else k

/-- R466: the native tensor record of a record number. -/
def Env.recNo (e : Env) (n : Nat) : Nat := if e.w16 then n + 8 * e.half else n

/-- R120, R467: what a vector-class `%lane` reads in native lane l. -/
def Env.laneNo (e : Env) (l : Nat) : Nat := if e.w16 then l % 16 else l

/-- R17, R120, R355, R467: the special scalar operands, 0 %lane to 7 %ones; in a scalar-class field of a vector form `%lane` is the lowest active lane, as in a scalar form (log 90, DEDUCED; log 95, DEDUCED). -/
def Env.special (e : Env) (k : Nat) : Word :=
  match k with
  | 0 => BitVec.ofNat 64 (e.laneNo (if e.slot.isSome then lowestLane e.v.rootMask else lowestLane e.mask))
  | 1 => if e.w16 then BitVec.ofNat 64 (2 * e.v.index + e.half) else BitVec.ofNat 64 e.v.index
  | 2 => BitVec.ofNat 64 e.v.sect
  | 3 => BitVec.ofNat 64 e.v.core
  | 4 => if e.v.isResponder then BitVec.allOnes 64 else BitVec.ofNat 64 e.v.cohortIdx
  | 5 => BitVec.ofNat 64 (e.now % 2 ^ 32)
  | 6 => 0
  | _ => BitVec.allOnes 64

/-- R58, R87: a scalar source: registers, queue ports, special operands, the constants 0 to 15. -/
def Env.rdS (e : Env) (r : Nat) : Word :=
  if r < 96 then BitVec.ofNat 64 (e.under (.s (e.sreg r)) r 64 (e.v.getS (e.sreg r)).toNat)
  else if r < 104 then tblGet 0 e.pops (r - 96)
  else if r < 112 then e.special (r - 104)
  else BitVec.ofNat 64 (r - 112)

/-- R46: source B of format RRR: the literal where there is one. -/
def Env.rdB (e : Env) (f : RRR) : Word := match f.lit with
  | some x => x
  | none => e.rdS f.b

/-- R293, R298: a valid record as an instruction reads it; a `trec` of a bundle writes it in a cycle of its window, freely. -/
def Env.tensorRec (e : Env) (n : Nat) : Option TRec := (tblFind e.v.recs n).map (fun ws => recOf (wordsNat ws))

/-- R192, R194: a bypass name read in a lane: the last value whose window is open, outside the latency windows; otherwise a free value. Writes that overlap have one value between them (`openBypass`). -/
def Env.rdBypass (e : Env) (r l : Nat) : Nat :=
  let bs := e.v.bun.bypass.filter (fun b => decide (b.name = r - 248) && decide (b.lane = l) && decide (b.lo ≤ e.now) && decide (e.now ≤ b.hi))
  match bs.getLast? with
  | some b => if e.windowed (.v r l) then e.free (2048 + 32 * r + l) % 2 ^ 32 else b.val
  | none => e.free (2048 + 32 * r + l) % 2 ^ 32

/-- R118, R191, R194: one register of one lane or cluster. -/
def Env.rdV (e : Env) (r l : Nat) : Nat :=
  if e.slot.isSome && decide (248 ≤ r) then e.rdBypass r l
  else e.under (.v r l) (2048 + 32 * r + l) 32 (e.v.getV r l).toNat

/-- R58, R118, R324: one register of one lane as an engine-slot word reads a row of registers: v248 to v255 are registers there, which no word of a bundle writes, and not bypass names (log 108, DEDUCED). -/
def Env.rdVReg (e : Env) (r l : Nat) : Nat := if 248 ≤ r then (e.v.getV r l).toNat else e.rdV r l

/-- R75, R191, R298: a format register, under the windows of a bundle (log 34, DEDUCED). -/
def Env.fmtReg (e : Env) (n : Nat) : Word := BitVec.ofNat 64 (e.under (.freg n) (1000 + n) 64 (tblGet 0 e.v.fregs n).toNat)

/-- R74: FLAGS as a bundle reads it: every bit set before, and each bit that an operation inside its latency bound raises, with or without it. -/
def Env.flagsRead (e : Env) : Nat :=
  let raised := e.v.bun.flights.foldl (fun t f => if f.inWindow e.now then f.wr.foldl (fun t x => if x.dst = .flags then t ||| x.val else t) t else t) 0
  e.v.flags ||| (raised &&& e.free 120)

/-- R123, R191: predicate k in lane l. -/
def Env.rdP (e : Env) (k l : Nat) : Bool :=
  if k = 7 then true else decide (e.under (.p k l) (1024 + 8 * l + k) 1 (ofBool ((e.v.getP k).getLsbD l)) = 1)

/-- R123, R182: whether a guard passes in lane l. -/
def Env.guardOk (e : Env) (g : Guard) (l : Nat) : Bool := decide (g = Guard.none) || (e.rdP g.p l != g.neg)

/-- R48, R120: a scalar operand read by a vector form in lane l. -/
def Env.rdSLane (e : Env) (r l : Nat) : Word := if r = 104 then BitVec.ofNat 64 (e.laneNo l) else e.rdS r

/-- R142: a vector-class source of `n` bits in lane l: a register, a pair where n is 64, or the low n bits of a scalar operand. -/
def Env.rdVec (e : Env) (sc : Bool) (n r l : Nat) : Nat :=
  if sc then (e.rdSLane r l).toNat % 2 ^ n
  else if n = 64 then e.rdV r l + 2 ^ 32 * e.rdV (r + 1) l
  else e.rdV r l % 2 ^ n

/-- R46, R142: source B of a vector form of format RRR. -/
def Env.rdVecB (e : Env) (f : RRR) (n l : Nat) : Nat :=
  match f.lit with
  | some x => x.toNat % 2 ^ n
  | none => e.rdVec f.sb n f.b l

/-- A scalar result: a register, or the entry a push reserved (R58, R197). -/
def Env.wrS (e : Env) (d : Nat) (x : Word) : List Wr :=
  if d < 96 then [⟨.s (e.sreg d), x.toNat⟩]
  else match tblFind e.pushes (d - 96) with
    | some (core, ch, entry) => [⟨.chan core ch entry, x.toNat⟩]
    | none => []

/-- The places a scalar load's result goes. -/
def Env.dstS (e : Env) (d : Nat) : List Dst := (e.wrS d 0).map (·.dst)

/-- R142: a vector result of n bits in lane l; a result narrower than 32 bits comes extended. -/
def Env.wrV (_ : Env) (n d l x : Nat) : List Wr :=
  if n = 64 then [⟨.v d l, x % 2 ^ 32⟩, ⟨.v (d + 1) l, x / 2 ^ 32⟩] else [⟨.v d l, x⟩]

/-- R123: a predicate result in lane l; p7 discards it. -/
def Env.wrP (_ : Env) (d l : Nat) (b : Bool) : List Wr := if d = 7 then [] else [⟨.p d l, ofBool b⟩]

/-- The executing lanes, ascending (R11, R123). -/
def Env.lanes (e : Env) : List Nat := maskLanes e.act

/-- R396: whether a bundle's word issues while a pure region is uncommitted, so that its effect waits for the commit (R398). -/
def inRegion (e : Env) : Bool := e.slot.isSome && !e.v.bun.regions.isEmpty

/-- Where the next instruction stands. `br` is a format-BR target, formed exactly and checked (R102); `abs` any 64-bit address; `kept` means that the instruction set every PC itself. -/
inductive Go where
  | seq
  | br (t : Int)
  | abs (t : Word)
  | kept
  deriving DecidableEq, Repr, Inhabited

/-- What an instruction that completes leaves besides the state: its register results, the accesses it queues (R240), the FLAGS bits it raises, where to go, whether it resets the watchdog, which sub-wave counts as the one that issued (R129), and whether it waits, its pops still to come (R279). -/
structure Eff where
  wr : List Wr := []
  accs : List Acc := []
  flags : Nat := 0
  go : Go := .seq
  wdReset : Bool := false
  last : Option Nat := none
  waits : Bool := false
  deriving DecidableEq, Repr, Inhabited

/-- How an instruction ends at issue: complete, a trap, held with no effect but what `s` records of the wait, or issued and waiting for its responses (R402). -/
inductive Res where
  | done (s : State) (e : Eff)
  | trap (s : State) (t : Trap)
  | hold (s : State)
  | issued (s : State)
  deriving DecidableEq, Repr, Inhabited

/-- ILLEGAL with a REASON (R65). -/
def Env.illegal (e : Env) (reason : Nat) : Trap := { cause := .illegal, addr := e.p, info := BitVec.ofNat 64 (reason + 65536 * e.tag) }

/-- MODE with a REASON (R65). -/
def Env.modeTrap (e : Env) (reason : Nat) : Trap := { cause := .mode, addr := e.p, info := BitVec.ofNat 64 (reason + 65536 * e.tag) }

/-- A register an instruction names, whatever the lane. -/
inductive RegRef where
  | s (r : Nat)
  | v (r : Nat)
  | p (k : Nat)
  | t (n : Nat)
  deriving DecidableEq, Repr, Inhabited

/-- The registers an operand field names. -/
def refsOf (e : Env) (k : Cls) (sc : Bool) (v : Nat) : List RegRef :=
  if sc then (if v < 96 then [.s (e.sreg v)] else [])
  else match k with
    | .vec => [.v v]
    | .vec2 => [.v v, .v (v + 1)]
    | .ssrc | .sdst | .sreg => if v < 96 then [.s (e.sreg v)] else []
    | .spair => [.s (e.sreg v), .s (e.sreg (v + 1))]
    | .sgrp => [.s (e.sreg v), .s (e.sreg (v + 1)), .s (e.sreg (v + 2)), .s (e.sreg (v + 3))]
    | .strd => if v = 255 then [] else [.s v, .s (v + 1)]
    | .pred => [.p v]
    | .recd => [.t (e.recNo v)]
    | _ => []

/-- The registers an instruction reads or writes. -/
def regsOf (e : Env) (i : Instr) : List RegRef :=
  let f := fieldsOf i
  let k := specOf e.slot i
  refsOf e k.d false f.d ++ refsOf e k.a f.sa f.a ++ (if litIsB i then [] else refsOf e k.b f.sb f.b) ++ refsOf e k.c f.sc f.c
    ++ (if f.g.p = 7 then [] else [.p f.g.p])
    ++ match i with
      | .vatom f => if f.atop = 1 then [.v (f.b + 1)] else []
      | .tcopy f => [.t (e.recNo (f.a % 16))]
      | .mma f => if bits f.a 6 2 = 1 then (List.range 16).map (fun k => .v (f.b + k)) else []
      | _ => []

/-- Whether a place waiting for its value is one of the registers, in one of the lanes. -/
def dstTouches (rs : List RegRef) (m : Lane32) (d : Dst) : Bool :=
  match d with
  | .s r => decide (RegRef.s r ∈ rs)
  | .v r l => m.getLsbD l && decide (RegRef.v r ∈ rs)
  | .p k l => m.getLsbD l && decide (RegRef.p k ∈ rs)
  | .tensor n => decide (RegRef.t n ∈ rs)
  | _ => false

/-- The places an access writes when it performs. -/
def AKind.dsts (k : AKind) : List Dst :=
  match k with
  | .load ps => ps.map (·.dst)
  | .atomic _ _ _ ps => ps.map (·.dst)
  | .slot d => d
  | _ => []

/-- R324: the lanes whose registers an instruction may read or write: those of its sub-wave, for `mma` every lane. -/
def lanesOf (e : Env) (i : Instr) : Lane32 := match i with | .mma _ => BitVec.allOnes 32 | _ => e.mask

/-- R86, R180, R298, R335: whether a register the instruction names still waits for a value (log 89, DESIGN CHOICE). -/
def interlocked (e : Env) (i : Instr) : Bool :=
  let rs := regsOf e i
  e.v.accs.any (fun a => a.kind.dsts.any (dstTouches rs (lanesOf e i))) || e.v.owed.any (dstTouches rs (lanesOf e i))

/-- The ports a field of scalar class names. -/
def portOf (on : Bool) (v : Nat) : List Nat := if on && decide (96 ≤ v) && decide (v < 104) then [v - 96] else []

/-- Whether a field reads a scalar operand. -/
def popCls (k : Cls) (sc : Bool) : Bool := sc || decide (k = .ssrc)

/-- R197: the ports an instruction pops, each once. -/
def popsOf (slot : Option Slot) (i : Instr) : List Nat :=
  let f := fieldsOf i
  let k := specOf slot i
  nub (portOf (k.dSrc && popCls k.d false) f.d ++ portOf (popCls k.a f.sa) f.a ++ (if litIsB i then [] else portOf (popCls k.b f.sb) f.b) ++ portOf (popCls k.c f.sc) f.c)

/-- R197: the ports an instruction pushes; forms of group 6 have their scalar destination in A. -/
def pushesOf (slot : Option Slot) (i : Instr) : List Nat :=
  let f := fieldsOf i
  let k := specOf slot i
  portOf (decide (k.d = .sdst)) f.d ++ portOf (decide (k.a = .sdst)) f.a

end Sys2Proof.Machine
end

