-- ==== Sys2Proof/Machine/Issue.lean ====
section
/-! DEFINITION. Issuing one SIMT instruction: the tests of R64, ports, interlock, the body, and what completion does (R29, R42, R86, R138, R139, R197, R381). -/

namespace Sys2Proof.Machine

/-- The bytes an instruction takes in SIMT code (R29). -/
def instrLen (i : Instr) : Nat := if (fieldsOf i).lit.isSome then 16 else 8

/-- R65: the trap of a failed test of R64 (log 4, DEDUCED). -/
def decTrap (e : Env) (f : DecFault) : Trap :=
  match f with
  | .illegal r => e.illegal r
  | .mode r => e.modeTrap r

/-- R42: the sequential sum, exact, over PC[56:0]; only its bit 57 is a carry, so that the PC after 0x00FF_FFFF_FFFF_FFF8 is the plain sum 0x0100_0000_0000_0000, which its fetch refuses (log 98, DEDUCED). -/
def seqSum (p : Word) (n : Nat) : Nat := p.toNat % 2 ^ 57 + n

/-- R128: whether a `join` makes its sub-wave wait: the other branch is still running. -/
def Env.joinWaits (e : Env) : Bool :=
  match tblFind e.v.hinge (subParent e.x) with
  | none => false
  | some h => decide ((if e.x % 2 = 1 then h.fst else h.tst) = .run) || decide ((if e.x % 2 = 1 then h.fst else h.tst) = .split)

/-- R29, R42, R102 to R104, R107, R131, R172, R203, R316, R356: whether an instruction needs its sequential next PC: all but those that end their thread or sub-wave, wait at a join, yield, return, or stand only at a target (log 7, DEDUCED). -/
def goesOn (i : Instr) (e : Env) : Bool :=
  match i with
  | .jmp _ | .ret _ | .endThread _ | .tret _ | .tretPark _ | .callx _ | .yield _ | .answer _ => false
  | .jmpx f => decide (f.fn = 1)
  | .jc f => decide (e.rdS f.d = 0)
  | .lexit f => decide (e.rdS f.a = 0)
  | .brv f => decide (e.mask &&& laneMask (fun l => e.rdP f.d l) ≠ e.mask)
  | .wend _ => decide (e.act ≠ e.mask)
  | .join _ => !(e.joinWaits)
  | _ => true

/-- R42: whether the sequential next PC carries out of 57 bits (log 7, DEDUCED). -/
def seqCarries (p : Word) (n : Nat) : Bool := decide (2 ^ 57 ≤ seqSum p n)

/-- R42: the trap of a carry (log 7, DEDUCED). -/
def carryTrap (p : Word) (n : Nat) : Trap := { cause := .fetchBounds, addr := BitVec.ofNat 64 (seqSum p n) }

/-- R102: whether a branch target formed exactly leaves [−2⁵⁶, 2⁵⁶) (log 7, DEDUCED). -/
def brOut (t : Int) : Bool := decide (t < -(2 ^ 56)) || decide (2 ^ 56 ≤ t)

/-- R102: the trap of such a target. -/
def brTrap (t : Int) : Trap := { cause := .fetchBounds, addr := BitVec.ofInt 64 t }

/-- R120 to R123, R467: what sub-wave `x` of wave `w` sees for instruction `i` (log 98, DEDUCED). -/
def simtEnv (s : State) (w x : Nat) (v : Wave) (u : Sub) (i : Instr) : Env :=
  let h := v.inHandler
  let e : Env := { w := w, x := x, v := v, w16 := v.kernel.w16 && !h, half := halfOf v x, act := u.mask, mask := u.mask, p := u.pc, next := u.pc + BitVec.ofNat 64 (instrLen i),
                   now := s.clock, draw := s.fresh, die := dieOf v.core, core := physCore s v.core }
  { e with act := laneMask (fun l => u.mask.getLsbD l && e.guardOk (fieldsOf i).g l) }

/-- R139: whether the instruction whose issue raised the count to the limit, of sub-wave `x`, is a wait that has not completed. -/
def Wave.waitOpen (v : Wave) (x : Nat) : Bool :=
  match tblFind v.subs x with
  | some u => (match u.hold with | .kwait _ _ | .gate _ _ _ | .waitv _ => true | _ => false)
  | none => false

/-- R139: whether WATCHDOG stops every sub-wave at its boundary, but for a handler's; while the instruction that raised the count, or a `gsync`, whose arrival cannot be made twice, has still to complete, the others go on (log 33, DEDUCED). -/
def watchdogStops (v : Wave) : Bool :=
  v.handler.isNone && match v.async with
    | none => false
    | some (_, _, _, x) => !(v.waitOpen x) && !(v.subs.any (fun u => match u.2.hold with | .gate _ _ sync => sync | _ => false))

/-- Where a sub-wave of a wave may issue: R391 stops all but the handler's, R139 all, a stop, a yield, an end, a parking or a gap all (R224). -/
def mayIssue (v : Wave) (u : Sub) : Bool :=
  decide (v.phase = .simt) && !v.ended && !(watchdogStops v) && !(v.inGap) && (!v.stopped || v.stepping) && v.yield_.isNone && v.parkReq.isNone && decide (u.hold = .run)
    && match v.handler with
      | none => true
      | some h => decide (u.mask &&& ~~~h.mask = 0)

/-- The entries queued in a channel. -/
def chanEntries (s : State) (core ch : Nat) : List ChanEntry := tblGet [] (coreAt s core).chans ch

/-- R379: whether the binding of port `q` lets it pop, on the channel's own core, or push. -/
def portBound (s : State) (v : Wave) (push : Bool) (q : Nat) : Bool :=
  match tblFind v.ports q with
  | none => false
  | some b => decide (b.write = push) && (push || decide (physCore s b.core = physCore s v.core))

/-- The channel of a bound port. -/
def portChan (s : State) (v : Wave) (q : Nat) : Nat × Nat :=
  match tblFind v.ports q with
  | none => (0, 0)
  | some b => (physCore s b.core, b.chan)

/-- R197: whether a pop of port `q` finds an entry that has arrived with its value. -/
def popReady (s : State) (v : Wave) (q : Nat) : Bool :=
  match chanEntries s (portChan s v q).1 (portChan s v q).2 with
  | [] => false
  | e :: _ => e.val.isSome && e.arrived

/-- R197: the value at the head of a port's channel. -/
def popValue (s : State) (v : Wave) (q : Nat) : Word :=
  match chanEntries s (portChan s v q).1 (portChan s v q).2 with
  | [] => 0
  | e :: _ => e.val.getD 0

/-- R379: whether a push of port `q` finds room. -/
def pushReady (s : State) (v : Wave) (q : Nat) : Bool :=
  decide ((chanEntries s (portChan s v q).1 (portChan s v q).2).length < 64)

/-- The values popped, by port. -/
def popAll (s : State) (v : Wave) (qs : List Nat) : Tbl Word := qs.map (fun q => (q, popValue s v q))

/-- The entries at the heads of ports' channels: core, channel, number. -/
def popIds (s : State) (v : Wave) (qs : List Nat) : List (Nat × Nat × Nat) :=
  qs.filterMap (fun q => let c := portChan s v q; (chanEntries s c.1 c.2).head?.map (fun e => (c.1, c.2, e.id)))

/-- The entries that pushes reserve: for each port its core, channel and the number its entry will have. -/
def pushAll (s : State) (v : Wave) (qs : List Nat) : Tbl (Nat × Nat × Nat) :=
  qs.zipIdx.map (fun q =>
    let c := portChan s v q.1
    (q.1, c.1, c.2, (coreAt s c.1).nextEntry + ((qs.take q.2).filter (fun r => decide ((portChan s v r).1 = c.1))).length))

/-- R197: the entries of pops leave. -/
def takePops (s : State) (v : Wave) : List Nat → State
  | [] => s
  | q :: r => takePops (modCore s (portChan s v q).1 (fun c => { c with chans := tblMod c.chans (portChan s v q).2 List.tail })) v r

/-- R197: the entries of pushes are reserved (log 21, DEDUCED). -/
def takePushes (s : State) (v : Wave) : List Nat → State
  | [] => s
  | q :: r =>
    let (p, ch) := portChan s v q
    takePushes (modCore s p (fun c => { c with chans := tblPut c.chans ch (tblGet [] c.chans ch ++ [{ id := c.nextEntry }]), nextEntry := c.nextEntry + 1 })) v r

/-- R253, R381: the store stage a release reaches to cover a channel of core `p` from core `c` (log 21, DEDUCED). -/
def chanStage (c p : Nat) : Nat := if dieOf c = dieOf p then 1 else 2

/-- R250: whether every access of the wave's queues has performed, stores as far as `stage`. -/
def accsAt (v : Wave) (stage : Nat) : Bool :=
  v.accs.all (fun a => match a.kind with
    | .store _ | .pack _ _ _ | .discard => decide (stage ≤ a.stage)
    | _ => false)

/-- R250, R381: whether the release of every push of the instruction has effect; one to another die waits until its die's caches hold no store that is not yet performed at package scope (log 21, DEDUCED). -/
def pushReleased (s : State) (v : Wave) (qs : List Nat) : Bool :=
  qs.all (fun q => let k := chanStage (physCore s v.core) (portChan s v q).1; accsAt v k && (decide (k < 2) || (accepted s (dieOf v.core)).isEmpty))

/-- R251: a core's L1 drops every line that is not of a read-only page. -/
def dropL1 (s : State) (p : Nat) : State := modCore s p (fun c => { c with l1 := c.l1.filter (fun e => e.2.ro) })

/-- R430: the synchronising operations. -/
def syncOp (i : Instr) : Bool :=
  match i with
  | .gset _ | .garr _ | .gwait _ | .gsync _ | .kwait _ | .cwait _ | .waitv _ | .fence _ | .vatom _ | .satom _ => true
  | .sld f | .sst f | .vld f | .vst f | .lds f | .sts f => decide (cOrd f.c ≠ 0)
  | _ => false

/-- R430: the replay log that system software has set for a wave, its address and its entries; of none where it has set none (log 29, DESIGN CHOICE; log 40, DEDUCED). -/
def replayLog (s : State) (v : Wave) : Nat × Nat :=
  match (ctxAt s v.ctx).t.replayLogs.find? (fun x => decide (x.1 = v.logName)) with
  | some x => x.2
  | none => (0, 0)

/-- R430: the address of a wave's next replay-log entry (log 29, DESIGN CHOICE). -/
def replayAt (s : State) (v : Wave) : Nat := (replayLog s v).1 + 8 * v.replayPos

/-- R430: a replay-log entry: opcode and retired count. -/
def replayEntry (op : Nat) (v : Wave) : Nat := op % 1024 * 2 ^ 48 + v.retired % 2 ^ 48

/-- R431: the trap of an operation that the log does not hold next, under RCHK. -/
def replayCheck (s : State) (v : Wave) (op : Nat) : Option Trap :=
  let c := ctxAt s v.ctx
  if bitAt c.dbgWord.toNat 5 then
    let a := replayAt s v
    if (replayLog s v).2 ≤ v.replayPos then some { cause := .diverge, addr := BitVec.ofNat 64 a, info := BitVec.allOnes 64 }
    else
      let x := leNat (homeBytes s 0 a 0 8)
      if x = replayEntry op v then none else some { cause := .diverge, addr := BitVec.ofNat 64 a, info := BitVec.ofNat 64 x }
  else none

/-- R430: a synchronising operation recorded, within the log's entries, or counted against the log (log 29, DESIGN CHOICE). -/
def replayNote (s : State) (w : Nat) (v : Wave) (op : Nat) : State :=
  let d := (ctxAt s v.ctx).dbgWord.toNat
  if bitAt d 4 then modWave (if v.replayPos < (replayLog s v).2 then packagePutAll s 0 (replayAt s v) (leBytes 8 (replayEntry op v)) else s) w (fun u => { u with replayPos := u.replayPos + 1 })
  else if bitAt d 5 then modWave s w (fun u => { u with replayPos := u.replayPos + 1 })
  else s

/-- R431: the trap that the replay check of an instruction raises. -/
def replayTrap (s : State) (v : Wave) (i : Instr) : Option Trap := if syncOp i then replayCheck s v ((opOf i).getD 0) else none

/-- R430: the state after an instruction's replay record. -/
def replayDone (s : State) (w : Nat) (v : Wave) (i : Instr) : State := if syncOp i then replayNote s w v ((opOf i).getD 0) else s

/-- R138, R139: the watchdog count after an issue of the wave under the limit the instruction found; in the handler state it does not rise. A cause that waits already stays (log 8, DEDUCED; log 97, DEDUCED; log 99, DEDUCED). -/
def Wave.countIssue (v : Wave) (x : Nat) (reset : Bool) (limit : Word) : Wave :=
  if reset then { v with wd := 0 }
  else if v.inHandler then v
  else
    let n := v.wd + 1
    { v with wd := n, async := if limit ≠ 0 ∧ limit.toNat ≤ n ∧ v.async.isNone then some (.watchdog, 0, BitVec.ofNat 64 n, x) else v.async }

/-- Where the sub-wave goes. -/
def goPc (g : Go) (next : Word) : Word :=
  match g with
  | .seq | .kept => next
  | .br t => BitVec.ofInt 64 t
  | .abs t => t

/-- R29, R74, R136, R138, R430: what the wave itself shows of a completed issue. -/
def Wave.advance (v : Wave) (x : Nat) (next : Word) (eff : Eff) (limit : Word) : Wave :=
  let v1 := { v with flags := v.flags ||| eff.flags, retired := v.retired + 1 }
  let v2 := v1.modSub x (fun u => { u with pc := if eff.go = .kept then u.pc else goPc eff.go next, aged := 0 })
  v2.countIssue (eff.last.getD x) eff.wdReset limit

/-- R136, R138, R430: what a wave shows of an instruction that has issued and waits for its responses (log 28, DEDUCED). -/
def Wave.awaits (v : Wave) (x : Nat) : Wave := (({ v with retired := v.retired + 1 }).modSub x (fun u => { u with aged := 0 })).countIssue x false v.wdlimit

/-- R240: accesses placed in the queues of a wave together; the first one's number names their instruction. -/
def Wave.queue (v : Wave) (x : Nat) (l : List Acc) : Wave :=
  { v with accs := v.accs ++ l.mapIdx (fun i a => { a with id := v.nextAcc + i, issue := v.nextAcc, sub := x }), nextAcc := v.nextAcc + l.length }

/-- The completion of an instruction of sub-wave `e.x`: ports, results, accesses, FLAGS, PC, watchdog, issue order (log 89, DESIGN CHOICE; log 109, DEDUCED). -/
def complete (s : State) (e : Env) (pops pushes : List Nat) (eff : Eff) : State :=
  let s1 := takePushes (if eff.waits then s else takePops s e.v pops) e.v pushes
  let s2 := landAll s1 e.w eff.wr
  let s3 := modWave s2 e.w (fun v => (v.queue e.x eff.accs).advance e.x e.next eff e.v.wdlimit)
  let s4 := modSect s3 e.core e.v.sect (fun k => { k with last := some (e.w, eff.last.getD e.x), issuedAt := some s.clock })
  if pops.isEmpty || eff.waits then s4 else dropL1 s4 e.core

/-- A waiting sub-wave goes on at an address. -/
def Wave.resumeAt (v : Wave) (x : Nat) (next : Word) : Wave := v.modSub x (fun u => { u with pc := next, hold := .run })

/-- R135, R402: the instruction of sub-wave `x` has issued and waits for its responses (log 28, DEDUCED). -/
def awaitsAt (s : State) (w x core : Nat) (v : Wave) : State :=
  modSect (modWave s w (fun u => u.awaits x)) core v.sect (fun k => { k with last := some (w, x), issuedAt := some s.clock })

/-- R404: TINFO of PEER_FAULT and PEER_TIMEOUT. -/
def peerInfo (rank more fault : Nat) : Word := BitVec.ofNat 64 (rank * 2 ^ 40 + (if 255 < more then 255 else more) * 2 ^ 32 + fault)

/-- R403: the trap of the failed peer store of a wave that is earliest in its store order; the record is then cleared. -/
def failedTrap (v : Wave) : Option Trap :=
  match v.failed with
  | [] => none
  | y :: r =>
    let x := r.foldl (fun m z => if z.order < m.order then z else m) y
    some { cause := if x.timeout then .peerTimeout else .peerFault, addr := x.addr, info := peerInfo x.rank r.length (if x.timeout then 0 else x.fault) }

/-- R403: a trap for a failed peer store, the record cleared. -/
def takeFailed (s : State) (w : Nat) (t : Trap) : Res := .trap (modWave s w (fun v => { v with failed := [] })) t

/-- R381, R403: what a SIMT instruction that pushes, which is a release, raises for a failed peer store of its wave. -/
def pushFails (v : Wave) (pushes : List Nat) : Option Trap := if pushes.isEmpty then none else failedTrap v

/-- An instruction of sub-wave `x` of wave `w` at issue; one that traps has not issued, and neither the watchdog nor aging counts it (log 21, DEDUCED; log 99, DEDUCED; log 7, DEDUCED). -/
def issueAt (i : Instr) (body : Env → State → Res) (s : State) (w x : Nat) (v : Wave) (u : Sub) : Out :=
  let e0 := simtEnv s w x v u i
  let pops := popsOf none i
  let pushes := pushesOf none i
  match check { alloc := v.kernel.alloc, w16 := e0.w16 } i with
  | some f => nextOf s (enterTrap s w x (decTrap e0 f))
  | none =>
    if !(pops.all (portBound s v false) && pushes.all (portBound s v true)) then nextOf s (enterTrap s w x (e0.illegal 10))
    else if interlocked e0 i || !(pops.all (popReady s v)) || !(pushes.all (pushReady s v)) || !(pushReleased s v pushes) then nextOf s s
    else
      let e := { e0 with pops := popAll s v pops, pushes := pushAll s v pushes }
      if seqCarries u.pc (instrLen i) && goesOn i e then nextOf s (enterTrap s w x (carryTrap u.pc (instrLen i)))
      else match replayTrap s v i with
      | some t => nextOf s (enterTrap s w x t)
      | none =>
        match pushFails v pushes with
        | some t => nextOf s (enterTrap (modWave s w (fun v => { v with failed := [] })) w x t)
        | none =>
          match body e s with
          | .trap s1 t => nextOf s (enterTrap s1 w x t)
          | .hold s1 => nextOf s s1
          | .issued s1 => nextOf s (replayDone (awaitsAt s1 w x e.core v) w v i)
          | .done s1 eff =>
            match eff.go with
            | .br t => if brOut t then nextOf s (enterTrap s w x (brTrap t)) else nextOf s (replayDone (complete s1 e pops pushes eff) w v i)
            | _ => nextOf s (replayDone (complete s1 e pops pushes eff) w v i)

/-- An instruction issued by the sub-wave that `cur` names; refused where none is named or it may not issue (log 62, DESIGN CHOICE). -/
def issue (i : Instr) (body : Env → State → Res) (s : State) : Out :=
  match s.cur with
  | none => .refused .noIssuer
  | some (w, x) =>
    match waveAt s w with
    | none => .refused .noIssuer
    | some v =>
      match tblFind v.subs x with
      | none => .refused .noIssuer
      | some u => if mayIssue v u then issueAt i body s w x v u else .refused .noIssuer

/-- A body that only writes registers and FLAGS. -/
def pureBody (f : Env → Eff) : Env → State → Res := fun e s => .done s (f e)

end Sys2Proof.Machine
end

