-- ==== Sys2Proof/Machine/Scalar.lean ====
section
/-! DEFINITION. The scalar instructions of group 0 (R86 to R100). -/

namespace Sys2Proof.Machine

/-- R89: the width of a scalar integer form; TYPE 0 means `.i64`. -/
def sBits (f : RRR) : Nat := tyBits 64 f.ty

/-- R89: source A of a scalar integer form as an integer. -/
def sIntA (f : RRR) (e : Env) : Int := toInt (tySigned f.ty) (sBits f) (e.rdS f.a).toNat

/-- R89: source B of a scalar integer form as an integer. -/
def sIntB (f : RRR) (e : Env) : Int := toInt (tySigned f.ty) (sBits f) (e.rdB f).toNat

/-- R89: an n-bit result written extended to 64 bits. -/
def sIntOut (f : RRR) (e : Env) (r : Nat) : List Wr := e.wrS f.d (ext64 (tySigned f.ty) (sBits f) r)

/-- R90: a two-source integer form. -/
def effSInt (o : IntOp) (f : RRR) (e : Env) : Eff :=
  { wr := sIntOut f e (fitN f.sat (tySigned f.ty) (sBits f) (intOp o (sBits f) (sIntA f e) (sIntB f e))) }

/-- R68, R90: division or remainder. -/
def effSDiv (rem : Bool) (f : RRR) (e : Env) : Eff :=
  let r := divRem (tySigned f.ty) (sBits f) (sIntA f e) (sIntB f e)
  { wr := sIntOut f e (truncN (sBits f) (if rem then r.2.1 else r.1)), flags := flagIf r.2.2 flagDZ }

/-- R91: a bitwise or shift form; the shift count is of the full register. -/
def effSBit (o : BitOp) (f : RRR) (e : Env) : Eff :=
  let n := sBits f
  let b := (e.rdB f).toNat
  let b1 := match o with
    | .and | .or | .xor | .andn => b % 2 ^ n
    | _ => b
  { wr := sIntOut f e (bitOp o n ((e.rdS f.a).toNat % 2 ^ n) b1) }

/-- R92: the absolute value. -/
def effSabs (f : RRR) (e : Env) : Eff := { wr := sIntOut f e (fitN f.sat true (sBits f) (sint (sBits f) (e.rdS f.a).toNat).natAbs) }

/-- R92: a count written zero-extended. -/
def effSCount (g : Nat → Nat → Nat) (f : RRR) (e : Env) : Eff := { wr := e.wrS f.d (BitVec.ofNat 64 (g (sBits f) ((e.rdS f.a).toNat % 2 ^ sBits f))) }

/-- R92: a move of the low n bits, extended. -/
def effSmov (f : RRR) (e : Env) : Eff := { wr := sIntOut f e ((e.rdS f.a).toNat % 2 ^ sBits f) }

/-- R93: extension from a variable bit. -/
def effSext (f : RRR) (e : Env) : Eff :=
  let n := (e.rdB f).toNat % 64 + 1
  { wr := e.wrS f.d (ext64 (decide (f.ty ≠ .n64)) n (e.rdS f.a).toNat) }

/-- R94: the width operand of a bit-field form. -/
def fieldWidth (n : Nat) (x : Nat) : Nat := if n < x then n else x

/-- R94: bit-field extraction. -/
def effSbfx (f : RRR) (e : Env) : Eff :=
  let w := fieldWidth 64 (e.rdS f.c).toNat
  let r := bitField 64 (e.rdS f.a).toNat ((e.rdB f).toNat % 64) w
  { wr := e.wrS f.d (if w = 0 then 0 else ext64 (decide (f.ty ≠ .n64)) w r) }

/-- R94: bit-field insertion; D is read and written. -/
def effSbfi (f : RRR) (e : Env) : Eff :=
  { wr := e.wrS f.d (BitVec.ofNat 64 (bitInsert 64 (e.rdS f.d).toNat (e.rdS f.a).toNat ((e.rdB f).toNat % 64) (fieldWidth 64 (e.rdS f.c).toNat))) }

/-- R95: comparison. -/
def effScmp (f : RRR) (e : Env) : Eff := { wr := e.wrS f.d (BitVec.ofNat 64 (ofBool (intCond f.fn (sIntA f e) (sIntB f e)))) }

/-- R95: selection. -/
def effSsel (f : RRR) (e : Env) : Eff := { wr := e.wrS f.d (if e.rdS f.c ≠ 0 then e.rdS f.a else e.rdB f) }

/-- R96: load immediate. -/
def effSli (f : RI) (e : Env) : Eff := { wr := e.wrS f.d (f.lit.getD f.imm) }

/-- R97: the format of a scalar float form; TYPE 0 means `.f64`. -/
def sFmt (f : RRR) : FFmt := fmtOf .f64 f.ty

/-- R70: the rounding mode of a form. -/
def Env.rmode (e : Env) (r : Rnd) : Nat := rndMode e.v.rm r

/-- R72, R97: a scalar float source from the low bits of a value. -/
def sFlt (f : RRR) (e : Env) (x : Word) : FVal := readF (sFmt f) e.v.ftz (x.toNat % 2 ^ (sFmt f).width)

/-- R97: a float result written zero-extended, with its flags. -/
def sFltOut (f : RRR) (e : Env) (r : Nat × Nat) : Eff := { wr := e.wrS f.d (BitVec.ofNat 64 r.1), flags := r.2 }

/-- R98: `sfadd`, FN 1 subtracting. -/
def effSfadd (f : RRR) (e : Env) : Eff := sFltOut f e (addF (sFmt f) (e.rmode f.rnd) e.v.ftz (sFlt f e (e.rdS f.a)) ((sFlt f e (e.rdB f)).negIf (decide (f.fn = 1))))

/-- R98: `sfmul`. -/
def effSfmul (f : RRR) (e : Env) : Eff := sFltOut f e (mulF (sFmt f) (e.rmode f.rnd) e.v.ftz (sFlt f e (e.rdS f.a)) (sFlt f e (e.rdB f)))

/-- R98: `sffma`, FN bit 0 negating the product and bit 1 the addend. -/
def effSffma (f : RRR) (e : Env) : Eff :=
  sFltOut f e (fmaF (sFmt f) (e.rmode f.rnd) e.v.ftz (bitAt f.fn 0) (bitAt f.fn 1) (sFlt f e (e.rdS f.a)) (sFlt f e (e.rdB f)) (sFlt f e (e.rdS f.c)))

/-- R99: `sfcmp`. -/
def effSfcmp (f : RRR) (e : Env) : Eff :=
  let r := condF f.fn (sFlt f e (e.rdS f.a)) (sFlt f e (e.rdB f))
  { wr := e.wrS f.d (BitVec.ofNat 64 (ofBool r.1)), flags := r.2 }

/-- R75: the narrow format a format-register field names. -/
def Env.nfmt (e : Env) (n : Nat) : NFmt := nfmtOf (e.fmtReg n)

/-- R76: whether a conversion names a format register whose value is not valid. -/
def cvBadFmt (f : CV) (e : Env) : Bool := (decide (f.stype = .fq) && !(e.nfmt f.sfmt).valid) || (decide (f.ty = .fq) && !(e.nfmt f.dfmt).valid)

/-- R80, R100: the conversion of one source value. -/
def cvOne (f : CV) (e : Env) (x : Nat) : Nat × Nat := convert f.stype f.ty (e.nfmt f.sfmt) (e.nfmt f.dfmt) (e.rmode f.rnd) e.v.ftz f.sat x

/-- R100: a scalar conversion. -/
def bodySfcvt (f : CV) (e : Env) (s : State) : Res :=
  if cvBadFmt f e then .trap s (e.illegal 10)
  else
    let r := cvOne f e (e.rdS f.a).toNat
    .done s { wr := e.wrS f.d (if f.ty = .fq ∨ isFloatTy f.ty then BitVec.ofNat 64 r.1 else ext64 (tySigned f.ty) (tyBits 64 f.ty) r.1), flags := r.2 }

/-- R90. -/
def bodySadd (f : RRR) : Env → State → Res := pureBody (effSInt .add f)
/-- `sadd` (R90). -/
def execSadd (f : RRR) (s : State) : Out := issue (.sadd f) (bodySadd f) s

/-- R90. -/
def bodySsub (f : RRR) : Env → State → Res := pureBody (effSInt .sub f)
/-- `ssub` (R90). -/
def execSsub (f : RRR) (s : State) : Out := issue (.ssub f) (bodySsub f) s

/-- R90. -/
def bodySmul (f : RRR) : Env → State → Res := pureBody (effSInt .mul f)
/-- `smul` (R90). -/
def execSmul (f : RRR) (s : State) : Out := issue (.smul f) (bodySmul f) s

/-- R90. -/
def bodySmulh (f : RRR) : Env → State → Res := pureBody (effSInt .mulh f)
/-- `smulh` (R90). -/
def execSmulh (f : RRR) (s : State) : Out := issue (.smulh f) (bodySmulh f) s

/-- R68, R90. -/
def bodySdiv (f : RRR) : Env → State → Res := pureBody (effSDiv false f)
/-- `sdiv` (R68, R90). -/
def execSdiv (f : RRR) (s : State) : Out := issue (.sdiv f) (bodySdiv f) s

/-- R68, R90. -/
def bodySrem (f : RRR) : Env → State → Res := pureBody (effSDiv true f)
/-- `srem` (R68, R90). -/
def execSrem (f : RRR) (s : State) : Out := issue (.srem f) (bodySrem f) s

/-- R90. -/
def bodySmin (f : RRR) : Env → State → Res := pureBody (effSInt .min f)
/-- `smin` (R90). -/
def execSmin (f : RRR) (s : State) : Out := issue (.smin f) (bodySmin f) s

/-- R90. -/
def bodySmax (f : RRR) : Env → State → Res := pureBody (effSInt .max f)
/-- `smax` (R90). -/
def execSmax (f : RRR) (s : State) : Out := issue (.smax f) (bodySmax f) s

/-- R91. -/
def bodySand (f : RRR) : Env → State → Res := pureBody (effSBit .and f)
/-- `sand` (R91). -/
def execSand (f : RRR) (s : State) : Out := issue (.sand f) (bodySand f) s

/-- R91. -/
def bodySor (f : RRR) : Env → State → Res := pureBody (effSBit .or f)
/-- `sor` (R91). -/
def execSor (f : RRR) (s : State) : Out := issue (.sor f) (bodySor f) s

/-- R91. -/
def bodySxor (f : RRR) : Env → State → Res := pureBody (effSBit .xor f)
/-- `sxor` (R91). -/
def execSxor (f : RRR) (s : State) : Out := issue (.sxor f) (bodySxor f) s

/-- R91. -/
def bodySandn (f : RRR) : Env → State → Res := pureBody (effSBit .andn f)
/-- `sandn` (R91). -/
def execSandn (f : RRR) (s : State) : Out := issue (.sandn f) (bodySandn f) s

/-- R91. -/
def bodySshl (f : RRR) : Env → State → Res := pureBody (effSBit .shl f)
/-- `sshl` (R91). -/
def execSshl (f : RRR) (s : State) : Out := issue (.sshl f) (bodySshl f) s

/-- R91. -/
def bodySshr (f : RRR) : Env → State → Res := pureBody (effSBit .shr f)
/-- `sshr` (R91). -/
def execSshr (f : RRR) (s : State) : Out := issue (.sshr f) (bodySshr f) s

/-- R91. -/
def bodySsar (f : RRR) : Env → State → Res := pureBody (effSBit .sar f)
/-- `ssar` (R91). -/
def execSsar (f : RRR) (s : State) : Out := issue (.ssar f) (bodySsar f) s

/-- R91. -/
def bodySrot (f : RRR) : Env → State → Res := pureBody (effSBit .rot f)
/-- `srot` (R91). -/
def execSrot (f : RRR) (s : State) : Out := issue (.srot f) (bodySrot f) s

/-- R92. -/
def bodySabs (f : RRR) : Env → State → Res := pureBody (effSabs f)
/-- `sabs` (R92). -/
def execSabs (f : RRR) (s : State) : Out := issue (.sabs f) (bodySabs f) s

/-- R92. -/
def bodySclz (f : RRR) : Env → State → Res := pureBody (effSCount leadZeros f)
/-- `sclz` (R92). -/
def execSclz (f : RRR) (s : State) : Out := issue (.sclz f) (bodySclz f) s

/-- R92. -/
def bodySpopc (f : RRR) : Env → State → Res := pureBody (effSCount popcount f)
/-- `spopc` (R92). -/
def execSpopc (f : RRR) (s : State) : Out := issue (.spopc f) (bodySpopc f) s

/-- R92. -/
def bodySmov (f : RRR) : Env → State → Res := pureBody (effSmov f)
/-- `smov` (R92). -/
def execSmov (f : RRR) (s : State) : Out := issue (.smov f) (bodySmov f) s

/-- R93. -/
def bodySext (f : RRR) : Env → State → Res := pureBody (effSext f)
/-- `sext` (R93). -/
def execSext (f : RRR) (s : State) : Out := issue (.sext f) (bodySext f) s

/-- R94. -/
def bodySbfx (f : RRR) : Env → State → Res := pureBody (effSbfx f)
/-- `sbfx` (R94). -/
def execSbfx (f : RRR) (s : State) : Out := issue (.sbfx f) (bodySbfx f) s

/-- R94. -/
def bodySbfi (f : RRR) : Env → State → Res := pureBody (effSbfi f)
/-- `sbfi` (R94). -/
def execSbfi (f : RRR) (s : State) : Out := issue (.sbfi f) (bodySbfi f) s

/-- R95. -/
def bodyScmp (f : RRR) : Env → State → Res := pureBody (effScmp f)
/-- `scmp` (R95). -/
def execScmp (f : RRR) (s : State) : Out := issue (.scmp f) (bodyScmp f) s

/-- R95. -/
def bodySsel (f : RRR) : Env → State → Res := pureBody (effSsel f)
/-- `ssel` (R95). -/
def execSsel (f : RRR) (s : State) : Out := issue (.ssel f) (bodySsel f) s

/-- R98. -/
def bodySfadd (f : RRR) : Env → State → Res := pureBody (effSfadd f)
/-- `sfadd` (R98). -/
def execSfadd (f : RRR) (s : State) : Out := issue (.sfadd f) (bodySfadd f) s

/-- R98. -/
def bodySfmul (f : RRR) : Env → State → Res := pureBody (effSfmul f)
/-- `sfmul` (R98). -/
def execSfmul (f : RRR) (s : State) : Out := issue (.sfmul f) (bodySfmul f) s

/-- R98. -/
def bodySffma (f : RRR) : Env → State → Res := pureBody (effSffma f)
/-- `sffma` (R98). -/
def execSffma (f : RRR) (s : State) : Out := issue (.sffma f) (bodySffma f) s

/-- R99. -/
def bodySfcmp (f : RRR) : Env → State → Res := pureBody (effSfcmp f)
/-- `sfcmp` (R99). -/
def execSfcmp (f : RRR) (s : State) : Out := issue (.sfcmp f) (bodySfcmp f) s

/-- R96. -/
def bodySli (f : RI) : Env → State → Res := pureBody (effSli f)
/-- `sli` (R96). -/
def execSli (f : RI) (s : State) : Out := issue (.sli f) (bodySli f) s

/-- `sfcvt` (R100). -/
def execSfcvt (f : CV) (s : State) : Out := issue (.sfcvt f) (bodySfcvt f) s

end Sys2Proof.Machine
end

