-- ==== Sys2Proof/Machine/Order.lean ====
section
/-! DEFINITION. The order in which a die's dispatcher places the work of a context, and the places that free for its head (R367, R369, R375). -/

namespace Sys2Proof.Machine

/-- R364: the SPLIT code of a section. -/
def splitCode (split k : Nat) : Nat := bits split (2 * k) 2

/-- R369: the set dies of a launch. -/
def diesOf (l : Launch) : List Nat := (List.range 4).filter (fun d => bitAt l.dies d)

/-- R369: the next cohort of a launch on a die, if one is left. -/
def nextOn (l : Launch) (d : Nat) : Option Nat :=
  let ds := diesOf l
  let i := (ds.findIdx (fun x => decide (x = d))) + ds.length * tblGet 0 l.placed d
  if d ∈ ds ∧ i < l.grid then some i else none

/-- R367: whether a dependence of a launch, the last launch of that identifier before it, has completed, and with a status other than 0x01 (log 121, DEDUCED). -/
def depState (s : State) (l : Launch) (d : Nat) : Bool × Bool :=
  let open_ := ((tblVals s.launches).filter (fun e => decide (e.ctx = l.ctx) && decide (e.id = d) && decide (e.order < l.order))).map (·.order)
  let ended := (ctxAt s l.ctx).hist.filter (fun h => decide (h.1 = d) && decide (h.2.2 < l.order))
  (open_.isEmpty, ended.any (fun h => decide (h.2.1 ≠ 1) && ended.all (fun x => decide (x.2.2 ≤ h.2.2))))

/-- R367: whether every dependence of a launch has completed. -/
def depsReady (s : State) (l : Launch) : Bool := l.deps.all (fun d => (depState s l d).1)

/-- R365: whether a completed dependence ended with a status other than 0x01. -/
def depsFailed (s : State) (l : Launch) : Bool := depsReady s l && l.deps.any (fun d => (depState s l d).2)

/-- R375: the place of work in a context's order: class, deadline, the earlier record. -/
def workBefore (a b : Nat × Nat × Nat) : Bool := decide (a.1 < b.1) || (decide (a.1 = b.1) && (decide (a.2.1 < b.2.1) || (decide (a.2.1 = b.2.1) && decide (a.2.2 < b.2.2))))

/-- R375: a launch's place in the order. -/
def Launch.rank (l : Launch) : Nat × Nat × Nat := (l.cls, l.deadline, l.order)

/-- R369, R375: whether a cohort of a launch waits to be placed on a die by itself; the cohorts of a co-resident launch are placed together. -/
def Launch.waits (s : State) (l : Launch) (d : Nat) : Bool :=
  l.status.isNone && !l.gang && (ctxAt s l.ctx).faulted.isNone && depsReady s l && !(depsFailed s l) && (nextOn l d).isSome

/-- R375: the launches at the head of their contexts' orders on a die. -/
def headsOn (s : State) (d : Nat) : List Launch :=
  let ws := (tblVals s.launches).filter (fun l => l.waits s d)
  ws.filter (fun l => !(ws.any (fun m => decide (m.ctx = l.ctx) && workBefore m.rank l.rank)))

/-- R375: the places taken by launches that still wait (log 39, DEDUCED). -/
def takenNow (s : State) : List Taken := s.taken.filter (fun t => (tblVals s.launches).any (fun l => decide (l.order = t.ord) && l.waits s (dieOf t.core)))

/-- R375: the launch that takes a place that frees on a die: the one that takes places there already, else a head, freely among those of several contexts (log 39). -/
def takerOn (s : State) (d : Nat) : Option Launch :=
  match (takenNow s).find? (fun t => decide (dieOf t.core = d)) with
  | some t => (tblVals s.launches).find? (fun l => decide (l.order = t.ord))
  | none => (headsOn s d)[free s 31 % (headsOn s d).length]?

/-- R375, R376: a wave place of a section of a logical core has freed: a head that may use the section takes it (log 39, DEDUCED). -/
def placeFreed (s : State) (core k regs : Nat) : State :=
  match takerOn s (dieOf core) with
  | some l =>
    if splitCode l.split k ≠ 0 ∧ s.ctxs.all (fun c => !(decide ((core, k) ∈ c.2.t.class0)) || (decide (c.1 = l.ctx) && decide (l.cls = 0))) = true then
      { s with taken := takenNow s ++ [{ core := physCore s core, sect := k, regs := regs, ord := l.order, ctx := l.ctx }] }
    else s
  | none => s

/-- R371, R375: a card that is dropped leaves the place it had reserved. -/
def cardFreed (s : State) (c : Card) : State :=
  match c.core with
  | some core => placeFreed s core c.sect c.kernel.alloc
  | none => s

end Sys2Proof.Machine
end

