-- ==== Sys2Proof/Machine/Lifecycle.lean ====
section
/-! DEFINITION. The end of a wave: its place, bindings and scratchpad released (R121, R132, R382). -/

namespace Sys2Proof.Machine

/-- R382: whether any wave, parked ones included, has a port bound to a channel. -/
def chanBound (s : State) (core ch : Nat) : Bool :=
  s.waves.any (fun e => e.2.ports.any (fun b => decide (b.2.chan = ch) && decide (physCore s b.2.core = core)))
    || s.parked.any (fun c => c.2.waves.any (fun v => v.ports.any (fun b => decide (b.2.chan = ch) && decide (physCore s b.2.core = core))))

/-- R382: the channels no binding names any more are emptied (log 106, DEDUCED). -/
def freeChans (s : State) : List (Nat × PortBind) → State
  | [] => s
  | b :: r =>
    let core := physCore s b.2.core
    freeChans (if chanBound s core b.2.chan then s else modCore s core (fun c => { c with chans := tblErase c.chans b.2.chan })) r

/-- R357: the answer of a core to a census changed. -/
def modAnswer (s : State) (stamp p : Nat) (f : CAns → CAns) : State :=
  { s with censuses := s.censuses.map (fun c => if c.so.stamp = stamp ∧ c.stamped = true then { c with cores := tblPut c.cores p (f (tblGet {} c.cores p)) } else c) }

/-- R355: a match counted as faulted. -/
def faultMatch (s : State) (m : Match) : State := modAnswer s m.so.stamp m.ansCore (fun a => { a with matches_ := a.matches_ + 1, flt := true })

/-- R355 to R357: a responder has ended: its response, or its fault, goes into its census. -/
def answerMatch (s : State) (m : Match) (v : Wave) : State :=
  match v.respFault, v.answer with
  | false, some x => modAnswer s m.so.stamp m.ansCore (fun a => { a with matches_ := a.matches_ + 1, resp := a.resp ++ [(m.entry, x)] })
  | _, _ => faultMatch s m

/-- R355: a responder that has ended and is drained leaves its place, and its match is resolved. -/
def releaseResponder (s : State) (w : Nat) (v : Wave) : State :=
  let p := physCore s v.core
  let ms := (coreAt s p).matches_.filter (fun m => decide (m.wave = some w))
  let s1 := ms.foldl (fun t m => answerMatch t m v) s
  { modCore s1 p (fun c => { c with matches_ := c.matches_.filter (fun m => decide (m.wave ≠ some w)) }) with waves := tblErase s.waves w }

/-- R372, R409: a card whose wave has ended: the entries it pinned are RESIDENT again. -/
def cardEnd (s : State) (c : Nat) : State :=
  match tblFind s.cards c with
  | none => s
  | some k =>
    let p := physCore s k.pinCore
    let s1 := modCore s p (fun x => { x with keyring := k.pins.foldl (fun r i => tblMod r i (fun e => if e.st = .pinned ∧ e.ctx = k.ctx then { e with st := .resident } else e)) x.keyring })
    { s1 with cards := tblErase s1.cards c }

/-- R310: whether an engine instruction of a wave is left (log 22, DEDUCED). -/
def engLeft (s : State) (w : Nat) : Bool := s.eng.any (fun e => decide (e.2.wave = w))

/-- R444: the migration entries of a cohort whose allocation is released are FREE (log 81, DEDUCED). -/
def dropMig (s : State) (co : Nat) : State := { s with cores := s.cores.map (fun c => (c.1, { c.2 with keyring := c.2.keyring.filter (fun k => !(k.2.mig.any (fun m => decide (m.1 = co)))) })) }

/-- R121, R366: a cohort's last wave has ended. -/
def cohortEnd (s : State) (co : Nat) (c : Cohort) : State :=
  let s1 := { dropMig s co with cohorts := tblErase s.cohorts co }
  match c.card with
  | some k => cardEnd s1 k
  | none => { s1 with launches := tblMod s1.launches c.launch (fun l => { l with left := l.left - 1 }) }

/-- R132: a wave's place, registers and bindings are released, and with its cohort's last wave the cohort's scratchpad (R121, R375). -/
def releaseWave (s : State) (w : Nat) : State :=
  match waveAt s w with
  | none => s
  | some v =>
    let s1 := freeChans { s with waves := tblErase s.waves w } v.ports
    match tblFind s1.cohorts v.cohort with
    | none => s1
    | some c =>
      let left := c.waves.filter (· ≠ w)
      placeFreed (if left.isEmpty then cohortEnd s1 v.cohort c else { s1 with cohorts := tblPut s1.cohorts v.cohort { c with waves := left } }) v.core v.sect v.kernel.alloc

end Sys2Proof.Machine
end

