-- ==== Sys2Proof/Machine/SimtControl.lean ====
section
/-! DEFINITION. Divergence: `brv`, `join`, `wend` and the hinge stack (R126 to R132, R172 to R174, R466, R468). -/

namespace Sys2Proof.Machine

/-- R102: the exact target of a format-BR form. -/
def brTarget (p off : Word) : Int := sint 64 p.toNat + 8 * sint 64 off.toNat

/-- The state of a branch of an entry; a root's branch counts as running. -/
def brState (v : Wave) (h : Nat) (b : Bool) : BrState :=
  match tblFind v.hinge h with
  | none => .run
  | some e => if b then e.tst else e.fst

/-- The state of a branch changed; a root has none of its own. -/
def setBr (v : Wave) (h : Nat) (b : Bool) (st : BrState) : Wave :=
  { v with hinge := tblMod v.hinge h (fun e => if b then { e with tst := st } else { e with fst := st }) }

/-- The number of a sub-wave: parent entry and branch. -/
def subId (h : Nat) (b : Bool) : Nat := 2 * h + ofBool b

/-- The branch bit of a sub-wave. -/
def subBranch (x : Nat) : Bool := decide (x % 2 = 1)

/-- R128: the entries a split may take: 1 to 15, or those of the half. -/
def splitEntries (w16 : Bool) (half : Nat) : List Nat := if w16 then (if half = 0 then [1, 2, 3, 4, 5, 6, 7] else [9, 10, 11, 12, 13, 14, 15]) else [1, 2, 3, 4, 5, 6, 7, 8, 9, 10, 11, 12, 13, 14, 15]

/-- R128: the lowest free entry. -/
def freeEntry (v : Wave) (half : Nat) : Option Nat := (splitEntries v.kernel.w16 half).find? (fun n => (tblFind v.hinge n).isNone)

/-- R128: sub-wave `x` splits into the taken lanes at `t` and the others at `next`, under entry n. -/
def splitSub (v : Wave) (x n : Nat) (u : Sub) (taken : Lane32) (t next : Word) : Wave :=
  let v1 := setBr v (subParent x) (subBranch x) .split
  { v1 with
    hinge := tblPut v1.hinge n { mask := u.mask, parent := subParent x, pbranch := subBranch x }
    subs := tblPut (tblPut (tblErase v1.subs x) (subId n true) { pc := t, mask := taken }) (subId n false) { pc := next, mask := u.mask &&& ~~~taken } }

/-- R129, R139, R172: the vector branch; of its two halves the one with the lowest lane stands for the issuer, for the greedy choice and for TPC of WATCHDOG (log 109, DEDUCED). -/
def bodyBrv (f : BR) (e : Env) (s : State) : Res :=
  let t := brTarget e.p f.off
  let taken := e.mask &&& laneMask (fun l => e.rdP f.d l)
  if brOut t then .trap s (brTrap t)
  else if taken = e.mask then .done s { go := .br t }
  else if taken = 0 then .done s {}
  else match freeEntry e.v e.half, tblFind e.v.subs e.x with
    | some n, some u =>
      let low := decide (lowestLane taken = lowestLane e.mask)
      .done (modWave s e.w (fun v => splitSub v e.x n u taken (BitVec.ofInt 64 t) e.next)) { go := .kept, last := some (subId n low) }
    | _, _ => .trap s { cause := .splitOverflow }

/-- `brv` (R172). -/
def execBrv (f : BR) (s : State) : Out := issue (.brv f) (bodyBrv f) s

/-- R128, "replace h": a sub-wave with a mask and PC takes the place of entry h in h's parent. -/
def replaceHinge (v : Wave) (h : Nat) (mask : Lane32) (pc : Word) : Wave :=
  match tblFind v.hinge h with
  | none => v
  | some e =>
    let v1 := setBr { v with hinge := tblErase v.hinge h } e.parent e.pbranch .run
    { v1 with subs := tblPut (tblErase (tblErase v1.subs (subId h true)) (subId h false)) (subId e.parent e.pbranch) { pc := pc, mask := mask } }

/-- The number of the sub-wave that replaces entry h. -/
def replacedId (v : Wave) (h : Nat) : Nat :=
  match tblFind v.hinge h with
  | none => rootSub
  | some e => subId e.parent e.pbranch

/-- R128, R173: the join point. -/
def bodyJoin (e : Env) (s : State) : Res :=
  let h := subParent e.x
  let b := subBranch e.x
  if (tblFind e.v.hinge h).isNone then .done s { wdReset := true }
  else match brState e.v h (!b) with
    | .wait =>
      match tblFind e.v.subs (subId h (!b)) with
      | some u =>
        if u.pc = e.p then .done (modWave s e.w (fun v => replaceHinge v h (e.mask ||| u.mask) e.next)) { go := .kept, wdReset := true, last := some (replacedId e.v h) }
        else .done s { wdReset := true }
      | none => .done s { wdReset := true }
    | .gone => .done (modWave s e.w (fun v => replaceHinge v h e.mask e.next)) { go := .kept, wdReset := true, last := some (replacedId e.v h) }
    | _ => .done (modWave s e.w (fun v => (setBr v h b .wait).modSub e.x (fun u => { u with hold := .atJoin, aged := 0 }))) { go := .kept, wdReset := true }

/-- `join` (R173). -/
def execJoin (f : RRR) (s : State) : Out := issue (.join f) bodyJoin s

/-- R42, R128: the last lane of branch b of entry h has exited; `n` bounds the depth. The other branch, waiting at its `join`, goes on after it; where that address carries out of 57 bits it stands at the `join` again, which raises the carry's trap (log 7, DEDUCED). -/
def branchGone (v : Wave) (h : Nat) (b : Bool) : Nat → Wave
  | 0 => v
  | n + 1 =>
    match tblFind v.hinge h with
    | none => v
    | some e =>
      match brState v h (!b) with
      | .run | .split => setBr v h b .gone
      | .wait =>
        match tblFind v.subs (subId h (!b)) with
        | some u =>
          if seqCarries u.pc 8 then (setBr (setBr v h b .gone) h (!b) .run).modSub (subId h (!b)) (fun u => { u with hold := .run })
          else replaceHinge v h u.mask (u.pc + 8)
        | none => v
      | .gone => branchGone { v with hinge := tblErase v.hinge h } e.parent e.pbranch n

/-- R131: lanes leave sub-wave `x` and the MASK of every entry; a sub-wave left with none goes. -/
def exitLanes (v : Wave) (x : Nat) (m : Lane32) : Wave :=
  let v1 := { v with rootMask := v.rootMask &&& ~~~m, hinge := v.hinge.map (fun e => (e.1, { e.2 with mask := e.2.mask &&& ~~~m })), subs := tblMod v.subs x (fun u => { u with mask := u.mask &&& ~~~m }) }
  match tblFind v1.subs x with
  | none => v1
  | some u => if u.mask = 0 then branchGone { v1 with subs := tblErase v1.subs x } (subParent x) (subBranch x) 16 else v1

/-- R132, R208, R310, R355: a wave with no sub-wave left ends: its registers stay as they are until, drained and in a later cycle, it releases its place; a responder that never answered has faulted. -/
def endWave (s : State) (w : Nat) : State := modWave s w (fun v => { v.stopIssue s.clock with respFault := v.isResponder && v.answer.isNone })

/-- R131, R174: the executing lanes exit. -/
def bodyWend (e : Env) (s : State) : Res :=
  let v1 := exitLanes e.v e.x e.act
  let s1 := modWave s e.w (fun _ => v1)
  if e.act = 0 then .done s { wdReset := true }
  else if v1.subs.isEmpty then .done (endWave s1 e.w) { go := .kept, wdReset := true }
  else .done s1 { go := if (tblFind v1.subs e.x).isSome && decide (e.act ≠ e.mask) then .seq else .kept, wdReset := true }

/-- `wend` (R174). -/
def execWend (f : RRR) (s : State) : Out := issue (.wend f) bodyWend s

end Sys2Proof.Machine
end

