-- ==== Sys2Proof/Machine/Control.lean ====
section
/-! DEFINITION. Scalar branches, calls, `end`, `nop`, special registers, `trap` and `tret` (R102 to R115, R31 to R33, R390, R395). -/

namespace Sys2Proof.Machine

/-- R103: the jump. -/
def bodyJmp (f : BR) (e : Env) (s : State) : Res := .done s { go := .br (brTarget e.p f.off) }
/-- `jmp` (R103). -/
def execJmp (f : BR) (s : State) : Out := issue (.jmp f) (bodyJmp f) s

/-- R102, R103: the conditional jump; its target is checked whether it is taken or not (log 7, DEDUCED). -/
def bodyJc (f : BR) (e : Env) (s : State) : Res :=
  if brOut (brTarget e.p f.off) then .trap s (brTrap (brTarget e.p f.off))
  else .done s { go := if e.rdS f.d ≠ 0 then .br (brTarget e.p f.off) else .seq }
/-- `jc` (R103). -/
def execJc (f : BR) (s : State) : Out := issue (.jc f) (bodyJc f) s

/-- R104: the jump through a register, FN bit 0 writing the link. -/
def bodyJmpx (f : RRR) (e : Env) (s : State) : Res := .done s { wr := if f.fn = 1 then e.wrS f.d e.next else [], go := .abs (e.rdS f.a) }
/-- `jmpx` (R104). -/
def execJmpx (f : RRR) (s : State) : Out := issue (.jmpx f) (bodyJmpx f) s

/-- R104: the return. -/
def bodyRet (f : RRR) (e : Env) (s : State) : Res := .done s { go := .abs (e.rdS f.a) }
/-- `ret` (R104). -/
def execRet (f : RRR) (s : State) : Out := issue (.ret f) (bodyRet f) s

/-- R105: the call; the link is the address after it. -/
def bodyCall (f : BR) (e : Env) (s : State) : Res := .done s { wr := e.wrS f.d e.next, go := .br (brTarget e.p f.off) }
/-- `call` (R105). -/
def execCall (f : BR) (s : State) : Out := issue (.call f) (bodyCall f) s

/-- R109, R127, R469: whether the wave, or the half, that issues `end` is split: sub-wave `x` is not alone in it, or a split record stands above it (log 9, DEDUCED). -/
def endSplit (v : Wave) (x : Nat) : Bool := decide ((v.subs.filter (fun e => decide (halfOf v e.1 = halfOf v x))).length ≠ 1) || !(isRoot v.kernel.w16 (subParent x))

/-- R109, R132, R310, R403, R469: the end of a wave, whose registers and hinge stack stay as they are until its place is released, or of a half of a width-16 wave, whose lanes exit (log 9, DEDUCED). -/
def bodyEnd (e : Env) (s : State) : Res :=
  if endSplit e.v e.x then .trap s (e.modeTrap 10)
  else match failedTrap e.v with
    | some t => takeFailed s e.w t
    | none =>
      let v1 := exitLanes e.v e.x e.mask
      if v1.subs.isEmpty then
        if e.v.accs.isEmpty && e.v.toks.all (fun t => t.2.settled) then .done (endWave s e.w) { go := .kept } else .hold s
      else .done (modWave s e.w (fun _ => v1)) { go := .kept }
/-- `end` (R109). -/
def execEndThread (f : RRR) (s : State) : Out := issue (.endThread f) bodyEnd s

/-- R110: no effect. -/
def bodyNop (_ : Env) (s : State) : Res := .done s {}
/-- `nop` (R110). -/
def execNop (f : RRR) (s : State) : Out := issue (.nop f) bodyNop s

/-- R114: the software trap. -/
def bodyTrap (f : RI) (e : Env) (s : State) : Res := .trap s { cause := .software, tpc := some e.next, addr := e.p, info := f.lit.getD f.imm }
/-- `trap` (R114). -/
def execTrap (f : RI) (s : State) : Out := issue (.trap f) (bodyTrap f) s

/-- R31, R191, R355: the value of a special register, CTXBASE of a responder 0, FLAGS as a bundle reads it; none for a reserved selector (log 90, DEDUCED). -/
def Env.special31 (e : Env) (sel : Nat) : Option Word :=
  match sel with
  | 0 => some (BitVec.ofNat 64 e.now)
  | 1 => some (BitVec.ofNat 64 e.v.core)
  | 2 => some (BitVec.ofNat 64 (dieOf e.v.core))
  | 3 => some (BitVec.ofNat 64 (quadOf e.v.core))
  | 4 => some (BitVec.ofNat 64 e.v.sect)
  | 5 => some (if e.v.isResponder then 0 else e.special 1)
  | 6 => some (e.special 4)
  | 7 => some (if e.v.isResponder then 0 else BitVec.ofNat 64 (e.v.launchId % 2 ^ 32))
  | 8 => some e.v.modeReg
  | 9 => some (BitVec.ofNat 64 e.flagsRead)
  | 10 => some (if e.v.isResponder then 0 else e.v.ctxbase)
  | 11 => some e.v.wdlimit
  | 12 => some e.v.tpc
  | 13 => some e.v.tcause
  | 14 => some e.v.taddr
  | 15 => some e.v.tinfo
  | 16 => some e.v.tvec
  | _ => none

/-- R33, R113: reading a special register; a reserved selector is ILLEGAL (log 5, DEDUCED). -/
def bodySread (f : SR) (e : Env) (s : State) : Res :=
  match e.special31 f.sel with
  | some x => .done s { wr := e.wrS f.d x }
  | none => .trap s (e.illegal 10)
/-- `sread` (R113). -/
def execSread (f : SR) (s : State) : Out := issue (.sread f) (bodySread f) s

/-- R33: a special register of a wave written; none where R33 raises ILLEGAL (log 5, DEDUCED). -/
def Wave.writeSpecial (v : Wave) (sel : Nat) (x : Word) : Option Wave :=
  match sel with
  | 8 => if x.toNat < 16 then some { v with rm := x.toNat % 4, ftz := bitAt x.toNat 2 } else none
  | 9 => if x.toNat < 32 then some { v with flags := x.toNat } else none
  | 10 => if x.toNat % 256 = 0 then some { v with ctxbase := x } else none
  | 11 => some { v with wdlimit := x }
  | 12 => some { v with tpc := x }
  | 13 => if x.toNat < 2048 then some { v with tcause := x } else none
  | 14 => some { v with taddr := x }
  | 15 => some { v with tinfo := x }
  | 16 => if x.toNat % 8 = 0 then some { v with tvec := x } else none
  | _ => none

/-- R33, R113: writing a special register (log 5, DEDUCED). -/
def bodySwrite (f : SR) (e : Env) (s : State) : Res :=
  match e.v.writeSpecial f.sel (e.rdS f.a) with
  | some _ => .done (modWave s e.w (fun v => (v.writeSpecial f.sel (e.rdS f.a)).getD v)) {}
  | none => .trap s (e.illegal 10)
/-- `swrite` (R113). -/
def execSwrite (f : SR) (s : State) : Out := issue (.swrite f) (bodySwrite f) s

end Sys2Proof.Machine
end

