-- ==== Sys2Proof/Machine/Watch.lean ====
section
/-! DEFINITION. Watchpoints: matching an access at its target, the watch ring, and what a match raises (R415 to R419). -/

namespace Sys2Proof.Machine

/-- R416, R417: an access as its target sees it. `init` is the initiator's code, `wave` the wave that initiated it. -/
structure Seen where
  ctx : Nat := 0
  core : Nat := 0
  init : Nat := 0
  rank : Nat := 0
  kind : Nat := 0
  wave : Option Nat := none
  places : List Place := []
  deriving DecidableEq, Repr, Inhabited

/-- R440: the logical number of a physical core. -/
def logicalOf (s : State) (p : Nat) : Nat :=
  match s.remap.find? (fun e => decide (e.2 = p)) with
  | some e => e.1
  | none => p

/-- R415: a place in the form of WADDR with its die: a physical address, or a logical core and an offset of its scratchpad array; a line of a piece that has moved lies on its new core (R445) (log 81, DEDUCED). -/
def watchAddr (s : State) (p : Place) : Option (Bool × Nat × Nat) :=
  match p with
  | .dev pa => some (false, homeDie pa, pa)
  | .spad cohort core off =>
    let al := tblGet {} (tblGet {} s.cohorts cohort).spad core
    some (true, dieOf core, ((tblFind al.away (off / 64)).map (logicalOf s)).getD core * 2 ^ 20 + (al.base + off) % 2 ^ 19)
  | .tile core ctx off => some (true, dieOf core, logicalOf s core * 2 ^ 20 + ((tblGet {} (coreAt s core).tiles ctx).base + off) % 2 ^ 19)
  | _ => none

/-- R416: the bytes of an access that lie in watchpoint i of a die, each by its WADDR address. -/
def watchHits (s : State) (d i : Nat) (a : Seen) : List Nat :=
  let u := (dieAt s d).watch
  let c := (tblGet 0 u.wctl i).toNat
  let r := watchRange u i
  let on := bitAt c 63 && bitAt c (56 + a.kind) && (!(bitAt c 55) || decide (bits c 0 32 = a.ctx))
  if on then (a.places.filterMap (watchAddr s)).filterMap (fun x => if x.1 = decide (bits c 61 2 = 1) ∧ bits c 61 2 < 2 ∧ x.2.1 = d ∧ r.1 ≤ x.2.2 ∧ x.2.2 < r.1 + r.2 then some x.2.2 else none) else []

/-- The lowest of a list of numbers. -/
def lowest (l : List Nat) : Nat := l.foldl min (l.headD 0)

/-- R417: bytes 0x10 to 0x17 of a watch record (log 30, DEDUCED). -/
def watchInfo (a : Seen) (i : Nat) : Nat := a.ctx % 2 ^ 32 + a.core % 2 ^ 16 * 2 ^ 32 + a.init % 2 ^ 8 * 2 ^ 48 + (i + a.kind * 8) * 2 ^ 56

/-- R417: a watch record (log 30, DEDUCED). -/
def watchRecord (s : State) (a : Seen) (i n addr seq : Nat) : List Byte :=
  leBytes 8 addr ++ leBytes 8 s.clock ++ leBytes 8 (watchInfo a i) ++ leBytes 2 n ++ leBytes 1 a.rank ++ leBytes 1 0 ++ leBytes 4 seq

/-- R417, R428, R483: a match written into the die's ring, or counted as lost, of which the host is told (log 67, DESIGN CHOICE; log 93, DESIGN CHOICE). -/
def watchRing (s : State) (d : Nat) (rec : Nat → List Byte) : State :=
  let u := (dieAt s d).watch
  if u.size = 0 ∨ (u.wr + 1) % u.size = u.rd then tellHost (modDie s d (fun x => { x with watch := { x.watch with lost := x.watch.lost + 1, seq := x.watch.seq + 1 } })) (.lost d)
  else modDie (packagePutAll s 0 (u.base + 32 * u.wr) (rec u.seq)) d (fun x => { x with watch := { x.watch with wr := (u.wr + 1) % u.size, seq := x.watch.seq + 1 }, traceBytes := x.traceBytes + 32 })

/-- R419: the foghorn sounds (log 69, DEDUCED). -/
def soundFog (s : State) (f : Fog) : State := { s with fogs := s.fogs ++ [{ f with seq := s.fogSeq, cycle := s.clock, group := bits (ctxAt s f.ctx).dbgWord.toNat 1 2 }], fogSeq := s.fogSeq + 1 }

/-- R419: the origin core of a watch: the initiator's, or for a peer or the host the target's. -/
def watchOrigin (a : Seen) (d addr : Nat) (spad : Bool) : Nat := if a.init < 67 then a.core else if spad then addr / 2 ^ 20 else 80 * d

/-- R418: a cause held for a wave until its next boundary. -/
def holdCause (s : State) (w : Nat) (c : Cause) (addr info : Word) : State := modWave s w (fun v => { v with held := v.held ++ [(c, addr, info)] })

/-- R416, R417, R418: watchpoint i of die d against an access; the record's target address is that of the lowest byte matched (log 30, DEDUCED). -/
def watchOne (s : State) (a : Seen) (d i : Nat) : State :=
  match watchHits s d i a with
  | [] => s
  | h =>
    let c := (tblGet 0 (dieAt s d).watch.wctl i).toNat
    let addr := lowest h
    let s1 := watchRing s d (watchRecord s a i h.length addr)
    match bits c 59 2, a.wave with
    | 1, some w => holdCause s1 w .watch (BitVec.ofNat 64 addr) (BitVec.ofNat 64 (watchInfo a i))
    | 2, w => soundFog s1 { seq := 0, cycle := 0, core := watchOrigin a d addr (decide (bits c 61 2 = 1)), ctx := a.ctx, cause := 13, wave := w }
    | _, _ => s1

/-- R416: an access against every watchpoint of every die (log 25, DESIGN CHOICE). -/
def matchAccess (s : State) (a : Seen) : State :=
  (List.range 4).foldl (fun t d => (tblKeys (dieAt s d).watch.wctl).foldl (fun t i => watchOne t a d i) t) s

/-- An access of a wave as a target sees it. -/
def waveSeen (w : Nat) (v : Wave) (kind : Nat) (l : List AByte) : Seen :=
  { ctx := v.ctx, core := v.core, init := v.place, kind := kind, wave := some w, places := l.map (·.at_) }

end Sys2Proof.Machine
end

