-- ==== Sys2Proof/Machine/Peers.lean ====
section
/-! DEFINITION. Frames the device sends to its peers and to the host (R447, R449, R478). -/

namespace Sys2Proof.Machine

/-- The number of the host port, above the sixteen peer ports. -/
def hostPort : Nat := 16

/-- R477: the rank of the host. -/
def hostRank : Nat := 0xFF

/-- R447, R477: the rank that an address of the peer window or the host window names. -/
def peerRank (pa : Nat) : Nat := if 0xC000000000000 ≤ pa then hostRank else (pa - 0x8000000000000) / 0x100000000000

/-- R447, R478: the offset of such an address in its rank's part of the peer window, or in the host window. -/
def peerOff (pa : Nat) : Nat := if 0xC000000000000 ≤ pa then pa - 0xC000000000000 else (pa - 0x8000000000000) % 0x100000000000

/-- R447: whether an access to a rank fails: the device has no rank, it is the rank's own, the rank is outside the domain, having no route, or the context is in no domain (log 27, DEDUCED). -/
def peerOwn (s : State) (ctx rank : Nat) : Bool := decide (rank ≠ hostRank) && (decide (s.net.rank = none) || decide (s.net.rank = some rank) || (tblFind s.net.routes rank).isNone || !(ctxAt s ctx).t.inDomain)

/-- R449, R477, R478: a frame to a rank or to the host, numbered in its pair's series, sent, and kept until it is acknowledged (log 91, DESIGN CHOICE). -/
def sendFrame (s : State) (ty ctx dst addr core : Nat) (bytes : List Byte) (op : FrameOp) (tx : TxFor) : State :=
  let n := s.net
  let host := decide (dst = hostRank)
  let fr : Frame := { port := if host then hostPort else tblGet 0 n.routes dst, src := if host then 0xFE else n.rank.getD 0, dst := dst, tag := if host then s.boot.session.getD 0 else (ctxAt s ctx).t.domainTag, seq := tblGet 0 n.txSeq dst, addr := addr, core := core, bytes := bytes, ty := ty }
  tellHost { s with net := { n with txSeq := tblSet 0 n.txSeq dst (fr.seq + 1), tx := n.tx ++ [{ ty := ty, fr := fr, op := op, sent := s.clock, tx := tx }] } } (.frame fr)

/-- R485: the bytes of a frame of firmware with a record or a reply; the records but for the gap record of R225 have no stated layout and count 64 bytes (log 119, DESIGN CHOICE). -/
def HostMsg.size (m : HostMsg) : Nat :=
  32 + match m with
    | .gap r => r.length
    | .reply _ _ l => 8 + l.length
    | _ => 64

/-- R485: what firmware's frames took in the millisecond that ends now (log 119, DESIGN CHOICE). -/
def lastMs (s : State) : List (Nat × Nat) := s.net.sent.filter (fun x => decide (s.clock < x.1 + Config.msCycles))

/-- R477, R485: a record or reply goes out on the host port; above 1 Gb/s over the last millisecond, or with the link down, it is dropped, to be sent again under R449 (log 119, DESIGN CHOICE). -/
def putHost (s : State) (i : Nat) : State :=
  match s.out[i]? with
  | none => s
  | some m =>
    if ((lastMs s).map (·.2)).sum + m.size ≤ Config.msBytes ∧ hostPort ∈ s.boot.links then
      { s with net := { s.net with wire := s.net.wire ++ [i], sent := lastMs s ++ [(s.clock, m.size)] } }
    else s

/-- R449, R477: the next of `State.out` given to its port: a record or reply is numbered in the host's series, kept until it is acknowledged, and sent. -/
def hostNext (s : State) : State :=
  let n := s.net
  match s.out[n.told]? with
  | none => s
  | some (.frame _) => { s with net := { n with told := n.told + 1 } }
  | some m =>
    let ty := match m with | .reply _ _ _ => 17 | _ => 18
    let fr : Frame := { port := hostPort, src := 0xFE, dst := hostRank, tag := s.boot.session.getD 0, seq := tblGet 0 n.txSeq hostRank, ty := ty }
    putHost { s with net := { n with told := n.told + 1, txSeq := tblSet 0 n.txSeq hostRank (fr.seq + 1), tx := n.tx ++ [{ ty := ty, fr := fr, sent := s.clock, tx := .msg n.told }] } } n.told

/-- R477: everything new of `State.out` given to its port. -/
def hostSend (s : State) : State := (List.range (s.out.length - s.net.told)).foldl (fun t _ => hostNext t) s

/-- The physical address of a place in the peer window or the host window. -/
def Place.remote (p : Place) : Option Nat := match p with | .peer pa | .host pa => some pa | _ => none

/-- The runs of consecutive bytes of an access that lie at one peer or the host, at most 4,096 in one run, so that a frame holds them (R449): the place of the first in the access, its address, the length. -/
def peerRuns (l : List AByte) (i : Nat) : List (Nat × Nat × Nat) :=
  match l with
  | [] => []
  | b :: r =>
    match b.at_.remote, peerRuns r (i + 1) with
    | some pa, (j, qa, n) :: t => if j = i + 1 ∧ qa = pa + 1 ∧ peerRank qa = peerRank pa ∧ n < 4096 then (i, pa, n + 1) :: t else (i, pa, 1) :: (j, qa, n) :: t
    | some pa, [] => [(i, pa, 1)]
    | _, t => t

/-- Whether a place lies in the peer window. -/
def Place.isPeer (p : Place) : Bool := match p with | .peer _ => true | _ => false

/-- Whether a place lies in the host window (log 26, DESIGN CHOICE). -/
def Place.isHost (p : Place) : Bool := match p with | .host _ => true | _ => false

/-- R447, R478: whether a place is reached by Pyzan frames. -/
def Place.isAway (p : Place) : Bool := p.isPeer || p.isHost

/-- Whether a place is scratchpad. -/
def Place.isSpad (p : Place) : Bool := match p with | .spad _ _ _ | .tile _ _ _ => true | _ => false

/-- R447: bytes that are translated, refused where one lies at a rank that the context does not reach; `va` is the address of the first. -/
def ownChecked (s : State) (ctx va : Nat) (r : Except MemFault (List AByte)) : Except MemFault (List AByte) :=
  match r with
  | .error f => .error f
  | .ok l => match l.findIdx? (fun b => (b.at_.remote).any (fun pa => peerOwn s ctx (peerRank pa))) with
    | some i => .error { cause := .protection, addr := va, va := (va + i) % 2 ^ 64, reason := 0 }
    | none => .ok l

/-- R478: the runs of window bytes asked for, but for those already under way (log 113, DESIGN CHOICE). -/
def winAsk (s : State) (who : WinFor) (ctx core : Nat) (l : List AByte) : State :=
  (peerRuns l 0).foldl (fun t r =>
    if t.net.reads.any (fun x => decide (x.who = who) && decide (x.pa = r.2.1)) then t
    else
      let t1 := sendFrame t 1 ctx (peerRank r.2.1) (peerOff r.2.1) core [] { size := r.2.2 } (.win who r.2.1)
      { t1 with net := { t1.net with reads := t1.net.reads ++ [{ who := who, pa := r.2.1, n := r.2.2, sent := t.clock }] } }) s

/-- The reads sent for a purpose. -/
def winReads (s : State) (who : WinFor) : List WinRead := s.net.reads.filter (fun r => decide (r.who = who))

/-- A byte of a window that has come for a purpose (log 113, DESIGN CHOICE). -/
def winByte (s : State) (who : WinFor) (pa : Nat) : Option Byte :=
  (winReads s who).findSome? (fun r => if r.pa ≤ pa ∧ pa < r.pa + r.n then r.bytes.bind (·[pa - r.pa]?) else none)

/-- Whether a byte of a window has still to come. -/
def winOpen (s : State) (who : WinFor) (l : List AByte) : Bool := l.any (fun b => (b.at_.remote).any (fun pa => (winByte s who pa).isNone))

/-- The reads for a purpose are over. -/
def winDrop (s : State) (who : WinFor) : State := { s with net := { s.net with reads := s.net.reads.filter (fun r => decide (r.who ≠ who)) } }

/-- R402: the reads of instructions of a wave that waited at issue are dropped: they execute again in full (log 28, DEDUCED). -/
def dropReads (s : State) (w : Nat) : State :=
  { s with net := { s.net with reads := s.net.reads.filter (fun r => match r.who with | .sub w1 _ => decide (w1 ≠ w) | _ => true) } }

/-- The address of a device-memory place. -/
def Place.devAddr (p : Place) : Option Nat := match p with | .dev pa => some pa | _ => none

end Sys2Proof.Machine
end

