-- ==== Sys2Proof/Machine/Queues.lean ====
section
/-! DEFINITION. The two queues of a wave: what may perform when, and what a marker waits for (R239 to R252). -/

namespace Sys2Proof.Machine

/-- R239: the number of the granule of an address in a space. -/
def granNo (flat : Bool) (a : Nat) : Nat := 2 * (a % 2 ^ 64 / 64) + ofBool flat

/-- R239: the bytes of an access at `va` with their granules. -/
def withGran (flat : Bool) (va : Nat) (l : List AByte) : List AByte := l.mapIdx (fun i b => { b with gran := granNo flat (va + i) })

/-- R239: whether two accesses of an agent name a common granule. -/
def sameGranule (x y : Acc) : Bool := x.bytes.any (fun b => y.bytes.any (fun c => decide (b.gran = c.gran)))

/-- R248: the unit an access of n bytes at `va` comes apart in: none where it is single-copy atomic (log 24, DEDUCED). -/
def unitOf (va n : Nat) : Nat := if decide (n = 1 ∨ n = 2 ∨ n = 4 ∨ n = 8) && decide (va % n = 0) then 0 else 1

/-- R248: whether byte i of an access is read or accepted now; the units of one that is not single-copy atomic come apart freely. -/
def Acc.takes (s : State) (a : Acc) (i : Nat) : Bool := (tblFind a.got i).isNone && (decide (a.unit = 0) || freeBool s (2 ^ 71 + i / a.unit))

/-- Whether two accesses name a common byte. -/
def overlap (x y : Acc) : Bool := x.bytes.any (fun b => y.bytes.any (fun c => decide (b.at_ = c.at_)))

/-- R240: accesses of the load queue. -/
def AKind.loads (k : AKind) : Bool := match k with | .load _ | .slot _ | .poll | .atomic _ _ _ _ => true | _ => false

/-- R240: accesses of the store queue but for atomics. -/
def AKind.stores (k : AKind) : Bool := match k with | .store _ | .pack _ _ _ | .discard => true | _ => false

/-- R251: acquire order. -/
def isAcq (ord : Nat) : Bool := decide (ord % 2 = 1)

/-- R250: release order. -/
def isRel (ord : Nat) : Bool := decide (2 ≤ ord)

/-- R244: the stage of a store at a SCOPE code. -/
def scopeStage (sc : Nat) : Nat := if sc ≤ 1 then 0 else if sc ≤ 3 then 1 else if sc = 4 then 2 else 3

/-- Whether every load before has performed. -/
def loadsDone (pre : List Acc) : Bool := pre.all (fun x => !x.kind.loads)

/-- Whether every store before has come to a stage; atomics perform at once and everywhere. -/
def storesAt (pre : List Acc) (st : Nat) : Bool := pre.all (fun x => !(x.kind.stores && decide (x.stage < st)) && !(match x.kind with | .atomic _ _ _ _ => true | _ => false))

/-- The accesses of earlier instructions. -/
def earlier (a : Acc) (pre : List Acc) : List Acc := pre.filter (fun x => decide (x.issue ≠ a.issue))

/-- R250: whether the release of an access or fence has had its effect; at `.p` and `.x` every store the die's caches had accepted when it began is performed at package scope. -/
def released (s : State) (die : Nat) (a : Acc) (pre : List Acc) : Bool :=
  !(isRel a.ord) || (loadsDone (earlier a pre) && storesAt (earlier a pre) (scopeStage a.scope)
    && (decide (a.scope < 4) || match a.began with
      | none => false
      | some ids => (accepted s die).all (fun d => !(decide (d.id ∈ ids)))))

/-- R241, R243, R249, R251, R252: whether access `a` of the load queue may perform after the earlier ones (log 84, DEDUCED). -/
def loadReady (a : Acc) (pre : List Acc) : Bool :=
  !a.gated && a.gap.isNone && pre.all (fun x =>
    if x.issue = a.issue then (match a.kind with | .atomic _ _ _ _ => !(overlap x a) || (decide (x.stage = 1) && decide (x.need = 0)) | _ => true)
    else match x.kind with
      | .load _ | .slot _ | .poll | .atomic _ _ _ _ | .align => false
      | .fence => !(isAcq x.ord)
      | .discard | .pack _ _ _ => !(sameGranule x a) || decide (1 ≤ x.stage)
      | .store _ => true)

/-- R241, R242, R243, R249 to R251, R290: whether an atomic, or the slot access of `callx`, may perform after the earlier accesses: it need not wait for a store to another granule, unless both name a byte, whose stores enter its coherence order in program order (R247) (log 100, DEDUCED). -/
def atomicReady (a : Acc) (pre : List Acc) : Bool :=
  loadReady a pre && pre.all (fun x =>
    if x.issue = a.issue then true
    else match x.kind with
      | .store _ | .pack _ _ _ | .discard => !(sameGranule x a || overlap x a) || decide (2 ≤ x.stage)
      | .fence => false
      | _ => true)

/-- R241, R243, R249 to R252: whether access `a` may be performed at stage t after the earlier ones. -/
def storeReady (a : Acc) (pre : List Acc) (t : Nat) : Bool :=
  !a.gated && a.gap.isNone && pre.all (fun x =>
    if x.issue = a.issue then !(overlap x a && decide (x.stage < t))
    else match x.kind with
      | .store _ | .pack _ _ _ | .discard => decide (t ≤ x.stage)
      | .load _ | .slot _ | .poll => !(sameGranule x a) && !(isAcq x.ord)
      | .atomic _ _ _ _ | .align | .fence => false)

/-- The lines of device memory an access names. -/
def Acc.lines (a : Acc) : List Nat := nub ((a.bytes.filterMap (fun b => b.at_.devAddr)).map lineOf)

/-- R246: whether the die's point of coherence holds for a line a store not yet performed at package scope. -/
def linePending (s : State) (die : Nat) (lines : List Nat) : Bool := (accepted s die).any (fun d => d.cells.any (fun c => decide (lineOf c.1 ∈ lines)))

/-- R246: whether an acquire load or atomic at package scope or wider waits for its line. -/
def acqWaits (s : State) (die : Nat) (a : Acc) : Bool := decide (4 ≤ a.scope) && linePending s die a.lines

/-- R245 to R247: whether an atomic waits for stores of its line: at package scope or wider as R246 says, at any scope for those that have yet to go from its die to the home. -/
def atomicWaits (s : State) (die : Nat) (a : Acc) : Bool := acqWaits s die a || lineHeld s die a.lines

/-- R239, R243, R247: whether byte i of a queued store, not yet accepted, is one a load of `b` takes: of the load's own granule, or returned to an earlier load already. -/
def forwards (x : Acc) (b c : AByte) (i : Nat) : Bool := decide (c.at_ = b.at_) && (decide (c.gran = b.gran) || x.seen) && (tblFind x.got i).isNone

/-- R243: the byte of the latest earlier store of the agent to the granule that is still in the queue. -/
def ownByte (pre : List Acc) (b : AByte) : Option Byte :=
  pre.foldl (fun r x => match x.kind with
    | .store data => if x.stage = 0 then (match (x.bytes.zip data).zipIdx.reverse.find? (fun y => forwards x b y.1.1 y.2) with | some y => some y.1.2 | none => r) else r
    | _ => r) none

/-- R247: a queued store whose bytes a load has returned. -/
def Acc.sawBy (x : Acc) (l : List AByte) : Acc :=
  match x.kind with
  | .store _ => if decide (x.stage = 0) && x.bytes.any (fun c => l.any (fun b => decide (c.at_ = b.at_) && decide (c.gran = b.gran))) then { x with seen := true } else x
  | _ => x

/-- R244 to R246: one byte as an access reads it: `acq` never from the L1; a byte of the peer or host window is what has been answered. -/
def readPlace (s : State) (core die : Nat) (acq : Bool) (pre : List Acc) (b : AByte) (got : Option Byte) (tag : Nat) : Byte :=
  match ownByte pre b with
  | some x => x
  | none =>
    match b.at_ with
    | .dev pa => if acq then pocByte s die b.attr pa tag else l1Byte s core die b.attr pa tag
    | .spad _ _ _ | .tile _ _ _ => spadByte s b.at_
    | .peer _ | .host _ => got.getD 0

/-- R246: whether an access takes nothing from the L1: an atomic, or acquire order at `.c` or wider. -/
def Acc.skipL1 (a : Acc) : Bool := (isAcq a.ord && decide (2 ≤ a.scope)) || match a.kind with | .load _ => false | _ => true

/-- R245: whether a byte of a read waits: nothing of its own agent forwards it, the L1 does not serve it, and its miss stays behind a store of the line. -/
def readWaits (s : State) (core die : Nat) (acq : Bool) (pre : List Acc) (b : AByte) : Bool :=
  missWaits s die b && (ownByte pre b).isNone
    && (acq || !(l1Holds s core b))

/-- The bytes an access reads. -/
def readAcc (s : State) (core die : Nat) (pre : List Acc) (a : Acc) (tag : Nat) : List Byte :=
  a.bytes.mapIdx (fun i b => readPlace s core die a.skipL1 pre b (tblFind a.got i) tag)

/-- R66, R111, R177: the value of one part of what was read. -/
def LdPart.value (p : LdPart) (x : Nat) : Nat := if p.sgn then (sext64 p.n (bits x p.lo p.n)).toNat else bits x p.lo p.n

/-- The results of a read. -/
def partWrs (ps : List LdPart) (bs : List Byte) : List Wr := ps.map (fun p => ⟨p.dst, p.value (leNat bs)⟩)

/-- R272: the value an atomic writes; none where it writes nothing. -/
def atomicNew (op n old b c : Nat) : Option Nat :=
  let f32 (ty : Ty) : Nat := (addF (fmtOf .f32 ty) 0 false (decodeF (fmtOf .f32 ty) old) (decodeF (fmtOf .f32 ty) b)).1
  match op with
  | 0 => some b
  | 1 => if old = b then some c else none
  | 2 => some ((old + b) % 2 ^ n)
  | 3 => some (old &&& b)
  | 4 => some (old ||| b)
  | 5 => some (old ^^^ b)
  | 6 => some (if sint n old ≤ sint n b then old else b)
  | 7 => some (if sint n old ≤ sint n b then b else old)
  | 8 => some (min old b)
  | 9 => some (max old b)
  | 10 => some (if n = 32 then f32 .f32 else f32 .f64)
  | 11 => some (if b ≤ old then 0 else old + 1)
  | _ => some (if old = 0 ∨ b < old then b else old - 1)

/-- R250: a release that finds its first two conditions begins, noting the stores its die's caches have accepted. -/
def beginRelease (s : State) (die : Nat) (pre : List Acc) (a : Acc) : Acc :=
  if isRel a.ord && decide (4 ≤ a.scope) && a.began.isNone && loadsDone (earlier a pre) && storesAt (earlier a pre) (scopeStage a.scope) then { a with began := some ((accepted s die).map (·.id)) } else a

/-- R249, R251, R252: whether a marker has had its effect. -/
def markerDone (s : State) (die : Nat) (a : Acc) (pre : List Acc) : Bool :=
  match a.kind with
  | .align => loadsDone pre && storesAt pre 2
  | .fence => loadsDone pre && released s die a pre
  | _ => false

/-- R241, R244: whether a store is performed at every scope: it has come to its last stage, and every earlier store has. -/
def storeOver (a : Acc) (pre : List Acc) : Bool :=
  a.kind.stores && decide ((if a.bytes.any (fun b => b.at_.isAway) then 3 else 2) ≤ a.stage) && pre.all (fun x => !x.kind.stores)

/-- R257, R343: whether the scratchpad accesses of a bundle thread that issued before a cycle are performed. -/
def Wave.landedBefore (v : Wave) (issue : Nat) : Bool :=
  v.bun.flights.all (fun f => f.landed || decide (issue ≤ f.since) || (f.st.isEmpty && f.src.isNone)) && v.bun.regions.all (fun r => r.gate.all (fun g => decide (issue ≤ g.issue)))

/-- The queue of wave `v` after every marker and store that can go has gone, a bundle's marker after the scratchpad accesses before it (R257, R277); the answer says whether an acquire fence at `.c` or wider was among them. -/
def settleAccs (s : State) (die : Nat) (v : Wave) (pre : List Acc) : List Acc → List Acc × Bool
  | [] => (pre, false)
  | a0 :: r =>
    let flown := v.landedBefore a0.cyc
    let a := if flown then beginRelease s die pre a0 else a0
    if (markerDone s die a pre && flown && !a.gated) || storeOver a pre then
      let t := settleAccs s die v pre r
      (t.1, t.2 || (decide (a.kind = .fence) && isAcq a.ord && decide (2 ≤ a.scope)))
    else settleAccs s die v (pre ++ [a]) r

/-- R251: one wave's markers settled; an acquire fence makes the L1 drop its lines. -/
def settleWave (s : State) (w : Nat) : State :=
  match waveAt s w with
  | none => s
  | some v =>
    if v.accs.isEmpty then s
    else
      let t := settleAccs s (dieOf v.core) v [] v.accs
      let s1 := modWave s w (fun u => { u with accs := t.1 })
      if t.2 then dropL1 s1 (physCore s v.core) else s1

/-- R250, R356: a responder whose own accesses are performed enters its response; at `.p` and `.x` after every store that its die had accepted when this release began. -/
def answerRelease (s : State) (w : Nat) (v : Wave) : State :=
  let pend := accepted s (dieOf v.core)
  let wide := v.answer.isSome && (coreAt s (physCore s v.core)).matches_.any (fun m => decide (m.wave = some w) && decide (2 ≤ m.so.scope))
  match wide, v.began with
  | false, _ => releaseResponder s w v
  | true, none => modWave s w (fun u => { u with began := some (pend.map (·.id)) })
  | true, some ids => if pend.all (fun d => !(decide (d.id ∈ ids))) then releaseResponder s w v else s

/-- R132, R208, R355: a wave that has ended and is drained releases its place after the cycle it ended in (log 22, DEDUCED). -/
def reapWave (s : State) (w : Nat) : State :=
  match waveAt s w with
  | none => s
  | some v =>
    if v.ended && decide (v.endedAt < s.clock) && v.drained && !(engLeft s w) then (if v.isResponder then answerRelease s w v else releaseWave s w) else s

/-- The markers of every wave settled, and ended waves released. -/
def settle (s : State) : State :=
  let s1 := (tblKeys s.waves).foldl settleWave s
  (tblKeys s1.waves).foldl reapWave s1

/-- The access numbered k, with those before it. -/
def splitAcc (k : Nat) (pre : List Acc) : List Acc → Option (List Acc × Acc)
  | [] => none
  | a :: r => if a.id = k then some (pre, a) else splitAcc k (pre ++ [a]) r

/-- An access of a wave with those before it. -/
def accAt (s : State) (w k : Nat) : Option (Wave × List Acc × Acc) :=
  match waveAt s w with
  | none => none
  | some v => (splitAcc k [] v.accs).map (fun p => (v, p.1, p.2))

/-- An access of a wave changed. -/
def modAcc (s : State) (w k : Nat) (f : Acc → Acc) : State := modWave s w (fun v => { v with accs := v.accs.map (fun a => if a.id = k then f a else a) })

/-- An access of a wave gone. -/
def dropAcc (s : State) (w k : Nat) : State := modWave s w (fun v => { v with accs := v.accs.filter (fun a => decide (a.id ≠ k)) })

end Sys2Proof.Machine
end

