-- ==== Sys2Proof/Machine/MemEvents.lean ====
section
/-! DEFINITION. Accesses performing: loads, stores and atomics of the queues, at the places of R244 to R256. -/

namespace Sys2Proof.Machine

/-- A device step that is not enabled (log 62, DESIGN CHOICE). -/
def notEnabled : Out := .refused .notEnabled

/-- The KIND code of an access. -/
def AKind.code (k : AKind) : Nat := match k with | .load _ | .poll => 0 | .store _ | .pack _ _ _ | .discard => 1 | _ => 2

/-- R226, R227, R229, R245: the lines of the bytes of an access that neither its own agent's stores nor the L1 served fill the caches. -/
def fillLines (s : State) (core die : Nat) (pre : List Acc) (a : Acc) : State :=
  a.bytes.foldl (fun t b => match b.at_ with
    | .dev pa => if (ownByte pre b).isSome || (!a.skipL1 && l1Holds s core b) then t else fillRead t (if a.skipL1 then none else some core) die b.attr (lineOf pa)
    | _ => t) s

/-- R227: copies that may have been evicted before the lookup, a free choice for each line. -/
def evictLines (s : State) (core die : Nat) (l : List Nat) : State := l.foldl (fun t n => evict t core die n (2 ^ 53 + 2 * n)) s

/-- R251: what an acquire that has performed does to the L1. -/
def acqDrop (s : State) (core : Nat) (a : Acc) : State := if isAcq a.ord ∧ 2 ≤ a.scope then dropL1 s core else s

/-- R248: the bytes of a read that have their values after those of a list have been read. -/
def readTaken (s : State) (core die : Nat) (pre : List Acc) (a : Acc) (now : List (AByte × Nat)) : Tbl Byte :=
  now.foldl (fun g x => tblPut g x.2 (readPlace s core die a.skipL1 pre x.1 none 0)) a.got

/-- R247: the stores still queued whose bytes a load has returned. -/
def markSeen (s : State) (w : Nat) (pre : List Acc) (l : List AByte) : State :=
  modWave s w (fun v => { v with accs := v.accs.map (fun x => if x.id ∈ pre.map (·.id) then x.sawBy l else x) })

/-- R212: whether a byte is poisoned, in device memory or in scratchpad. -/
def bytePoisoned (s : State) (b : AByte) : Bool :=
  match b.at_ with
  | .dev pa => poisoned s pa
  | p => spadPoisoned s p

/-- R212: the bytes a read has read, those poisoned since its check free (log 23, DEDUCED). -/
def spoiled (s : State) (bs : List AByte) (l : List Byte) : List Byte :=
  (bs.zip l).zipIdx.map (fun x => if bytePoisoned s x.1.1 then BitVec.ofNat 8 (free s (2 ^ 42 + x.2)) else x.1.2)

/-- R237, R244, R245, R248: a load performs: the core serves its context, its bytes are read, all of a single-copy atomic access at once, those of another one in any order; with the last its results land. A byte that misses in the remote cache waits behind the die's stores of its line (log 24, DEDUCED). -/
def doLoad (s : State) (w : Nat) (v : Wave) (pre : List Acc) (a : Acc) (ps : List LdPart) : State :=
  let core := physCore s v.core
  let die := dieOf v.core
  let s1 := evictLines (modCore s core (fun c => serveCore c v.ctx)) core die a.lines
  let waits (b : AByte) : Bool := readWaits s1 core die a.skipL1 pre b
  if decide (a.unit = 0) && a.bytes.any waits then s1
  else
    let now := a.bytes.zipIdx.filter (fun x => a.takes s x.2 && !(waits x.1))
    let got := readTaken s1 core die pre a now
    let s2 := markSeen (fillLines s1 core die pre { a with bytes := now.map (·.1) }) w pre (now.map (·.1))
    if got.length < a.bytes.length then modAcc s2 w a.id (fun x => { x with got := got })
    else
      let s3 := landAll (dropAcc s2 w a.id) w (partWrs ps (spoiled s1 a.bytes (tblVals got)))
      matchAccess (acqDrop s3 core a) (waveSeen w v 0 a.bytes)

/-- R402, R447, R478: the frames of an access to the peer window or the host window sent; an access that no rank can serve fails with PROTECTION reason 0 (log 27, DEDUCED; log 26, DESIGN CHOICE). -/
def sendPeer (s : State) (w : Nat) (v : Wave) (a : Acc) (ty : Nat) (data : List Byte) (op : FrameOp) : State :=
  let runs := peerRuns a.bytes 0
  if runs.any (fun r => peerOwn s v.ctx (peerRank r.2.1)) then
    modAcc s w a.id (fun x => { x with stage := if ty = 2 then 2 else 1, sent := s.clock, need := 0, bad := some (false, peerRank ((runs.headD (0, 0, 0)).2.1), a.kind.code * 256) })
  else
    let s1 := runs.foldl (fun t r => sendFrame t ty v.ctx (peerRank r.2.1) (peerOff r.2.1) v.core ((data.drop r.1).take r.2.2) { op with size := r.2.2 } (.acc w a.id r.1 r.2.2)) s
    modAcc s1 w a.id (fun x => { x with stage := if ty = 2 then 2 else 1, sent := s.clock, need := runs.length })

/-- R404: the fault of a peer access as a trap of its wave (log 27, DEDUCED). -/
def peerTrap (v : Wave) (l : List Acc) : Trap :=
  match l.filter (fun a => a.bad.isSome) with
  | [] => {}
  | a :: r =>
    let x := r.foldl (fun m y => if y.va < m.va then y else m) a
    let b := x.bad.getD (false, 0, 0)
    { cause := if b.1 then .peerTimeout else .peerFault, addr := BitVec.ofNat 64 x.va, info := peerInfo b.2.1 0 (if b.1 then 0 else b.2.2 / 32 * 32 + (if v.phase = .simt then x.lane else 0)) }

/-- R107, R108: what the slot of a `callx` in the peer window answered: BIND for 0 and a wait for 1, the instruction having had no effect; else the call, its pops and its link with it (log 31, DEDUCED). -/
def slotAnswer (s : State) (w : Nat) (a : Acc) (next : Word) (pops : List (Nat × Nat × Nat)) (link : List Dst) (x : Nat) : State :=
  if x = 0 then enterTrap (modWave s w (fun v => v.modSub a.sub (fun u => { u with hold := .run }))) w a.sub { cause := .bind, addr := BitVec.ofNat 64 a.va }
  else if x = 1 then modWave s w (fun v => v.modSub a.sub (fun u => { u with hold := .callx a.va false s.clock false }))
  else
    let s1 := landAll (dropEntries s pops) w (link.map (fun d => ⟨d, next.toNat⟩))
    modWave s1 w (·.resumeAt a.sub (BitVec.ofNat 64 x))

/-- R278: whether a read ends a `waitv`. -/
def WaitV.ends (q : WaitV) (clock x : Nat) : Bool :=
  (decide (x = q.cmp) == q.eq) || (decide (q.limit ≠ 0) && decide (q.limit ≤ clock - q.t0))

/-- R278, R279: a `waitv` that has read a value: it ends, with what it pops and writes, or waits on; one stopped by a handler reads again after it. -/
def waitvGot (s : State) (w x : Nat) (q : WaitV) (awake : Bool) (val : Nat) : State :=
  if q.ends s.clock val && awake then
    modWave (landAll (dropEntries s q.pops) w (q.dst.map (fun d => ⟨d, val⟩))) w (fun v => v.modSub x (fun u => { u with pc := q.next, hold := .run, aged := 0 }))
  else modWave s w (fun v => v.modSub x (fun u => { u with hold := .waitv { q with since := s.clock, woken := !awake } }))

/-- R402: one access of an instruction whose responses have all come takes effect (log 28, DEDUCED). -/
def peerEffect (s : State) (w : Nat) (v : Wave) (a : Acc) : State :=
  let core := physCore s v.core
  let bs := readAcc s core (dieOf v.core) [] a 0
  let s1 := acqDrop (dropAcc s w a.id) core a
  match a.kind with
  | .load ps => matchAccess (landAll s1 w (partWrs ps bs)) (waveSeen w v 0 a.bytes)
  | .atomic _ _ _ ps => landAll s1 w (partWrs ps bs)
  | .poll =>
    match v.holdOf a.sub with
    | .waitv q => waitvGot s1 w a.sub q (v.awake a.sub) (leNat bs)
    | _ => s1
  | _ => s1

/-- R478: whether an access reads the host window, and its instruction no peer: it is no access of R402, and completes by itself (log 26, DESIGN CHOICE). -/
def hostOnly (v : Wave) (a : Acc) : Bool := a.bytes.any (fun b => b.at_.isHost) && !(a.bytes.any (fun b => b.at_.isPeer)) && !(v.inPeer a)

/-- R478: an access of the host window whose responses have all come takes effect (log 26, DESIGN CHOICE). -/
def hostEffect (s : State) (w : Nat) (v : Wave) (k : Nat) : State :=
  match v.accs.find? (fun a => decide (a.id = k)) with
  | some a => peerEffect s w v a
  | none => s

/-- The channel entries that the results of accesses would have filled are released. -/
def releaseEntries (s : State) (l : List Acc) : State := freeDsts s (l.map (·.kind.dsts)).flatten

/-- R107: whether an access is a slot that has answered 0. -/
def slotZero (s : State) (v : Wave) (a : Acc) : Bool :=
  match a.kind with
  | .slot _ => decide (leNat (readAcc s (physCore s v.core) (dieOf v.core) [] a 0) = 0)
  | _ => false

/-- R391, R421: whether an instruction of a SIMT wave that has its responses raises its trap later (log 105, DEDUCED). -/
def peerStays (s : State) (v : Wave) (x : Nat) (l : List Acc) : Bool :=
  decide (v.phase = .simt) && ((l.any (fun a => a.bad.isSome) && v.trapLater x) || (l.any (slotZero s v) && (v.trapLater x || !(v.awake x))))

/-- R402, R399, R401: an instruction on the peer window whose responses have all come completes, or raises its fault precisely; a bundle thread's fault is found by its check (log 28, DEDUCED). One whose sub-wave a handler has stopped, or whose wave parks, has had no effect and executes again (log 105, DEDUCED). -/
def peerFinish (s : State) (w : Nat) (v : Wave) (grp : Nat) : State :=
  let l := v.accs.filter (fun a => decide (a.issue = grp))
  let sub := (l.headD { kind := .align }).sub
  let gone := modWave s w (fun u => { u with accs := u.accs.filter (fun a => decide (a.issue ≠ grp)) })
  if peerReady l && !(peerStays s v sub l) then
    if l.any (fun a => a.bad.isSome) then
      let t := peerTrap v l
      if v.phase = .simt then
        let s1 := releaseEntries (modWave gone w (fun u => u.modSub sub (fun y => { y with hold := .run }))) l
        if v.awake sub && v.parkReq.isNone then enterTrap s1 w sub t else s1
      else modWave (releaseEntries gone l) w (fun u => { u with bun := { u.bun with faults := u.bun.faults ++ [u.accPending t (l.headD { kind := .align })] } })
    else
      match v.holdOf sub with
      | .peer _ next pops =>
        match l with
        | [{ kind := .slot link, .. }] =>
          let a := l.headD { kind := .align }
          slotAnswer (acqDrop gone (physCore s v.core) a) w a next pops link (leNat (readAcc s (physCore s v.core) (dieOf v.core) [] a 0))
        | _ =>
          let s1 := dropEntries s pops
          l.foldl (fun t a => peerEffect t w v a) (modWave s1 w (·.resumeAt sub next))
      | _ => l.foldl (fun t a => peerEffect t w v a) s
  else s

/-- LOAD_PERFORMED: the load numbered k of wave w performs where R241 to R251 let it; a load of the peer or host window is sent then, and completes with its responses. -/
def execLoadPerformed (w k : Nat) (s : State) : Out :=
  match accAt s w k with
  | none => notEnabled
  | some (v, pre, a) =>
    let ok := loadReady a pre && !(isAcq a.ord && acqWaits s (dieOf v.core) a)
    if a.bytes.any (fun b => b.at_.isAway) then
      if ok && decide (a.stage = 0) && pre.all (fun x => !(x.kind.stores && sameGranule x a && decide (x.stage = 0))) then
        match a.kind with
        | .load _ | .poll =>
          let s1 := sendPeer s w v a 1 [] {}
          nextOf s (settle (match waveAt s1 w with | some v1 => if hostOnly v1 a then s1 else peerFinish s1 w v1 a.issue | none => s1))
        | _ => notEnabled
      else notEnabled
    else match a.kind with
      | .load ps => if ok && v.peersOk a then nextOf s (settle (doLoad s w v pre a ps)) else notEnabled
      | _ => notEnabled

/-- R232 to R234, R281: a discard performed: every copy at the home, in the remote caches and in the core's L1 goes, the bytes are unspecified, poison is cleared. -/
def doDiscard (s : State) (core : Nat) (l : List Nat) : State :=
  l.foldl (fun t n => wakeLine { (dropLine (invalidateOthers t none n) core n) with unspec := lineBytes n ++ t.unspec, poison := t.poison.filter (· ≠ n) } n) s

/-- The data of a store as it is performed; `vpack` rewrites the bytes it has read (R176) (log 16, DESIGN CHOICE). -/
def storeData (a : Acc) : List Byte :=
  match a.kind with
  | .store d => d
  | .pack d m o => (d.zip (m.zip o)).map (fun x => (x.2.2 &&& ~~~x.2.1) ||| (x.1 &&& x.2.1))
  | _ => []

/-- R176, R243, R249, R251: whether a `vpack` may read the bytes it rewrites: after the agent's earlier accesses to the granule and what holds every later access (log 16, DESIGN CHOICE). -/
def packReady (a : Acc) (pre : List Acc) : Bool :=
  !a.gated && pre.all (fun x => match x.kind with
    | .align => false
    | .fence => !(isAcq x.ord)
    | .load _ | .slot _ | .poll => !(isAcq x.ord)
    | .atomic _ _ _ _ => !(sameGranule x a) && !(isAcq x.ord)
    | .store _ | .pack _ _ _ | .discard => !(sameGranule x a) || decide (1 ≤ x.stage))

/-- R176: the bytes that a `vpack` rewrites, read. -/
def packRead (s : State) (a : Acc) : AKind :=
  match a.kind with
  | .pack d m _ => .pack d m (a.bytes.map (fun b => spadByte s b.at_))
  | k => k

/-- R248: the bytes of a store accepted now, with their data and their places in it, and the access after. -/
def takeStore (s : State) (a : Acc) (data : List Byte) : List (AByte × Byte) × Acc :=
  let now := (a.bytes.zip data).zipIdx.filter (fun x => a.takes s x.2)
  let got := now.foldl (fun g x => tblPut g x.2 x.1.2) a.got
  (now.map (·.1), { a with got := got, stage := if got.length < a.bytes.length then a.stage else 1 })

/-- R237, R244, R245, R248: a store to device memory accepted at the issuing die's point of coherence, or bytes of one that is not single-copy atomic; the core serves its context (log 24, DEDUCED). -/
def acceptStore (s : State) (w : Nat) (v : Wave) (a : Acc) (data : List Byte) : State :=
  let die := dieOf v.core
  let core := physCore s v.core
  let now := takeStore s a data
  let cells := now.1.filterMap (fun x => x.1.at_.devAddr.map (fun pa => (pa, x.2, x.1.attr.key)))
  let s1 := cells.foldl (fun t c => updateL1 t core c.2.2 c.1 c.2.1) (modCore s core (fun c => serveCore c v.ctx))
  let home := cells.filter (fun c => decide (homeDie c.1 = die))
  let away := cells.filter (fun c => decide (homeDie c.1 ≠ die))
  let s2 := home.foldl (fun t c => wakeLine (homePut t c.2.2 c.1 c.2.1) (lineOf c.1)) s1
  let s3 := away.foldl (fun t c => updateRemote t die c.2.2 c.1 c.2.1) s2
  let s4 := modDie s3 die (fun d => { d with pend := d.pend ++ (if home.isEmpty then [] else [{ id := s.nextDs, wave := w, acc := a.id, cells := home, home := true }]) ++ (if away.isEmpty then [] else [{ id := s.nextDs + 1, wave := w, acc := a.id, cells := away }]) })
  modAcc { s4 with nextDs := s.nextDs + 2 } w a.id (fun x => { x with got := now.2.got, stage := now.2.stage })

/-- The stores of an access that the die has accepted. -/
def dieStoresOf (s : State) (die w k : Nat) : List DieStore := (dieAt s die).pend.filter (fun d => decide (d.wave = w) && decide (d.acc = k))

/-- R245: a die's stores of one line go to the home in the order it accepted them. -/
def dieOrder (s : State) (die w k : Nat) : Bool :=
  let mine := dieStoresOf s die w k
  (dieAt s die).pend.all (fun d => mine.all (fun m => decide (m.id ≤ d.id) || d.home || m.home || !(m.cells.any (fun c => d.cells.any (fun e => decide (lineOf e.1 = lineOf c.1))))))

/-- R245, R247: a store of another die's line accepted by its home: it enters the coherence order; the other holders' copies are still there. -/
def homeStore (s : State) (w : Nat) (v : Wave) (a : Acc) : State :=
  let die := dieOf v.core
  let s1 := (dieStoresOf s die w a.id).foldl (fun t d => if d.home then t else d.cells.foldl (fun t c => wakeLine (homePut t c.2.2 c.1 c.2.1) (lineOf c.1)) t) s
  modDie s1 die (fun d => { d with pend := d.pend.map (fun x => if x.wave = w ∧ x.acc = a.id then { x with home := true } else x) })

/-- R245: whether a store that the die has accepted is still to be accepted by its home. -/
def awayStore (s : State) (die w k : Nat) : Bool := (dieStoresOf s die w k).any (fun d => !d.home)

/-- R229, R244: a store that its home has accepted, with every other holder's copy invalidated: performed at package scope (log 25, DESIGN CHOICE). -/
def packageStore (s : State) (w : Nat) (v : Wave) (a : Acc) : State :=
  let die := dieOf v.core
  let s1 := a.lines.foldl (fun t n => wakeLine (invalidateOthers t (some die) n) n) s
  let s2 := modDie s1 die (fun d => { d with pend := d.pend.filter (fun x => !(decide (x.wave = w) && decide (x.acc = a.id))) })
  matchAccess (modAcc s2 w a.id (fun x => { x with stage := 2 })) (waveSeen w v 1 a.bytes)

/-- R244, R248: a scratchpad store written in its one copy, or bytes of one that is not single-copy atomic. -/
def spadStoreAcc (s : State) (w : Nat) (v : Wave) (a : Acc) (data : List Byte) : State :=
  let now := takeStore s a data
  let s1 := now.1.foldl (fun t x => spadStore t x.1.at_ x.2) s
  if now.2.stage = 0 then modAcc s1 w a.id (fun x => { x with got := now.2.got }) else matchAccess (dropAcc s1 w a.id) (waveSeen w v 1 a.bytes)

/-- R403, R404: a peer store that has failed is recorded against its wave, with its lane. -/
def recordFailed (s : State) (w k : Nat) : State :=
  match accAt s w k with
  | none => s
  | some (_, _, a) =>
    match a.bad with
    | none => s
    | some b => modWave (dropAcc s w k) w (fun u => { u with failed := u.failed ++ [{ order := k, timeout := b.1, addr := BitVec.ofNat 64 a.va, rank := b.2.1, fault := b.2.2 / 32 * 32 + a.lane }] })

/-- R176: whether a `vpack` has still to read the bytes it rewrites. -/
def packOpen (a : Acc) : Bool := match a.kind with | .pack _ _ o => o.isEmpty && !a.bytes.isEmpty | _ => false

/-- STORE_PERFORMED: the store numbered k of wave w reaches its next scope, or its home (R241, R244, R245); one of the peer or host window is sent to it, and has its answer there; a `vpack` reads first. -/
def execStorePerformed (w k : Nat) (s : State) : Out :=
  match accAt s w k with
  | none => notEnabled
  | some (v, pre, a) =>
    let die := dieOf v.core
    match a.kind with
    | .discard => if storeReady a pre 2 then nextOf s (settle (matchAccess (dropAcc (doDiscard s (physCore s v.core) a.lines) w k) (waveSeen w v 1 a.bytes))) else notEnabled
    | .store _ | .pack _ _ _ =>
      if a.bytes.any (fun b => b.at_.isAway) then
        if decide (a.stage = 0) && storeReady a pre 2 && released s die a pre then nextOf s (settle (recordFailed (sendPeer s w v a 2 (storeData a) {}) w k)) else notEnabled
      else if a.bytes.any (fun b => b.at_.isSpad) then
        if packOpen a then (if packReady a pre then nextOf s (modAcc s w k (fun x => { x with kind := packRead s x })) else notEnabled)
        else if storeReady a pre 1 && released s die a pre then nextOf s (settle (spadStoreAcc s w v a (storeData a))) else notEnabled
      else if a.stage = 0 then
        if storeReady a pre 1 && released s die a pre then nextOf s (settle (acceptStore s w v a (storeData a))) else notEnabled
      else if a.stage = 1 then
        if awayStore s die w k then (if dieOrder s die w k then nextOf s (settle (homeStore s w v a)) else notEnabled)
        else if storeReady a pre 2 then nextOf s (settle (packageStore s w v a)) else notEnabled
      else notEnabled
    | _ => notEnabled

/-- R212, R256, R276: an atomic performed in device memory at the home of its line; one whose line has been poisoned since its check has no effect there (log 23, DEDUCED). -/
def atomicHome (s : State) (core : Nat) (a : Acc) (op : Nat) (b c : Word) : State × List Byte :=
  match a.bytes with
  | [] => (s, [])
  | x :: _ =>
    let pa := x.at_.devAddr.getD 0
    let n := a.bytes.length
    let old := homeBytes s x.attr.key pa 0 n
    let s1 := dropLine (invalidateOthers s none (lineOf pa)) core (lineOf pa)
    if poisoned s pa then (s, spoiled s a.bytes old)
    else match atomicNew op (8 * n) (leNat old) (b.toNat % 2 ^ (8 * n)) (c.toNat % 2 ^ (8 * n)) with
    | some y => (packagePutAll s1 x.attr.key pa (leBytes n y), old)
    | none => (lineTake s1 x.attr.key (lineOf pa), old)

/-- R212, R256: an atomic performed at its scratchpad bytes; one with a byte poisoned since its check has no effect there (log 23, DEDUCED). -/
def atomicSpad (s : State) (a : Acc) (op : Nat) (b c : Word) : State × List Byte :=
  let n := a.bytes.length
  let old := a.bytes.map (fun x => spadByte s x.at_)
  if a.bytes.any (bytePoisoned s) then (s, spoiled s a.bytes old)
  else match atomicNew op (8 * n) (leNat old) (b.toNat % 2 ^ (8 * n)) (c.toNat % 2 ^ (8 * n)) with
  | some y => ((a.bytes.zip (leBytes n y)).foldl (fun t x => spadStore t x.1.at_ x.2) s, old)
  | none => (s, old)

/-- ATOMIC_PERFORMED: the atomic numbered k of wave w is performed (R246, R256, R276). -/
def execAtomicPerformed (w k : Nat) (s : State) : Out :=
  match accAt s w k with
  | none => notEnabled
  | some (v, pre, a) =>
    let die := dieOf v.core
    let core := physCore s v.core
    let spad := a.bytes.any (fun b => b.at_.isSpad)
    let ok := atomicReady a pre && released s die a pre && (!(isRel a.ord) || v.landedBefore a.cyc) && !(atomicWaits s die a)
    if ok then
      match a.kind with
      | .atomic op b c ps =>
        if a.bytes.any (fun b => b.at_.isPeer) then
          if a.stage = 0 then
            let s1 := sendPeer s w v a 3 [] { atop := op, b := b, c := c }
            nextOf s (settle (match waveAt s1 w with | some v1 => peerFinish s1 w v1 a.issue | none => s1))
          else notEnabled
        else if !(v.peersOk a) then notEnabled
        else
          let r := if spad then atomicSpad s a op b c else atomicHome s core a op b c
          let s1 := landAll (dropAcc r.1 w k) w (partWrs ps r.2)
          nextOf s (settle (matchAccess (acqDrop s1 core a) (waveSeen w v 2 a.bytes)))
      | .slot _ =>
        if a.stage = 0 then
          let s1 := sendPeer s w v a 3 [] { atop := 1, b := 0, c := 1 }
          nextOf s (settle (match waveAt s1 w with | some v1 => peerFinish s1 w v1 a.issue | none => s1))
        else notEnabled
      | _ => notEnabled
    else notEnabled

end Sys2Proof.Machine
end

