-- ==== Sys2Proof/Machine/MemInstr.lean ====
section
/-! DEFINITION. Issuing memory instructions: addresses, checks, faults and gaps, and the accesses they queue (R107, R111, R175 to R179, R221, R224, R264 to R282, R402, R403). -/

namespace Sys2Proof.Machine

/-- One access an instruction asks for. -/
structure Req where
  lane : Nat := 0
  va : Nat := 0
  n : Nat := 1
  kind : AKind := .align
  deriving DecidableEq, Repr, Inhabited

/-- A request that fails its check: a misaligned atomic, or a memory fault. -/
inductive ReqBad where
  | align (lane : Nat)
  | mem (lane : Nat) (f : MemFault)
  deriving DecidableEq, Repr, Inhabited

/-- The draw of a lane's translation. -/
def laneTag (lane : Nat) : Nat := 2 ^ 54 + 8 * lane

/-- R222: what a wave's core looks its addresses up in. -/
def coreTlb (s : State) (e : Env) : View := coreView s e.core e.v.ctx

/-- R276, R282: a flat access that may not reach the host window. -/
def hostBad (l : List AByte) : Bool := l.any (fun b => b.at_.isHost)

/-- R178, R220, R272, R273, R276: the requests checked in lane order before any performs. -/
def checkEach (e : Env) (s : State) (flat : Bool) (k : Kind) : List Req → Except ReqBad (List Acc)
  | [] => .ok []
  | r :: rest =>
    if decide (k = .atomic) && decide (r.va % r.n ≠ 0) then .error (.align r.lane)
    else
      match (if flat then checkFlat s (coreTlb s e) e.v.ctx k r.va r.n (laneTag r.lane) else checkSpad s e.v k r.va r.n) with
      | .error f => .error (.mem r.lane f)
      | .ok bs =>
        if decide (k = .atomic) && flat && hostBad bs then .error (.mem r.lane { cause := .protection, addr := r.va, reason := 0 })
        else match checkEach e s flat k rest with
          | .error b => .error b
          | .ok l => .ok ({ kind := r.kind, va := r.va, n := r.n, flat := flat, bytes := withGran flat r.va bs, lane := r.lane, unit := unitOf r.va r.n } :: l)

/-- R268: the lowest lane of a scratchpad form some byte of whose access is not reachable; atomics are checked lane by lane (R273). -/
def unreached (e : Env) (s : State) (flat : Bool) (k : Kind) (rs : List Req) : Option Req :=
  if flat || decide (k = .atomic) then none else rs.find? (fun r => (spadPlaces s e.v r.va r.n).isNone)

/-- R178, R268: the requests of an instruction checked: in scratchpad first whether every byte of every lane is reachable, then lane by lane (log 23, DEDUCED). -/
def checkReqs (e : Env) (s : State) (flat : Bool) (k : Kind) (rs : List Req) : Except ReqBad (List Acc) :=
  match unreached e s flat k rs with
  | some r => .error (.mem r.lane { cause := .protection, addr := r.va % 2 ^ 64, reason := 2 })
  | none => checkEach e s flat k rs

/-- R224, R225: a gap of a wave: the record goes to the driver, the sub-wave waits, its registers and accesses as before. -/
def startGap (s : State) (e : Env) (k : Kind) (f : MemFault) (t : Trap) : State :=
  let c := ctxAt s e.v.ctx
  let s1 := modCtx s e.v.ctx (fun c => { c with gapSeq := c.gapSeq + 1, gaps := tblPut c.gaps c.gapSeq { va := BitVec.ofNat 64 f.va, since := s.clock, kind := k.code, by_ := e.v.place, wave := some (e.w, e.x), trap := t } })
  tellHost (modWave s1 e.w (fun v => v.modSub e.x (fun u => { u with hold := .gap c.gapSeq }))) (.gap (gapRecord e.v.ctx c.gapSeq e.v.core e.v.place k.code (BitVec.ofNat 64 f.va)))

/-- R178, R221, R224: how an instruction ends when a request fails: a trap, or in a mirrored context a gap first; in a bundle, of the image of a `post`, which is checked at issue (R377). -/
def reqFail (e : Env) (s : State) (k : Kind) (b : ReqBad) : Res :=
  match b with
  | .align _ => .trap s (e.illegal 10)
  | .mem lane f =>
    let t := f.trap k lane
    if f.isGap && (ctxAt s e.v.ctx).t.mirrored && (e.slot.isNone || decide (e.slot = some .cp)) then .hold (startGap s e k f t) else .trap s t

/-- R248: a store that spans two pages is two stores, one of each page, whose bytes come apart (log 24, DEDUCED). -/
def splitStore (a : Acc) : List Acc :=
  match a.kind with
  | .store d =>
    let n1 := 4096 - a.va % 4096
    if a.flat && decide (n1 < a.n) then
      [{ a with n := n1, unit := 1, bytes := a.bytes.take n1, kind := .store (d.take n1) }, { a with va := (a.va + n1) % 2 ^ 64, n := a.n - n1, unit := 1, bytes := a.bytes.drop n1, kind := .store (d.drop n1) }]
    else [a]
  | _ => [a]

/-- R250: accesses about to be queued, with their order and scope; a release whose conditions hold begins now. -/
def prepAccs (e : Env) (s : State) (ord scope : Nat) (l : List Acc) : List Acc :=
  ((l.map splitStore).flatten).map (fun a => beginRelease s e.die e.v.accs { a with ord := ord, scope := scope, issue := e.v.nextAcc, gated := inRegion e && (match a.kind with | .atomic _ _ _ _ => true | _ => false) })

/-- R222: the translations that served a list of requests. -/
def served (e : Env) (s : State) (flat : Bool) (rs : List Req) : State :=
  if flat then coreServed s e.core e.v.ctx ((rs.map (fun r => [(r.va, laneTag r.lane), ((r.va + r.n - 1) / 4096 * 4096, laneTag r.lane + 2)])).flatten) else s

/-- R402: an instruction whose accesses meet the peer window issues and waits for its responses (log 28, DEDUCED). -/
def peerHold (e : Env) (s : State) (l : List Acc) : Res :=
  .issued (modWave (takePushes s e.v (tblKeys e.pushes)) e.w (fun v => (v.queue e.x l).modSub e.x (fun u => { u with hold := .peer e.v.nextAcc e.next (popIds s e.v (tblKeys e.pops)) })))

/-- R402, R404: what an instruction that reads window bytes at issue raises: an access to a rank it does not reach, one its target refuses, one with no response in time. -/
def winFault (e : Env) (s : State) (va : Nat) (l : List AByte) : Option Trap :=
  match l.findIdx? (fun b => (b.at_.remote).any (fun pa => peerOwn s e.v.ctx (peerRank pa))) with
  | some i => some { cause := .peerFault, addr := BitVec.ofNat 64 (va + i), info := peerInfo (peerRank (((l.getD i { at_ := .dev 0 }).at_.remote).getD 0)) 0 0 }
  | none =>
    ((winReads s (.sub e.w e.x)).find? (fun r => r.bad.isSome || (r.bytes.isNone && inPeer r.pa && decide (r.sent + (ctxAt s e.v.ctx).t.peerLimit ≤ s.clock)))).map (fun r =>
      { cause := if r.bad.isSome then .peerFault else .peerTimeout, addr := BitVec.ofNat 64 (va + (l.findIdx? (fun b => decide (b.at_.remote = some r.pa))).getD 0),
        info := peerInfo (peerRank r.pa) 0 (r.bad.getD 0 / 32 * 32) })

/-- R402, R478: how an instruction that reads window bytes at issue waits for them, or fails; none once all have come (log 28, DEDUCED). -/
def winWait (e : Env) (s : State) (va : Nat) (l : List AByte) : Option Res :=
  if l.all (fun b => !b.at_.isAway) then none
  else match winFault e s va l with
  | some t => some (.trap (winDrop s (.sub e.w e.x)) t)
  | none => if winOpen s (.sub e.w e.x) l then some (.hold (winAsk s (.sub e.w e.x) e.v.ctx e.v.core l)) else none

/-- R403: what a release or `align` of the wave raises for a failed peer store, before it takes effect. -/
def relTrap (e : Env) (rel : Bool) : Option Trap := if rel then failedTrap e.v else none

/-- The end of a memory form: its requests checked, then queued together; with an empty executing set it faults nothing (R178). -/
def memForm (e : Env) (s : State) (flat : Bool) (k : Kind) (ord scope : Nat) (rs : List Req) : Res :=
  match relTrap e (isRel ord && !rs.isEmpty) with
  | some t => takeFailed s e.w t
  | none =>
    match checkReqs e s flat k rs with
    | .error b => reqFail e s k b
    | .ok l =>
      let s1 := served e s flat rs
      let accs := prepAccs e s1 ord scope l
      if decide (k ≠ .store) && e.slot.isNone && accs.any (fun a => a.bytes.any (fun b => b.at_.isPeer)) then peerHold e s1 accs
      else .done s1 { accs := accs }

/-- R51: the offset, or the literal in its place. -/
def memOff (lit : Option Word) (off : Word) : Word := lit.getD off

/-- The parts of a scalar load of n bytes. -/
def scalarParts (d : List Dst) (n : Nat) (sgn : Bool) : List LdPart := d.map (fun x => { dst := x, lo := 0, n := 8 * n, sgn := sgn })

/-- R177: the parts of a lane's load of 2^wid bytes. -/
def laneParts (d l wid : Nat) (sgn : Bool) : List LdPart :=
  if wid = 3 then [{ dst := .v d l, lo := 0, n := 32 }, { dst := .v (d + 1) l, lo := 32, n := 32 }] else [{ dst := .v d l, lo := 0, n := 8 * 2 ^ wid, sgn := sgn }]

/-- R177: the bytes a lane stores from register d. -/
def laneData (e : Env) (d l wid : Nat) : List Byte := leBytes (2 ^ wid) (e.rdVec false (if wid = 3 then 64 else 32) d l)

/-- R111: the address of a scalar flat form (log 18, DEDUCED). -/
def flatAddr (e : Env) (f : MEM) : Nat := (e.rdS f.a + e.rdS f.b + memOff f.lit f.off).toNat

/-- R111, R112: the scalar load. -/
def bodySld (f : MEM) (e : Env) (s : State) : Res :=
  memForm e s true .load (cOrd f.c) (cScope f.c) [{ va := flatAddr e f, n := 2 ^ cWid f.c, kind := .load (scalarParts (e.dstS f.d) (2 ^ cWid f.c) (cSgn f.c)) }]
/-- `sld` (R111). -/
def execSld (f : MEM) (s : State) : Out := issue (.sld f) (bodySld f) s

/-- R111, R112: the scalar store. -/
def bodySst (f : MEM) (e : Env) (s : State) : Res :=
  memForm e s true .store (cOrd f.c) (cScope f.c) [{ va := flatAddr e f, n := 2 ^ cWid f.c, kind := .store (leBytes (2 ^ cWid f.c) (e.rdS f.d).toNat) }]
/-- `sst` (R111). -/
def execSst (f : MEM) (s : State) : Out := issue (.sst f) (bodySst f) s

/-- R177, R467: the address of a lane of a flat per-lane form (log 18, DEDUCED). -/
def vldAddr (e : Env) (f : MEM) (l : Nat) : Nat := (e.rdS f.a + BitVec.ofNat 64 (e.laneNo l) * e.rdS f.b + memOff f.lit f.off).toNat

/-- R177, R178, R179: the per-lane load. -/
def bodyVld (f : MEM) (e : Env) (s : State) : Res :=
  memForm e s true .load (cOrd f.c) (cScope f.c) (e.lanes.map (fun l => { lane := l, va := vldAddr e f l, n := 2 ^ cWid f.c, kind := .load (laneParts f.d l (cWid f.c) (cSgn f.c)) }))
/-- `vld` (R177). -/
def execVld (f : MEM) (s : State) : Out := issue (.vld f) (bodyVld f) s

/-- R177, R178, R179: the per-lane store. -/
def bodyVst (f : MEM) (e : Env) (s : State) : Res :=
  memForm e s true .store (cOrd f.c) (cScope f.c) (e.lanes.map (fun l => { lane := l, va := vldAddr e f l, n := 2 ^ cWid f.c, kind := .store (laneData e f.d l (cWid f.c)) }))
/-- `vst` (R177). -/
def execVst (f : MEM) (s : State) : Out := issue (.vst f) (bodyVst f) s

/-- R266, R467: the scratchpad address of a lane: consecutive elements from a scalar base, or each lane's own. -/
def ldsAddr (e : Env) (f : MEM) (l : Nat) : Nat :=
  if f.b = 1 then (BitVec.ofNat 64 (e.rdV f.a l) + memOff f.lit f.off).toNat
  else (e.rdS f.a + BitVec.ofNat 64 (e.laneNo l * 2 ^ cWid f.c) + memOff f.lit f.off).toNat

/-- R267: whether the form stands in the `sc` slot. -/
def inSc (e : Env) : Bool := decide (e.slot = some .sc)

/-- R267: the scratchpad address of a scalar form. -/
def scAddr (e : Env) (f : MEM) : Nat := (e.rdS f.a + f.off).toNat

/-- R265 to R268: the scratchpad load. -/
def bodyLds (f : MEM) (e : Env) (s : State) : Res :=
  memForm e s false .load (cOrd f.c) (cScope f.c)
    (if inSc e then [{ va := scAddr e f, n := 2 ^ cWid f.c, kind := .load (scalarParts (e.dstS f.d) (2 ^ cWid f.c) (cSgn f.c)) }]
     else e.lanes.map (fun l => { lane := l, va := ldsAddr e f l, n := 2 ^ cWid f.c, kind := .load (laneParts f.d l (cWid f.c) (cSgn f.c)) }))
/-- `lds` (R265). -/
def execLds (f : MEM) (s : State) : Out := issue (.lds f) (bodyLds f) s

/-- R265 to R268: the scratchpad store. -/
def bodySts (f : MEM) (e : Env) (s : State) : Res :=
  memForm e s false .store (cOrd f.c) (cScope f.c)
    (if inSc e then [{ va := scAddr e f, n := 2 ^ cWid f.c, kind := .store (leBytes (2 ^ cWid f.c) (e.rdS f.d).toNat) }]
     else e.lanes.map (fun l => { lane := l, va := ldsAddr e f l, n := 2 ^ cWid f.c, kind := .store (laneData e f.d l (cWid f.c)) }))
/-- `sts` (R265). -/
def execSts (f : MEM) (s : State) : Out := issue (.sts f) (bodySts f) s

/-- R175: the address of a stream. -/
def streamAddr (e : Env) (f : MEM) : Nat := (e.rdS f.a + f.off).toNat

/-- R175, R467: the bytes a stream of fields of width c + 1 spans. -/
def streamSpan (e : Env) (f : MEM) : Nat := if e.w16 then 2 * (f.c + 1) else 4 * (f.c + 1)

/-- R176: a stream form's fault names the first address and lane 0. -/
def bodyVunpk (f : MEM) (e : Env) (s : State) : Res :=
  memForm e s false .load 0 0 [{ va := streamAddr e f, n := streamSpan e f, kind := .load (e.lanes.map (fun l => { dst := .v f.d l, lo := (f.c + 1) * e.laneNo l, n := f.c + 1 })) }]
/-- `vunpk` (R175). -/
def execVunpk (f : MEM) (s : State) : Out := issue (.vunpk f) (bodyVunpk f) s

/-- R175: the fields of the executing lanes as one number, and the mask of their bits (log 16, DESIGN CHOICE). -/
def packFields (e : Env) (f : MEM) : Nat × Nat :=
  e.lanes.foldl (fun t l => (t.1 + bits (e.rdV f.d l) 0 (f.c + 1) * 2 ^ ((f.c + 1) * e.laneNo l), t.2 + (2 ^ (f.c + 1) - 1) * 2 ^ ((f.c + 1) * e.laneNo l))) (0, 0)

/-- R175, R176: the stream store; what it rewrites is read later, since the rewrite is not atomic (log 16, DESIGN CHOICE). -/
def bodyVpack (f : MEM) (e : Env) (s : State) : Res :=
  let n := streamSpan e f
  let p := packFields e f
  match checkSpad s e.v .store (streamAddr e f) n with
  | .error x => .trap s (x.trap .store 0)
  | .ok bs => .done s { accs := [{ kind := .pack (leBytes n p.1) (leBytes n p.2) [], va := streamAddr e f, n := n, unit := 1, flat := false, bytes := withGran false (streamAddr e f) bs }] }
/-- `vpack` (R175). -/
def execVpack (f : MEM) (s : State) : Out := issue (.vpack f) (bodyVpack f) s

/-- R215, R269: the cores of the quad that hold the cohort's allocation, with its size. -/
def stmTargets (s : State) (v : Wave) : List (Nat × Nat) := (tblGet {} s.cohorts v.cohort).spad.map (fun e => (e.1, e.2.size))

/-- R269: the elements of a multicast store by window offset. -/
def stmElems (e : Env) (f : MEM) : List (Nat × Nat × List Byte) := e.lanes.map (fun l => (l, f.off.toNat + e.laneNo l * 2 ^ cWid f.c, laneData e f.d l (cWid f.c)))

/-- R215, R269: whether an element of a multicast store may be written. -/
def stmOk (e : Env) (f : MEM) (x : Nat × Nat × List Byte) : Bool :=
  decide (x.2.1 + x.2.2.length ≤ 4096) && decide (4096 * (f.a + 1) ≤ e.v.kernel.spad)

/-- R239: the scratchpad address of a window byte on the issuing core. -/
def stmAddr (e : Env) (f : MEM) (off : Nat) : Nat := e.v.core % 4 * 2 ^ 19 + 4096 * f.a + off

/-- R239, R261, R269: the store of one target core; each byte is in the granule of its address on the issuing core. -/
def stmAcc (e : Env) (f : MEM) (core : Nat) : Acc :=
  let w := stmElems e f
  { kind := .store ((w.map (fun x => x.2.2)).flatten), flat := false, va := stmAddr e f f.off.toNat, n := 32 * 2 ^ cWid f.c, unit := if unitOf f.off.toNat (2 ^ cWid f.c) = 0 then 2 ^ cWid f.c else 1,
    bytes := (w.map (fun x => (List.range x.2.2.length).map (fun i => { at_ := .spad e.v.cohort core (4096 * f.a + x.2.1 + i), gran := granNo false (stmAddr e f (x.2.1 + i)) }))).flatten }

/-- R215, R269: the multicast store. -/
def bodyStm (f : MEM) (e : Env) (s : State) : Res :=
  match (stmElems e f).find? (fun x => !(stmOk e f x)) with
  | some x => .trap s ({ cause := .protection, addr := 4096 * f.a + x.2.1, reason := 2 : MemFault }.trap .store x.1)
  | none => .done s { accs := if (stmElems e f).isEmpty then [] else (stmTargets s e.v).map (fun c => stmAcc e f c.1) }
/-- `stm` (R269). -/
def execStm (f : MEM) (s : State) : Out := issue (.stm f) (bodyStm f) s

/-- R273: the address of a lane's atomic. -/
def vatomAddr (e : Env) (f : ATM) (l : Nat) : Nat :=
  if cSgn f.c then (BitVec.ofNat 64 (e.rdV f.a l) + f.off).toNat else (BitVec.ofNat 64 (e.rdVec false 64 f.a l) + f.off).toNat

/-- R272, R273: the per-lane atomics. -/
def bodyVatom (f : ATM) (e : Env) (s : State) : Res :=
  let n := 2 ^ cWid f.c
  memForm e s (!(cSgn f.c)) .atomic (cOrd f.c) (cScope f.c) (e.lanes.map (fun l =>
    { lane := l, va := vatomAddr e f l, n := n,
      kind := .atomic f.atop (BitVec.ofNat 64 (e.rdVec false (8 * n) f.b l)) (if f.atop = 1 then BitVec.ofNat 64 (e.rdV (f.b + 1) l) else 0) (laneParts f.d l (cWid f.c) false) }))
/-- `vatom` (R273). -/
def execVatom (f : ATM) (s : State) : Out := issue (.vatom f) (bodyVatom f) s

/-- R272, R274: the scalar atomic; a 32-bit result of `.smin` and `.smax` comes sign-extended. -/
def bodySatom (f : ATM) (e : Env) (s : State) : Res :=
  let n := 2 ^ cWid f.c
  memForm e s (!(cSgn f.c)) .atomic (cOrd f.c) (cScope f.c)
    [{ va := (e.rdS f.a + f.off).toNat, n := n,
       kind := .atomic f.atop (e.rdS f.b) (if f.atop = 1 then e.rdS (f.b + 1) else 0) (scalarParts (e.dstS f.d) n (decide (n = 4) && decide (f.atop = 6 ∨ f.atop = 7))) }]
/-- `satom` (R274). -/
def execSatom (f : ATM) (s : State) : Out := issue (.satom f) (bodySatom f) s

/-- R249 to R252, R257, R277, R398, R403: a marker in both queues; one that nothing holds has its effect at once; in a bundle the thread's scratchpad accesses hold it, and in a pure region the commit. -/
def marker (e : Env) (s : State) (a0 : Acc) : Res :=
  match relTrap e (decide (a0.kind = .align) || isRel a0.ord) with
  | some t => takeFailed s e.w t
  | none =>
    let later := inRegion e || !(e.slot.isNone || e.v.landedBefore e.now)
    let a1 : Acc := { a0 with issue := e.v.nextAcc, gated := inRegion e }
    let a := if later then a1 else beginRelease s e.die e.v.accs a1
    if !later && markerDone s e.die a e.v.accs then .done (if a.kind = .fence then acqDrop s e.core a else s) {} else .done s { accs := [a] }

/-- R249, R277: `align`. -/
def bodyAlign (_ : MEM) (e : Env) (s : State) : Res := marker e s { kind := .align }
/-- `align` (R277). -/
def execAlign (f : MEM) (s : State) : Out := issue (.align f) (bodyAlign f) s

/-- R250 to R252, R277: `fence`. -/
def bodyFence (f : MEM) (e : Env) (s : State) : Res := marker e s { kind := .fence, ord := cOrd f.c, scope := cScope f.c }
/-- `fence` (R277). -/
def execFence (f : MEM) (s : State) : Out := issue (.fence f) (bodyFence f) s

/-- R280: the line a prefetch names, where it is device memory that the wave may load. -/
def prefetchByte (e : Env) (s : State) (f : MEM) : Option (AByte × Nat) :=
  match checkFlat s (coreTlb s e) e.v.ctx .load (flatAddr e f) 1 (laneTag 0) with
  | .ok [b] => b.at_.devAddr.map (fun pa => (b, pa))
  | _ => none

/-- R245, R280: the prefetch; it never traps, and brings in nothing where its miss would wait. -/
def bodyPrefetch (f : MEM) (e : Env) (s : State) : Res :=
  match prefetchByte e s f with
  | none => .done s {}
  | some (b, pa) => .done (if missWaits s e.die b || (decide (f.d = 0) && l1Holds s e.core b) then s else fillRead s (if f.d = 0 then some e.core else none) e.die b.attr (lineOf pa)) {}
/-- `prefetch` (R280). -/
def execPrefetch (f : MEM) (s : State) : Out := issue (.prefetch f) (bodyPrefetch f) s

/-- R281: the discard enters the store queue; in a window it does nothing. -/
def bodyDiscard (f : MEM) (e : Env) (s : State) : Res :=
  let rs : List Req := [{ va := flatAddr e f, kind := .discard }]
  match checkReqs e s true .store rs with
  | .error b => reqFail e s .store b
  | .ok l => .done (served e s true rs) { accs := l.filter (fun a => a.bytes.all (fun b => b.at_.devAddr.isSome)) }
/-- `discard` (R281). -/
def execDiscard (f : MEM) (s : State) : Out := issue (.discard f) (bodyDiscard f) s

/-- R230: the number of lines a context has pinned. -/
def pinCount (s : State) (ctx : Nat) : Nat := (s.pins.filter (fun e => decide (e.2.ctx = ctx))).length

/-- R228: a die's way mask of a partition. -/
def wayMask (s : State) (die part : Nat) : Nat := tblGet 0xFFFF (dieAt s die).partition part

/-- R226, R230: the ways that hold pinned lines of the home-cache set of a line (log 10, DESIGN CHOICE). -/
def pinnedWays (s : State) (line : Nat) : List Nat :=
  (s.pins.filter (fun e => decide (homeDie (64 * e.1) = homeDie (64 * line)) && decide (Config.homeSet e.1 % 393216 = Config.homeSet line % 393216))).map (·.2.way)

/-- R227, R230: whether the home cache holds a line that is not pinned, a free choice (log 10, DESIGN CHOICE). -/
def homeHolds (s : State) (line : Nat) : Bool := freeBool s (2 ^ 72 + 2 * line)

/-- R231: the ways that can take a line: those of the partition that hold no pinned line of its set, or the way that holds it (log 10, DESIGN CHOICE). -/
def pinWays (s : State) (part line : Nat) : List Nat :=
  let free_ := (List.range 16).filter (fun i => decide (i ∉ pinnedWays s line))
  let mine := free_.filter (fun i => bitAt (wayMask s (homeDie (64 * line)) part) i)
  if !mine.isEmpty && decide (mine.length = free_.length) then mine else if homeHolds s line then free_ else mine

/-- R230, R231: the outcome of a pin request (log 10, DESIGN CHOICE). -/
def pinCode (s : State) (ctx part line : Nat) : Nat :=
  match tblFind s.pins line with
  | some r => if r.ctx = ctx then 0 else 3
  | none =>
    if pinCount s ctx = (ctxAt s ctx).t.pinQuota then 2
    else if 12 ≤ (pinnedWays s line).length then 1
    else if (pinWays s part line).isEmpty then 1
    else 0

/-- R230, R231: the pin table after a request; the way of a new pin is a free choice; a line already pinned changes nothing (log 10, DESIGN CHOICE). -/
def pinApply (s : State) (ctx part line : Nat) : State :=
  let ws := pinWays s part line
  if (tblFind s.pins line).isNone && decide (pinCode s ctx part line = 0) then { s with pins := tblPut s.pins line { ctx := ctx, part := part, way := ws.getD (free s (2 ^ 72 + 2 * line + 1) % ws.length) 0 } } else s

/-- R282: the common checks of `pin` and `unpin`. -/
def pinForm (f : MEM) (e : Env) (s : State) (act : State → AByte → Nat → Res) : Res :=
  let rs : List Req := [{ va := flatAddr e f, kind := .poll }]
  match checkReqs e s true .load rs with
  | .error b => reqFail e s .load b
  | .ok l =>
    match (l.map (·.bytes)).flatten with
    | b :: _ =>
      match b.at_.devAddr with
      | some pa => act (served e s true rs) b (lineOf pa)
      | none => .trap s ({ cause := .protection, addr := flatAddr e f, reason := 0 : MemFault }.trap .load 0)
    | [] => .done s {}

/-- R231, R282: the pin. -/
def bodyPin (f : MEM) (e : Env) (s : State) : Res :=
  pinForm f e s (fun t b line => .done (pinApply t e.v.ctx b.attr.part line) { wr := e.wrS f.d (BitVec.ofNat 64 (pinCode s e.v.ctx b.attr.part line)) })
/-- `pin` (R282). -/
def execPin (f : MEM) (s : State) : Out := issue (.pin f) (bodyPin f) s

/-- R231: whether a context has pinned a line. -/
def pinnedBy (s : State) (ctx line : Nat) : Bool := match tblFind s.pins line with | some r => decide (r.ctx = ctx) | none => false

/-- R231, R282: the unpin. -/
def bodyUnpin (f : MEM) (e : Env) (s : State) : Res :=
  pinForm f e s (fun t _ line => if pinnedBy s e.v.ctx line then .done { t with pins := tblErase t.pins line } { wr := e.wrS f.d 0 } else .done t { wr := e.wrS f.d 1 })
/-- `unpin` (R282). -/
def execUnpin (f : MEM) (s : State) : Out := issue (.unpin f) (bodyUnpin f) s

/-- R278: the request of a `waitv` read. -/
def WaitV.req (q : WaitV) : Req := { va := q.addr, n := q.n, kind := .poll }

/-- R278, R279: one read of a `waitv`: a fault, or what the read's access is; its order is acquire, `.p` for flat and `.c` for scratchpad. -/
def waitvAcc (e : Env) (s : State) (q : WaitV) : Except ReqBad Acc :=
  match checkReqs e s q.flat .load [q.req] with
  | .error b => .error b
  | .ok l => .ok { l.headD { kind := .poll } with ord := 1, scope := if q.flat then 4 else 2, issue := e.v.nextAcc, sub := e.x, id := e.v.nextAcc }

/-- Whether the read of a `waitv` may perform now. -/
def waitvReady (e : Env) (s : State) (a : Acc) : Bool :=
  loadReady a e.v.accs && !(acqWaits s e.die a) && e.v.accs.all (fun x => !(x.kind.stores && sameGranule x a && decide (x.stage = 0))) && !(a.bytes.any (readWaits s e.core e.die true e.v.accs))

/-- The value a read of a `waitv` returns. -/
def waitvValue (e : Env) (s : State) (a : Acc) : Nat := leNat (readAcc s e.core e.die [] a 0)

/-- The state after a read of a `waitv`: an acquire, seen at its target. -/
def waitvSeen (e : Env) (s : State) (a : Acc) : State := matchAccess (acqDrop s e.core a) (waveSeen e.w e.v 0 a.bytes)

/-- R278: the wait as the instruction begins it. -/
def waitvOf (f : RRR) (e : Env) : WaitV :=
  let n := if f.ty = .n32 then 4 else 8
  { flat := !(bitAt f.fn 1), addr := (e.rdS f.a).toNat, n := n, eq := bitAt f.fn 0, cmp := (e.rdS f.b).toNat % 2 ^ (8 * n), limit := (e.rdS f.c).toNat, dst := e.dstS f.d, next := e.next, t0 := e.now, since := e.now }

/-- R279: a `waitv` that waits: it has issued, and pops nothing before it completes. -/
def waitvWait (e : Env) (s : State) (l : List Acc) (q : WaitV) : Res :=
  .done (modWave s e.w (fun v => (v.queue e.x l).modSub e.x (fun u => { u with hold := .waitv q }))) { go := .kept, waits := true }

/-- R278, R279: `waitv`: its first read at issue where nothing holds it; otherwise the sub-wave waits. -/
def bodyWaitv (f : RRR) (e : Env) (s0 : State) : Res :=
  let q := waitvOf f e
  if q.addr % q.n ≠ 0 then .trap s0 (e.illegal 10)
  else match waitvAcc e s0 q with
    | .error b => reqFail e s0 .load b
    | .ok a =>
      let s := served e s0 q.flat [q.req]
      let q1 := { q with granule := a.bytes.head?.map (fun b => granuleOf b.at_), pops := popIds s e.v (tblKeys e.pops) }
      if a.bytes.any (fun b => b.at_.isAway) then waitvWait e s [a] q1
      else if waitvReady e s a then
        if q.ends s.clock (waitvValue e s a) then .done (waitvSeen e s a) { wr := q.dst.map (fun d => ⟨d, waitvValue e s a⟩) }
        else waitvWait e (waitvSeen e s a) [] q1
      else waitvWait e s [] { q1 with woken := true }
/-- `waitv` (R278). -/
def execWaitv (f : RRR) (s : State) : Out := issue (.waitv f) (bodyWaitv f) s

/-- What a waiting sub-wave's re-read sees. -/
def waitEnv (s : State) (w x : Nat) (v : Wave) (u : Sub) : Env := simtEnv s w x v u (.nop {})

/-- WAITV_WAKE: a write to the granule, 1,024 cycles or the timeout make a waiting `waitv` read again (R278, R279). -/
def execWaitvWake (w x : Nat) (s : State) : Out :=
  match waveAt s w with
  | none => notEnabled
  | some v =>
    match tblFind v.subs x, v.holdOf x with
    | some u, .waitv q =>
      let e := waitEnv s w x v u
      if v.accs.any (fun a => decide (a.kind = .poll) && decide (a.sub = x)) || !(v.awake x) then notEnabled
      else if q.woken || decide (q.since + 1024 ≤ s.clock) || (decide (q.limit ≠ 0) && decide (q.limit ≤ s.clock - q.t0)) then
        match waitvAcc e s q with
        | .error b =>
          match reqFail e (modWave (freeDsts s q.dst) w (fun v => v.modSub x (fun u => { u with hold := .run }))) .load b with
          | .trap s1 t => if v.trapLater x then notEnabled else nextOf s (enterTrap s1 w x t)
          | .hold s1 | .issued s1 | .done s1 _ => nextOf s s1
        | .ok a =>
          let s1 := served e s q.flat [q.req]
          if a.bytes.any (fun b => b.at_.isAway) then nextOf s (modWave s1 w (fun v => v.queue x [a]))
          else if waitvReady e s1 a then nextOf s (waitvGot (waitvSeen e s1 a) w x q true (waitvValue e s1 a))
          else notEnabled
      else notEnabled
    | _, _ => notEnabled

/-- R108: the slot addresses in a die's binding table. -/
def bindTable (s : State) (die : Nat) : List Nat :=
  nub (((s.waves.filter (fun e => decide (dieOf e.2.core = die))).map (fun e => e.2.subs.filterMap (fun u => match u.2.hold with
    | .callx g true _ _ => some g
    | _ => none))).flatten)

/-- R108: whether a waiting slot has an entry of its die's binding table (log 31, DEDUCED). -/
def bindRoom (s : State) (die slot : Nat) : Bool := decide (slot ∈ bindTable s die) || decide ((bindTable s die).length < 64)

/-- R107, R108: the call through a slot, one atomic read-and-update at package scope. -/
def bodyCallx (f : MEM) (e : Env) (s : State) : Res :=
  let a := flatAddr e f
  if a % 8 ≠ 0 then .trap s (e.illegal 10)
  else match checkReqs e s true .atomic [{ va := a, n := 8, kind := .slot (e.dstS f.d) }] with
    | .error b => reqFail e s .atomic b
    | .ok l =>
      let acc := { l.headD { kind := .slot [] } with ord := 1, scope := 4, issue := e.v.nextAcc, id := e.v.nextAcc }
      if acc.bytes.any (fun b => b.at_.isPeer) then peerHold e (served e s true [{ va := a, n := 8 }]) [acc]
      else match acc.bytes with
        | [] => .hold s
        | b :: _ =>
          let pa := b.at_.devAddr.getD 0
          if atomicReady acc e.v.accs && !(atomicWaits s e.die acc) then
            let w := leNat (homeBytes s b.attr.key pa 0 8)
            let s1 := matchAccess (dropLine (invalidateOthers (served e s true [{ va := a, n := 8 }]) none (lineOf pa)) e.core (lineOf pa)) (waveSeen e.w e.v 2 acc.bytes)
            if w = 0 then .trap (packagePutAll s1 b.attr.key pa (leBytes 8 1)) { cause := .bind, addr := BitVec.ofNat 64 a }
            else if w = 1 then .hold (modWave s1 e.w (fun v => v.modSub e.x (fun u => { u with hold := .callx pa (bindRoom s e.die pa) s.clock false })))
            else .done (dropL1 s1 e.core) { wr := e.wrS f.d e.next, go := .abs (BitVec.ofNat 64 w) }
          else .hold s
/-- `callx` (R107). -/
def execCallx (f : MEM) (s : State) : Out := issue (.callx f) (bodyCallx f) s

/-- A waiting `callx` repeats its loop: its sub-wave issues it again. -/
def callxAgain (s : State) (w x : Nat) : State := modWave s w (fun v => v.modSub x (fun u => { u with hold := .run }))

/-- CALLX_WAKE: a write to the slot's granule wakes a wave with a binding-table entry (R108). -/
def execCallxWake (w x : Nat) (s : State) : Out :=
  match (waveAt s w).map (fun v => v.holdOf x) with
  | some (Hold.callx _ true _ true) => nextOf s (callxAgain s w x)
  | _ => notEnabled

/-- CALLX_REREAD: a waiting wave outside the binding table reads its slot again after 1,024 cycles (R108) (log 31, DEDUCED). -/
def execCallxReread (w x : Nat) (s : State) : Out :=
  match (waveAt s w).map (fun v => v.holdOf x) with
  | some (Hold.callx _ false t _) => if t + 1024 ≤ s.clock then nextOf s (callxAgain s w x) else notEnabled
  | _ => notEnabled

end Sys2Proof.Machine
end

