-- ==== Sys2Proof/Machine/Gates.lean ====
section
/-! DEFINITION. Gates and group boundaries (R311 to R314, R443, R444). -/

namespace Sys2Proof.Machine

/-- R442: a physical quad's reading. -/
def quadTemp (s : State) (q : Nat) : Nat := tblGet 0 s.temps q

/-- R406: the waves that are parked, whose bindings stay. -/
def parkedWaves (s : State) : List Wave := (s.parked.map (fun p => p.2.waves)).flatten

/-- R380, R406, R444: whether a channel of a physical core is bound, by a wave or a parked one. -/
def anyBound (s : State) (p : Nat) : Bool := ((tblVals s.waves) ++ parkedWaves s).any (fun v => v.ports.any (fun b => decide (physCore s b.2.core = p)))

/-- R355: the responder places and registers a context reserves on a logical core. -/
def respReserve (s : State) (ctx core : Nat) : Option (Nat × Nat) := ((ctxAt s ctx).t.responders.find? (fun r => decide (r.1 = core))).map (·.2)

/-- R444: whether any context reserves responder places on a core. -/
def anyReserve (s : State) (core : Nat) : Bool := s.ctxs.any (fun c => c.2.t.responders.any (fun r => decide (r.1 = core) && decide (0 < r.2.1)))

/-- R444: an idle core but for its keyring. -/
def idleButKeys (s : State) (core : Nat) : Bool :=
  let p := physCore s core
  !(s.waves.any (fun e => decide (physCore s e.2.core = p))) && (coreAt s p).tiles.isEmpty && !(anyBound s p) && !(anyReserve s core)

/-- R444: an idle core. -/
def idleCore (s : State) (core : Nat) : Bool := idleButKeys s core && (coreAt s (physCore s core)).keyring.isEmpty

/-- R443: the proposed destination of a hot core. -/
def proposed (s : State) (core : Nat) : Nat :=
  (((List.range 80).map (fun i => 80 * dieOf core + i)).find? (fun c => idleCore s c && decide (quadTemp s (quadOf (physCore s c)) < 95))).getD 0x1FF

/-- R444: the pieces of up to 64 KiB of an allocation: array offset and length. -/
def piecesOf (a : SpadAlloc) : List (Nat × Nat) := (List.range (ceilDiv a.size 65536)).map (fun i => (a.base + 65536 * i, min 65536 (a.size - 65536 * i)))

/-- The FREE keyring entries of a core, lowest first. -/
def freeKeys (c : Core) : List Nat := (List.range 256).filter (fun i => (tblFind c.keyring i).isNone)

/-- R444: a migration entry of a piece. -/
def migEntry (ctx co k : Nat) (p : Nat × Nat) : KeyEntry := { off := p.1 / 256, len := ceilDiv p.2 256 - 1, owner := 0xFFFFFFFE, ctx := ctx, mig := some (co, k) }

/-- The cores of a cohort that lie on a quad it is asked to leave. -/
def hotCores (s : State) (c : Cohort) : List Nat := (tblKeys c.spad).filter (fun k => decide (quadOf (physCore s k) ∈ c.migReq))

/-- R444: the entries a hot core's allocation takes. -/
def migTake (s : State) (c : Cohort) (k : Nat) : List (Nat × Nat × Nat) := (freeKeys (coreAt s (physCore s k))).zip (piecesOf (tblGet {} c.spad k))

/-- R443: the migration entries of a cohort's allocation on a logical core. -/
def migEntries (s : State) (co k : Nat) : Tbl KeyEntry := (coreAt s (physCore s k)).keyring.filter (fun e => decide (e.2.mig = some (co, k)))

/-- R443: TADDR and TINFO of MIGRATE as trap entry writes them: the proposed destination of a hot core, and the entry of each piece. -/
def migWords (s : State) (v : Wave) : Word × Word :=
  let l := migEntries s v.cohort v.core
  let al := tblGet {} (tblGet {} s.cohorts v.cohort).spad v.core
  (BitVec.ofNat 64 (if l.isEmpty then 0x1FF else proposed s v.core),
   BitVec.ofNat 64 (leNat ((List.range 8).map (fun i => match l.find? (fun e => decide (e.2.off = (al.base + 65536 * i) / 256)) with | some e => BitVec.ofNat 8 e.1 | none => 0xFF))))

/-- R443: a cause as trap entry finds it: that of MIGRATE names what the core proposes then. -/
def asTaken (s : State) (v : Wave) (t : Trap) : Trap := if t.cause = .migrate then { t with addr := (migWords s v).1, info := (migWords s v).2 } else t

/-- R444: the places of chunk c of a migration entry at array offset 256 · `off`. -/
def pieceChunk (s : State) (co k off c : Nat) : List Place :=
  let al := tblGet {} (tblGet {} s.cohorts co).spad k
  (((List.range 64).map (fun b => 256 * off + 64 * c + b - al.base)).filter (fun o => decide (o < al.size))).map (Place.spad co k)

/-- An allocation of a cohort changed. -/
def modSpad (s : State) (co k : Nat) (f : SpadAlloc → SpadAlloc) : State := { s with cohorts := tblMod s.cohorts co (fun c => { c with spad := tblMod c.spad k f }) }

/-- R445: chunk c of a migration entry has arrived on physical core `p`. -/
def pieceMoved (s : State) (co k off c p : Nat) : State := modSpad s co k (fun al => { al with away := tblPut al.away ((256 * off + 64 * c - al.base) / 64) p })

/-- R348, R445: no line of a piece lies away any more. -/
def pieceBack (s : State) (co k off len : Nat) : State :=
  modSpad s co k (fun al => { al with away := al.away.filter (fun x => !(decide ((256 * off - al.base) / 64 ≤ x.1) && decide (x.1 < (256 * off - al.base) / 64 + 4 * (len + 1)))) })

/-- R443, R444: a group boundary delivers a pending request: entries are formed on every hot core and every wave is asked; trap entry writes TADDR and TINFO (`migWords`). -/
def groupBoundary (s : State) (co : Nat) : State :=
  match tblFind s.cohorts co with
  | none => s
  | some c =>
    let hot := hotCores s c
    let ready := hot.all (fun k => decide ((piecesOf (tblGet {} c.spad k)).length ≤ (freeKeys (coreAt s (physCore s k))).length))
    let tv := c.waves.all (fun w => (waveAt s w).all (fun v => decide (v.tvec ≠ 0)))
    if c.migr && !c.migReq.isEmpty && tv && ready then
      let s1 := c.waves.foldl (fun t w => match waveAt s w with
        | none => t
        | some v =>
          if v.ended then t else holdCause t w .migrate 0 0) s
      let s2 := hot.foldl (fun t k => modCore t (physCore s k) (fun x => { x with keyring := (migTake s c k).foldl (fun r e => tblPut r e.1 (migEntry c.ctx co k e.2)) x.keyring })) s1
      modCohort s2 co (fun x => { x with migReq := [] })
    else s

/-- R311: a gate of a cohort. -/
def gateOf (s : State) (co g : Nat) : Gate := tblGet {} (tblGet {} s.cohorts co).gates g

/-- A gate changed. -/
def modGate (s : State) (co g : Nat) (f : Gate → Gate) : State := modCohort s co (fun c => { c with gates := tblSet {} c.gates g (f (tblGet {} c.gates g)) })

/-- R312: an arrival that completes the phase. -/
def Gate.completes (g : Gate) : Bool := decide (g.count + 1 = g.expect)

/-- R312: a gate after an arrival. -/
def Gate.arrive (g : Gate) (err : Bool) : Gate :=
  let g1 := { g with err := g.err || err }
  if g.completes then { g1 with count := 0, phase := (g.phase + 1) % 65536, expect := if g.nextV then g.nextExp else g.expect, nextV := false } else { g1 with count := g.count + 1 }

/-- R312, R443: an arrival at a gate; the completion of a phase is a group boundary. -/
def gateArrive (s : State) (co g : Nat) (err : Bool) : State :=
  let s1 := modGate s co g (fun x => x.arrive err)
  if (gateOf s co g).completes then groupBoundary s1 co else s1

/-- R312: a gate after `gset`. -/
def Gate.set (g : Gate) (n : Nat) : Gate := if g.count = 0 then { g with expect := n, nextV := false, err := false } else { g with nextExp := n, nextV := true, err := false }

/-- R311: whether a gate has completed a phase. -/
def Gate.passed (g : Gate) (w : Nat) : Bool := decide (g.phase ≠ w) && decide ((g.phase + 65536 - w) % 65536 < 32768)

/-- R260, R313: whether the release of an arrival made in a bundle at its issue, in a phase up to `w`, has no effect yet (log 103, DEDUCED). -/
def relWaits (s : State) (co g w : Nat) : Bool :=
  s.eng.any (fun o => match o.2.pay with
    | .arr k p => decide (k = g) && decide ((w + 65536 - p) % 65536 < 32768) && (waveAt s o.2.wave).any (fun v => decide (v.cohort = co))
    | _ => false)

/-- R260, R314: whether the wait of a wave at a gate is over: the phase has completed, and every arrival in it orders its earlier accesses before this (log 103, DEDUCED). -/
def gateOver (s : State) (v : Wave) (g : Nat) : Bool := (gateOf s v.cohort g).passed (tblGet 0 v.wph g) && !(relWaits s v.cohort g (tblGet 0 v.wph g))

/-- R304, R314: the trap of a gate whose ERR is 1. -/
def gateTrap (g : Nat) (next : Word) : Trap := { cause := .engineFault, tpc := some next, info := BitVec.ofNat 64 (2 ^ 33 + g * 2 ^ 28) }

/-- R314: a wave after a completed gate wait: the next phase, the watchdog at 0. -/
def Wave.gatePass (v : Wave) (g : Nat) : Wave := { v with wph := tblSet 0 v.wph g ((tblGet 0 v.wph g + 1) % 65536), wd := 0 }

/-- R260, R314: a completed gate wait: an acquire at cohort scope. -/
def gateEnd (s : State) (w core g : Nat) : State := dropL1 (modWave s w (·.gatePass g)) core

/-- R250, R260, R313: whether a release at cohort scope has effect for a wave's earlier accesses. -/
def relCohort (l : List Acc) : Bool := l.all (fun a => match a.kind with
  | .store _ | .pack _ _ _ | .discard => decide (1 ≤ a.stage)
  | .align | .fence => true
  | _ => false)

/-- R312: the expected count set. -/
def bodyGset (f : EN) (e : Env) (s : State) : Res :=
  let n := (e.rdS f.b).toNat
  if e.v.isResponder then .trap s (e.illegal 10)
  else if n < 1 ∨ 32767 < n then .trap s (e.illegal 10)
  else .done (modGate s e.v.cohort f.a (·.set n)) {}
/-- `gset` (R312, R313). -/
def execGset (f : EN) (s : State) : Out := issue (.gset f) (bodyGset f) s

/-- R313: whether a form that names a gate is refused: no cohort, or no expected count. -/
def gateBad (e : Env) (s : State) (g : Nat) : Bool := e.v.isResponder || decide ((gateOf s e.v.cohort g).expect = 0)

/-- R314, R355: the wait at a gate; in a bundle a wait that is not over holds the bundle. -/
def bodyGwait (f : EN) (e : Env) (s : State) : Res :=
  if e.v.isResponder then .trap s (e.illegal 10)
  else if gateOver s e.v f.a then
    let s1 := gateEnd s e.w e.core f.a
    if (gateOf s e.v.cohort f.a).err then .trap s1 (gateTrap f.a e.next) else .done s1 { wdReset := true }
  else if e.slot.isSome then .hold s
  else .done (modWave s e.w (fun v => v.modSub e.x (fun u => { u with hold := .gate f.a e.next false }))) { go := .kept }
/-- `gwait` (R314). -/
def execGwait (f : EN) (s : State) : Out := issue (.gwait f) (bodyGwait f) s

/-- R313, R314, R403: the arrival, a release, then the wait; a bundle thread is held after its bundle. -/
def bodyGsync (f : EN) (e : Env) (s : State) : Res :=
  if gateBad e s f.a then .trap s (e.illegal 10)
  else if let some t := failedTrap e.v then takeFailed s e.w t
  else if e.slot.isNone && !(relCohort e.v.accs) then .hold s
  else
    let s1 := gateArrive s e.v.cohort f.a false
    if e.slot.isSome then .done s1 {}
    else if gateOver s1 e.v f.a then
      let s2 := gateEnd s1 e.w e.core f.a
      if (gateOf s1 e.v.cohort f.a).err then .trap s2 (gateTrap f.a e.next) else .done s2 { wdReset := true }
    else .done (modWave s1 e.w (fun v => v.modSub e.x (fun u => { u with hold := .gate f.a e.next true }))) { go := .kept }
/-- `gsync` (R314). -/
def execGsync (f : EN) (s : State) : Out := issue (.gsync f) (bodyGsync f) s

/-- GATE_WAIT_COMPLETE: the gate has completed the phase that a sub-wave, or a bundle thread after its `gsync`, waits for (R314). -/
def execGateWaitComplete (w x : Nat) (s : State) : Out :=
  match waveAt s w with
  | none => notEnabled
  | some v =>
    match v.holdOf x, v.bun.gsyncHold with
    | .gate g next _, _ =>
      if gateOver s v g && v.awake x && !((gateOf s v.cohort g).err && v.trapLater x) then
        let s1 := modWave (gateEnd s w (physCore s v.core) g) w (·.resumeAt x next)
        nextOf s (if (gateOf s v.cohort g).err then enterTrap s1 w x (gateTrap g next) else s1)
      else notEnabled
    | _, some g =>
      if gateOver s v g then
        let s1 := modWave (gateEnd s w (physCore s v.core) g) w (fun u => { u with bun := { u.bun with gsyncHold := none } })
        nextOf s (if (gateOf s v.cohort g).err then drainTrap s1 w { (gateTrap g 0) with tpc := none } false else s1)
      else notEnabled
    | _, _ => notEnabled

end Sys2Proof.Machine
end

