-- ==== Sys2Proof/Machine/Engines.lean ====
section
/-! DEFINITION. Tokens, the copy engine's queue and its instructions: `trec`, `tcopy`, `kwait`, `kjoin`, `garr`, `yield`, `vlds` (R270, R271, R291 to R316). -/

namespace Sys2Proof.Machine

/-- R304: bits of TINFO of ENGINE_FAULT for a memory fault, LANE zero. -/
def engineInfo (engine : Nat) (f : MemFault) (k : Kind) : Word :=
  BitVec.ofNat 64 ((if f.cause = .page then 0 else 1) * 2 ^ 24 + engine * 2 ^ 21 + f.info k 0 % 2 ^ 13 / 32 * 32)

/-- R304: TINFO with INHERITED set. -/
def inherit (info : Word) : Word := info ||| BitVec.ofNat 64 (2 ^ 32)

/-- R304: TINFO as reported for a token. -/
def tokenInfo (k : Nat) (info : Word) : Word := (info &&& ~~~(BitVec.ofNat 64 (31 * 2 ^ 16))) ||| BitVec.ofNat 64 (k % 32 * 2 ^ 16)

/-- The later of two failures of one token. -/
def laterBad (a b : Option (Nat × Word × Word)) : Option (Nat × Word × Word) :=
  match a, b with
  | some x, some y => if x.1 ≤ y.1 then some y else some x
  | some x, none => some x
  | none, b => b

/-- R305: a token after one of its producers has completed; `more` while another has not. -/
def Token.after (t : Token) (more : Bool) (bad : Option (Nat × Word × Word)) : Token :=
  match t with
  | .pending b =>
    let b1 := laterBad b bad
    if more then .pending b1 else match b1 with
      | some (_, a, i) => .failed a i
      | none => .done
  | t => t

/-- R306: a consumed token after one of its producers has completed. -/
def Dep.after (d : Dep) (k : Nat) (bad : Option (Nat × Word × Word)) : Dep :=
  if k ∈ d.ops then { d with ops := d.ops.filter (· ≠ k), bad := laterBad d.bad bad } else d

/-- R305, R306: the engine instruction numbered k completes, failed or not: its token, and those that wait for it. -/
def engDone (s : State) (k : Nat) (fault : Option (Word × Word)) : State :=
  match tblFind s.eng k with
  | none => s
  | some o =>
    let bad := fault.map (fun f => (k, f.1, f.2))
    let rest := (tblErase s.eng k).map (fun e => (e.1, { e.2 with deps := e.2.deps.map (·.after k bad) }))
    let s1 := { s with eng := rest }
    match o.out with
    | none => s1
    | some t => modWave s1 o.wave (fun v => v.setTok t ((v.tok t).after (rest.any (fun e => decide (e.2.wave = o.wave) && decide (e.2.out = some t))) bad))

/-- An engine instruction changed. -/
def modEng (s : State) (k : Nat) (f : EngOp → EngOp) : State := { s with eng := tblMod s.eng k f }

/-- The answers of peers and of the host that an engine instruction still waits for. -/
def EPay.waits (p : EPay) : List Nat :=
  match p with
  | .tcopy _ _ _ _ _ w | .vlds _ _ _ w => w
  | .mx m => m.wait
  | .coll d => d.wait
  | _ => []

/-- R303: whether an engine instruction has failed and moves no further byte; one stalled in a gap has not. -/
def EngOp.failing (o : EngOp) : Bool := o.fault.isSome && o.gap.isNone

/-- R304: of two failures of one instruction the one at the lower address. -/
def lowerBad (a b : Word × Word) : Word × Word := if b.1.toNat < a.1.toNat then b else a

/-- R303, R304: an engine instruction that has failed completes once no answer to it is outstanding (log 79, DEDUCED). -/
def engEnd (s : State) (k : Nat) : State :=
  match tblFind s.eng k with
  | some o => if o.failing && o.pay.waits.isEmpty then engDone s k o.fault else s
  | none => s

/-- R303, R304: an engine instruction fails: it reports the lowest of its faults, those that answers still to come bring among them (log 79, DEDUCED). -/
def engFail (s : State) (k : Nat) (f : Word × Word) : State :=
  engEnd (modEng s k (fun o => { o with gap := none, fault := some (match o.fault, o.gap with | some g, none => lowerBad g f | _, _ => f) })) k

/-- R306: the first consumed token that failed. -/
def EngOp.badDep (o : EngOp) : Option (Word × Word) := (o.deps.filterMap (fun d => d.bad.map (fun b => (b.2.1, b.2.2)))).head?

/-- R306: whether every consumed token is DONE or FAILED. -/
def EngOp.depsDone (o : EngOp) : Bool := o.deps.all (fun d => d.ops.isEmpty)

/-- Which engine a payload belongs to: 0 the copy engine's queue, 1 the matrix engine's, 2 a `vlds` and 3 a `treg` or `post` of a bundle, which have none, 4 an arrival of a bundle that waits for its release (log 49, DEDUCED). -/
def EPay.engine (p : EPay) : Nat := match p with | .mx _ => 1 | .vlds _ _ _ _ => 2 | .reg _ _ _ _ | .post _ _ => 3 | .arr _ _ => 4 | _ => 0

/-- R307: whether an instruction counts in the section's queue of 64: the dispatcher's move of R371 does not, which no section issued. -/
def EngOp.queued (o : EngOp) : Bool := !o.begun && decide (o.pay.engine = 0) && (match o.pay with | .move m => m.card.isNone | _ => true)

/-- R307: the instructions of a section that have issued and not begun. -/
def sectQueue (s : State) (core sect : Nat) : Nat := (s.eng.filter (fun e => decide (e.2.core = core) && decide (e.2.sect = sect) && e.2.queued)).length

/-- R259: the markers an engine instruction waits for: those of `align` and of release fences before it. -/
def fenceIds (v : Wave) : List Nat := (v.accs.filter (fun a => match a.kind with | .align => true | .fence => isRel a.ord | _ => false)).map (·.id)

/-- The tokens a form consumes. -/
def consumed (e : Env) (f : EN) : List Nat := ([f.ka, f.kb, f.kc].take f.ncons).map e.tokNo

/-- R306: a token as it stands at issue. -/
def depOf (s : State) (w : Nat) (v : Wave) (k : Nat) : Dep :=
  { tok := k, ops := tblKeys (s.eng.filter (fun e => decide (e.2.wave = w) && decide (e.2.out = some k))),
    bad := match v.tok k with
      | .failed a i => some (0, a, i)
      | .pending b => b
      | .done => none }

/-- R305: the produced token at issue. -/
def Token.restart (t : Token) : Token := match t with | .pending b => .pending b | _ => .pending none

/-- R398: the engine instructions of committing words. -/
def EPay.commits (p : EPay) : Bool := match p with | .move _ | .post _ _ => true | _ => false

/-- R305, R306: an engine instruction as it issues. -/
def engIssue (e : Env) (s : State) (f : EN) (pay : EPay) : State :=
  let out := if f.produce then some (e.tokNo f.kout) else none
  let o : EngOp := { wave := e.w, ctx := e.v.ctx, core := e.core, sect := e.v.sect, issue := e.now, deps := (consumed e f).map (depOf s e.w e.v), out := out, pay := pay, fences := fenceIds e.v, mark := e.v.nextAcc, gated := inRegion e && pay.commits, prior := match out with | some t => e.v.tok t | none => .done }
  let s1 := { s with eng := tblPut s.eng s.nextEng o, nextEng := s.nextEng + 1 }
  match out with
  | none => s1
  | some t => modWave s1 e.w (fun v => v.setTok t (v.tok t).restart)

/-- R307: an engine instruction that would be the 65th of its section waits, or in a bundle is ILLEGAL. -/
def engForm (e : Env) (s : State) (f : EN) (pay : EPay) : Res :=
  if 64 ≤ sectQueue s e.core e.v.sect then (if e.slot.isSome then .trap s (e.illegal 10) else .hold s)
  else .done (engIssue e s f pay) {}

/-- R297: the record's image is one scratchpad load of the wave. -/
def bodyTrec (f : EN) (e : Env) (s : State) : Res :=
  let a := (e.rdS f.a).toNat
  if a % 64 ≠ 0 then .trap s (e.illegal 10)
  else memForm e s false .load 0 0 [{ va := a, n := 64, kind := .load [{ dst := .tensor (e.recNo f.b), lo := 0, n := 512 }] }]
/-- `trec` (R297). -/
def execTrec (f : EN) (s : State) : Out := issue (.trec f) (bodyTrec f) s

/-- R296: the number of elements of a record. -/
def TRec.total (r : TRec) : Nat := (List.range (r.ndim + 1)).foldl (fun n i => n * r.e.getD i 1) 1

/-- R296: the indices of the element numbered x in index order. -/
def TRec.index (r : TRec) (x : Nat) : Nat × Nat × Nat × Nat :=
  let e (i : Nat) : Nat := if i ≤ r.ndim then r.e.getD i 1 else 1
  (x % e 0, x / e 0 % e 1, x / (e 0 * e 1) % e 2, x / (e 0 * e 1 * e 2))

/-- R296, R299: the flat address of an element with the B offset. -/
def TRec.gaddr (r : TRec) (goff : Word) (x : Nat) : Nat :=
  let (a, b, c, d) := r.index x
  (r.gbase + BitVec.ofNat 64 (a * r.esz) + BitVec.ofNat 64 b * r.gs.getD 0 0 + BitVec.ofNat 64 c * r.gs.getD 1 0 + BitVec.ofNat 64 d * r.gs.getD 2 0 + goff).toNat

/-- R296, R299: the scratchpad address of an element with the C offset. -/
def TRec.saddr (r : TRec) (soff x : Nat) : Nat :=
  let (a, b, c, d) := r.index x
  (r.spbase + a * r.esz + b * r.ss.getD 0 0 + c * r.ss.getD 1 0 + d * r.ss.getD 2 0 + soff) % 2 ^ 64

/-- R300: whether an element is clipped. -/
def TRec.clipped (r : TRec) (x : Nat) : Bool :=
  let (a, b, _, _) := r.index x
  r.clip && (decide (r.glim0 ≤ a) || (decide (1 ≤ r.ndim) && decide (r.glim1 ≤ b)))

/-- R301: what `tcopy` checks at issue. -/
def tcopyBad (s : State) (v : Wave) (st : Bool) (r : TRec) (goff : Word) (soff : Nat) : Option Trap :=
  match (List.range r.total).find? (fun x => (spadPlaces s v (r.saddr soff x) r.esz).isNone) with
  | some x => some ({ cause := .protection, addr := r.saddr soff x, reason := 2 : MemFault }.trap (if st then .load else .store) 0)
  | none =>
    match (List.range r.total).find? (fun x => !(r.clipped x) && !(canonical (r.gaddr goff x) && canonical ((r.gaddr goff x + r.esz - 1) % 2 ^ 64))) with
    | some x => some ({ cause := .protection, addr := r.gaddr goff x, reason := 1 : MemFault }.trap (if st then .store else .load) 0)
    | none => none

/-- R299, R301: the tile copy. -/
def bodyTcopy (f : EN) (e : Env) (s : State) : Res :=
  match e.tensorRec (e.recNo (f.a % 16)) with
  | none => .trap s (e.illegal 10)
  | some r =>
    let st := bitAt f.a 4
    match tcopyBad s e.v st r (e.rdS f.b) (e.rdS f.c).toNat with
    | some t => .trap s t
    | none => engForm e s f (.tcopy st r (e.rdS f.b) (e.rdS f.c).toNat [] [])
/-- `tcopy` (R299). -/
def execTcopy (f : EN) (s : State) : Out := issue (.tcopy f) (bodyTcopy f) s

/-- R308: the join of tokens. -/
def bodyKjoin (f : EN) (e : Env) (s : State) : Res := engForm e s f .kjoin
/-- `kjoin` (R308). -/
def execKjoin (f : EN) (s : State) : Out := issue (.kjoin f) (bodyKjoin f) s

/-- R313, R403: the arrival: at issue, or behind tokens; a release. -/
def bodyGarr (f : EN) (e : Env) (s : State) : Res :=
  if gateBad e s f.a then .trap s (e.illegal 10)
  else if let some t := failedTrap e.v then takeFailed s e.w t
  else if f.ncons = 0 then (if e.slot.isSome || relCohort e.v.accs then .done (gateArrive s e.v.cohort f.a false) {} else .hold s)
  else engForm e s f (.garr f.a)
/-- `garr` (R313). -/
def execGarr (f : EN) (s : State) : Out := issue (.garr f) (bodyGarr f) s

/-- R309: the first FAILED token of a list, with its fault. -/
def firstFailed (v : Wave) (ks : List Nat) : Option (Nat × Word × Word) :=
  ks.findSome? (fun k => match v.tok k with | .failed a i => some (k, a, i) | _ => none)

/-- R309: ENGINE_FAULT for a failed token. -/
def tokenTrap (x : Nat × Word × Word) (tpc : Option Word) : Trap := { cause := .engineFault, tpc := tpc, addr := x.2.1, info := tokenInfo x.1 x.2.2 }

/-- R309: the token that an ENGINE_FAULT reports, none where a gate does. -/
def Trap.failedToken (t : Trap) : Option Nat := if t.cause = .engineFault ∧ t.info.getLsbD 33 = false then some (bits t.info.toNat 16 5) else none

/-- R309: whether every token of a list is DONE or FAILED. -/
def toksSettled (v : Wave) (ks : List Nat) : Bool := ks.all (fun k => (v.tok k).settled)

/-- R309: that token alone becomes DONE. -/
def clearTok (s : State) (w k : Nat) : State := modWave s w (fun v => v.setTok k .done)

/-- R260, R309: the wait on tokens; a bundle thread's failed token becomes DONE at its trap entry. -/
def bodyKwait (f : EN) (e : Env) (s : State) : Res :=
  let ks := consumed e f
  if toksSettled e.v ks then
    match firstFailed e.v ks with
    | some x => .trap (if e.slot.isSome then s else clearTok s e.w x.1) (tokenTrap x none)
    | none => .done (dropL1 s e.core) {}
  else if e.slot.isSome then .hold s
  else .done (modWave s e.w (fun v => v.modSub e.x (fun u => { u with hold := .kwait ks e.next }))) { go := .kept }
/-- `kwait` (R309). -/
def execKwait (f : EN) (s : State) : Out := issue (.kwait f) (bodyKwait f) s

/-- KWAIT_COMPLETE: every token a sub-wave waits for is DONE or FAILED (R260, R309). -/
def execKwaitComplete (w x : Nat) (s : State) : Out :=
  match waveAt s w with
  | none => notEnabled
  | some v =>
    match v.holdOf x with
    | .kwait ks next =>
      if toksSettled v ks && v.awake x then
        match firstFailed v ks with
        | some t => if v.trapLater x then notEnabled else nextOf s (enterTrap (clearTok (modWave s w (fun u => u.modSub x (fun y => { y with hold := .run }))) w t.1) w x (tokenTrap t none))
        | none => nextOf s (dropL1 (modWave s w (·.resumeAt x next)) (physCore s v.core))
      else notEnabled
    | _ => notEnabled

/-- R315, R316, R355: the yield of an unsplit wave (log 9, DEDUCED). -/
def bodyYield (f : EN) (e : Env) (s : State) : Res :=
  if !e.v.unsplit then .trap s (e.modeTrap 10)
  else if f.a % 4 = 0 ∧ e.v.isResponder = true then .trap s (e.illegal 10)
  else .done (modWave s e.w (fun v => { v with yield_ := some { kind := f.a % 4, idx := f.b, toks := consumed e f, cont := e.rdS f.c, since := s.clock } })) { go := .kept }
/-- `yield` (R315). -/
def execYield (f : EN) (s : State) : Out := issue (.yield f) (bodyYield f) s

/-- R358: a census slot of a context on a physical core. -/
def slotOf (s : State) (core ctx n : Nat) : Option CSlot := tblFind (coreAt s core).slots (16 * ctx + n)

/-- R315: whether the condition of a yield holds. -/
def yieldOver (s : State) (v : Wave) (y : YieldSt) : Bool :=
  match y.kind with
  | 0 => gateOver s v y.idx
  | 1 => toksSettled v y.toks
  | _ => (slotOf s (physCore s v.core) v.ctx y.idx).any (·.done)

/-- R316: a yielded wave at its continuation. -/
def Wave.unyield (v : Wave) (y : YieldSt) : Wave := { v with yield_ := none, subs := v.subs.map (fun u => (u.1, { u.2 with pc := y.cont, hold := .run })) }

/-- The sub-wave of an unsplit wave. -/
def Wave.soleSub (v : Wave) : Nat := (tblKeys v.subs).headD rootSub

/-- R314, R316: the state after a yield's condition held: an acquire; the watchdog at 0 but for tokens. -/
def yieldEnd (s : State) (w : Nat) (v : Wave) (y : YieldSt) : State :=
  let s1 := dropL1 (modWave s w (·.unyield y)) (physCore s v.core)
  match y.kind with
  | 0 => modWave s1 w (·.gatePass y.idx)
  | 1 => s1
  | _ => modWave s1 w (fun u => { u with wd := 0 })

/-- R316: the trap a resumption takes at the continuation. -/
def yieldTrap (s : State) (v : Wave) (y : YieldSt) : Option (Trap × Option Nat) :=
  match y.kind with
  | 0 => if (gateOf s v.cohort y.idx).err then some (gateTrap y.idx y.cont, none) else none
  | 1 => (firstFailed v y.toks).map (fun x => (tokenTrap x (some y.cont), some x.1))
  | _ => none

/-- R431: DIVERGE at a yield's resumption, which has no effect: the handler holds the yield, which `tret` gives back (log 29, DESIGN CHOICE). -/
def yieldDiverge (s : State) (w : Nat) (v : Wave) (y : YieldSt) (t : Trap) : State :=
  modWave (enterTrap s w v.soleSub t) w (fun u =>
    match v.handler, u.handler with
    | none, some h => { u with yield_ := none, handler := some { h with yield := some y } }
    | _, _ => u)

/-- YIELD_RESUME: the condition of a yielded wave holds and it goes on at its continuation, at the earliest in the cycle after its issue (R316, R430). -/
def execYieldResume (w : Nat) (s : State) : Out :=
  match waveAt s w with
  | none => notEnabled
  | some v =>
    match v.yield_ with
    | none => notEnabled
    | some y =>
      if yieldOver s v y && !v.stopped && decide (y.since < s.clock) then
        match replayCheck s v 0x308 with
        | some t => if v.parkReq.isSome then notEnabled else nextOf s (yieldDiverge s w v y t)
        | none =>
          let s1 := replayNote (yieldEnd s w v y) w v 0x308
          match yieldTrap s v y with
          | some (t, k) => nextOf s (enterTrap (match k with | some k => clearTok s1 w k | none => s1) w v.soleSub t)
          | none => nextOf s s1
      else notEnabled

/-- R270: the source and destination of a lane of `vlds`. -/
def vldsAddr (f : MEM) (e : Env) (l : Nat) : Nat × Nat :=
  ((e.rdS f.b + BitVec.ofNat 64 (l * 2 ^ cWid f.c)).toNat, (e.rdS f.a + BitVec.ofNat 64 (l * 2 ^ cWid f.c) + f.off).toNat)

/-- R271: the lanes of `vlds` checked in order, each source first. -/
def vldsCheck (f : MEM) (e : Env) (s : State) : List Nat → Except (Kind × ReqBad) (List (List AByte × List Place))
  | [] => .ok []
  | l :: r =>
    let a := vldsAddr f e l
    match checkMap s (coreTlb s e) e.v.ctx .load a.1 (2 ^ cWid f.c) (laneTag l) with
    | .error x => .error (.load, .mem l x)
    | .ok src =>
      match spadPlaces s e.v a.2 (2 ^ cWid f.c) with
      | none => .error (.store, .mem l { cause := .protection, addr := a.2, reason := 2 })
      | some d =>
        match vldsCheck f e s r with
        | .error x => .error x
        | .ok t => .ok ((src, d) :: t)

/-- R270, R271: the direct load into scratchpad. -/
def bodyVlds (f : MEM) (e : Env) (s : State) : Res :=
  if gateBad e s f.d then .trap s (e.illegal 10)
  else match vldsCheck f e s (maskLanes e.mask) with
    | .error (k, b) => reqFail e s k b
    | .ok l => .done (engIssue e s {} (.vlds f.d l [] [])) {}
/-- `vlds` (R270). -/
def execVlds (f : MEM) (s : State) : Out := issue (.vlds f) (bodyVlds f) s

/-- R250, R260, R313: whether the release of an arrival has effect: every earlier load of its wave has performed, every earlier store at cohort scope. -/
def arriveReady (s : State) (o : EngOp) : Bool :=
  match waveAt s o.wave with
  | none => true
  | some v => relCohort (v.accs.filter (fun a => decide (a.id < o.mark))) && v.landedBefore o.issue

/-- R259, R419: whether nothing but its tokens and its place in the queue keeps an engine instruction from beginning. -/
def mayBegin (s : State) (o : EngOp) : Bool :=
  match waveAt s o.wave with
  | none => true
  | some v => !o.gated && !v.stopped && o.fences.all (fun k => !(v.accs.any (fun a => decide (a.id = k))))

/-- R303, R336: whether a stall of an engine instruction holds every later one of its agent: a `jld` of a bundle holds only later `jld`. -/
def EPay.holds (p : EPay) : Bool := match p with | .mx m => m.inp.isNone || decide (m.k ≠ 5) | _ => true

/-- R303: whether an earlier engine instruction of the agent is stalled by a gap. -/
def stalled (s : State) (k : Nat) (o : EngOp) : Bool := s.eng.any (fun e => decide (e.1 < k) && decide (e.2.wave = o.wave) && e.2.gap.isSome && e.2.pay.holds)

/-- R306, R335: whether every earlier instruction of the agent has begun: those of the copy and the matrix engine in one order, the others each in their own. -/
def inOrder (s : State) (k : Nat) (o : EngOp) : Bool :=
  s.eng.all (fun e => !(decide (e.1 < k) && decide (e.2.wave = o.wave) && (decide (e.2.pay.engine = o.pay.engine) || decide (e.2.pay.engine ≤ 1 ∧ o.pay.engine ≤ 1)) && !e.2.begun))

/-- The byte an engine reads, and whether it comes from a poisoned line (R302): the issuing die's point of coherence, never an L1. -/
def engByte (s : State) (die : Nat) (b : AByte) (tag : Nat) : Byte × Bool :=
  match b.at_ with
  | .dev pa => (pocByte s die b.attr pa tag, poisoned s pa)
  | p => (spadByte s p, spadPoisoned s p)

/-- A byte an engine writes, poisoned where its source was (R212, R302) (log 25, DESIGN CHOICE). -/
def engPut (s : State) (b : AByte) (x : Byte × Bool) : State :=
  match b.at_ with
  | .dev pa =>
    let s1 := packagePut s b.attr.key pa x.1
    if x.2 then { s1 with poison := lineOf pa :: s1.poison.filter (· ≠ lineOf pa) } else s1
  | .spad _ _ _ | .tile _ _ _ =>
    let s1 := spadStore s b.at_ x.1
    if x.2 then spadPoison s1 b.at_ true else s1
  | _ => s

/-- R227: the lines that an engine reads fill the die's remote cache and the home cache. -/
def engFill (s : State) (die : Nat) (l : List AByte) : State := l.foldl (fun t b => match b.at_ with | .dev pa => fillRead t none die b.attr (lineOf pa) | _ => t) s

/-- R416, R417: accesses of an engine as a watchpoint sees them. -/
def engSeen (s : State) (ctx core init kind : Nat) (ps : List Place) : State := matchAccess s { ctx := ctx, core := core, init := init, kind := kind, places := ps }

/-- R245: whether engine bytes wait: a read behind stores of its die to the line, a write behind those that have still to go to the home (log 25, DESIGN CHOICE). -/
def engWaits (s : State) (die : Nat) (st : Bool) (l : List AByte) : Bool :=
  if st then lineHeld s die (nub ((l.filterMap (fun b => b.at_.devAddr)).map lineOf)) else l.any (missWaits s die)

/-- The parts of an element of n bytes that is aligned or not: one, or one for each byte (R248, R302). -/
def elemParts (aligned : Bool) (n : Nat) : List Nat := if aligned then (if n = 0 then [] else [0]) else List.range n

/-- R271: whether the source of an element of a `vlds` is a multiple of its size. -/
def elemAligned (src : List AByte) : Bool :=
  match src with
  | [] => true
  | b :: _ => decide (((b.at_.devAddr <|> b.at_.remote).getD 0) % src.length = 0)

/-- R248, R270: the units that a `vlds` moves, each at once: unit 16 i + j begins at byte j of element i (log 102, DESIGN CHOICE). -/
def vldsUnits (l : List (List AByte × List Place)) : List Nat :=
  (l.zipIdx.map (fun x => (elemParts (elemAligned x.1.1) x.1.1.length).map (fun j => 16 * x.2 + j))).flatten

/-- How many bytes a unit of an element holds. -/
def unitLen (src : List AByte) : Nat := if elemAligned src then src.length else 1

/-- R270: the source bytes and the destination bytes of a unit. -/
def vldsUnit (l : List (List AByte × List Place)) (u : Nat) : List AByte × List Place :=
  let x := l.getD (u / 16) ([], [])
  ((x.1.drop (u % 16)).take (unitLen x.1), (x.2.drop (u % 16)).take (unitLen x.1))

/-- R271: whether an element has met a poisoned source line: a byte of it that has come, or one that lies there now. -/
def elemBad (s : State) (l : List (List AByte × List Place)) (moved : List Nat) (i : Nat) : Bool :=
  let x := l.getD i ([], [])
  x.1.any (fun b => (b.at_.devAddr).any (poisoned s)) || moved.any (fun u => decide (u / 16 = i) && (vldsUnit l u).2.any (spadPoisoned s))

/-- R271: the bytes of a unit written; all of a poisoned element's destination bytes are poisoned. -/
def vldsPut (s : State) (l : List (List AByte × List Place)) (moved : List Nat) (u : Nat) (data : List Byte) : State :=
  let bad := elemBad s l moved (u / 16)
  let s1 := ((vldsUnit l u).2.zip data).foldl (fun t y => engPut t { at_ := y.1 } (y.2, bad)) s
  if bad then (l.getD (u / 16) ([], [])).2.foldl (fun t p => spadPoison t p true) s1 else s1

/-- R303: a `vlds` that has failed: it moves nothing more. -/
def vldsFailed (s : State) (k g : Nat) (l : List (List AByte × List Place)) : State :=
  modEng s k (fun o => { o with begun := true, pay := .vlds g l (vldsUnits l) [], fault := some (0, 0) })

/-- R270, R271: a unit of a `vlds` moved: its bytes are read from the die's point of coherence; those in the peer or host window are asked for (log 102, DESIGN CHOICE). -/
def vldsMove (s : State) (k : Nat) (o : EngOp) (v : Wave) (g : Nat) (l : List (List AByte × List Place)) (moved wait : List Nat) (u : Nat) : State :=
  let die := dieOf v.core
  let x := vldsUnit l u
  match x.1.findSome? (fun b => b.at_.remote) with
  | some pa =>
    if peerOwn s o.ctx (peerRank pa) then vldsFailed s k g l
    else
      let s1 := sendFrame s 1 o.ctx (peerRank pa) (peerOff pa) v.core [] { size := x.1.length } (.eng k u x.1.length)
      modEng s1 k (fun o => { o with begun := true, pay := .vlds g l (u :: moved) (u :: wait) })
  | none =>
    let s1 := vldsPut (engFill s die x.1) l moved u (x.1.map (fun b => (engByte s die b 0).1))
    let s2 := engSeen (engSeen s1 v.ctx v.core 64 0 (x.1.map (·.at_))) v.ctx v.core 64 1 x.2
    modEng s2 k (fun o => { o with begun := true, pay := .vlds g l (u :: moved) wait })

/-- VLDS_COMPLETE: a `vlds` moves its next unit, freely chosen; with every destination byte written it arrives at its gate (R271, R303, R313) (log 102, DESIGN CHOICE). One that has begun goes on while its wave is stopped (R419). -/
def execVldsComplete (k : Nat) (s : State) : Out :=
  match tblFind s.eng k with
  | some o =>
    match o.pay, waveAt s o.wave with
    | .vlds g l moved wait, some v =>
      let rest := (vldsUnits l).filter (fun u => !(decide (u ∈ moved)) && !(engWaits s (dieOf v.core) false (vldsUnit l u).1))
      if !(o.begun || mayBegin s o) || stalled s k o then notEnabled
      else match rest[free s 0 % rest.length]? with
        | some u => nextOf s (settle (vldsMove s k o v g l moved wait u))
        | none =>
          if (vldsUnits l).all (fun u => decide (u ∈ moved)) && wait.isEmpty && arriveReady s o then nextOf s (settle (gateArrive (engDone s k none) v.cohort g o.fault.isSome))
          else notEnabled
    | _, _ => notEnabled
  | none => notEnabled

/-- R248, R302: the bytes of part p of an element at flat address g: an aligned element is one part, each byte of another is one. -/
def chunkSpan (g esz p : Nat) : Nat × Nat :=
  if p ∈ elemParts (decide (g % esz = 0)) esz then (p, if g % esz = 0 then esz else 1) else (esz, 0)

/-- R300, R302: whether a number names a part of a chunk of a copy: part c mod 8 of element c / 8. -/
def chunkOk (st : Bool) (r : TRec) (goff : Word) (c : Nat) : Bool :=
  let x := c / 8
  decide (x < r.total) && (if r.clipped x then !st && decide (c % 8 = 0) else decide (0 < (chunkSpan (r.gaddr goff x) r.esz (c % 8)).2))

/-- R302: the parts of the chunks of a copy. -/
def chunks (st : Bool) (r : TRec) (goff : Word) : List Nat := (List.range (8 * r.total)).filter (chunkOk st r goff)

/-- R300: whether an element later in index order has already written a scratchpad place. -/
def laterWrote (s : State) (v : Wave) (r : TRec) (soff x : Nat) (moved : List Nat) (p : Place) : Bool :=
  moved.any (fun c => decide (x < c / 8) && (spadPlaces s v (r.saddr soff (c / 8)) r.esz).any (fun l => decide (p ∈ l)))

/-- R300: whether an element later in index order has already written a flat byte. -/
def laterStored (r : TRec) (goff : Word) (x : Nat) (moved : List Nat) (a : Nat) : Bool :=
  moved.any (fun c => decide (x < c / 8) && decide (r.gaddr goff (c / 8) ≤ a) && decide (a < r.gaddr goff (c / 8) + r.esz))

/-- The payload of a copy with its progress. -/
def EPay.progress (p : EPay) (moved wait : List Nat) : EPay := match p with | .tcopy st r g so _ _ => .tcopy st r g so moved wait | p => p

/-- R303, R305: a copy that has moved every chunk, with every access performed, completes; one that has failed completes so. -/
def tcopyCheck (s : State) (k : Nat) : State :=
  match tblFind s.eng k with
  | some o =>
    match o.pay with
    | .tcopy st r goff _ moved wait => if o.fault.isSome then engEnd s k else if wait.isEmpty && (chunks st r goff).all (fun c => decide (c ∈ moved)) then engDone s k none else s
    | _ => s
  | none => s

/-- R304: the fault of lowest virtual address among some (log 79, DEDUCED). -/
def lowestFault (f : MemFault) (l : List MemFault) : MemFault := l.foldl (fun m x => if x.va < m.va then x else m) f

/-- R304: what a token or a gate reports of a memory fault. -/
def faultWords (engine : Nat) (f : MemFault) (kind : Kind) : Word × Word := (BitVec.ofNat 64 f.va, engineInfo engine f kind)

/-- R225, R303: an engine instruction stalls in a gap: the record goes to the driver; `low` is what it fails with, if it does. -/
def engGap (s : State) (k : Nat) (o : EngOp) (core init : Nat) (kind : Kind) (f : MemFault) (low : Word × Word) : State :=
  let c := ctxAt s o.ctx
  let va := BitVec.ofNat 64 f.va
  let s1 := modCtx s o.ctx (fun c => { c with gapSeq := c.gapSeq + 1, gaps := tblPut c.gaps c.gapSeq { va := va, since := s.clock, kind := kind.code, by_ := init, eng := some k } })
  tellHost (modEng s1 k (fun o => { o with gap := some c.gapSeq, fault := some low })) (.gap (gapRecord o.ctx c.gapSeq core init kind.code va))

/-- R303: a memory fault of an engine instruction: a gap for PAGE reason 0, otherwise it fails at once, with the lowest of its faults `low`. -/
def engFault (s : State) (k : Nat) (o : EngOp) (core init engine : Nat) (kind : Kind) (f low : MemFault) : State :=
  if f.isGap then engGap s k o core init kind f (faultWords engine low kind) else engFail s k (faultWords engine low kind)

/-- R222: the walk-ahead TLB after it served an address. -/
def walkServed (s : State) (core ctx va tag : Nat) : State :=
  modCore s core (fun c => { (serveCore c ctx) with walk := tlbServed s 256 (walkView s core ctx) ctx [(va, tag)] })

/-- R300, R302: one chunk of a load moved: `src` the flat bytes, `i0` the first byte's place in the element. -/
def chunkLoad (s : State) (v : Wave) (r : TRec) (soff x i0 : Nat) (moved : List Nat) (bs : List (Byte × Bool)) : State :=
  match spadPlaces s v (r.saddr soff x + i0) bs.length with
  | none => s
  | some ps => (ps.zip bs).foldl (fun t y => if laterWrote s v r soff x moved y.1 then t else engPut t { at_ := y.1 } y.2) s

/-- R302: the flat half of a chunk of a store performed. -/
def chunkStore (s : State) (r : TRec) (goff : Word) (x i0 : Nat) (moved : List Nat) (dst : List AByte) (bs : List (Byte × Bool)) : State :=
  (dst.zip bs).zipIdx.foldl (fun t y => if laterStored r goff x moved (r.gaddr goff x + i0 + y.2) then t else engPut t y.1.1 y.1.2) s

/-- R445: the scratchpad side of a chunk that can no longer be reached. -/
def chunkLost (s : State) (v : Wave) (r : TRec) (soff x i0 n : Nat) : Bool := (spadPlaces s v (r.saddr soff x + i0) n).isNone

/-- R300, R302: the flat half of a chunk of a store sent to a peer: the runs of the bytes that no element later in index order has written. -/
def chunkSend (s : State) (k ctx core : Nat) (r : TRec) (goff : Word) (x i0 : Nat) (moved : List Nat) (c : Nat) (dst : List AByte) (data : List Byte) : State × List Nat :=
  let l := dst.zipIdx.map (fun b => if laterStored r goff x moved (r.gaddr goff x + i0 + b.2) then { b.1 with at_ := .dev 0 } else b.1)
  let runs := peerRuns l 0
  (runs.foldl (fun t q => sendFrame t 2 ctx (peerRank q.2.1) (peerOff q.2.1) core ((data.drop q.1).take q.2.2) { size := q.2.2 } (.eng k c q.2.2)) s, runs.map (fun _ => c))

/-- R302, R447: the flat bytes of a part of a chunk translated. -/
def chunkLook (s : State) (core : Nat) (o : EngOp) (st : Bool) (r : TRec) (goff : Word) (c : Nat) : Except MemFault (List AByte) :=
  let sp := chunkSpan (r.gaddr goff (c / 8)) r.esz (c % 8)
  let va := (r.gaddr goff (c / 8) + sp.1) % 2 ^ 64
  ownChecked s o.ctx va (checkMap s (walkView s core o.ctx) o.ctx (if st then Kind.store else .load) va sp.2 0)

/-- R304: the faults that the chunks of a copy still to be moved meet. -/
def tcopyFaults (s : State) (core : Nat) (o : EngOp) (st : Bool) (r : TRec) (goff : Word) (moved : List Nat) : List MemFault :=
  (chunks st r goff).filterMap (fun c =>
    if decide (c ∈ moved) || r.clipped (c / 8) then none
    else match chunkLook s core o st r goff c with
      | .error f => some f
      | .ok _ => none)

/-- R302, R416: the bytes of an element that lie with byte p in one 64-byte flat block: a chunk, one access to a watchpoint. -/
def blockSpan (g esz p : Nat) : Nat × Nat :=
  let n := 64 - g % 64
  if p < n then (0, min esz n) else (n, esz - n)

/-- R416: a chunk as a watchpoint of scratchpad, or of flat memory, sees it, when the first of its parts moves (log 25, DESIGN CHOICE). -/
def chunkSeen (s : State) (o : EngOp) (v : Wave) (st : Bool) (r : TRec) (goff : Word) (soff : Nat) (moved : List Nat) (c : Nat) (flat : Bool) : State :=
  let g := r.gaddr goff (c / 8)
  let sp := blockSpan g r.esz (c % 8)
  if moved.any (fun d => decide (d ≠ c) && decide (d / 8 = c / 8) && decide (blockSpan g r.esz (d % 8) = sp)) then s
  else
    let places := if flat then (match checkMap s (walkView s (physCore s v.core) o.ctx) o.ctx (if st then .store else .load) ((g + sp.1) % 2 ^ 64) sp.2 0 with | .ok l => l.map (·.at_) | .error _ => [])
      else (spadPlaces s v (r.saddr soff (c / 8) + sp.1) sp.2).getD []
    matchAccess s { ctx := o.ctx, core := v.core, init := 64, kind := if st = flat then 1 else 0, places := places }

/-- R300, R302: the copy engine moves part c of a copy whose flat bytes are translated. -/
def moveChunk (s : State) (k : Nat) (o : EngOp) (v : Wave) (st : Bool) (r : TRec) (goff : Word) (soff : Nat) (moved wait : List Nat) (c : Nat) (fb : List AByte) : State :=
  let die := dieOf v.core
  let x := c / 8
  let sp := chunkSpan (r.gaddr goff x) r.esz (c % 8)
  let seen (t : State) (flat : Bool) : State := chunkSeen t o v st r goff soff moved c flat
  let fin (t : State) (m w : List Nat) : State := tcopyCheck (modEng t k (fun o => { o with pay := o.pay.progress m w })) k
  match fb.findSome? (fun b => b.at_.remote) with
  | some pa =>
    if st then
      let t := chunkSend s k o.ctx v.core r goff x sp.1 moved c fb (((spadPlaces s v (r.saddr soff x + sp.1) sp.2).getD []).map (spadByte s))
      fin (seen t.1 false) (c :: moved) (t.2 ++ wait)
    else fin (sendFrame s 1 o.ctx (peerRank pa) (peerOff pa) v.core [] { size := sp.2 } (.eng k c sp.2)) moved (c :: wait)
  | none =>
    if st then
      let bs := ((spadPlaces s v (r.saddr soff x + sp.1) sp.2).getD []).map (fun p => engByte s die { at_ := p } 0)
      fin (seen (seen (chunkStore s r goff x sp.1 moved fb bs) false) true) (c :: moved) wait
    else fin (seen (seen (chunkLoad (engFill s die fb) v r soff x sp.1 moved (fb.map (fun b => engByte s die b 0))) true) false) (c :: moved) wait

/-- TCOPY_CHUNK: the copy engine moves one part of a tile: a chunk of an aligned element, a byte of another (R248, R300, R302, R303). -/
def execTcopyChunk (k c : Nat) (s : State) : Out :=
  match tblFind s.eng k with
  | none => notEnabled
  | some o =>
    match o.pay, waveAt s o.wave with
    | .tcopy st r goff soff moved wait, some v =>
      let x := c / 8
      let sp := chunkSpan (r.gaddr goff x) r.esz (c % 8)
      if !o.begun || o.gap.isSome || o.fault.isSome || stalled s k o || !(chunkOk st r goff c) || decide (c ∈ moved) || decide (c ∈ wait) then notEnabled
      else if r.clipped x then
        let s1 := chunkLoad s v r soff x 0 moved (List.replicate r.esz (0, false))
        let s2 := matchAccess s1 { ctx := o.ctx, core := v.core, init := 64, kind := 1, places := (spadPlaces s v (r.saddr soff x) r.esz).getD [] }
        nextOf s (settle (tcopyCheck (modEng s2 k (fun o => { o with pay := o.pay.progress (c :: moved) wait })) k))
      else
        let core := physCore s v.core
        let kind := if st then Kind.store else Kind.load
        let va := (r.gaddr goff x + sp.1) % 2 ^ 64
        if chunkLost s v r soff x sp.1 sp.2 then nextOf s (settle (engFail s k (BitVec.ofNat 64 (r.saddr soff x), engineInfo 0 { cause := .protection, addr := 0, reason := 2 } kind)))
        else match chunkLook s core o st r goff c with
          | .error f => nextOf s (settle (engFault s k o v.core 64 0 kind f (lowestFault f (tcopyFaults s core o st r goff moved))))
          | .ok fb => if engWaits s (dieOf v.core) st fb then notEnabled else nextOf s (settle (moveChunk (walkServed s core o.ctx va 0) k o v st r goff soff moved wait c fb))
    | _, _ => notEnabled

end Sys2Proof.Machine
end

