-- ==== Sys2Proof/Machine/Matrix.lean ====
section
/-! DEFINITION. The matrix engine and the latent stage: `fset`, `mbld`, `mma`, `mclr`, `mst`, `mlat`, `jld` (R75 to R82, R318 to R337). -/

namespace Sys2Proof.Machine

/-- R82: an exact sum of two data. -/
def addVal (a b : FVal) : FVal :=
  match a, b with
  | .nan x, _ => .nan x
  | _, .nan y => .nan y
  | .inf x, .inf y => if x = y then .inf x else .nan false
  | .inf x, _ => .inf x
  | _, .inf y => .inf y
  | .fin n1 m1 e1, .fin n2 m2 e2 =>
    let (t, e) := sumExact (signed n1 m1, e1) (signed n2 m2, e2)
    .fin (decide (t < 0)) t.natAbs e

/-- The exact zero. -/
def zeroVal : FVal := .fin false 0 0

/-- R82: the exact sum of products. -/
def dotVal (a b : List FVal) : FVal := (a.zip b).foldl (fun t p => addVal t (mulVal p.1 p.2).1) zeroVal

/-- R82: the terms of a K-step: `n` elements under each product of scales. -/
def segTerms (n : Nat) (a b : List FVal) : List FVal → FVal
  | [] => zeroVal
  | x :: r => addVal (mulVal (dotVal (a.take n) (b.take n)) x).1 (segTerms n (a.drop n) (b.drop n) r)

/-- R82, R334: a datum rounded once to nearest even; an exact zero gives +0. -/
def roundOnce (f : FFmt) (v : FVal) : Nat := match v with | .fin _ 0 _ => 0 | v => (deliverF f 0 false v).1

/-- R82: one K-step of one accumulator element. -/
def kstep (acc n : Nat) (a b sc : List FVal) : Nat :=
  roundOnce (fmtOf .f32 .f32) (addVal (decodeF (fmtOf .f32 .f32) acc) (segTerms n a b sc))

/-- R322: the type of an element type code; none for another code. -/
def mxTy (code : Nat) : Option Ty := match code with | 9 => some .f16 | 10 => some .bf16 | 13 => some .fq | _ => none

/-- R77, R323: the container width of an element type. -/
def mxWidth (t : Ty) (f : NFmt) : Nat := if t = .fq then f.container else 16

/-- R77, R78, R328: the datum of element i of a row. -/
def mxElem (t : Ty) (f : NFmt) (row i : Nat) : FVal :=
  if t = .fq then decodeN f (bits row (f.container * i) f.width) else decodeF (fmtOf t t) (bits row (16 * i) 16)

/-- The first n elements of a row. -/
def mxElems (t : Ty) (f : NFmt) (row n : Nat) : List FVal := (List.range n).map (mxElem t f row)

/-- R326: the format register written. -/
def bodyFset (f : EN) (e : Env) (s : State) : Res :=
  if 2 ^ 24 ≤ (e.rdS f.b).toNat then .trap s (e.illegal 10) else .done s { wr := [⟨.freg f.a, (e.rdS f.b).toNat⟩] }
/-- `fset` (R326). -/
def execFset (f : EN) (s : State) : Out := issue (.fset f) (bodyFset f) s

/-- R318: a piece of matrix state by its number: accumulators 0 to 7, stations 8 to 11, staging tiles 16 to 19, projection buffers 24 to 27. -/
def Matrix.piece (m : Matrix) (p : Nat) : List Nat :=
  if p < 8 then tblGet [] m.acc p else if p < 16 then tblGet [] m.station (p - 8) else if p < 24 then tblGet [] m.stage (p - 16) else tblGet [] m.proj (p - 24)

/-- A piece written. -/
def Matrix.setPiece (m : Matrix) (p : Nat) (l : List Nat) : Matrix :=
  if p < 8 then { m with acc := tblPut m.acc p l } else if p < 16 then { m with station := tblPut m.station (p - 8) l }
  else if p < 24 then { m with stage := tblPut m.stage (p - 16) l } else { m with proj := tblPut m.proj (p - 24) l }

/-- The bits of a row or column of a piece. -/
def rowBits (p : Nat) : Nat := if p < 8 then 4096 else if p < 24 then 256 else 2048

/-- The rows or columns of a piece. -/
def rowCount (p : Nat) : Nat := if p < 8 then 64 else if p < 16 then 128 else if p < 24 then 64 else 512

/-- A piece of unspecified contents, by free values. -/
def freePiece (g : Nat → Nat) (p : Nat) : List Nat := (List.range (rowCount p)).map (fun i => g (2 ^ 30 + 1024 * p + i) % 2 ^ rowBits p)

/-- R332: the target of `mlat`. -/
def mlatTarget (ctl : Nat) : Nat := if bitAt ctl 6 then 16 + bits ctl 4 2 else 8 + bits ctl 4 2

/-- The pieces an instruction reads. -/
def MxOp.reads (m : MxOp) : List Nat :=
  match m.k with
  | 1 => (8 + bits m.ctl 4 2) :: (bits m.ctl 0 3) :: (if bits m.ctl 6 2 = 2 then [16 + m.r.spbase] else [])
  | 3 => [bits m.ctl 0 3]
  | 4 => [24 + bits m.ctl 2 2]
  | _ => []

/-- The pieces an instruction writes. -/
def MxOp.writes (m : MxOp) : List Nat :=
  match m.k with
  | 0 => [8 + bits m.ctl 0 2]
  | 1 => [bits m.ctl 0 3]
  | 2 => [bits m.ctl 0 3]
  | 4 => [mlatTarget m.ctl]
  | 5 => [24 + bits m.ctl 0 2]
  | _ => []

/-- R335: whether two instructions may not overlap. -/
def MxOp.conflicts (a b : MxOp) : Bool := a.writes.any (fun p => decide (p ∈ b.reads ++ b.writes)) || a.reads.any (fun p => decide (p ∈ b.writes))

/-- R193: the bound of an instruction of a bundle. -/
def mxBound (k : Nat) : Nat := match k with | 0 => 32 | 1 => 96 | 2 => 4 | 3 => 40 | 4 => 160 | _ => 0

/-- R331: whether a `jld` into a buffer has not completed. -/
def jldOpen (s : State) (core p : Nat) : Bool :=
  s.eng.any (fun e => decide (e.2.core = core) && (match e.2.pay with | .mx m => decide (m.k = 5) && decide (p ∈ m.writes) | _ => false))

/-- R319: whether what a piece holds was left by other work than `work`. -/
def Matrix.foreign (m : Matrix) (work p : Nat) : Bool := decide (tblGet m.own m.by_ p ≠ work)

/-- R319: a piece as a work finds it: free where other work left it (log 35, DEDUCED). -/
def mxFound (s : State) (core work : Nat) (g : Nat → Nat) (p : Nat) : List Nat :=
  if (coreAt s core).mx.foreign work p then freePiece g p else (coreAt s core).mx.piece p

/-- R319, R332: the rank and type of a projection buffer as a work finds them (log 35, DEDUCED). -/
def mxRankOf (s : State) (core work : Nat) (g : Nat → Nat) (n : Nat) : Nat × Bool :=
  if (coreAt s core).mx.foreign work (24 + n) then (16 * (g (2 ^ 23 + 2 * n) % 33), g (2 ^ 23 + 2 * n + 1) % 2 = 1) else tblGet (0, false) (coreAt s core).mx.rank n

/-- R191, R331, R336: a piece as an instruction reads it: free inside a window of the thread, or while a `jld` fills it (log 36, DEDUCED). -/
def mxRead (s : State) (core work : Nat) (win : List (Nat × Nat × Nat)) (g : Nat → Nat) (p : Nat) : List Nat :=
  if win.any (fun w => decide (w.1 = p) && decide (w.2.1 < s.clock) && decide (s.clock < w.2.2)) || (decide (24 ≤ p) && jldOpen s core p) then freePiece g p
  else mxFound s core work g p

/-- R336: what an instruction of a bundle reads at issue. -/
def mxIn (e : Env) (s : State) (m : MxOp) : MxIn :=
  let rd (lo hi : Nat) : List Nat := match m.reads.find? (fun p => decide (lo ≤ p) && decide (p < hi)) with
    | some p => mxRead s e.core e.v.work e.v.bun.mxWin (fun k => e.free k) p
    | none => []
  { acc := if m.k = 3 then rd 0 8 else [], station := rd 8 16, stage := rd 16 24, proj := rd 24 32 }

/-- R186: whether a bundle thread of another wave holds the claim of a core. -/
def claimed (s : State) (core w : Nat) : Bool := s.waves.any (fun x => decide (x.1 ≠ w) && decide (physCore s x.2.core = core) && x.2.bun.claim)

/-- R307, R335: the matrix instructions of a section that have not begun. -/
def mxQueue (s : State) (core sect : Nat) : Nat :=
  (s.eng.filter (fun x => decide (x.2.core = core) && decide (x.2.sect = sect) && decide (x.2.pay.engine = 1) && !x.2.begun)).length

/-- R198, R331: what the core notes at the issue or beginning of an instruction. -/
def mxNote (s : State) (core : Nat) (m : MxOp) : State :=
  match m.k with
  | 1 => modCore s core (fun c => { c with mx := { c.mx with lastMma := some s.clock, accMma := tblPut c.mx.accMma (bits m.ctl 0 3) s.clock } })
  | _ => s

/-- R331: the rank and type that a `jld` gives its buffer at issue. -/
def mxRank (s : State) (core work : Nat) (m : MxOp) : State :=
  if m.k = 5 then modCore s core (fun c => { c with mx := { c.mx with rank := tblSet (0, false) c.mx.rank (bits m.ctl 0 2) (m.rank, m.f16), by_ := tblPut c.mx.by_ (24 + bits m.ctl 0 2) work } }) else s

/-- R336: an instruction of a bundle begins in the cycle of its issue, opens the windows of its targets, and holds what it read. -/
def mxBundle (e : Env) (s : State) (f : EN) (m : MxOp) : State :=
  let o := { m with inp := some (mxIn e s m), due := e.now + mxBound m.k }
  let s1 := engIssue e s f (.mx o)
  let s2 := modEng s1 s.nextEng (fun x => { x with begun := true })
  modWave (mxNote s2 e.core o) e.w (fun v => { v with bun := { v.bun with mxWin := v.bun.mxWin ++ (if m.k = 0 ∨ m.k = 2 ∨ m.k = 4 then m.writes.map (fun p => (p, e.now, o.due)) else []) } })

/-- R335, R336: the issue of a matrix instruction that has passed its checks. -/
def mxForm (e : Env) (s : State) (f : EN) (m : MxOp) : Res :=
  .done (mxRank (if e.slot.isSome then mxBundle e s f m else engIssue e s f (.mx m)) e.core e.v.work m) {}

/-- R307, R335: whether a SIMT sub-wave is not ready for a matrix instruction: a bundle thread holds the claim, or the section's queue is full. -/
def mxHeld (e : Env) (s : State) : Bool := e.slot.isNone && (claimed s e.core e.w || decide (64 ≤ mxQueue s e.core e.v.sect))

/-- R319, R335: a matrix instruction of a kernel without MTX is refused; one whose sub-wave is not ready waits before its checks. -/
def mxGate (e : Env) (s : State) (r : Res) : Res := if !e.v.kernel.mtx then .trap s (e.modeTrap 10) else if mxHeld e s then .hold s else r

/-- The lowest byte of scratchpad spans that the wave does not reach. -/
def spanFail (s : State) (v : Wave) (l : List (Nat × Nat)) : Option Nat :=
  match ((l.filter (fun x => (spadPlaces s v x.1 x.2).isNone)).map (fun x => ((List.range x.2).map (x.1 + ·)).filter (fun a => (spadPlace s v (a % 2 ^ 64)).isNone))).flatten with
  | [] => none
  | r => some (lowest r)

/-- The first span, in index order, that the wave does not reach: of several failing columns or rows TADDR gives the start of this one (R327; log 114, DESIGN CHOICE). -/
def firstFail (s : State) (v : Wave) (l : List (Nat × Nat)) : Option Nat := (l.find? (fun x => (spadPlaces s v x.1 x.2).isNone)).map (·.1)

/-- PROTECTION for a scratchpad address. -/
def mxTrap (k : Kind) (reason a : Nat) : Trap := { cause := .protection, addr := a, reason := reason : MemFault }.trap k 0

/-- R327: the source address of column n. -/
def mbldAddr (m : MxOp) (n : Nat) : Nat :=
  if bitAt m.ctl 2 then (m.r.gbase + BitVec.ofNat 64 n * m.r.gs.getD 0 0 + BitVec.ofNat 64 (32 * (m.c.toNat % 2 ^ 32))).toNat
  else m.r.spbase + n * m.r.ss.getD 0 0 + 32 * (m.c.toNat % 2 ^ 32)

/-- R331: the source address of row r. -/
def jldAddr (m : MxOp) (r : Nat) : Nat :=
  if bitAt m.ctl 2 then (m.r.gbase + BitVec.ofNat 64 r * m.r.gs.getD 0 0).toNat else m.r.spbase + r * m.r.ss.getD 0 0

/-- R219, R221, R327: the fault of `n` flat bytes that are not all canonical; SECOND where only those of the second page are not. -/
def formFault (n a : Nat) : Trap := { cause := .protection, addr := a, reason := 1, second := canonical a && decide (a / 4096 ≠ (a + n - 1) % 2 ^ 64 / 4096) : MemFault }.trap .load 0

/-- R327, R331: the checks of a load from scratchpad or the flat space, `n` bytes at each address; of several that fail the first in index order is reported (log 114, DESIGN CHOICE). -/
def loadCheck (e : Env) (s : State) (m : MxOp) (n : Nat) (as : List Nat) : Option Trap :=
  if bitAt m.ctl 2 then (as.find? (fun a => !(canonical a && canonical ((a + n - 1) % 2 ^ 64)))).map (formFault n)
  else (firstFail s e.v (as.map (fun a => (a, n)))).map (mxTrap .load 2)

/-- R327: the B station load. -/
def bodyMbld (f : EN) (e : Env) (s : State) : Res :=
  mxGate e s (match e.tensorRec (e.recNo f.b) with
    | none => .trap s (e.illegal 10)
    | some r =>
      let m : MxOp := { k := 0, ctl := f.a, r := r, c := e.rdS f.c }
      match loadCheck e s m 32 ((List.range 128).map (mbldAddr m)) with
      | some t => .trap s t
      | none => mxForm e s f m)
/-- `mbld` (R327). -/
def execMbld (f : EN) (s : State) : Out := issue (.mbld f) (bodyMbld f) s

/-- R322: the fields of the format-block operand. -/
structure FmtBlock where
  bscale : Nat
  ascale : Nat
  kstep : Nat
  bty : Nat
  aty : Nat
  bfmt : Nat
  afmt : Nat
  deriving DecidableEq, Repr, Inhabited

/-- R322: the format-block operand of a value. -/
def fmtBlock (x : Nat) : FmtBlock :=
  { bscale := bits x 43 21, ascale := bits x 22 21, kstep := bits x 14 8, bty := bits x 10 4, aty := bits x 6 4, bfmt := bits x 3 3, afmt := bits x 0 3 }

/-- R323: whether one side's type, format register and scale address agree. -/
def sideOk (ty fmt scale : Nat) (w : Word) : Bool :=
  match mxTy ty with
  | none => false
  | some .fq => (nfmtOf w).valid && (decide (scale = 0) || decide ((nfmtOf w).blk ≠ 0))
  | some _ => decide (fmt = 0) && decide (scale = 0)

/-- R323: the checks of the format-block operand. -/
def blockOk (b : FmtBlock) (fa fb : Word) (asrc : Nat) : Bool :=
  sideOk b.aty b.afmt b.ascale fa && sideOk b.bty b.bfmt b.bscale fb
    && decide (mxWidth ((mxTy b.aty).getD .f16) (nfmtOf fa) = mxWidth ((mxTy b.bty).getD .f16) (nfmtOf fb))
    && (decide (b.kstep = 0) || decide (asrc = 0))

/-- R75: the block length of a side; 0 for none. -/
def blkLen (ty : Nat) (f : NFmt) : Nat := if mxTy ty = some .fq ∧ f.blk ≠ 0 then 4 * 2 ^ f.blk else 0

/-- R325: the segments of a side with e elements in a K-step. -/
def segCount (b e : Nat) : Nat := if b = 0 ∨ e < b then 1 else e / b

/-- R79: the bytes of a scale. -/
def scaleBytes (f : NFmt) : Nat := if f.scf then 2 else 1

/-- R325: where the scale of row or column m and segment g stands. -/
def scaleAddr (base : Nat) (f : NFmt) (segs m g : Nat) : Nat := base + scaleBytes f * (segs * m + g)

/-- R79: the datum of a scale. -/
def scaleVal (f : NFmt) (x : Nat) : FVal :=
  if f.scf then (match decodeF (fmtOf .bf16 .bf16) x with | .fin n m e => .fin n m e | _ => .nan false)
  else if x = 255 then .nan false else .fin false 1 ((x : Int) - 127)

/-- What the two sides of a K-step are: elements, segments of each side, formats. -/
structure KShape where
  e : Nat
  ga : Nat
  gb : Nat
  na : NFmt
  nb : NFmt
  hasA : Bool
  hasB : Bool
  deriving DecidableEq, Repr

/-- R323, R325: the shape of an `mma`. -/
def kshape (m : MxOp) : KShape :=
  let b := fmtBlock m.c.toNat
  let na := nfmtOf m.fa
  let nb := nfmtOf m.fb
  let e := 256 / mxWidth ((mxTy b.aty).getD .f16) na
  { e := e, ga := segCount (blkLen b.aty na) e, gb := segCount (blkLen b.bty nb) e, na := na, nb := nb, hasA := decide (blkLen b.aty na ≠ 0), hasB := decide (blkLen b.bty nb ≠ 0) }

/-- R324: the address of row r of A through a record. -/
def mmaRow (m : MxOp) (r : Nat) : Nat := m.r.spbase + r * m.r.ss.getD 0 0 + 32 * (fmtBlock m.c.toNat).kstep

/-- R323: the scratchpad spans an `mma` reads. -/
def mmaSpans (m : MxOp) : List (Nat × Nat) :=
  let b := fmtBlock m.c.toNat
  let k := kshape m
  (if bits m.ctl 6 2 = 0 then (List.range 64).map (fun r => (mmaRow m r, 32)) else [])
    ++ (if k.hasA then [(b.ascale, scaleBytes k.na * (k.ga * 64))] else []) ++ (if k.hasB then [(b.bscale, scaleBytes k.nb * (k.gb * 128))] else [])

/-- R324: row r of A from vector registers (log 108, DEDUCED). -/
def regRow (e : Env) (b r : Nat) : Nat := (List.range 8).foldl (fun t k => t + 2 ^ (32 * k) * e.rdVReg (b + 8 * (r / 32) + k) (r % 32)) 0

/-- R328: the multiply-accumulate. -/
def bodyMma (f : EN) (e : Env) (s : State) : Res :=
  mxGate e s (
    let src := bits f.a 6 2
    let b := fmtBlock (e.rdS f.c).toNat
    let fa := e.fmtReg b.afmt
    let fb := e.fmtReg b.bfmt
    match (if src = 0 then e.tensorRec (e.recNo f.b) else some { spbase := if src = 2 then f.b else 0 }) with
    | none => .trap s (e.illegal 10)
    | some r =>
      let m : MxOp := { k := 1, ctl := f.a, r := r, c := e.rdS f.c, fa := fa, fb := fb, reg := if src = 1 then (List.range 64).map (regRow e f.b) else [] }
      if !(blockOk b fa fb src) then .trap s (e.illegal 10)
      else match spanFail s e.v (mmaSpans m) with
        | some a => .trap s (mxTrap .load 2 a)
        | none => mxForm e s f m)
/-- `mma` (R328). -/
def execMma (f : EN) (s : State) : Out := issue (.mma f) (bodyMma f) s

/-- R329: the clear. -/
def bodyMclr (f : EN) (e : Env) (s : State) : Res := mxGate e s (mxForm e s f { k := 2, ctl := f.a })
/-- `mclr` (R329). -/
def execMclr (f : EN) (s : State) : Out := issue (.mclr f) (bodyMclr f) s

/-- R330: the type of a store descriptor; none where R330 refuses the descriptor. -/
def mstTy (d : Nat) (w : Word) : Option Ty :=
  if bits d 10 54 ≠ 0 ∨ 5 ≤ bits d 7 3 then none
  else match bits d 0 4 with
    | 11 => if bits d 4 3 = 0 then some .f32 else none
    | 9 => if bits d 4 3 = 0 then some .f16 else none
    | 10 => if bits d 4 3 = 0 then some .bf16 else none
    | 13 => if (nfmtOf w).valid then some .fq else none
    | _ => none

/-- The bits of a stored element. -/
def mstWidth (t : Ty) (f : NFmt) : Nat := match t with | .f32 => 32 | .fq => f.container | _ => 16

/-- R330: the rounding mode of a store descriptor. -/
def mstMode (d : Nat) : Nat := bits d 7 3 - 1

/-- R330: the scratchpad spans of an `mst`. -/
def mstSpans (m : MxOp) (c : Nat) : List (Nat × Nat) := (List.range 64).map (fun r => (m.r.spbase + r * m.r.ss.getD 0 0, 16 * c))

/-- R330: the store of an accumulator. -/
def bodyMst (f : EN) (e : Env) (s : State) : Res :=
  mxGate e s (
    let d := (e.rdS f.c).toNat
    let w := e.fmtReg (bits d 4 3)
    match e.tensorRec (e.recNo f.b), mstTy d w with
    | some r, some t =>
      let m : MxOp := { k := 3, ctl := f.a, r := r, c := e.rdS f.c, fa := w }
      match firstFail s e.v (mstSpans m (mstWidth t (nfmtOf w))) with
      | some a => .trap s (mxTrap .store 2 a)
      | none => mxForm e s f m
    | _, _ => .trap s (e.illegal 10))
/-- `mst` (R330). -/
def execMst (f : EN) (s : State) : Out := issue (.mst f) (bodyMst f) s

/-- R332: whether the latent descriptor may be used with a buffer's rank; bits [63:12], which R332 says are zero without naming a fate, are refused with the other fields (log 115, DEDUCED). -/
def mlatOk (ctl d rank : Nat) (w : Word) : Bool :=
  let ty := bits d 5 4
  let absorb := bitAt ctl 7
  decide (bits d 12 52 = 0) && decide (rank ≠ 0)
    && (if absorb then decide (ty = 9 ∨ ty = 10) && decide (16 * bits d 0 5 < rank) else decide (ty = 9 ∨ ty = 10 ∨ ty = 13) && decide (bits d 0 5 < 8))
    && (if ty = 13 then (nfmtOf w).valid && decide ((nfmtOf w).blk = 0) else decide (bits d 9 3 = 0))

/-- R333, R334: the rows that `mlat` reads and their bytes. -/
def mlatSpans (m : MxOp) : List (Nat × Nat) :=
  let w := mxWidth ((mxTy (bits m.c.toNat 5 4)).getD .f16) (nfmtOf m.fa)
  if bitAt m.ctl 7 then (List.range 64).map (fun i => (m.r.spbase + i * m.r.ss.getD 0 0, 256))
  else (List.range (if bitAt m.ctl 6 then 64 else 128)).map (fun t => (m.r.spbase + t * m.r.ss.getD 0 0, m.rank * w / 8))

/-- R332: the latent stage. -/
def bodyMlat (f : EN) (e : Env) (s : State) : Res :=
  mxGate e s (
    let d := (e.rdS f.c).toNat
    let w := e.fmtReg (bits d 9 3)
    let (rank, f16) := mxRankOf s e.core e.v.work (fun k => e.free k) (bits f.a 2 2)
    match e.tensorRec (e.recNo f.b) with
    | none => .trap s (e.illegal 10)
    | some r =>
      let m : MxOp := { k := 4, ctl := f.a, r := r, c := e.rdS f.c, fa := w, rank := rank, f16 := f16 }
      if !(mlatOk f.a d rank w) then .trap s (e.illegal 10)
      else match firstFail s e.v (mlatSpans m) with
        | some a => .trap s (mxTrap .load 2 a)
        | none => mxForm e s f m)
/-- `mlat` (R332). -/
def execMlat (f : EN) (s : State) : Out := issue (.mlat f) (bodyMlat f) s

/-- R331: the load of a projection buffer. -/
def bodyJld (f : EN) (e : Env) (s : State) : Res :=
  mxGate e s (
    let rank := (e.rdS f.c).toNat
    match e.tensorRec (e.recNo f.b) with
    | none => .trap s (e.illegal 10)
    | some r =>
      let m : MxOp := { k := 5, ctl := f.a, r := r, c := e.rdS f.c, rank := rank, f16 := bitAt f.a 3 }
      if rank < 16 ∨ 512 < rank ∨ rank % 16 ≠ 0 then .trap s (e.illegal 10)
      else match loadCheck e s m 256 ((List.range rank).map (jldAddr m)) with
        | some t => .trap s t
        | none => mxForm e s f m)
/-- `jld` (R331). -/
def execJld (f : EN) (s : State) : Out := issue (.jld f) (bodyJld f) s

/-- A scratchpad row as an engine reads it, its bytes' number and whether one of them is poisoned; a row no longer reached reads as free (log 36, DEDUCED). -/
def spadRow (s : State) (v : Wave) (a n : Nat) : Nat × Bool :=
  match spadPlaces s v a n with
  | some ps => (leNat (ps.map (spadByte s)), ps.any (spadPoisoned s))
  | none => (free s (2 ^ 40 + a) % 2 ^ (8 * n), false)

/-- R325: the scales of a row or column as data, one for each segment of the side, and whether one is poisoned. -/
def scaleRow (s : State) (v : Wave) (has : Bool) (base : Nat) (f : NFmt) (segs m : Nat) : List FVal × Bool :=
  if has then
    let l := (List.range segs).map (fun g => spadRow s v (scaleAddr base f segs m g) (scaleBytes f))
    (l.map (fun x => scaleVal f x.1), l.any (·.2))
  else (List.replicate segs (.fin false 1 0), false)

/-- R325: the products of scales over the common segments of both sides. -/
def scaleProds (ga gb : Nat) (sa sb : List FVal) : List FVal :=
  (List.range (max ga gb)).map (fun g => (mulVal (sa.getD (g * ga / max ga gb) zeroVal) (sb.getD (g * gb / max ga gb) zeroVal)).1)

/-- R324: row r of A with its poison. -/
def mmaA (s : State) (v : Wave) (m : MxOp) (stage : List Nat) (r : Nat) : Nat × Bool :=
  match bits m.ctl 6 2 with
  | 0 => spadRow s v (mmaRow m r) 32
  | 1 => (m.reg.getD r 0, false)
  | _ => (stage.getD r 0, false)

/-- R328, R337: the accumulator after an `mma`. -/
def mmaResult (s : State) (v : Wave) (m : MxOp) (acc station stage : List Nat) : List Nat :=
  let b := fmtBlock m.c.toNat
  let k := kshape m
  let cols := (List.range 128).map (fun n => (mxElems ((mxTy b.bty).getD .f16) k.nb (station.getD n 0) k.e, scaleRow s v k.hasB b.bscale k.nb k.gb n))
  (List.range 64).map (fun i =>
    let a := mmaA s v m stage i
    let av := mxElems ((mxTy b.aty).getD .f16) k.na a.1 k.e
    let sa := scaleRow s v k.hasA b.ascale k.na k.ga i
    let row := acc.getD i 0
    (cols.zipIdx).foldl (fun t c =>
      let x := if a.2 || sa.2 || c.1.2.2 || bitAt (station.getD c.2 0) 256 then (fmtOf .f32 .f32).nan else kstep (bits row (32 * c.2) 32) (k.e / max k.ga k.gb) av c.1.1 (scaleProds k.ga k.gb sa.1 c.1.2.1)
      t + 2 ^ (32 * c.2) * x) 0)

/-- R330: the bits stored for an element. -/
def mstElem (t : Ty) (f : NFmt) (mode x : Nat) : Nat :=
  match t with
  | .f32 => x
  | .fq => (toNarrow f mode (decodeF (fmtOf .f32 .f32) x)).1
  | t => (deliverF (fmtOf t t) mode false (decodeF (fmtOf .f32 .f32) x)).1

/-- R330: the number of a stored row. -/
def mstRow (t : Ty) (f : NFmt) (mode row : Nat) : Nat :=
  (List.range 128).foldl (fun a n => a + 2 ^ (mstWidth t f * n) * mstElem t f mode (bits row (32 * n) 32)) 0

/-- R330: the state after an `mst` of an accumulator. -/
def mstEffect (s : State) (o : EngOp) (v : Wave) (m : MxOp) (acc : List Nat) : State :=
  let f := nfmtOf m.fa
  let t := (mstTy m.c.toNat m.fa).getD .f32
  let c := mstWidth t f
  (mstSpans m c).zipIdx.foldl (fun x sp =>
    match spadPlaces s v sp.1.1 sp.1.2 with
    | none => x
    | some ps =>
      let y := (ps.zip (leBytes (16 * c) (mstRow t f (mstMode m.c.toNat) (acc.getD sp.2 0)))).foldl (fun z p => spadStore z p.1 p.2) x
      matchAccess y { ctx := o.ctx, core := v.core, init := 65, kind := 1, places := ps }) s

/-- The element format T of a buffer. -/
def bufFmt (f16 : Bool) : FFmt := if f16 then fmtOf .f16 .f16 else fmtOf .bf16 .bf16

/-- Element d of a row of a projection buffer. -/
def projVal (f16 : Bool) (row d : Nat) : FVal := decodeF (bufFmt f16) (bits row (16 * d) 16)

/-- R333, R334: one row of 16 elements of T, from the exact sums; a poisoned source row gives canonical NaNs. -/
def mlatRow (m : MxOp) (proj : List Nat) (src : Nat × Bool) : Nat :=
  let d := m.c.toNat
  let ty := (mxTy (bits d 5 4)).getD .f16
  let T := bufFmt m.f16
  (List.range 16).foldl (fun t i =>
    let y := if src.2 then T.nan
      else if bitAt m.ctl 7 then roundOnce T (dotVal (mxElems ty (nfmtOf m.fa) src.1 128) ((List.range 128).map (projVal m.f16 (proj.getD (16 * bits d 0 5 + i) 0))))
      else roundOnce T (dotVal (mxElems ty (nfmtOf m.fa) src.1 m.rank) ((proj.take m.rank).map (fun w => projVal m.f16 w (16 * bits d 0 5 + i))))
    t + 2 ^ (16 * i) * y) 0

/-- R333, R334: the tile that `mlat` writes. -/
def mlatResult (s : State) (v : Wave) (m : MxOp) (proj : List Nat) : List Nat :=
  let p := proj ++ List.replicate (512 - proj.length) 0
  (mlatSpans m).map (fun x => mlatRow m p (spadRow s v x.1 x.2))

/-- R337: a row of loaded bytes where one is poisoned: canonical NaNs of T in a buffer; in a station canonical NaNs of every type that reads it, as bytes free (log 36, DEDUCED). -/
def poisonRow (s : State) (m : MxOp) (a : Nat) : Nat :=
  if m.k = 5 then (List.range 128).foldl (fun t i => t + 2 ^ (16 * i) * (bufFmt m.f16).nan) 0 else 2 ^ 256 + free s (2 ^ 41 + a) % 2 ^ 256

/-- The rows that a load from scratchpad writes (log 36, DEDUCED). -/
def loadRows (s : State) (v : Wave) (m : MxOp) (n : Nat) (as : List Nat) : List Nat :=
  as.map (fun a => let r := spadRow s v a n; if r.2 then poisonRow s m a else r.1)

/-- R302, R327, R337, R447: the rows of a load from the flat space, each translated and checked (log 36, DEDUCED). -/
def flatRows (s : State) (core ctx n : Nat) (as : List Nat) : List (Except MemFault (List AByte)) := as.map (fun a => ownChecked s ctx a (checkFlat s (walkView s core ctx) ctx .load a n 0))

/-- R337: the faults of the rows (log 36, DEDUCED). -/
def rowFaults (l : List (Except MemFault (List AByte))) : List MemFault := l.filterMap (fun r => match r with | .error f => some f | .ok _ => none)

/-- The bytes of the rows. -/
def rowBytes (l : List (Except MemFault (List AByte))) : List (List AByte) := l.map (fun r => match r with | .ok bs => bs | .error _ => [])

/-- R245, R327, R331: the number a row of flat bytes holds; bytes of the peer or host window are those that it has sent. -/
def flatRow (s : State) (die : Nat) (m : MxOp) (r : Nat) (bs : List AByte) : Nat :=
  leNat (bs.zipIdx.map (fun b => if b.1.at_.isAway then tblGet 0 m.peer (256 * r + b.2) else (engByte s die b.1 0).1))

/-- The runs of peer bytes of the rows: the place of the first, its address, the length. -/
def rowRuns (l : List (List AByte)) : List (Nat × Nat × Nat) := (l.zipIdx.map (fun x => (peerRuns x.1 0).map (fun r => (256 * x.2 + r.1, r.2.1, r.2.2)))).flatten

/-- The sources of `mbld` and `jld`, with the bytes of each. -/
def loadAddrs (m : MxOp) : List Nat × Nat := if m.k = 5 then ((List.range m.rank).map (jldAddr m), 256) else ((List.range 128).map (mbldAddr m), 32)

/-- The piece a matrix instruction writes. -/
def MxOp.target (m : MxOp) : Nat := m.writes.headD 0

/-- A piece of a core written by a work; rows that are not given keep what they hold, which is free where other work left it (log 35, DEDUCED). -/
def setPiece (s : State) (core work p : Nat) (l : List Nat) : State :=
  let old := mxFound s core work (free s) p
  modCore s core (fun c => { c with mx := { c.mx.setPiece p (l ++ old.drop l.length) with by_ := tblPut c.mx.by_ p work } })

/-- R329: a piece of a core cleared. -/
def clearPiece (s : State) (core work p : Nat) : State := modCore s core (fun c => { c with mx := { c.mx.setPiece p [] with by_ := tblPut c.mx.by_ p work } })

/-- R335: a matrix instruction that has had its effect: in a bundle its token waits for a second step, within the bound. -/
def mxDone (s : State) (k : Nat) (m : MxOp) : State :=
  if m.inp.isSome then modEng s k (fun o => { o with pay := .mx { m with landed := true } }) else engDone s k none

/-- R191, R192: a tile computed: written now, or in a bundle by the second step. -/
def mxTile (s : State) (core work k : Nat) (m : MxOp) (l : List Nat) : State :=
  if m.inp.isSome then modEng s k (fun o => { o with pay := .mx { m with landed := true, res := some l } }) else mxDone (setPiece s core work m.target l) k m

/-- R416: the scratchpad an engine read, seen at its target. -/
def spansSeen (s : State) (o : EngOp) (v : Wave) (l : List (Nat × Nat)) : State :=
  l.foldl (fun t x => matchAccess t { ctx := o.ctx, core := v.core, init := 65, kind := 0, places := (spadPlaces s v x.1 x.2).getD [] }) s

/-- R304: the engine that a failed `mbld` or `jld` names. -/
def MxOp.engine (m : MxOp) : Nat := if m.k = 5 then 2 else 1

/-- R337: a `mbld` or `jld` fails, and its target is unspecified. -/
def loadFailed (s : State) (k core work : Nat) (m : MxOp) (f : Word × Word) : State := engFail (setPiece s core work m.target (freePiece (free s) m.target)) k f

/-- R303, R337: an engine instruction fails with what it has met. -/
def opFailed (s : State) (k : Nat) (o : EngOp) (f : Word × Word) : State :=
  match o.pay, waveAt s o.wave with
  | .mx m, some v => loadFailed s k (physCore s v.core) v.work m f
  | _, _ => engFail s k f

/-- R245, R327, R331: the bytes of the peer window that a `mbld` or `jld` reads are asked for. -/
def loadAsk (s : State) (k : Nat) (o : EngOp) (v : Wave) (m : MxOp) (runs : List (Nat × Nat × Nat)) : State :=
  let s1 := runs.foldl (fun t r => sendFrame t 1 o.ctx (peerRank r.2.1) (peerOff r.2.1) v.core [] { size := r.2.2 } (.eng k r.1 r.2.2)) s
  modEng s1 k (fun o => { o with pay := .mx { m with asked := true, wait := runs.map (·.1) } })

/-- R327, R331, R337: `mbld` or `jld` completes, stalls in a gap or fails with the lowest of its faults; a failure leaves the target unspecified. -/
def loadEffect (s : State) (k : Nat) (o : EngOp) (v : Wave) (m : MxOp) : State :=
  let core := physCore s v.core
  let (as, n) := loadAddrs m
  if bitAt m.ctl 2 then
    let rows := flatRows s core o.ctx n as
    match rowFaults rows with
    | f :: r =>
      if f.isGap then engGap s k o v.core 65 .load f (faultWords m.engine (lowestFault f r) .load)
      else loadFailed s k core v.work m (faultWords m.engine (lowestFault f r) .load)
    | [] =>
      let l := rowBytes rows
      if !m.asked && !(rowRuns l).isEmpty then loadAsk s k o v m (rowRuns l)
      else
        let s1 := l.foldl (fun t bs => engSeen (engFill t (dieOf v.core) bs) o.ctx v.core 65 0 (bs.map (·.at_))) (as.foldl (fun t a => walkServed t core o.ctx a 0) s)
        mxTile s1 core v.work k m (l.zipIdx.map (fun x => flatRow s (dieOf v.core) m x.2 x.1))
  else mxTile (spansSeen s o v (as.map (fun a => (a, n)))) core v.work k m (loadRows s v m n as)

/-- What a matrix instruction reads of the matrix state when it has its effect: in a bundle what it read at issue, but for the accumulator of an `mma`. -/
def mxInputs (s : State) (core work : Nat) (m : MxOp) : MxIn :=
  match m.inp with
  | some i => i
  | none =>
    let rd (lo hi : Nat) : List Nat := match m.reads.find? (fun p => decide (lo ≤ p) && decide (p < hi)) with
      | some p => mxRead s core work [] (free s) p
      | none => []
    { acc := rd 0 8, station := rd 8 16, stage := rd 16 24, proj := rd 24 32 }

/-- R327 to R334: the effect of a matrix instruction. -/
def mxEffect (s : State) (k : Nat) (o : EngOp) (v : Wave) (m : MxOp) : State :=
  let core := physCore s v.core
  let i := mxInputs s core v.work m
  match m.k with
  | 1 => mxDone (setPiece (spansSeen s o v (mmaSpans m)) core v.work m.target (mmaResult s v m (mxFound s core v.work (free s) m.target) i.station i.stage)) k m
  | 2 => mxDone (clearPiece s core v.work m.target) k m
  | 3 => mxDone (mstEffect s o v m i.acc) k m
  | 4 => mxTile (spansSeen s o v (mlatSpans m)) core v.work k m (mlatResult s v m i.proj)
  | _ => loadEffect s k o v m

/-- R328, R336: whether no earlier instruction still has to write the accumulator. -/
def mxTurn (s : State) (k : Nat) (o : EngOp) (m : MxOp) : Bool :=
  s.eng.all (fun e => !(decide (e.1 < k) && decide (e.2.core = o.core) && (match e.2.pay with
    | .mx x => !x.landed && decide (x.target < 8) && decide (x.k = 1 ∨ x.k = 2) && decide (m.target = x.target) && decide (m.k = 1 ∨ m.k = 2)
    | _ => false)))

/-- R303, R336: whether a stall holds a matrix instruction: in a bundle only a `jld` is held, by any earlier one. -/
def mxStalled (s : State) (k : Nat) (o : EngOp) (m : MxOp) : Bool :=
  if m.inp.isNone then stalled s k o else decide (m.k = 5) && s.eng.any (fun e => decide (e.1 < k) && decide (e.2.wave = o.wave) && e.2.gap.isSome)

/-- R245, R327: whether a load of the engine still waits for bytes of a peer, or for stores of its die to a line it reads. -/
def loadWaits (s : State) (o : EngOp) (v : Wave) (m : MxOp) : Bool :=
  (decide (m.k = 0 ∨ m.k = 5) && bitAt m.ctl 2)
    && (!m.wait.isEmpty || (rowBytes (flatRows s (physCore s v.core) o.ctx (loadAddrs m).2 (loadAddrs m).1)).any (fun l => l.any (missWaits s (dieOf v.core))))

/-- R336: whether a matrix instruction reads scratchpad. -/
def MxOp.spad (m : MxOp) : Bool := match m.k with | 0 | 5 => !(bitAt m.ctl 2) | 1 | 4 => true | _ => false

/-- R193, R336: the cycle in which the next step of a bundle's matrix instruction is due: its scratchpad is read within 16 cycles, its target written within its bound, which a `jld` has not. -/
def mxDue (o : EngOp) (m : MxOp) : Option Nat :=
  if m.landed then (if m.k = 5 then none else some m.due)
  else if m.spad then some (if m.k = 5 then o.issue + 16 else min m.due (o.issue + 16))
  else if m.k = 5 then none else some m.due

/-- MATRIX_COMPLETE: a matrix instruction that has begun has its effect and completes; one of a bundle first computes, then writes its target (R335 to R337). -/
def execMatrixComplete (k : Nat) (s : State) : Out :=
  match tblFind s.eng k with
  | some o =>
    match o.pay, waveAt s o.wave with
    | .mx m, some v =>
      if m.landed then nextOf s (settle (engDone (match m.res with | some l => setPiece s (physCore s v.core) v.work m.target l | none => s) k none))
      else if o.begun && o.fault.isNone && o.gap.isNone && !(mxStalled s k o m) && mxTurn s k o m && !(loadWaits s o v m) then nextOf s (settle (mxEffect s k o v m))
      else notEnabled
    | _, _ => notEnabled
  | none => notEnabled

/-- R307, R335: whether a matrix instruction may begin now: those it conflicts with have completed, and 32 cycles lie between two `mma`. -/
def mxMayBegin (s : State) (k : Nat) (o : EngOp) (m : MxOp) : Bool :=
  s.eng.all (fun e => !(decide (e.1 < k) && decide (e.2.core = o.core) && (match e.2.pay with | .mx x => x.conflicts m | _ => false)))
    && (decide (m.k ≠ 1) || match (coreAt s o.core).mx.lastMma with | some t => decide (t + 32 ≤ s.clock) | none => true)

end Sys2Proof.Machine
end

