-- ==== Sys2Proof/Machine/Places.lean ====
section
/-! DEFINITION. What a section and a core have room for, kernel headers, and new waves (R37 to R39, R116 to R122, R369, R376). -/

namespace Sys2Proof.Machine

/-- R38, R220, R447: where the bytes of a kernel header lie, read with X through a context's tables, or the fault of the read. -/
def headerBytes (s : State) (ctx va : Nat) : Except MemFault (List AByte) := ownChecked s ctx va (checkFlat s {} ctx .fetch va 8 (2 ^ 55))

/-- R478: whether a header lies in a window and has still to come from there. -/
def headerOpen (s : State) (ctx va : Nat) : Bool :=
  match headerBytes s ctx va with
  | .ok bs => winOpen s (.header ctx va) bs && (winReads s (.header ctx va)).all (fun r => r.bad.isNone)
  | .error _ => false

/-- R478: a step that needs a header that has still to come: it asks for it, once (log 113, DESIGN CHOICE). -/
def headerAsk (s : State) (ctx va : Nat) : Out :=
  match headerBytes s ctx va with
  | .ok bs => if (winReads s (.header ctx va)).isEmpty then nextOf s (winAsk s (.header ctx va) ctx 0 bs) else notEnabled
  | .error _ => notEnabled

/-- R38, R365, R368: the header word at an address, out of memory as `code` holds it, or as a window has answered, or the fault of the read. -/
def readHeader (s : State) (code : List Host.Cell) (ctx va : Nat) : Except MemFault Word :=
  match headerBytes s ctx va with
  | .error f => .error f
  | .ok bs =>
    if (winReads s (.header ctx va)).any (fun r => r.bad.isSome) then .error { cause := .protection, addr := va, reason := 0 }
    else .ok (BitVec.ofNat 64 (leNat (bs.map (fun b => match b.at_ with
      | .dev pa => homeByte { s with mem := code } b.attr.key pa 0
      | .peer pa | .host pa => (winByte s (.header ctx va) pa).getD 0
      | p => spadByte s p))))

/-- R37: the fields of the header word at address h. -/
def kernelOf (h w : Word) : Kernel :=
  let x := w.toNat
  { h := h, major := bits x 60 4, minor := bits x 56 4, w16 := bitAt x 55, vregs := bits x 50 5, spad := 256 * bits x 38 12, conv := bitAt x 37, mtx := bitAt x 36, rsv := bits x 32 4, codeLen := bits x 0 32 }

/-- R38, R461: a kernel the dispatcher refuses. -/
def kernelBad (k : Kernel) : Bool :=
  decide (k.major ≠ 2 ∧ k.major ≠ 3) || (decide (k.major = 3) && decide (1 < k.minor)) || (decide (k.major = 2) && !k.w16) || decide (2048 * 256 < k.spad)
    || (k.conv && k.w16) || decide (k.rsv ≠ 0) || decide (k.codeLen = 0)

/-- The waves in a section of a physical core. -/
def sectWaves (s : State) (p k : Nat) : List Wave := (tblVals s.waves).filter (fun v => decide (physCore s v.core = p) && decide (v.sect = k))

/-- R371: the cards that hold a place in a section and have not started. -/
def sectCards (s : State) (p k : Nat) : List Card :=
  (tblVals s.cards).filter (fun c => c.wave.isNone && decide (c.core.map (physCore s) = some p) && decide (c.sect = k))

/-- R376: whether a context's table reserves a section for class 0. -/
def classZero (s : State) (core k : Nat) : Bool := s.ctxs.any (fun c => decide ((core, k) ∈ c.2.t.class0))

/-- R355, R376: how many of the n responder places of a context on a core lie in a section: place i lies in the i-th section, in turn, of those not reserved for class 0 (log 37, DESIGN CHOICE). -/
def respShare (s : State) (core k n : Nat) : Nat :=
  let ks := (List.range 4).filter (fun j => !(classZero s core j))
  ((List.range n).filter (fun i => decide (ks[i % ks.length]? = some k))).length

/-- R355: the responder reservations that touch a section: context, places, registers (log 37, DESIGN CHOICE). -/
def sectReserve (s : State) (core k : Nat) : List (Nat × Nat × Nat) :=
  s.ctxs.filterMap (fun c => match respReserve s c.1 core with
    | some (n, regs) => if respShare s core k n = 0 then none else some (c.1, respShare s core k n, regs)
    | none => none)

/-- R117, R118, R364, R375, R376: whether a section of a logical core takes one more wave of a context beside `n` planned ones; `excl` for a place that no other wave may share, `who` the launch that asks, whose own taken places (R375) count for it (log 39, DEDUCED). -/
def sectFits (s : State) (ctx core k regs n cls : Nat) (excl : Bool) (who : Option Nat) : Bool :=
  let p := physCore s core
  let ws := (sectWaves s p k).filter (fun v => !v.isResponder)
  let rw := (sectWaves s p k).filter (·.isResponder)
  let cs := sectCards s p k
  let rs := sectReserve s core k
  let ts := (takenNow s).filter (fun t => decide (t.core = p) && decide (t.sect = k) && decide (some t.ord ≠ who))
  (sectWaves s p k).all (fun v => decide (v.ctx = ctx)) && cs.all (fun c => decide (c.ctx = ctx)) && rs.all (fun r => decide (r.1 = ctx)) && ts.all (fun t => decide (t.ctx = ctx))
    && !(ws.any (·.conv)) && (!excl || (ws.isEmpty && rw.isEmpty && cs.isEmpty && rs.isEmpty && ts.isEmpty && decide (n = 0)))
    && decide (ws.length + cs.length + ts.length + max rw.length (rs.map (·.2.1)).sum + n + 1 ≤ 16)
    && decide ((ws.map (·.kernel.alloc)).sum + (cs.map (·.kernel.alloc)).sum + (ts.map (·.regs)).sum + max (rw.map (·.kernel.alloc)).sum (rs.map (fun r => r.2.1 * r.2.2)).sum + (n + 1) * regs ≤ 2048)
    && s.ctxs.all (fun c => !(decide ((core, k) ∈ c.2.t.class0)) || (decide (c.1 = ctx) && decide (cls = 0)))

/-- R116 to R118, R375, R376: whether a section takes a responder of a context with `regs` registers per lane: a section in SIMT mode of waves of that context, with room for it, that no context reserves for class 0 (log 37, DESIGN CHOICE). -/
def respFits (s : State) (ctx core k regs : Nat) : Bool :=
  let p := physCore s core
  let ws := sectWaves s p k
  let cs := sectCards s p k
  let ts := (takenNow s).filter (fun t => decide (t.core = p) && decide (t.sect = k))
  ws.all (fun v => decide (v.ctx = ctx) && !v.conv && decide (v.phase = .simt)) && cs.all (fun c => decide (c.ctx = ctx)) && ts.all (fun t => decide (t.ctx = ctx)) && !(classZero s core k)
    && decide (ws.length + cs.length + ts.length + 1 ≤ 16) && decide ((ws.map (·.kernel.alloc)).sum + (cs.map (·.kernel.alloc)).sum + (ts.map (·.regs)).sum + regs ≤ 2048)

/-- The lowest free places of a section, by their numbers on the core (log 37, DESIGN CHOICE). -/
def freePlaces (s : State) (p k : Nat) : List Nat :=
  ((List.range 16).map (fun i => 16 * k + i)).filter (fun q => !((sectWaves s p k).any (fun v => decide (v.place = q))) && !((sectCards s p k).any (fun c => decide (c.place = q))))

/-- R121, R339, R371: what the scratchpad array of a logical core already holds: base and size; a card that has chosen the core holds its own. -/
def spadHeld (s : State) (core : Nat) : List (Nat × Nat) :=
  (s.cards.filterMap (fun c => if c.2.core = some core ∧ c.2.wave = none then some (c.2.base, c.2.kernel.spad) else none)) ++ (s.cohorts.filterMap (fun c => (tblFind c.2.spad core).map (fun a => (a.base, a.size)))) ++ ((coreAt s (physCore s core)).tiles.map (fun t => (t.2.base, t.2.size)))

/-- A base that leaves room for `size` bytes in the array, if there is one (log 37, DESIGN CHOICE). -/
def spadBase (held : List (Nat × Nat)) (size : Nat) : Option Nat :=
  (0 :: held.map (fun h => ceilDiv (h.1 + h.2) 256 * 256)).find? (fun b => decide (b + size ≤ 524288) && held.all (fun h => decide (b + size ≤ h.1) || decide (h.1 + h.2 ≤ b) || decide (h.2 = 0)))

/-- R414, R419: whether a core lies in the stop group of an event. -/
def Fog.covers (f : Fog) (core : Nat) : Bool :=
  match f.group with
  | 0 => decide (quadOf core = quadOf f.core)
  | 1 => decide (dieOf core = dieOf f.core)
  | _ => true

/-- R419: whether a stop keeps a context's new work off a core: one that has reached it, or the whole group. -/
def stopOn (s : State) (ctx core : Nat) : Bool :=
  s.stops.any (fun f => decide (f.ctx = ctx) && f.covers core) || s.fogs.any (fun f => decide (f.ctx = ctx) && decide (core ∈ f.reached))

/-- R363, R369: whether a cohort holds a quad alone. -/
def quadHeld (s : State) (q : Nat) : Bool := s.cohorts.any (fun c => c.2.qlock && decide (c.2.quad = q))

/-- R394, R419, R479: whether the dispatchers may place work of a context on a core. -/
def mayPlace (s : State) (ctx core : Nat) : Bool := !(stopOn s ctx core) && (ctxAt s ctx).faulted.isNone && (tblFind s.ctxs ctx).isSome && !s.heat.tripped

/-- R122, R464: the sub-waves a wave starts with. -/
def startSubs (w16 : Bool) (pc : Word) (m : Lane32) : Tbl Sub :=
  if w16 then
    (if m &&& 0xFFFF = 0 then [] else [(rootSub, { pc := pc, mask := m &&& 0xFFFF })]) ++ (if m &&& 0xFFFF0000 = 0 then [] else [(rootSub1, { pc := pc, mask := m &&& 0xFFFF0000 })])
  else [(rootSub, { pc := pc, mask := m })]

/-- R39, R119: a wave as it starts, at H + 8, its scalars as given. -/
def startWave (s : State) (ctx core sect place : Nat) (k : Kernel) (code : List Host.Cell) (m : Lane32) (scalars : List Word) (frame : Nat) : Wave :=
  let t := (ctxAt s ctx).t
  { ctx := ctx, core := core, sect := sect, place := place, started := s.clock, kernel := k, code := code, frame := frame,
    s := (scalars.zipIdx).foldl (fun r x => tblSet 0 r x.2 x.1) [], ctxbase := if frame = 0 then 0 else BitVec.ofNat 64 (frameHandler frame), wdlimit := BitVec.ofNat 64 t.wdlimit, tvec := t.tvec,
    rootMask := m, subs := startSubs k.w16 (k.h + 8) m }

/-- R368: the code that a context's waves which start on a die run: what the last launch to place its first cohort there made seen (log 38, DEDUCED). -/
def cardCode (s : State) (ctx die : Nat) : List Host.Cell := ((tblFind (ctxAt s ctx).code die).map (·.2)).getD s.mem

/-- R368: the memory in which the header of a context's card is read: the latest that a launch made seen on a die (log 38, DEDUCED). -/
def headerCode (s : State) (ctx : Nat) : List Host.Cell :=
  (((tblVals (ctxAt s ctx).code).foldl (fun r c => match r with | none => some c | some b => if b.1 < c.1 then some c else some b) none).map (·.2)).getD s.mem

/-- R319, R335: the matrix state of a core about to serve a context, for its work `own`; the engine's rate goes on (log 35, DEDUCED). -/
def mtxServe (s : State) (p ctx own : Nat) : State :=
  if (coreAt s p).mx.ctx = some ctx then s else modCore s p (fun c => { c with mx := { ctx := some ctx, own := own, lastMma := c.mx.lastMma } })

/-- R319: whether no wave of another context with MTX is resident on a core, where a kernel needs that. -/
def mtxFree (s : State) (k : Kernel) (ctx core : Nat) : Bool :=
  !(k.mtx && s.waves.any (fun x => decide (physCore s x.2.core = physCore s core) && x.2.kernel.mtx && decide (x.2.ctx ≠ ctx)))

/-- A wave given its place. -/
def addWave (s : State) (v : Wave) : State :=
  let s1 := { s with waves := tblPut s.waves s.nextWave v, nextWave := s.nextWave + 1 }
  if v.kernel.mtx then mtxServe s1 (physCore s v.core) v.ctx v.work else s1

end Sys2Proof.Machine
end

