-- ==== Sys2Proof/Machine/Tiles.lean ====
section
/-! DEFINITION. Tile areas, the keyring and tile moves: `treg`, `tdrop`, `tfind`, `tmove` and the steps of a move (R339 to R348, R353, R354, R444). -/

namespace Sys2Proof.Machine

/-- R347: whether stamp a is at least b, compared modulo 2³² (R311). -/
def stampGe (a b : Nat) : Bool := decide ((a + 2 ^ 32 - b % 2 ^ 32) % 2 ^ 32 < 2 ^ 31)

/-- A keyring entry of a physical core. -/
def keyAt (s : State) (p i : Nat) : Option KeyEntry := tblFind (coreAt s p).keyring i

/-- A keyring entry changed. -/
def modKey (s : State) (p i : Nat) (f : KeyEntry → KeyEntry) : State := modCore s p (fun c => { c with keyring := tblMod c.keyring i f })

/-- R340: the bytes of an entry as a range of the tile area. -/
def KeyEntry.range (k : KeyEntry) : Nat × Nat := (256 * k.off, 256 * (k.len + 1))

/-- R343: the tile descriptor of an entry of a logical core. -/
def KeyEntry.desc (k : KeyEntry) (core : Nat) : Word := BitVec.ofNat 64 ((k.len + 1) * 2 ^ 32 + 2 ^ 21 + core % 4 * 2 ^ 19 + 256 * k.off)

/-- R340: the live entries of a context on a core, migration entries apart. -/
def liveKeys (s : State) (p ctx : Nat) : List (Nat × KeyEntry) := (coreAt s p).keyring.filter (fun e => decide (e.2.ctx = ctx) && e.2.mig.isNone)

/-- Whether two ranges of bytes share one. -/
def rangesMeet (a b : Nat × Nat) : Bool := decide (a.1 < b.1 + b.2) && decide (b.1 < a.1 + a.2)

/-- R340, R347: whether a range overlaps a live entry of the context on a core. -/
def keyOverlap (s : State) (p ctx : Nat) (r : Nat × Nat) : Bool := (liveKeys s p ctx).any (fun e => rangesMeet e.2.range r)

/-- R340, R343: whether the keyring has no room for one more entry of a context. -/
def keyFull (s : State) (p ctx : Nat) : Bool := decide ((freeKeys (coreAt s p)).length = 0) || decide ((ctxAt s ctx).t.ctxKeyring ≤ (liveKeys s p ctx).length)

/-- R343: the registration of a tile at its point in the core's order, with its result. -/
def regTile (s : State) (p ctx owner : Nat) (key : Word) (off len : Nat) : State × Nat :=
  if keyFull s p ctx then (s, 256)
  else if keyOverlap s p ctx (256 * off, 256 * (len + 1)) then (s, 257)
  else
    let i := (freeKeys (coreAt s p)).headD 0
    (modCore s p (fun c => { c with keyring := tblPut c.keyring i { key := key, len := len, off := off, owner := owner, ctx := ctx } }), i)

/-- R340: OWNER of a wave. -/
def ownerOf (v : Wave) : Nat := if v.isResponder then 0xFFFFFFFF else v.launchId % 2 ^ 16 * 2 ^ 16 + v.cohortIdx % 2 ^ 16

/-- R343: whether a tile descriptor is one `treg` takes on a core. -/
def tregOk (core d : Nat) : Bool :=
  decide (bits d 22 10 = 0) && decide (bits d 48 16 = 0) && decide (1 ≤ bits d 32 16) && decide (bits d 32 16 ≤ 256)
    && bitAt d 21 && decide (bits d 0 8 = 0) && decide (bits d 19 2 = core % 4)

/-- R339: the size of a context's tile area on a physical core. -/
def areaSize (s : State) (p ctx : Nat) : Option Nat := (tblFind (coreAt s p).tiles ctx).map (·.size)

/-- R339: whether a range lies in the tile area of a context on a core. -/
def inArea (s : State) (p ctx : Nat) (r : Nat × Nat) : Bool := match areaSize s p ctx with | some n => decide (r.1 + r.2 ≤ n) | none => false

/-- R343: whether every store of a wave before an access number and a cycle, those of a bundle still landing among them, is performed at package scope. -/
def Wave.relPackage (v : Wave) (mark issue : Nat) : Bool := storesAt (v.accs.filter (fun a => decide (a.id < mark))) 2 && v.landedBefore issue

/-- An engine instruction without tokens that a bundle leaves behind (log 49, DEDUCED). -/
def engBare (e : Env) (s : State) (pay : EPay) (res : List Dst) : State :=
  modWave (engIssue e s {} pay) e.w (fun v => { v with owed := v.owed ++ res })

/-- R343: the registration; PROTECTION for a tile byte that is not reachable has KIND load, as `treg` reads no byte and writes none (log 116, DESIGN CHOICE); it waits until the wave's earlier stores are performed at package scope (log 49, DEDUCED). -/
def bodyTreg (f : EN) (e : Env) (s : State) : Res :=
  let d := (e.rdS f.c).toNat
  if !(tregOk e.v.core d) then .trap s (e.illegal 10)
  else if !(inArea s e.core e.v.ctx (bits d 0 19, 256 * bits d 32 16)) then .trap s ({ cause := .protection, addr := bits d 0 22, reason := 2 : MemFault }.trap .load 0)
  else if e.v.relPackage e.v.nextAcc e.now then
    let r := regTile s e.core e.v.ctx (ownerOf e.v) (e.rdS f.b) (bits d 8 11) (bits d 32 16 - 1)
    .done r.1 { wr := e.wrS f.a (BitVec.ofNat 64 r.2) }
  else if e.slot.isSome then .done (engBare e s (.reg (e.rdS f.b) (bits d 8 11) (bits d 32 16 - 1) (e.dstS f.a)) (e.dstS f.a)) {}
  else .hold s
/-- `treg` (R343). -/
def execTreg (f : EN) (s : State) : Out := issue (.treg f) (bodyTreg f) s

/-- R344: whether a responder is pending or running for an entry; one of an entry that has become FREE is for no entry. -/
def keyBusy (s : State) (p i : Nat) : Bool := (coreAt s p).matches_.any (fun m => decide (m.entry = i) && !m.gone)

/-- R344, R444: the result of a `tdrop` form on an entry, and the entry after it; none where it becomes FREE. -/
def dropKey (form : Nat) (busy : Bool) (k : Option KeyEntry) : Nat × Option KeyEntry :=
  match k with
  | none => (1, none)
  | some e =>
    if e.mig.isSome then (if form = 0 then 4 else 0, some e)
    else match e.st, form with
      | .lent, _ | .arriving, _ => (2, some e)
      | .pinned, 0 => (4, some e)
      | .resident, 0 => if busy then (3, some e) else (0, none)
      | _, 1 => (0, some { e with st := .pinned })
      | _, _ => (0, some { e with st := .resident })

/-- R344: the drop, pin or unpin. -/
def bodyTdrop (f : EN) (e : Env) (s : State) : Res :=
  let i := (e.rdS f.b).toNat
  if 255 < i then .trap s (e.illegal 10)
  else
    let k := match keyAt s e.core i with | some x => if x.ctx = e.v.ctx then some x else none | none => none
    let r := dropKey f.c (keyBusy s e.core i) k
    let s1 := if k.isSome then modCore s e.core (fun c => { c with keyring := match r.2 with | some x => tblPut c.keyring i x | none => tblErase c.keyring i }) else s
    .done s1 { wr := e.wrS f.a (BitVec.ofNat 64 r.1) }
/-- `tdrop` (R344). -/
def execTdrop (f : EN) (s : State) : Out := issue (.tdrop f) (bodyTdrop f) s

/-- R345: whether an entry's key matches under a mask. -/
def KeyEntry.matchesKey (k : KeyEntry) (key mask : Word) : Bool := decide ((k.key ^^^ key) &&& mask = 0)

/-- R340: RESIDENT or PINNED. -/
def KeyEntry.held (k : KeyEntry) : Bool := decide (k.st = .resident ∨ k.st = .pinned)

/-- R345: the search of the core's keyring. -/
def bodyTfind (f : EN) (e : Env) (s : State) : Res :=
  let r := match (liveKeys s e.core e.v.ctx).find? (fun k => k.2.held && k.2.matchesKey (e.rdS f.b) (e.rdS f.c)) with
    | some k => (BitVec.ofNat 64 k.1, k.2.desc e.v.core)
    | none => (256, 0)
  .done s { wr := e.wrS f.a r.1 ++ e.wrS (f.a + 1) r.2 }
/-- `tfind` (R345). -/
def execTfind (f : EN) (s : State) : Out := issue (.tfind f) (bodyTfind f) s

/-- R346: the move as it issues. -/
def bodyTmove (f : EN) (e : Env) (s : State) : Res :=
  let i := (e.rdS f.b).toNat
  let d := (e.rdS f.c).toNat
  let dst := bits d 20 9
  if bits d 19 1 ≠ 0 ∨ bits d 29 35 ≠ 0 ∨ bits d 0 8 ≠ 0 ∨ 255 < i ∨ 319 < dst ∨ dst = e.v.core then .trap s (e.illegal 10)
  else if e.slot.isSome ∧ f.a < 96 then .trap s (e.illegal 10)
  else
    let res := e.dstS f.a
    match engForm e s f (.move { entry := i, dst := dst, off := bits d 0 19, res := res }) with
    | .done s1 eff => .done (modWave s1 e.w (fun v => { v with owed := v.owed ++ res })) eff
    | r => r
/-- `tmove` (R346). -/
def execTmove (f : EN) (s : State) : Out := issue (.tmove f) (bodyTmove f) s

/-- A scalar result of an engine instruction lands. -/
def landOwed (s : State) (w : Nat) (res : List Dst) (x : Nat) : State :=
  modWave (landAll s w (res.map (fun d => ⟨d, x⟩))) w (fun v => { v with owed := v.owed.filter (fun d => !(decide (d ∈ res))) })

/-- R371: a card whose move of tile n has ended with a result: it looks for the tile again, or is dropped with reason 3. -/
def cardMoved (s : State) (c n r : Nat) : State :=
  match tblFind s.cards c with
  | none => s
  | some k =>
    if r = 0 ∨ r = 1 then { s with cards := tblPut s.cards c { k with moving := k.moving.filter (· ≠ n) } }
    else cardFreed (tellHost { s with cards := tblErase s.cards c } (.card k.stream 3 0)) k

/-- R347, R348: a move ends with a result: it is written, and the token completes. -/
def moveEnd (s : State) (k : Nat) (o : EngOp) (m : MoveSt) (r : Nat) (fault : Option (Word × Word)) : State :=
  let s1 := match m.card with
    | some c => cardMoved s (c / 8) (c % 8) r
    | none => landOwed s o.wave m.res r
  engDone s1 k fault

/-- The payload of a move changed. -/
def setMove (s : State) (k : Nat) (m : MoveSt) : State := modEng s k (fun o => { o with pay := .move m })

/-- R303: a move under way at a step, by its number; an earlier engine instruction of its agent that waits in a gap holds it. -/
def moveAt (s : State) (k step : Nat) : Option (EngOp × MoveSt) :=
  match tblFind s.eng k with
  | some o => match o.pay with | .move m => if o.begun ∧ m.step = step ∧ stalled s k o = false then some (o, m) else none | _ => none
  | none => none

/-- R347 step 1, R444: a move begins at its source. -/
def moveBegin (s : State) (k : Nat) (o : EngOp) (m : MoveSt) : State :=
  match keyAt s o.core m.entry with
  | some e =>
    if e.st ≠ .resident ∨ e.ctx ≠ o.ctx then moveEnd s k o m 1 none
    else if e.mig.isSome ∧ m.off ≠ 0 then moveEnd s k o m 3 none
    else modEng (modKey s o.core m.entry (fun x => { x with st := .lent, peer := m.dst })) k (fun o => { o with begun := true, pay := .move { m with step := 1 } })
  | none => moveEnd s k o m 1 none

/-- R347 step 2, R444: what the destination answers to a reservation; 0 where it accepts. -/
def reserveCode (s : State) (o : EngOp) (m : MoveSt) (e : KeyEntry) : Nat :=
  let p := physCore s m.dst
  match e.mig with
  | some a => if !(idleButKeys s m.dst && (coreAt s p).keyring.all (fun x => decide (x.2.mig = some a))) then 4 else if (freeKeys (coreAt s p)).length = 0 then 2 else 0
  | none =>
    if (areaSize s p o.ctx).isNone then 4
    else if keyFull s p o.ctx then 2
    else if !(inArea s p o.ctx (m.off, 256 * (e.len + 1))) || keyOverlap s p o.ctx (m.off, 256 * (e.len + 1)) then 3
    else 0

/-- TMOVE_RESERVATION: step 2 of R347 at the destination. -/
def execTmoveReservation (k : Nat) (s : State) : Out :=
  match moveAt s k 1 with
  | some (o, m) =>
    match keyAt s o.core m.entry with
    | some e =>
      let p := physCore s m.dst
      let r := reserveCode s o m e
      if r ≠ 0 then nextOf s (setMove s k { m with step := 2, refuse := r })
      else
        let i := (freeKeys (coreAt s p)).headD 0
        let ne : KeyEntry := { key := e.key, st := .arriving, peer := logicalOf s o.core, len := e.len, off := if e.mig.isSome then e.off else m.off / 256, owner := if e.mig.isSome then 0xFFFFFFFE else 0xFFFFFFFF, ctx := e.ctx, mig := e.mig }
        nextOf s (setMove (modCore s p (fun c => { c with keyring := tblPut c.keyring i ne })) k { m with step := 2, dentry := i, d := (coreAt s p).hiStamp })
    | none => nextOf s (moveEnd s k o m 1 none)
  | none => notEnabled

/-- The source's entry after a move that did not take place. -/
def KeyEntry.unlent (e : KeyEntry) : KeyEntry := { e with st := .resident, peer := 0, stamp := 0, handed := false }

/-- TMOVE_REPLY: step 3 of R347 at the source. -/
def execTmoveReply (k : Nat) (s : State) : Out :=
  match moveAt s k 2 with
  | some (o, m) =>
    if m.refuse ≠ 0 then nextOf s (settle (moveEnd (modKey s o.core m.entry (·.unlent)) k o m m.refuse none))
    else
      let hi := (coreAt s o.core).hiStamp
      if stampGe hi m.d then nextOf s (setMove (modKey s o.core m.entry (fun e => { e with stamp := hi, handed := true })) k { m with step := 3, stamp := hi })
      else notEnabled
  | none => notEnabled

/-- R354: the deferrals of an entry of a core. -/
def defersOf (s : State) (p i : Nat) : List Defer := (coreAt s p).defers.filter (fun d => decide (d.entry = i))

/-- TMOVE_HANDOFF: step 4 of R347 at the destination: deferrals up to S are released. -/
def execTmoveHandoff (k : Nat) (s : State) : Out :=
  match moveAt s k 3 with
  | some (_, m) =>
    let p := physCore s m.dst
    match keyAt s p m.dentry with
    | some e =>
      let s1 := modKey s p m.dentry (fun e => { e with stamp := m.stamp, upTo := if stampGe (coreAt s p).hiStamp m.stamp then none else some m.stamp })
      let s2 := modCore s1 p (fun c => { c with defers := c.defers.filter (fun d => !(decide (d.entry = m.dentry) && stampGe m.stamp d.so.stamp)) })
      nextOf s (setMove s2 k { m with step := 4, left := List.range (4 * (e.len + 1)) })
    | none => notEnabled
  | none => notEnabled

/-- R347: the place of byte b of a tile. -/
def tilePlace (p ctx : Nat) (off b : Nat) : Place := .tile p ctx (off + b)

/-- The places of a chunk of an entry. -/
def chunkPlaces (p ctx off c : Nat) : List Place := (List.range 64).map (fun b => tilePlace p ctx off (64 * c + b))

/-- R347, R444: the places of a chunk of the source's entry. -/
def chunkFrom (s : State) (o : EngOp) (e : KeyEntry) (c : Nat) : List Place :=
  match e.mig with
  | some (co, k) => pieceChunk s co k e.off c
  | none => chunkPlaces o.core o.ctx (256 * e.off) c

/-- R348: the chunks of a move that hold poison. -/
def badChunks (s : State) (o : EngOp) (m : MoveSt) (e : KeyEntry) : List Nat := m.left.filter (fun c => (chunkFrom s o e c).any (spadPoisoned s))

/-- R347, R445: a chunk copied to the destination: the bytes of a tile, or a line of a piece, which is served there from now on. -/
def chunkCopied (s : State) (o : EngOp) (m : MoveSt) (e : KeyEntry) (c : Nat) : State × List Place :=
  let src := chunkFrom s o e c
  match e.mig with
  | some (co, k) => (pieceMoved s co k e.off c (physCore s m.dst), src)
  | none => let dst := chunkPlaces (physCore s m.dst) o.ctx m.off c; ((src.zip dst).foldl (fun t x => spadStore t x.2 (spadByte s x.1)) s, dst)

/-- TMOVE_COPY: step 5 of R347: one chunk, freely chosen, read in one access and written (log 50, DESIGN CHOICE). -/
def execTmoveCopy (k : Nat) (s : State) : Out :=
  match moveAt s k 4 with
  | some (o, m) =>
    match keyAt s o.core m.entry with
    | some e =>
      let ok := m.left.filter (fun c => !(decide (c ∈ badChunks s o m e)))
      if keyBusy s o.core m.entry then notEnabled
      else if m.left.isEmpty then nextOf s (setMove s k { m with step := 5 })
      else match ok[free s 0 % ok.length]? with
        | none => notEnabled
        | some c =>
          let r := chunkCopied (matchAccess s { ctx := o.ctx, core := logicalOf s o.core, init := 66, kind := 0, places := chunkFrom s o e c }) o m e c
          let s3 := matchAccess r.1 { ctx := o.ctx, core := logicalOf s o.core, init := 66, kind := 1, places := r.2 }
          let left := m.left.filter (· ≠ c)
          nextOf s (settle (setMove s3 k { m with left := left, step := if left.isEmpty then 5 else 4 }))
    | none => notEnabled
  | none => notEnabled

/-- R349, R352: whether a logical core lies in the scope of a solicit. -/
def inScope (so : Solicit) (core : Nat) : Bool :=
  match so.scope with
  | 0 => decide (quadOf core = quadOf so.core)
  | 1 => decide (dieOf core = dieOf so.core)
  | _ => true

/-- R355: whether a match spawns before another: in order of acceptance, within one census in ascending entry index. -/
def Match.before (a b : Match) : Bool :=
  if a.so.stamp = b.so.stamp then decide (a.entry < b.entry) else stampGe b.so.stamp a.so.stamp

/-- R355: a match put in its place among those of a core. -/
def insertMatch (l : List Match) (m : Match) : List Match := l.takeWhile (fun x => !(m.before x)) ++ m :: l.dropWhile (fun x => !(m.before x))

/-- R347, R354, R355: the matches that deferrals of an entry become, in their places; they are answered in the answer of core `ans` (log 50, DESIGN CHOICE). -/
def deferMatches (l : List Match) (ds : List Defer) (entry ans : Nat) : List Match :=
  ds.foldl (fun t d => insertMatch t { so := d.so, entry := entry, ansCore := ans }) l

/-- TMOVE_ARRIVAL: step 6 of R347 at the destination: the tile is RESIDENT and the responders of its deferred solicits are queued. -/
def execTmoveArrival (k : Nat) (s : State) : Out :=
  match moveAt s k 5 with
  | some (_, m) =>
    let p := physCore s m.dst
    let ds := defersOf s p m.dentry
    let s1 := modKey s p m.dentry (·.unlent)
    nextOf s (setMove (modCore s1 p (fun c => { c with defers := c.defers.filter (fun d => decide (d.entry ≠ m.dentry)), matches_ := deferMatches c.matches_ ds m.dentry p })) k { m with step := 6 })
  | none => notEnabled

/-- TMOVE_COMPLETE: step 7 of R347 at the source. -/
def execTmoveComplete (k : Nat) (s : State) : Out :=
  match moveAt s k 6 with
  | some (o, m) => nextOf s (settle (moveEnd (modCore s o.core (fun c => { c with keyring := tblErase c.keyring m.entry })) k o m 0 none))
  | none => notEnabled

/-- R353, R354: whether an abort hands a deferral back to the source: neither released by the recorded stamp, nor answered by the source itself, which matched it before it recorded S or has not accepted it yet (log 50, DESIGN CHOICE). -/
def handsBack (s : State) (o : EngOp) (e : KeyEntry) (d : Defer) : Bool :=
  !(e.handed && stampGe e.stamp d.so.stamp) && !(inScope d.so (logicalOf s o.core) && (!e.handed || !(stampGe (coreAt s o.core).hiStamp d.so.stamp)))

/-- R353: the solicits, as deferrals, that the source of a handed move has accepted without a match, above its stamp, and the destination has not accepted yet: they too are the source's to answer where the move does not take place (log 50, DESIGN CHOICE). -/
def missedBy (s : State) (o : EngOp) (m : MoveSt) (e : KeyEntry) : List Defer :=
  let p := physCore s m.dst
  (((s.solicits.take (coreAt s o.core).seen).drop (coreAt s p).seen).filter (fun so =>
    e.handed && decide (so.ctx = e.ctx) && e.mig.isNone && !(stampGe e.stamp so.stamp) && e.matchesKey so.key so.mask && inScope so (logicalOf s p))).map (fun so => { so := so, entry := m.dentry })

/-- R353: whether the source of a move has itself matched a solicit that the destination defers: up to the stamp it has recorded, or accepted while it had recorded none. -/
def srcMatched (s : State) (o : EngOp) (e : KeyEntry) (d : Defer) : Bool :=
  inScope d.so (logicalOf s o.core) && stampGe (if e.handed then e.stamp else (coreAt s o.core).hiStamp) d.so.stamp

/-- R348, R353: a move aborted: the destination's deferrals that the source does not answer itself go back to it, both entries are as before the move (log 41, DEDUCED; log 50, DESIGN CHOICE). -/
def moveAbort (s : State) (o : EngOp) (m : MoveSt) (e : KeyEntry) : State :=
  let p := physCore s m.dst
  let ds := (defersOf s p m.dentry).filter (handsBack s o e) ++ missedBy s o m e
  let s0 := match e.mig with | some (co, k) => pieceBack s co k e.off e.len | none => s
  let s1 := modCore s0 p (fun c => { c with keyring := tblErase c.keyring m.dentry, defers := c.defers.filter (fun d => decide (d.entry ≠ m.dentry)) })
  modCore (modKey s1 o.core m.entry (·.unlent)) o.core (fun c => { c with matches_ := deferMatches c.matches_ ds m.entry p })

/-- TMOVE_ABORT: the copy of a move meets a poisoned chunk (R348). -/
def execTmoveAbort (k : Nat) (s : State) : Out :=
  match moveAt s k 4 with
  | some (o, m) =>
    match keyAt s o.core m.entry with
    | some e =>
      match badChunks s o m e with
      | c :: _ =>
        if keyBusy s o.core m.entry then notEnabled
        else nextOf s (settle (moveEnd (moveAbort s o m e) k o m 5 (some (BitVec.ofNat 64 (2 ^ 21 + logicalOf s o.core % 4 * 2 ^ 19 + 256 * e.off + 64 * c), engineInfo 3 { cause := .page, addr := 0, reason := 3 } .load))))
      | [] => notEnabled
    | none => notEnabled
  | none => notEnabled

/-- R340, R348: a move of a context ends because a tile area of a core is withdrawn: with result 6 where it is the destination's; where it is the source's, the tile is lost, its deferrals fault and the result is 1, unless it has arrived (log 41, DEDUCED). -/
def moveLost (p ctx : Nat) (s : State) (k : Nat) : State :=
  match tblFind s.eng k with
  | some o =>
    match o.pay with
    | .move m =>
      if !o.begun || decide (o.ctx ≠ ctx) then s
      else
        let d := physCore s m.dst
        let taken := decide (2 ≤ m.step) && decide (m.refuse = 0)
        if d = p ∧ taken = true then
          match keyAt s o.core m.entry with
          | some e => moveEnd (moveAbort s o m e) k o m 6 none
          | none => s
        else if o.core = p then
          let s1 := if taken && decide (m.step < 6) then
              let ds := match keyAt s o.core m.entry with | some e => (defersOf s d m.dentry).filter (fun x => !(srcMatched s o e x)) ++ missedBy s o m e | none => []
              let t := ds.foldl (fun t x => faultMatch t { so := x.so, entry := m.dentry, ansCore := d }) s
              modCore t d (fun c => { c with keyring := tblErase c.keyring m.dentry, defers := c.defers.filter (fun x => decide (x.entry ≠ m.dentry)) })
            else s
          moveEnd s1 k o m (if m.step = 6 then 0 else 1) none
        else s
    | _ => s
  | none => s

/-- R340: a context's tile area withdrawn from a core: the moves from and to it end, every entry of the context on the core becomes FREE, its queued matches fault; responders that run count as before (log 41, DEDUCED). -/
def withdrawArea (s0 : State) (p ctx : Nat) : State :=
  let s := (tblKeys s0.eng).foldl (moveLost p ctx) s0
  let gone := (coreAt s p).matches_.filter (fun m => decide (m.so.ctx = ctx) && m.wave.isNone)
  modCore (gone.foldl faultMatch s) p (fun c => { c with tiles := tblErase c.tiles ctx, keyring := c.keyring.filter (fun e => decide (e.2.ctx ≠ ctx)), matches_ := (c.matches_.filter (fun m => !(decide (m.so.ctx = ctx) && m.wave.isNone))).map (fun m => if m.so.ctx = ctx then { m with gone := true } else m) })

/-- TILE_AREA_WITHDRAW: system software withdraws a context's tile area from a logical core (R340). -/
def execTileAreaWithdraw (ctx core : Nat) (s : State) : Out :=
  let p := physCore s core
  if (areaSize s p ctx).isNone then notEnabled
  else nextOf s (settle (modCtx (withdrawArea s p ctx) ctx (fun c => { c with t := { c.t with tileAreas := c.t.tileAreas.filter (fun a => decide (a.1 ≠ core)) } })))

end Sys2Proof.Machine
end

