-- ==== Sys2Proof/Machine/Census.lean ====
section
/-! DEFINITION. Solicits, census slots, responders and the combining tree: `solicit`, `answer`, `cwait` and their events (R349 to R359). -/

namespace Sys2Proof.Machine

/-- R358: a census slot of a core becomes OPEN. -/
def openSlot (s : State) (p ctx n : Nat) (c : CSlot) : State := modCore s p (fun x => { x with slots := tblPut x.slots (16 * ctx + n) c })

/-- R350: the memory stage of a scope field. -/
def solicitStage (sc : Nat) : Nat := match sc with | 0 | 1 => 1 | 2 => 2 | _ => 3

/-- R349, R350: the solicit opens a census. -/
def bodySolicit (f : EN) (e : Env) (s : State) : Res :=
  let sc := bits f.c 4 2
  let hdr := e.rdS (f.b + 3)
  if hdr.toNat % 8 ≠ 0 ∨ canonical hdr.toNat = false ∨ (slotOf s e.core e.v.ctx f.a).any (fun c => !c.done) = true ∨ (sc = 3 ∧ (ctxAt s e.v.ctx).t.inDomain = false) then .trap s (e.illegal 10)
  else match failedTrap e.v with
    | some t => takeFailed s e.w t
    | none =>
      let c : Census := { so := { ctx := e.v.ctx, core := e.v.core, scope := sc, key := e.rdS f.b, mask := e.rdS (f.b + 1), arg := e.rdS (f.b + 2), hdr := hdr }, slot := f.a, comb := bits f.c 0 4, opener := some e.w, mark := e.v.nextAcc, issue := e.now, prior := slotOf s e.core e.v.ctx f.a, gated := inRegion e }
      let s1 := { s with censuses := s.censuses ++ [c] }
      .done (openSlot s1 e.core e.v.ctx f.a { cohort := e.v.cohort, scope := sc, wave := some e.w }) {}
/-- `solicit` (R349). -/
def execSolicit (f : EN) (s : State) : Out := issue (.solicit f) (bodySolicit f) s

/-- R356: the answer of a responder, which ends it (log 9, DEDUCED). -/
def bodyAnswer (f : EN) (e : Env) (s : State) : Res :=
  if !e.v.isResponder || !e.v.unsplit then .trap s (e.modeTrap 10)
  else match failedTrap e.v with
    | some t => takeFailed s e.w t
    | none => .done (modWave s e.w (fun v => { v.stopIssue s.clock with answer := some (e.rdS f.a) })) { go := .kept }
/-- `answer` (R356). -/
def execAnswer (f : EN) (s : State) : Out := issue (.answer f) (bodyAnswer f) s

/-- R359: the wait on a census slot. -/
def bodyCwait (f : EN) (e : Env) (s : State) : Res :=
  match slotOf s e.core e.v.ctx f.b with
  | none => .trap s (e.illegal 10)
  | some c =>
    if c.done then .done (dropL1 (modCore s e.core (fun x => { x with slots := tblErase x.slots (16 * e.v.ctx + f.b) })) e.core) { wr := e.wrS f.a c.value ++ e.wrS (f.a + 1) c.status, wdReset := true }
    else if e.slot.isSome then .hold s
    else .hold (modWave s e.w (fun v => v.modSub e.x (fun u => { u with hold := .cwait f.b })))
/-- `cwait` (R359). -/
def execCwait (f : EN) (s : State) : Out := issue (.cwait f) (bodyCwait f) s

/-- R350: whether every access before a solicit is performed at its scope. -/
def solicitClear (s : State) (c : Census) : Bool :=
  match c.opener.bind (waveAt s) with
  | none => true
  | some v =>
    let pre := v.accs.filter (fun a => decide (a.id < c.mark))
    loadsDone pre && storesAt pre (solicitStage c.so.scope) && v.landedBefore c.issue

/-- R250, R350: whether the stores the die had accepted when the release began are performed at package scope. -/
def solicitReleased (s : State) (c : Census) : Bool :=
  decide (c.so.scope < 2) || (match c.began with
    | none => false
    | some ids => (accepted s (dieOf c.so.core)).all (fun d => !(decide (d.id ∈ ids))))

/-- The census numbered k of the list changed. -/
def setCensus (s : State) (k : Nat) (c : Census) : State := { s with censuses := s.censuses.set k c }

/-- R351: the ranks of the peer domain other than the device's own. -/
def domainPeers (s : State) : List Nat := (tblKeys s.net.routes).filter (fun r => decide (some r ≠ s.net.rank))

/-- R351: the payload of a solicit frame; its layout is the model's (log 42). -/
def solicitBytes (c : Census) : List Byte :=
  leBytes 8 c.so.key.toNat ++ leBytes 8 c.so.mask.toNat ++ leBytes 8 c.so.arg.toNat ++ leBytes 8 c.so.hdr.toNat ++ leBytes 1 c.comb

/-- R351: the root stamps a census and delivers it; one of scope `.x` also goes to the peers. -/
def stampCensus (s : State) (k : Nat) (c : Census) : State :=
  let st := (s.lastStamp + 1) % 2 ^ 32
  let peers := if c.so.scope = 3 ∧ c.fromPeer = none then domainPeers s else []
  let c1 := { c with so := { c.so with stamp := st }, stamped := true, since := s.clock, peers := peers }
  let s1 := { setCensus s k c1 with lastStamp := st, solicits := s.solicits ++ [c1.so] }
  peers.foldl (fun t r => sendFrame t 6 c.so.ctx r st c.so.core (solicitBytes c) {} (.census st)) s1

/-- CENSUS_STAMP: the census numbered k leaves its core once its release has had effect, and the root stamps it (R350, R351). A release at package scope or wider begins in a step of its own. -/
def execCensusStamp (k : Nat) (s : State) : Out :=
  match s.censuses[k]? with
  | none => notEnabled
  | some c =>
    if c.stamped || c.gated || !(solicitClear s c) then notEnabled
    else if decide (2 ≤ c.so.scope) && c.began.isNone then nextOf s (setCensus s k { c with began := some ((accepted s (dieOf c.so.core)).map (·.id)) })
    else if solicitReleased s c then nextOf s (stampCensus s k c)
    else notEnabled

/-- R352, R353: what acceptance makes of each entry of the core; the source of a move that brought a tile has answered every solicit up to the handoff stamp (log 50, DESIGN CHOICE). -/
def acceptEntries (so : Solicit) (p : Nat) (l : List (Nat × KeyEntry)) : List Match × List Defer :=
  l.foldl (fun r e =>
    if !(e.2.matchesKey so.key so.mask) || e.2.upTo.any (fun x => stampGe x so.stamp) then r
    else match e.2.st with
      | .resident | .pinned => (r.1 ++ [{ so := so, entry := e.1, ansCore := p }], r.2)
      | .lent => if e.2.handed then r else (r.1 ++ [{ so := so, entry := e.1, ansCore := p }], r.2)
      | .arriving => (r.1, r.2 ++ [{ so := so, entry := e.1 }])) ([], [])

/-- R353: an entry once its core has accepted a stamp: the handoff stamp of its move no longer matters from there on. -/
def KeyEntry.accepts (e : KeyEntry) (stamp : Nat) : KeyEntry := { e with upTo := e.upTo.filter (fun x => !(stampGe stamp x)) }

/-- SOLICIT_ACCEPT: a physical core accepts the next stamped solicit (R352). -/
def execSolicitAccept (core : Nat) (s : State) : Out :=
  let c := coreAt s core
  match s.solicits[c.seen]? with
  | none => notEnabled
  | some so =>
    if 64 ≤ (c.matches_.filter (fun m => decide (m.so.ctx = so.ctx))).length ∨ 320 ≤ core then notEnabled
    else
      let r := if inScope so (logicalOf s core) then acceptEntries so core (liveKeys s core so.ctx) else ([], [])
      let s1 := modCore s core (fun x => { x with seen := x.seen + 1, hiStamp := so.stamp, keyring := x.keyring.map (fun e => (e.1, e.2.accepts so.stamp)), matches_ := x.matches_ ++ r.1, defers := x.defers ++ r.2 })
      nextOf s (if inScope so (logicalOf s core) then { s1 with censuses := s1.censuses.map (fun x => if x.stamped = true ∧ x.so.stamp = so.stamp then { x with accepted := x.accepted ++ [core] } else x) } else s1)

/-- R355: whether the header of a solicit makes its responders fault. -/
def respHeaderBad (k : Kernel) (regs : Nat) : Bool := kernelBad k || k.w16 || k.conv || k.mtx || decide (k.spad ≠ 0) || decide (regs < k.alloc)

/-- R116 to R118, R355: the section and place of the lowest free reserved place of a context on a logical core, of n with `regs` registers (log 37, DESIGN CHOICE). -/
def respPlace (s : State) (ctx core n regs : Nat) : Option (Nat × Nat) :=
  let p := physCore s core
  let free (k : Nat) : Bool := decide (((sectWaves s p k).filter (fun v => v.isResponder && decide (v.ctx = ctx))).length < respShare s core k n) && respFits s ctx core k regs
  match (List.range 4).find? free with
  | some k => ((freePlaces s p k).head?).map (fun q => (k, q))
  | none => none

/-- R355: the scalars a responder starts with. -/
def respScalars (s : State) (p : Nat) (m : Match) : List Word :=
  let e := (keyAt s p m.entry).getD {}
  [m.so.arg, e.key, e.desc (logicalOf s p) &&& BitVec.ofNat 64 (2 ^ 22 - 1), BitVec.ofNat 64 (256 * (e.len + 1)), BitVec.ofNat 64 m.so.stamp, BitVec.ofNat 64 m.so.core, BitVec.ofNat 64 m.entry]

/-- R355, R369: whether a queued match can be taken now: a place is free, or it faults; a quad that a cohort holds alone takes none. -/
def respNext (s : State) (core : Nat) (m : Match) : Bool :=
  m.wave.isNone && !(stopOn s m.so.ctx core) && !(quadHeld s (quadOf core)) && (match respReserve s m.so.ctx core with
    | some (n, regs) => decide (n = 0) || (respPlace s m.so.ctx core n regs).isSome
    | none => true)

/-- The matches of a core with one of them changed. -/
def modMatch (s : State) (p i : Nat) (f : Match → Match) : State :=
  modCore s p (fun c => { c with matches_ := c.matches_.mapIdx (fun j m => if j = i then f m else m) })

/-- A match that faults without starting. -/
def failMatch (s : State) (p i : Nat) (m : Match) : State :=
  modCore (faultMatch s m) p (fun c => { c with matches_ := c.matches_.eraseIdx i })

/-- R350, R355: the match numbered i of a physical core starts its responder, or faults. -/
def spawnMatch (s : State) (p i : Nat) (m : Match) : State :=
  let core := logicalOf s p
  match respReserve s m.so.ctx core, readHeader s (cardCode s m.so.ctx (dieOf core)) m.so.ctx m.so.hdr.toNat with
  | some (n, regs), .ok w =>
    let k := kernelOf m.so.hdr w
    match respPlace s m.so.ctx core n regs with
    | some (sect, q) =>
      if respHeaderBad k regs then failMatch s p i m
      else
        let v := { startWave s m.so.ctx core sect q k (cardCode s m.so.ctx (dieOf core)) (BitVec.allOnes 32) (respScalars s p m) 0 with origin := .responder m.so.stamp m.entry }
        dropL1 (addWave (modMatch s p i (fun m => { m with wave := some s.nextWave })) v) p
    | none => failMatch s p i m
  | _, _ => failMatch s p i m

/-- RESPONDER_SPAWN: the first queued match of a physical core that can starts its responder (R355). -/
def execResponderSpawn (core : Nat) (s : State) : Out :=
  match (coreAt s core).matches_.findIdx? (respNext s (logicalOf s core)) with
  | none => notEnabled
  | some i =>
    match (coreAt s core).matches_[i]? with
    | some m => if (respReserve s m.so.ctx (logicalOf s core)).isSome && headerOpen s m.so.ctx m.so.hdr.toNat then headerAsk s m.so.ctx m.so.hdr.toNat else nextOf s (settle (winDrop (spawnMatch s core i m) (.header m.so.ctx m.so.hdr.toNat)))
    | none => notEnabled

/-- R355: the responder limit of a context on a logical core. -/
def respLimit (s : State) (ctx core : Nat) : Nat := (((ctxAt s ctx).t.responderLimits.find? (fun r => decide (r.1 = core))).map (·.2)).getD (ctxAt s ctx).t.responderLimit

/-- RESPONDER_LIMIT: a responder has not answered within its limit (R355, R421). -/
def execResponderLimit (w : Nat) (s : State) : Out :=
  match waveAt s w with
  | none => notEnabled
  | some v =>
    if v.isResponder && !v.ended && !v.stopped && decide (v.started + v.still + respLimit s v.ctx v.core ≤ s.clock) then nextOf s (settle (responderFault s w))
    else notEnabled

/-- CORE_ANSWER: a physical core has resolved every match and deferral it holds for a census (R354, R357). -/
def execCoreAnswer (core stamp : Nat) (s : State) : Out :=
  match s.censuses.find? (fun c => c.stamped && decide (c.so.stamp = stamp)) with
  | none => notEnabled
  | some c =>
    let busy := s.cores.any (fun e => e.2.matches_.any (fun m => decide (m.so.stamp = stamp) && decide (m.ansCore = core))) || (coreAt s core).defers.any (fun d => decide (d.so.stamp = stamp))
    if core ∈ c.accepted ∧ core ∉ c.answered ∧ busy = false then
      nextOf s { s with censuses := s.censuses.map (fun x => if x.stamped = true ∧ x.so.stamp = stamp then { x with answered := x.answered ++ [core] } else x) }
    else notEnabled

/-- R357: the value with no response. -/
def combUnit (comb : Nat) : Nat := match comb with | 1 => 2 ^ 63 - 1 | 2 => 2 ^ 63 | 3 | 6 => 2 ^ 64 - 1 | _ => 0

/-- R357: two values combined. -/
def combine (comb x y : Nat) : Nat :=
  match comb with
  | 0 | 7 => (x + y) % 2 ^ 64
  | 1 => if sint 64 x ≤ sint 64 y then x else y
  | 2 => if sint 64 x ≤ sint 64 y then y else x
  | 3 => min x y
  | 4 => max x y
  | 5 => x ||| y
  | 6 => x &&& y
  | _ => x

/-- R357: the own package's responses in the order of `.first`: logical core, then entry (log 50, DESIGN CHOICE). -/
def ownResponses (s : State) (c : Census) : List (Nat × Nat × Word) :=
  ((c.cores.map (fun e => e.2.resp.map (fun r => (logicalOf s e.1, r.1, r.2)))).flatten).mergeSort (fun a b => decide (a.1 < b.1) || (decide (a.1 = b.1) && decide (a.2.1 ≤ b.2.1)))

/-- R357: the responses of the own package combined. -/
def ownValue (s : State) (c : Census) : Nat :=
  let l := (ownResponses s c).map (fun r => r.2.2.toNat)
  if c.comb = 8 then l.headD 0
  else (l.map (fun x => if c.comb = 7 then ofBool (decide (x ≠ 0)) else x)).foldl (combine c.comb) (combUnit c.comb)

/-- R358: MATCHES, ANSWERS and RFLT of the own package. -/
def ownCounts (c : Census) : Nat × Nat × Bool := ((c.cores.map (·.2.matches_)).sum, (c.cores.map (·.2.resp.length)).sum, c.cores.any (·.2.flt))

/-- R357: the answers of the packages in rank order. -/
def censusAnswers (s : State) (c : Census) : List PeerAns :=
  let o := ownCounts c
  (({ rank := s.net.rank.getD 0, value := BitVec.ofNat 64 (ownValue s c), matches_ := o.1, answers := o.2.1, flt := o.2.2 } : PeerAns) :: c.peerAns).mergeSort (fun a b => decide (a.rank ≤ b.rank))

/-- R357: the census's value. -/
def censusValue (s : State) (c : Census) : Nat :=
  let l := censusAnswers s c
  if c.comb = 8 then (match l.find? (fun a => decide (a.answers ≠ 0)) with | some a => a.value.toNat | none => 0)
  else (l.map (fun a => a.value.toNat)).foldl (combine c.comb) (combUnit c.comb)

/-- R358: the status word. -/
def censusStatus (s : State) (c : Census) : Nat :=
  let l := censusAnswers s c
  let m := (l.map (·.matches_)).sum
  let n := (l.map (·.answers)).sum
  ofBool c.pto * 2 ^ 63 + ofBool (l.any (·.flt)) * 2 ^ 62 + ofBool (decide (n < m) || c.pto) * 2 ^ 61 + m % 2 ^ 28 * 2 ^ 28 + n % 2 ^ 28

/-- R352: whether a physical core has accepted the solicit of a stamp. -/
def hasAccepted (s : State) (p stamp : Nat) : Bool := (s.solicits.take (coreAt s p).seen).any (fun x => decide (x.stamp = stamp))

/-- R358: whether every core that accepted in scope has answered, every core in scope has accepted, and every peer has answered or timed out. -/
def censusOver (s : State) (c : Census) : Bool :=
  c.stamped && c.peers.isEmpty && c.accepted.all (fun p => decide (p ∈ c.answered)) && (List.range 320).all (fun k => !(inScope c.so k) || hasAccepted s (physCore s k) c.so.stamp)

/-- R138, R359: the waves that wait on a slot that has completed: they issue again, with the watchdog at 0. -/
def wakeCwait (s : State) (p ctx n : Nat) : State :=
  { s with waves := s.waves.map (fun e => if physCore s e.2.core = p ∧ e.2.ctx = ctx ∧ (e.2.subs.any (fun u => decide (u.2.hold = .cwait n))) = true then
      (e.1, { e.2 with wd := 0, subs := e.2.subs.map (fun u => if u.2.hold = .cwait n then (u.1, { u.2 with hold := .run }) else u) }) else e) }

/-- R358, R446: the slot of a completed census becomes DONE. -/
def closeCensus (s : State) (c : Census) : State :=
  let p := physCore s c.so.core
  let s1 := modCore s p (fun x => { x with slots := tblMod x.slots (16 * c.so.ctx + c.slot) (fun y => { y with done := true, value := BitVec.ofNat 64 (censusValue s c), status := BitVec.ofNat 64 (censusStatus s c) }) })
  wakeCwait s1 p c.so.ctx c.slot

/-- CENSUS_COMPLETE: the root has every answer; the slot becomes DONE, or the answer goes to the peer that asked (R351, R358, R359). -/
def execCensusComplete (stamp : Nat) (s : State) : Out :=
  match s.censuses.find? (fun c => c.stamped && decide (c.so.stamp = stamp)) with
  | none => notEnabled
  | some c =>
    if censusOver s c then
      let s1 := { s with censuses := s.censuses.filter (fun x => !(x.stamped && decide (x.so.stamp = stamp))) }
      nextOf s (match c.fromPeer with
        | some (rank, tag) => sendFrame s1 7 c.so.ctx rank tag c.so.core (leBytes 8 (censusValue s c) ++ leBytes 8 (censusStatus s c)) {} .coll
        | none => closeCensus s1 c)
    else notEnabled

/-- PEER_TIMEOUT: the peers that have not answered a census in time count as answered with no response (R358). -/
def execPeerTimeout (stamp : Nat) (s : State) : Out :=
  match s.censuses.find? (fun c => c.stamped && decide (c.so.stamp = stamp)) with
  | none => notEnabled
  | some c =>
    if !c.peers.isEmpty && decide (c.since + (ctxAt s c.so.ctx).t.peerTimeout ≤ s.clock) then
      nextOf s { s with censuses := s.censuses.map (fun x => if x.stamped = true ∧ x.so.stamp = stamp then { x with peers := [], pto := true } else x), net := { s.net with tx := s.net.tx.map (fun t => if t.tx = .census stamp then { t with tx := .coll } else t) } }
    else notEnabled

end Sys2Proof.Machine
end

