-- ==== Sys2Proof/Machine/Launch.lean ====
section
/-! DEFINITION. The dispatchers: command streams, launches, the placing of cohorts, completion, and channel bindings (R361 to R369, R375, R379 to R382). -/

namespace Sys2Proof.Machine

/-- R379: the contexts that hold a channel of a physical core. -/
def chanHolders (s : State) (p ch : Nat) : List Nat :=
  let of (v : Wave) : List Nat := if v.ports.any (fun b => decide (b.2.chan = ch) && decide (physCore s b.2.core = p)) then [v.ctx] else []
  ((tblVals s.waves).map of).flatten ++ (((tblVals s.parked).map (·.waves)).flatten.map of).flatten

/-- R380, R406: whether another wave, or a parked one, holds a channel bound `.rd`. -/
def chanRead (s : State) (p ch w : Nat) : Bool :=
  let reads (v : Wave) : Bool := v.ports.any (fun b => !b.2.write && decide (b.2.chan = ch) && decide (physCore s b.2.core = p))
  s.waves.any (fun e => decide (e.1 ≠ w) && reads e.2) || (parkedWaves s).any reads

/-- R380: a binding ended. -/
def unbind (s : State) (w q : Nat) : State :=
  match (waveAt s w).bind (fun v => tblFind v.ports q) with
  | none => s
  | some b => freeChans (modWave s w (fun v => { v with ports := tblErase v.ports q })) [(q, b)]

/-- R380: the binding of a port (log 106, DEDUCED). -/
def bodyQbind (f : EN) (e : Env) (s : State) : Res :=
  if f.c = 2 then .done (unbind s e.w f.a) {}
  else
    let x := (e.rdS f.b).toNat
    let core := bits x 8 9
    let p := physCore s core
    let ch := bits x 0 3
    if bits x 3 5 ≠ 0 ∨ bits x 17 47 ≠ 0 ∨ 319 < core then .trap s (e.illegal 10)
    else if (chanHolders s p ch).any (fun c => decide (c ≠ e.v.ctx)) then .trap s (e.illegal 10)
    else if f.c = 0 ∧ (p ≠ e.core ∨ chanRead s p ch e.w = true) then .trap s (e.illegal 10)
    else
      let nb : PortBind := { core := core, chan := ch, write := decide (f.c = 1) }
      let old := tblFind e.v.ports f.a
      let s1 := modWave s e.w (fun v => { v with ports := tblPut v.ports f.a nb })
      .done (match old with | some b => freeChans s1 [(f.a, b)] | none => s1) {}
/-- `qbind` (R380). -/
def execQbind (f : EN) (s : State) : Out := issue (.qbind f) (bodyQbind f) s

/-- CHANNEL_ENTRY_ARRIVE: an entry pushed to another core's channel arrives (R381). -/
def execChannelEntryArrive (core ch entry : Nat) (s : State) : Out :=
  match (chanEntries s core ch).find? (fun e => decide (e.id = entry)) with
  | some e =>
    if e.val.isSome && !e.arrived then nextOf s (modCore s core (fun c => { c with chans := tblMod c.chans ch (List.map (fun x => if x.id = entry then { x with arrived := true } else x)) }))
    else notEnabled
  | none => notEnabled

/-- R361: the records of a context's ring. -/
def ringSize (t : CtxTable) : Nat := t.streamSize / 128

/-- R361: the 128 bytes of a context's next record, where one waits (log 40, DEDUCED). -/
def nextRecord (s : State) (ctx : Nat) : Option (List Byte) :=
  match tblFind s.ctxs ctx with
  | none => none
  | some c => if c.readIdx = c.writeIdx ∨ c.faulted.isSome = true then none else some (homeBytes s 0 (c.t.streamBase + 128 * c.readIdx) 0 128)

/-- R361: the outcome of a record is decided: the read index advances and is written. -/
def recordRead (s : State) (ctx : Nat) : State :=
  let c := ctxAt s ctx
  let i := if ringSize c.t ≤ c.readIdx + 1 then 0 else c.readIdx + 1
  packagePutAll (modCtx s ctx (fun c => { c with readIdx := i })) 0 c.t.readWord (leBytes 4 i)

/-- EMPTY_RECORD: an empty record is skipped (R361). -/
def execEmptyRecord (ctx : Nat) (s : State) : Out :=
  match nextRecord s ctx with
  | some b => if bits (leNat b) 0 8 = 0 then nextOf s (recordRead s ctx) else notEnabled
  | none => notEnabled

/-- UNKNOWN_RECORD: a record of another TYPE is skipped and reported (R361). -/
def execUnknownRecord (ctx : Nat) (s : State) : Out :=
  match nextRecord s ctx with
  | some b => if 3 < bits (leNat b) 0 8 then nextOf s (tellHost (recordRead s ctx) (.badRecord ctx (ctxAt s ctx).readIdx)) else notEnabled
  | none => notEnabled

/-- The field of `n` bytes at an offset of a record. -/
def recField (x off n : Nat) : Nat := bits x (8 * off) (8 * n)

/-- R362: the launch that a record describes. -/
def launchOf (x ctx order clock : Nat) : Launch :=
  let fl := recField x 1 1
  { ctx := ctx, id := recField x 4 4, cls := bits fl 4 2, qlock := bitAt fl 2, migr := bitAt fl 1, gang := bitAt fl 0, split := recField x 2 1, dies := bits (recField x 3 1) 0 4, cores := bits (recField x 3 1) 4 2 + 1,
    hdr := BitVec.ofNat 64 (recField x 8 8), arg := BitVec.ofNat 64 (recField x 16 8), grid := recField x 0x18 4, threads := recField x 0x1C 2,
    deps := ([recField x 0x24 4, recField x 0x28 4, recField x 0x2C 4]).filter (· ≠ 0), compl := BitVec.ofNat 64 (recField x 0x30 8), deadline := clock, order := order, left := recField x 0x18 4 }

/-- R365: status 0x81. -/
def launchMalformed (x : Nat) (l : Launch) : Bool :=
  decide (bits (recField x 1 1) 6 2 ≠ 0) || bitAt (recField x 1 1) 3 || decide (bits (recField x 3 1) 6 2 ≠ 0) || decide (l.dies = 0) || decide (l.id = 0) || decide (l.grid = 0)
    || decide (l.threads = 0) || decide (3072 < l.threads) || decide (recField x 0x1F 1 ≠ 0) || decide (recField x 0x38 72 ≠ 0) || decide (l.hdr.toNat % 8 ≠ 0) || decide (l.compl.toNat % 8 ≠ 0)

/-- R364: whether SPLIT holds a code of a convertible section. -/
def splitConv (split : Nat) : Bool := (List.range 4).any (fun k => decide (2 ≤ splitCode split k))

/-- R365: status 0x82. -/
def splitBad (l : Launch) (k : Kernel) : Bool :=
  decide (l.split = 0) || (splitConv l.split && !k.conv) || ((List.range 4).any (fun i => decide (splitCode l.split i = 3)) && k.w16)

/-- R121: the waves of a cohort. -/
def waveCount (threads : Nat) : Nat := ceilDiv threads 32

/-- R369: the waves that go to the j-th of c cores. -/
def coreShare (nw c j : Nat) : Nat := ((List.range nw).filter (fun w => decide (w * c / nw = j))).length

/-- What placing waves on a core asks for; `who` is the number of a launch's record. -/
structure Ask where
  ctx : Nat
  cls : Nat
  kernel : Kernel
  split : Nat
  who : Option Nat := none
  deriving DecidableEq, Repr

/-- R364: whether a section of a core takes one more wave of a launch beside those planned, `planned` their sections. -/
def sectTakes (s : State) (a : Ask) (core k : Nat) (planned : List (Nat × Nat)) : Bool :=
  let code := splitCode a.split k
  let n := (planned.filter (fun x => decide (x.1 = k))).length
  decide (code ≠ 0) && sectFits s a.ctx core k a.kernel.alloc n a.cls (decide (2 ≤ code)) a.who && (decide (code < 2) || decide (n = 0))
    && !(decide (code = 3) && a.kernel.mtx && (s.waves.any (fun x => decide (physCore s x.2.core = physCore s core) && x.2.bun.claim) || planned.any (fun x => decide (splitCode a.split x.1 = 3))))
    && mtxFree s a.kernel a.ctx core

/-- R369: the sections given to n waves of a core, one wave a section a pass, with their places; `fuel` bounds the passes. -/
def takeSects (s : State) (a : Ask) (core n : Nat) (planned : List (Nat × Nat)) : Nat → Option (List (Nat × Nat))
  | 0 => if planned.length = n then some planned else none
  | fuel + 1 =>
    if planned.length = n then some planned
    else
      let next := (List.range 4).foldl (fun l k =>
        if l.length < n ∧ sectTakes s a core k l = true then
          match (freePlaces s (physCore s core) k)[(l.filter (fun x => decide (x.1 = k))).length]? with
          | some q => l ++ [(k, q)]
          | none => l
        else l) planned
      if next.length = planned.length then none else takeSects s a core n next fuel

/-- R121, R369: what a core gives n waves: the base of its scratchpad allocation, and the sections and places; an empty share needs nothing. -/
def coreTake (s : State) (a : Ask) (core n : Nat) : Option (Nat × List (Nat × Nat)) :=
  if n = 0 then some (0, [])
  else if !(mayPlace s a.ctx core) then none
  else match spadBase (spadHeld s core) a.kernel.spad, takeSects s a core n [] n with
    | some b, some l => some (b, l)
    | _, _ => none

/-- R369: the shares given to the lowest cores that can take them. -/
def planCores (s : State) (a : Ask) : List Nat → List Nat → Option (List (Nat × Nat × List (Nat × Nat)))
  | _, [] => some []
  | [], _ :: _ => none
  | c :: cs, n :: ns =>
    match coreTake s a c n with
    | some x => (planCores s a cs ns).map (fun r => (c, x) :: r)
    | none => planCores s a cs (n :: ns)

/-- R441: a split logical quad. -/
def quadSplit (s : State) (q : Nat) : Bool := (List.range 4).any (fun i => decide (quadOf (physCore s (4 * q + i)) ≠ quadOf (physCore s (4 * q))))

/-- R363, R369: whether a quad has no work: no cohort, no wave, no card that has chosen a core of it and not started. -/
def quadIdle (s : State) (q : Nat) : Bool :=
  !(s.cohorts.any (fun c => decide (c.2.quad = q))) && !(s.waves.any (fun v => decide (quadOf v.2.core = q))) && !(s.cards.any (fun c => c.2.wave.isNone && decide (c.2.core.map quadOf = some q)))

/-- R363, R369, R441: whether a quad may take a cohort at all, of a launch with QLOCK, or with a SPLIT code of 10 or 11. -/
def quadTakes (s : State) (qlock conv : Bool) (q : Nat) : Bool := !(quadHeld s q) && (!qlock || quadIdle s q) && !(quadSplit s q && (qlock || conv))

/-- R363, R369, R441: whether a quad may take a cohort of a launch. -/
def quadOpen (s : State) (l : Launch) (q : Nat) : Bool := quadTakes s l.qlock (splitConv l.split) q

/-- R369: the plan of a cohort of a launch on a quad. -/
def planQuad (s : State) (l : Launch) (q : Nat) : Option (List (Nat × Nat × List (Nat × Nat))) :=
  let nw := waveCount l.threads
  if quadOpen s l q then planCores s { ctx := l.ctx, cls := l.cls, kernel := l.kernel, split := l.split, who := some l.order } ((List.range 4).map (4 * q + ·)) ((List.range l.cores).map (coreShare nw l.cores))
  else none

/-- R122: the live lanes of a wave of T threads. -/
def liveMask (threads w : Nat) : Lane32 := laneMask (fun i => decide (32 * w + i < threads))

/-- R410: the stride of cohort records; their addresses are the model's (log 43). -/
def recordStride : Nat := 0x5C1000

/-- R409: the stride of card records (log 43, DESIGN CHOICE). -/
def cardStride : Nat := 0x20B000

/-- R411: the frame of a wave of a record (log 40, DEDUCED; log 43, DESIGN CHOICE). -/
def frameOf (rec_ w : Nat) : Nat := rec_ + 0x201000 + 0xA000 * w

/-- The lowest record of a context that no cohort, resident or parked, uses (log 43, DESIGN CHOICE). -/
def freeRecord (s : State) (ctx : Nat) : Nat :=
  let used := ((tblVals s.cohorts ++ (tblVals s.parked).map (·.co)).filter (fun c => decide (c.ctx = ctx) && c.card.isNone)).map (·.recNo)
  ((List.range (used.length + 1)).find? (fun i => !(decide (i ∈ used)))).getD 0

/-- R39, R466: the scalars a wave of a launch starts with. -/
def launchScalars (k : Kernel) (arg : Word) : List Word := if k.w16 then arg :: (List.replicate 45 0 ++ [arg]) else [arg]

/-- R364, R185: a wave of a launch in its section's starting mode. -/
def startMode (code : Nat) (v : Wave) : Wave :=
  if code = 3 then { v with conv := true, phase := .bundle, bun := { claim := v.kernel.mtx, claimWait := v.kernel.mtx } } else { v with conv := decide (code = 2) }

/-- R39, R119, R121, R369: the cohort numbered i of a launch placed by a plan (log 39, DEDUCED). -/
def placeCohort (s : State) (key : Nat) (l : Launch) (i q : Nat) (plan : List (Nat × Nat × List (Nat × Nat))) : State :=
  let r := freeRecord s l.ctx
  let co := s.nextCohort
  let slots := (plan.map (fun x => x.2.2.map (fun y => (x.1, y)))).flatten
  let c : Cohort := { ctx := l.ctx, launch := key, index := i, threads := l.threads, quad := q, spad := plan.foldl (fun t x => if x.2.2.isEmpty then t else tblPut t x.1 { base := x.2.1, size := l.kernel.spad }) [],
                      waves := (List.range slots.length).map (s.nextWave + ·), total := slots.length, kernel := l.kernel, qlock := l.qlock, migr := l.migr, recNo := r, cls := l.cls, conv := splitConv l.split }
  let s1 := { s with cohorts := tblPut s.cohorts co c, nextCohort := co + 1, taken := (takenNow s).filter (fun t => decide (t.ord ≠ l.order) || decide (dieOf t.core ≠ q / 20)) }
  let s2 := slots.zipIdx.foldl (fun t x =>
    let v := startWave t l.ctx x.1.1 x.1.2.1 x.1.2.2 l.kernel (cardCode s l.ctx (q / 20)) (liveMask l.threads x.2) (launchScalars l.kernel l.arg) (frameOf ((ctxAt s l.ctx).t.cohortRecords + recordStride * r) x.2)
    addWave t (startMode (splitCode l.split x.1.2.1) { v with launch := key, launchId := l.id, cohort := co, cohortIdx := i, index := x.2 })) s1
  plan.foldl (fun t x => dropL1 t (physCore s x.1)) s2

/-- The quads of a die that take the next cohort of a launch. -/
def openQuads (s : State) (l : Launch) (d : Nat) : List Nat := ((List.range 20).map (20 * d + ·)).filter (fun q => (planQuad s l q).isSome)

/-- R368: the first cohort of a launch on a die: the die's caches are emptied of its context's code, whose waves run from now on what the launch makes seen there: memory as it is now, or freely as the launch's record found it where no launch since made later memory seen (log 38, DEDUCED). -/
def codeSeen (s : State) (l : Launch) (d : Nat) : State :=
  let c : Nat × List Host.Cell := if freeBool s 9 then (s.fresh, s.mem) else (l.readAt, l.code)
  if tblGet 0 l.placed d = 0 ∧ (tblFind (ctxAt s l.ctx).code d).all (fun e => decide (e.1 < c.1)) = true then modCtx s l.ctx (fun x => { x with code := tblPut x.code d c }) else s

/-- R369: one cohort of a launch placed on a die, on a quad freely chosen among those that take it (log 37, DESIGN CHOICE). -/
def placeOn (s : State) (key : Nat) (l : Launch) (d tag : Nat) : Option (State × Launch) :=
  match nextOn l d with
  | none => none
  | some i =>
    let qs := openQuads s l d
    match qs[free s tag % qs.length]? with
    | none => none
    | some q =>
      match planQuad s l q with
      | none => none
      | some plan => some (placeCohort (codeSeen s l d) key l i q plan, { l with placed := tblPut l.placed d (tblGet 0 l.placed d + 1) })

/-- R363: every cohort of a co-resident launch placed in one decision. -/
def placeGang (s : State) (key : Nat) (l : Launch) (tag : Nat) : Nat → Option (State × Launch)
  | 0 => some (s, l)
  | n + 1 =>
    match (diesOf l).find? (fun d => (nextOn l d).isSome) with
    | none => some (s, l)
    | some d =>
      match placeOn s key l d tag with
      | none => none
      | some (s1, l1) => placeGang s1 key l1 (tag + 1) n

/-- R365: the cohorts of a launch that one empty quad holds; `n` bounds the search. -/
def quadCapacity (s : State) (key : Nat) (l : Launch) (q : Nat) : Nat → Nat
  | 0 => 0
  | n + 1 =>
    match planQuad s l q with
    | none => 0
    | some plan => 1 + quadCapacity (placeCohort s key l 0 q plan) key l q n

/-- R365: a device with no work, for the test of 0x84: tile areas and responder reservations do not count there, class-0 reservations do (log 117, DESIGN CHOICE). -/
def emptied (s : State) : State :=
  { s with waves := [], cohorts := [], cards := [], taken := [], stops := [], fogs := [], cores := s.cores.map (fun c => (c.1, { c.2 with tiles := [] })), ctxs := s.ctxs.map (fun c => (c.1, { c.2 with t := { c.2.t with responders := [] } })) }

/-- R365: status 0x84: the cohorts of a co-resident launch cannot all be resident on its dies. -/
def gangBad (s : State) (l : Launch) : Bool :=
  let e := emptied s
  let cap (d : Nat) : Nat := (((List.range 20).map (20 * d + ·)).map (fun q => quadCapacity e 0 l q (if l.qlock then 1 else 256))).sum
  l.gang && (diesOf l).zipIdx.any (fun x => decide (cap x.1 < ((l.grid + (diesOf l).length - 1 - x.2) / (diesOf l).length)))

/-- R366: the completion word written, sent where it lies in the window of a peer or the host, or the event where its write faults. -/
def writeCompletion (s : State) (l : Launch) (st : Nat) : State :=
  let c := modCtx s l.ctx (fun c => { c with hist := ((l.id, st, l.order) :: c.hist).filter (fun h => decide (h.1 ∈ c.recent) || s.launches.any (fun e => decide (e.2.ctx = l.ctx) && decide (h.1 ∈ e.2.deps))) })
  let w := leBytes 8 (l.id * 2 ^ 32 + st)
  if l.compl = 0 then c
  else match checkFlat s {} l.ctx .store l.compl.toNat 8 (2 ^ 55) with
    | .error f => tellHost c (.complFault l.ctx l.id st (f.info .store 0))
    | .ok bs =>
      match peerRuns bs 0 with
      | [] => (bs.zip w).foldl (fun t x => match x.1.at_ with | .dev pa => packagePut t x.1.attr.key pa x.2 | _ => t) c
      | r :: _ =>
        if peerOwn s l.ctx (peerRank r.2.1) then tellHost c (.complFault l.ctx l.id st (({ cause := .protection, addr := l.compl.toNat, reason := 0 } : MemFault).info .store 0))
        else sendFrame c 2 l.ctx (peerRank r.2.1) (peerOff r.2.1) 0 w { size := 8 } (.compl l.ctx l.id st)

/-- R250, R366: the stores that the dies of a launch have accepted and that are not performed at package scope. -/
def launchStores (s : State) (l : Launch) : List Nat := ((diesOf l).map (fun d => (accepted s d).map (·.id))).flatten

/-- R365, R367: the launch of a well-formed record with its header read, its dependences those of the last 256 launches, or the status that refuses it. -/
def admitLaunch (s : State) (x : Nat) (l : Launch) : Except (Nat × Nat) Launch :=
  if launchMalformed x l then .error (0x81, 0)
  else match readHeader s s.mem l.ctx l.hdr.toNat with
    | .error f => .error (0x87, f.info .fetch 0)
    | .ok w =>
      let l1 := { l with kernel := kernelOf l.hdr w, code := s.mem, readAt := s.fresh, deps := l.deps.filter (fun d => decide (d ∈ (ctxAt s l.ctx).recent)) }
      if kernelBad l1.kernel then .error (0x80, 0)
      else if splitBad l1 l1.kernel then .error (0x82, 0)
      else if recField x 0x1E 1 ≠ l1.kernel.vregs ∨ 256 * recField x 0x20 4 ≠ l1.kernel.spad then .error (0x83, 0)
      else if gangBad s l1 then .error (0x84, 0)
      else .ok l1

/-- LAUNCH_RECORD: a launch record is read: the launch is refused, or waits to be placed (R361 to R366). -/
def execLaunchRecord (ctx : Nat) (s : State) : Out :=
  match nextRecord s ctx with
  | none => notEnabled
  | some b =>
    let x := leNat b
    if bits x 0 8 ≠ 1 then notEnabled
    else if !(launchMalformed x (launchOf x ctx s.order s.clock)) && headerOpen s ctx (recField x 8 8) then headerAsk s ctx (recField x 8 8)
    else
      let l := launchOf x ctx s.order s.clock
      let s1 := modCtx { winDrop (recordRead s ctx) (.header ctx (recField x 8 8)) with order := s.order + 1 } ctx (fun c => { c with recent := (l.id :: c.recent).take 256 })
      match admitLaunch s x l with
      | .ok l1 => nextOf s { s1 with launches := tblPut s1.launches s.order l1 }
      | .error (st, info) =>
        let s2 := if st = 0x87 then tellHost s1 (.launchRead ctx (ctxAt s ctx).readIdx info) else s1
        nextOf s (if (launchStores s l).isEmpty then writeCompletion s2 l st else { s2 with launches := tblPut s2.launches s.order { l with status := some st, held := launchStores s l } })

/-- R363, R369, R375: whether the next cohort of a launch fits on a die now; of a co-resident launch, whether all its cohorts do at once (log 48, DEDUCED). -/
def launchFits (s : State) (k : Nat) (l : Launch) (d : Nat) : Bool :=
  if l.gang then l.placed.isEmpty && (placeGang s k l 10 l.grid).isSome else !(openQuads s l d).isEmpty

/-- R375: whether a launch that comes before work of a rank fits on a die now (log 48, DEDUCED). -/
def launchAhead (s : State) (ctx : Nat) (rank : Nat × Nat × Nat) (d : Nat) : Bool :=
  s.launches.any (fun e => decide (e.2.ctx = ctx) && workBefore e.2.rank rank && e.2.status.isNone && depsReady s e.2 && !(depsFailed s e.2) && (nextOn e.2 d).isSome && launchFits s e.1 e.2 d)

/-- R394, R366: whether a launch's waves have all left their places. -/
def launchGone (s : State) (launch : Nat) : Bool := !(s.waves.any (fun e => decide (e.2.launch = launch) && (match e.2.origin with | .cohort => true | _ => false)))

/-- R250, R366: the completion of a launch is decided: its word is written, or waits for the stores its dies have accepted by now. -/
def launchEnd (s : State) (k : Nat) (l : Launch) (st : Nat) : State :=
  if (launchStores s l).isEmpty then writeCompletion { s with launches := tblErase s.launches k } l st
  else { s with launches := tblPut s.launches k { l with status := some st, held := launchStores s l } }

/-- LAUNCH_COMPLETE: a launch has run to its end, its dependence failed, or its context was faulted; the word is written once the stores that its dies had accepted then are performed at package scope (R250, R365 to R367, R394). -/
def execLaunchComplete (launch : Nat) (s : State) : Out :=
  match tblFind s.launches launch with
  | none => notEnabled
  | some l =>
    match l.status with
    | some st => if (launchStores s l).all (fun i => decide (i ∉ l.held)) then nextOf s (writeCompletion { s with launches := tblErase s.launches launch } l st) else notEnabled
    | none =>
      if l.left = 0 then nextOf s (launchEnd s launch l 1)
      else if (ctxAt s l.ctx).faulted.isSome && launchGone s launch then nextOf s (launchEnd s launch l 0x86)
      else if depsFailed s l then nextOf s (launchEnd s launch l 0x85)
      else notEnabled

end Sys2Proof.Machine
end

