-- ==== Sys2Proof/Machine/Cards.lean ====
section
/-! DEFINITION. Job cards and range cards: reading, choosing a core, moving tiles, starting, asking; `post` and `rnext` (R370 to R378). -/

namespace Sys2Proof.Machine

/-- R370, R373: the card that an image describes. -/
def cardOf (x ctx order : Nat) (range : Bool) : Card :=
  { ctx := ctx, cls := bits x 8 2, stream := recField x 4 4, entry := BitVec.ofNat 64 (recField x 8 8), deadline := recField x 0x10 8, arg := BitVec.ofNat 64 (recField x 0x18 8), order := order,
    tiles := if range then [] else (List.range (bits x 10 3)).map (fun n => (BitVec.ofNat 64 (recField x (0x20 + 16 * n) 8), recField x (0x28 + 16 * n) 4)),
    range := if range then some (recField x 0x20 8, recField x 0x28 8, recField x 0x30 4) else none }

/-- R370: a job card that breaks its layout (log 52, DEDUCED). -/
def jobMalformed (x : Nat) : Bool :=
  decide (bits x 13 3 ≠ 0) || decide (6 < bits x 10 3) || decide (recField x 2 2 ≠ 0) || decide (recField x 8 8 % 8 ≠ 0)
    || (List.range 6).any (fun n => if n < bits x 10 3 then decide (recField x (0x2C + 16 * n) 4 ≠ 0) || decide (recField x (0x28 + 16 * n) 4 % 256 ≠ 0) || decide (2 ^ 19 ≤ recField x (0x28 + 16 * n) 4) else decide (recField x (0x20 + 16 * n) 16 ≠ 0))

/-- R373: a range card that breaks its layout. -/
def rangeMalformed (x : Nat) : Bool :=
  decide (bits x 13 3 ≠ 0) || decide (bits x 10 3 ≠ 0) || decide (recField x 2 2 ≠ 0) || decide (recField x 8 8 % 8 ≠ 0)
    || decide (recField x 0x28 8 ≤ recField x 0x20 8) || decide (recField x 0x30 4 = 0) || decide (recField x 0x34 76 ≠ 0)

/-- R370: a card admitted, with its header, or the reason and fault bits of its card event. -/
def admitCard (s : State) (bad : Bool) (c : Card) : Except (Nat × Nat) Card :=
  if bad then .error (1, 0)
  else match readHeader s (headerCode s c.ctx) c.ctx c.entry.toNat with
    | .error f => .error (4, f.info .fetch 0)
    | .ok w =>
      let k := kernelOf c.entry w
      if kernelBad k || k.w16 || k.conv then .error (1, 0) else .ok { c with kernel := k }

/-- R361, R375, R377: the image of a context's next card, its number in the order, and the state once it is taken: the head of its posted cards, or its next record (log 51, DEDUCED). -/
def takeCard (s : State) (ctx : Nat) (posted : Bool) : Option (Nat × Nat × State) :=
  if posted then
    match (tblFind s.ctxs ctx).bind (fun c => if c.faulted.isSome then none else c.posts.head?) with
    | some b => some (leNat b.2, b.1, modCtx s ctx (fun c => { c with posts := c.posts.drop 1 }))
    | none => none
  else (nextRecord s ctx).map (fun b => (leNat b, s.order, recordRead s ctx))

/-- R370, R373: a card read or posted: it is queued, or dropped with its event. -/
def cardRead (ctx : Nat) (posted range : Bool) (s : State) : Out :=
  match takeCard s ctx posted with
  | none => notEnabled
  | some (x, ord, s1) =>
    if bits x 0 8 ≠ (if range then 3 else 2) then notEnabled
    else if !(if range then rangeMalformed x else jobMalformed x) && headerOpen s ctx (recField x 8 8) then headerAsk s ctx (recField x 8 8)
    else
      let c := cardOf x ctx ord range
      let s2 := { winDrop s1 (.header ctx (recField x 8 8)) with order := s.order + 1 }
      match admitCard s (if range then rangeMalformed x else jobMalformed x) c with
      | .error (r, i) => nextOf s (tellHost s2 (.card c.stream r i))
      | .ok c1 => nextOf s { s2 with cards := tblPut s2.cards s.order c1 }

/-- JOB_CARD: a job card is read or posted (R370, R377). -/
def execJobCard (ctx : Nat) (posted : Bool) (s : State) : Out := cardRead ctx posted false s

/-- RANGE_CARD: a range card is read or posted (R373, R377). -/
def execRangeCard (ctx : Nat) (posted : Bool) (s : State) : Out := cardRead ctx posted true s

/-- R340: the live entries that hold a key exactly, by logical core and entry index. -/
def keyHolders (s : State) (ctx : Nat) (key : Word) : List (Nat × Nat × KeyEntry) :=
  ((List.range 320).map (fun c => ((liveKeys s (physCore s c) ctx).filter (fun e => decide (e.2.key = key))).map (fun e => (c, e.1, e.2)))).flatten

/-- R371: the holder of a key: the lowest RESIDENT or PINNED entry. -/
def keyHolder (s : State) (ctx : Nat) (key : Word) : Option (Nat × Nat × KeyEntry) := (keyHolders s ctx key).find? (fun e => e.2.2.held)

/-- R371: the entry of a chosen core that holds a key. -/
def keyOn (s : State) (ctx core : Nat) (key : Word) : Option (Nat × KeyEntry) := (liveKeys s (physCore s core) ctx).find? (fun e => decide (e.2.key = key) && e.2.held)

/-- R371, R376: the sections of a core that take a card's wave. -/
def cardSects (s : State) (c : Card) (core : Nat) : List Nat :=
  if mayPlace s c.ctx core && (spadBase (spadHeld s core) c.kernel.spad).isSome && !(quadHeld s (quadOf core))
    && mtxFree s c.kernel c.ctx core
  then (List.range 4).filter (fun k => sectFits s c.ctx core k c.kernel.alloc 0 c.cls false none && !(freePlaces s (physCore s core) k).isEmpty) else []

/-- R371: whether a core is a candidate for a card. -/
def cardCandidate (s : State) (c : Card) (core : Nat) : Bool := (areaSize s (physCore s core) c.ctx).isSome && !(cardSects s c core).isEmpty

/-- R371: the operand bytes of a card that a core holds. -/
def operandBytes (s : State) (c : Card) (core : Nat) : Nat :=
  (c.tiles.filterMap (fun t => (keyHolder s c.ctx t.1).bind (fun h => if h.1 = core then some (256 * (h.2.2.len + 1)) else none))).sum

/-- The first of a list with the largest measure. -/
def firstMost (f : Nat → Nat) (l : List Nat) : Option Nat := l.foldl (fun r c => match r with | none => some c | some b => if f b < f c then some c else some b) none

/-- R373: the waves of a context on a die (log 52, DEDUCED). -/
def wavesOnDie (s : State) (ctx d : Nat) : Nat := (s.waves.filter (fun e => decide (e.2.ctx = ctx) && decide (dieOf e.2.core = d))).length

/-- R371, R373: the core a card goes to (log 52, DEDUCED); of the dies with the fewest waves of the context, one without a candidate core is passed over for another (log 118, DEDUCED). -/
def chooseCore (s : State) (c : Card) : Option Nat :=
  let cand := (List.range 320).filter (cardCandidate s c)
  match c.range with
  | none => firstMost (operandBytes s c) cand
  | some _ => firstMost (fun x => s.waves.length - wavesOnDie s c.ctx (dieOf x)) cand

/-- R409: the lowest free record of a context's card-record pool (log 43, DESIGN CHOICE). -/
def freeCardRecord (s : State) (ctx : Nat) : Option Nat :=
  let used := (tblVals s.cards).filterMap (fun c => if c.ctx = ctx ∧ c.core.isSome = true then some c.recNo else none)
  ((List.range (min (used.length + 1) (ctxAt s ctx).t.cardPool)).find? (fun i => !(decide (i ∈ used))))

/-- R375: a card's place in the order. -/
def Card.rank (c : Card) : Nat × Nat × Nat := (c.cls, c.deadline, c.order)

/-- R371: whether some tile of a card is held nowhere, in any state. -/
def tileGone (s : State) (c : Card) (key : Word) : Bool := (keyHolders s c.ctx key).isEmpty

/-- R371: whether some entry holds a key but none can serve yet. -/
def tileMoving (s : State) (c : Card) (key : Word) : Bool := !(tileGone s c key) && (keyHolder s c.ctx key).isNone

/-- R375: whether a card of the context that comes before work of a rank, and whose tiles lie ready, would choose a core of a die now (log 48). -/
def cardAhead (s : State) (ctx : Nat) (rank : Nat × Nat × Nat) (d : Nat) : Bool :=
  s.cards.any (fun e => decide (e.2.ctx = ctx) && workBefore e.2.rank rank && e.2.wave.isNone && e.2.core.isNone && !(e.2.tiles.any (fun t => tileGone s e.2 t.1 || tileMoving s e.2 t.1))
    && (freeCardRecord s ctx).isSome && (chooseCore s e.2).any (fun core => decide (dieOf core = d)))

/-- A card dropped with a reason. -/
def dropCard (s : State) (k : Nat) (c : Card) (reason : Nat) : State := cardFreed (tellHost { s with cards := tblErase s.cards k } (.card c.stream reason 0)) c

/-- R371: the core of a card chosen: its section, freely among those that fit, its place, scratchpad and record (log 37, DESIGN CHOICE; log 52, DEDUCED). -/
def cardChosen (s : State) (k : Nat) (c : Card) (core r : Nat) : State :=
  let ss := cardSects s c core
  let sect := ss.getD (free s 5 % ss.length) 0
  { s with cards := tblPut s.cards k { c with core := some core, sect := sect, place := (freePlaces s (physCore s core) sect).headD 0, base := (spadBase (spadHeld s core) c.kernel.spad).getD 0, recNo := r } }

/-- R371: the tiles of a card that its chosen core does not hold and that no open move brings. -/
def tilesAway (s : State) (c : Card) (core : Nat) : List (Nat × Word × Nat) :=
  (c.tiles.zipIdx.map (fun t => (t.2, t.1.1, t.1.2))).filter (fun t => !(decide (t.1 ∈ c.moving)) && (keyOn s c.ctx core t.2.1).isNone)

/-- The number that stands for a card where an engine instruction names its wave. -/
def cardAgent (k : Nat) : Nat := 2 ^ 40 + k

/-- R371: the move of tile n of a card to its chosen core. -/
def cardMove (s : State) (k : Nat) (c : Card) (core n off : Nat) (h : Nat × Nat × KeyEntry) : State :=
  let o : EngOp := { wave := cardAgent k, ctx := c.ctx, core := physCore s h.1, issue := s.clock, pay := .move { entry := h.2.1, dst := core, off := off, card := some (8 * k + n) } }
  { s with eng := tblPut s.eng s.nextEng o, nextEng := s.nextEng + 1, cards := tblPut s.cards k { c with moving := n :: c.moving } }

/-- R372: the operand entries of a card on its core. -/
def cardOperands (s : State) (c : Card) (core : Nat) : List (Nat × KeyEntry) := c.tiles.filterMap (fun t => keyOn s c.ctx core t.1)

/-- R372: the scalars of a card's wave. -/
def cardScalars (s : State) (c : Card) (core : Nat) : List Word :=
  [c.arg, BitVec.ofNat 64 c.stream] ++ (cardOperands s c core).map (fun e => e.2.desc core &&& BitVec.ofNat 64 (2 ^ 22 - 1))

/-- R39, R371, R372: the wave of a ready card starts, and its operands become PINNED. -/
def cardBegin (s : State) (k : Nat) (c : Card) (core : Nat) : State :=
  let p := physCore s core
  let co := s.nextCohort
  let w := s.nextWave
  let pins := ((cardOperands s c core).filter (fun e => decide (e.2.st = .resident))).map (·.1)
  let v := startWave s c.ctx core c.sect c.place c.kernel (cardCode s c.ctx (dieOf core)) (BitVec.allOnes 32) (cardScalars s c core) (frameOf ((ctxAt s c.ctx).t.cardPoolBase + cardStride * c.recNo) 0)
  let h : Cohort := { ctx := c.ctx, threads := 32, quad := quadOf core, spad := [(core, { base := c.base, size := c.kernel.spad })], waves := [w], total := 1, kernel := c.kernel, recNo := c.recNo, card := some k, cls := c.cls }
  let s1 := modCore s p (fun x => { x with keyring := pins.foldl (fun r i => tblMod r i (fun e => { e with st := .pinned })) x.keyring })
  let s2 := { s1 with cohorts := tblPut s1.cohorts co h, nextCohort := co + 1, cards := tblPut s1.cards k { c with wave := some w, pins := pins, pinCore := core } }
  dropL1 (addWave s2 { v with cohort := co, origin := .card k c.recNo }) p

/-- R371, R372: the next step of a card whose core is chosen: a tile located and its move begun, the card dropped, or its wave started. -/
def cardNext (s : State) (k : Nat) (c : Card) (core : Nat) : Out :=
  let away := tilesAway s c core
  match away.find? (fun t => tileGone s c t.2.1) with
  | some _ => nextOf s (dropCard s k c 2)
  | none =>
    match away.findSome? (fun t => (keyHolder s c.ctx t.2.1).map (fun h => (t, h))) with
    | some (t, h) => nextOf s (cardMove s k c core t.1 t.2.2 h)
    | none => if away.isEmpty && c.moving.isEmpty && mayPlace s c.ctx core && mtxFree s c.kernel c.ctx core && !(quadHeld s (quadOf core)) then nextOf s (cardBegin s k c core) else notEnabled

/-- CARD_START: the next step of a queued card: its core is chosen, a tile is moved, the card is dropped, or its wave starts (R371 to R373, R375). -/
def execCardStart (card : Nat) (s : State) : Out :=
  match tblFind s.cards card with
  | none => notEnabled
  | some c =>
    match c.wave, c.core with
    | some _, _ => notEnabled
    | none, some core => cardNext s card c core
    | none, none =>
      if c.tiles.any (fun t => tileGone s c t.1) then nextOf s (dropCard s card c 2)
      else if c.tiles.any (fun t => tileMoving s c t.1) then notEnabled
      else match chooseCore s c, freeCardRecord s c.ctx with
        | some core, some r => if launchAhead s c.ctx c.rank (dieOf core) || cardAhead s c.ctx c.rank (dieOf core) then notEnabled else nextOf s (cardChosen s card c core r)
        | _, _ => notEnabled

/-- R375: whether earlier work of a launch's context that fits on a die is placed there first (log 48, DEDUCED). -/
def aheadOf (s : State) (l : Launch) (d : Nat) : Bool := launchAhead s l.ctx l.rank d || cardAhead s l.ctx l.rank d

/-- COHORT_PLACE: the next cohort of a launch is placed on a die that has room, or all of a co-resident launch at once (R363, R367 to R369, R375) (log 48, DEDUCED). -/
def execCohortPlace (launch : Nat) (s : State) : Out :=
  match tblFind s.launches launch with
  | none => notEnabled
  | some l =>
    let put (r : State × Launch) : State := { r.1 with launches := tblPut r.1.launches launch r.2 }
    if l.status.isSome || !(depsReady s l) || depsFailed s l then notEnabled
    else if l.gang then
      if l.placed.isEmpty && (diesOf l).all (fun d => (nextOn l d).isNone || !(aheadOf s l d)) then (match placeGang s launch l 10 l.grid with | some r => nextOf s (put r) | none => notEnabled) else notEnabled
    else
      let ds := (diesOf l).filter (fun d => (nextOn l d).isSome && !(openQuads s l d).isEmpty && !(aheadOf s l d))
      match ds[free s 8 % ds.length]? with
      | none => notEnabled
      | some d => match placeOn s launch l d 10 with | some r => nextOf s (put r) | none => notEnabled

/-- R374: the grains that remain of a range. -/
def grainsLeft (r : Nat × Nat × Nat) : Nat := ceilDiv (r.2.1 - r.1) r.2.2

/-- R374: the range slots of a context that may be halved: the owner's core, its card, the grains left. -/
def askCandidates (s : State) (ctx : Nat) : List (Nat × Nat × Nat) :=
  s.cards.filterMap (fun e => match e.2.range, e.2.wave, e.2.core with
    | some r, some _, some core => if e.2.ctx = ctx ∧ 2 ≤ grainsLeft r then some (core, e.1, grainsLeft r) else none
    | _, _, _ => none)

/-- R374: whether one candidate is preferred to another: more grains, then the lower owner core. -/
def askBetter (a b : Nat × Nat × Nat) : Bool := decide (b.2.2 < a.2.2) || (decide (b.2.2 = a.2.2) && decide (a.1 < b.1))

/-- R374: the slot an asking core halves: one of its die where there is one. -/
def askPick (s : State) (core ctx : Nat) : Option (Nat × Nat × Nat) :=
  let l := askCandidates s ctx
  let near := l.filter (fun x => decide (dieOf x.1 = dieOf core))
  (if near.isEmpty then l else near).foldl (fun r x => match r with | none => some x | some b => if askBetter x b then some x else some b) none

/-- R374: a range halved: what its owner keeps, and what the new card takes. -/
def halve (r : Nat × Nat × Nat) : (Nat × Nat × Nat) × (Nat × Nat × Nat) :=
  let mid := r.1 + r.2.2 * ceilDiv (grainsLeft r) 2
  ((r.1, mid, r.2.2), (mid, r.2.1, r.2.2))

/-- R371: whether a card has chosen a core and is ready there: every tile it names is held there, no move of it is open. -/
def cardReady (s : State) (c : Card) (core : Nat) : Bool := c.wave.isNone && decide (c.core = some core) && c.moving.isEmpty && (tilesAway s c core).isEmpty

/-- ASK: a core with room for a card wave of a context and no ready card asks for work; the slot it is given is halved and its card's wave starts (R374). -/
def execAsk (core ctx : Nat) (s : State) : Out :=
  if s.cards.any (fun e => cardReady s e.2 core) then notEnabled
  else match askPick s core ctx, freeCardRecord s ctx with
    | some (_, k, _), some r =>
      match tblFind s.cards k with
      | none => notEnabled
      | some c =>
        match c.range with
        | none => notEnabled
        | some g =>
          let n : Card := { c with range := some (halve g).2, order := s.order, core := none, wave := none, pins := [], moving := [] }
          if (cardSects s n core).isEmpty then notEnabled
          else
            let s1 := { s with cards := tblPut s.cards k { c with range := some (halve g).1 }, order := s.order + 1 }
            let s2 := cardChosen s1 s.order n core r
            match tblFind s2.cards s.order with
            | some n1 => if !(mtxFree s n.kernel n.ctx core) then notEnabled else nextOf s (cardBegin s2 s.order n1 core)
            | none => notEnabled
    | _, _ => notEnabled

/-- R377: whether the release of a `post` has had its effect: every earlier load of the wave performed, every earlier store and every store its die has accepted performed at package scope. -/
def postReady (s : State) (v : Wave) (mark issue : Nat) : Bool := loadsDone (v.accs.filter (fun a => decide (a.id < mark))) && v.relPackage mark issue && (accepted s (dieOf v.core)).isEmpty

/-- R377: the image as `post` reads it; the bytes of a window are those that it has answered (log 51, DEDUCED). -/
def postImage (s : State) (who : WinFor) (die : Nat) (l : List AByte) : List Byte :=
  l.map (fun b => match b.at_ with
    | .dev pa => pocByte s die b.attr pa 0
    | .peer pa | .host pa => (winByte s who pa).getD 0
    | p => spadByte s p)

/-- R377, R416: the load of the image that a `post` makes as it issues: the state after it, and the image. -/
def postRead (e : Env) (s : State) (a : Nat) (bs : List AByte) : State × List Byte :=
  (matchAccess (winDrop (served e s true [{ va := a, n := 128 }]) (.sub e.w e.x)) (waveSeen e.w e.v 0 bs), postImage s (.sub e.w e.x) e.die bs)

/-- R375, R377: the post itself: the queue it leaves, where the card has its number in the order, and its result (log 51, DEDUCED). -/
def postDo (s : State) (ctx : Nat) (img : List Byte) : State × Nat :=
  if bits (leNat img) 0 8 ≠ 2 ∧ bits (leNat img) 0 8 ≠ 3 then (s, 2)
  else if (ctxAt s ctx).t.postQueue ≤ (ctxAt s ctx).posts.length then (s, 1)
  else (modCtx { s with order := s.order + 1 } ctx (fun c => { c with posts := c.posts ++ [(s.order, img)] }), 0)

/-- R377: the post of a card (log 49, DEDUCED). -/
def bodyPost (f : EN) (e : Env) (s : State) : Res :=
  let a := (e.rdS f.b).toNat
  if a % 128 ≠ 0 then .trap s (e.illegal 10)
  else match failedTrap e.v with
    | some t => takeFailed s e.w t
    | none =>
      match checkReqs e s true .load [{ va := a, n := 128, kind := .load [] }] with
      | .error b => reqFail e s .load b
      | .ok l =>
        let bs := (l.map (·.bytes)).flatten
        if e.slot.isSome then .done (engBare e s (.post bs (e.dstS f.a)) (e.dstS f.a)) {}
        else if postReady s e.v e.v.nextAcc e.now then
          match winWait e s a bs with
          | some r => r
          | none =>
            let x := postRead e s a bs
            let r := postDo x.1 e.v.ctx x.2
            .done r.1 { wr := e.wrS f.a (BitVec.ofNat 64 r.2) }
        else .hold s
/-- `post` (R377). -/
def execPost (f : EN) (s : State) : Out := issue (.post f) (bodyPost f) s

/-- R378: the next grain of a range slot: lo, n and the slot after. -/
def nextGrain (r : Nat × Nat × Nat) : Nat × Nat × (Nat × Nat × Nat) :=
  if r.1 < r.2.1 then
    let n := min r.2.2 (r.2.1 - r.1)
    (r.1, n, (r.1 + n, r.2.1, r.2.2))
  else (r.2.1, 0, r)

/-- R378: the next grain of the wave's range slot. -/
def bodyRnext (f : EN) (e : Env) (s : State) : Res :=
  match e.v.origin with
  | .card c _ =>
    match tblFind s.cards c with
    | some k =>
      match k.range with
      | some r =>
        let g := nextGrain r
        .done { s with cards := tblPut s.cards c { k with range := some g.2.2 } } { wr := e.wrS f.a (BitVec.ofNat 64 g.1) ++ e.wrS (f.a + 1) (BitVec.ofNat 64 g.2.1) }
      | none => .trap s (e.illegal 10)
    | none => .trap s (e.illegal 10)
  | _ => .trap s (e.illegal 10)
/-- `rnext` (R378). -/
def execRnext (f : EN) (s : State) : Out := issue (.rnext f) (bodyRnext f) s

end Sys2Proof.Machine
end

