-- ==== Sys2Proof/Machine/Frames.lean ====
section
/-! DEFINITION. The context store: frames, cohort records and core areas, written and read back (R127, R199, R410 to R412). -/

namespace Sys2Proof.Machine

/-- R127: the code of a branch state. -/
def brCode (b : BrState) : Nat := match b with | .run => 0 | .split => 1 | .wait => 2 | .gone => 3

/-- R127: the branch state of a code. -/
def brOf (x : Nat) : BrState := match x with | 0 => .run | 1 => .split | 2 => .wait | _ => .gone

/-- R127: a split record as a word. -/
def hingeWord (e : Hinge) : Nat := e.mask.toNat * 2 ^ 32 + 2 ^ 31 + e.parent % 16 * 2 ^ 27 + brCode e.tst * 2 ^ 25 + brCode e.fst * 2 ^ 23

/-- R127: a split record from its word and its own place in the tree, told by the branch state of its parent (log 54, DEDUCED). -/
def hingeOf (x : Nat) (pbranch : Bool) : Hinge := { mask := BitVec.ofNat 32 (x / 2 ^ 32), parent := bits x 27 4, pbranch := pbranch, tst := brOf (bits x 25 2), fst := brOf (bits x 23 2) }

/-- R127: a root entry. -/
def rootWord (mask : Nat) (split : Bool) : Nat := mask * 2 ^ 32 + 2 ^ 31 + ofBool split * 2 ^ 25

/-- R199: the two words of a loop level. -/
def loopWords (l : LoopLevel) : List Nat :=
  [ofBool l.firstit * 2 ^ 63 + bits l.start.toNat 3 54 * 8, l.remain % 2 ^ 32 * 2 ^ 32 + l.len % 2 ^ 15 * 2 ^ 17 + l.dreg % 256 * 2 ^ 9 + l.breg % 256 * 2 + 1]

/-- R199: a loop level from its words. -/
def loopOf (a b : Nat) : LoopLevel :=
  { firstit := bitAt a 63, start := sext64 57 (bits a 3 54 * 8), remain := bits b 32 32, len := bits b 17 15, dreg := bits b 9 8, breg := bits b 1 8 }

/-- R199: hinge entries 1 to 12 of a bundle thread, its loop levels outermost first. -/
def loopEntries (l : List LoopLevel) : List Nat := ((l.reverse.map loopWords).flatten ++ List.replicate 12 0).take 12

/-- R199: the loop levels of hinge entries 1 to 12, innermost first. -/
def loopsOf (l : List Nat) : List LoopLevel :=
  ((List.range 6).filterMap (fun n => if bitAt (l.getD (2 * n + 1) 0) 0 then some (loopOf (l.getD (2 * n) 0) (l.getD (2 * n + 1) 0)) else none)).reverse

/-- R127: whether a root is split: a split record splits its branch. -/
def Wave.rootSplit (v : Wave) (root : Nat) : Bool := v.hinge.any (fun e => decide (e.2.parent = root))

/-- R127, R466: hinge entries 0 to 15 of a SIMT wave. -/
def simtHinge (v : Wave) : List Nat :=
  (List.range 16).map (fun i =>
    if i = 0 then rootWord (if v.kernel.w16 then v.rootMask.toNat % 2 ^ 16 else v.rootMask.toNat) (v.rootSplit 0)
    else if v.kernel.w16 && decide (i = 8) then rootWord (v.rootMask.toNat / 2 ^ 16 * 2 ^ 16) (v.rootSplit 8)
    else match tblFind v.hinge i with | some e => hingeWord e | none => 0)

/-- R199: hinge entries 0 to 15 of a bundle thread. -/
def bundleHinge (v : Wave) : List Nat := (v.rootMask.toNat * 2 ^ 32 + 2 ^ 31) :: loopEntries v.bun.loops ++ [0, 0, 0]

/-- R411: the mode a frame records: a bundle thread (log 53, DEDUCED). -/
def Wave.isBundle (v : Wave) : Bool := match v.phase with | .simt | .converting _ => false | _ => true

/-- R411: bytes 12 to 15 of an entry of the sub-wave table. -/
def subByte (v : Wave) (x : Nat) (u : Sub) : Nat :=
  x / 2 + ofBool (decide (x % 2 = 1)) * 16 + ofBool (decide (u.hold = .atJoin)) * 32 + ofBool (v.handler.any (fun h => decide (h.sub = x))) * 64 + 128

/-- R411: the sub-wave table, as (offset, bytes, value). -/
def subFields (v : Wave) : List (Nat × Nat × Nat) :=
  ((List.range 16).map (fun i => match v.subs[i]? with
    | some (x, u) => [(0x440 + 16 * i, 8, u.pc.toNat), (0x448 + 16 * i, 4, u.mask.toNat), (0x44C + 16 * i, 4, subByte v x u)]
    | none => [(0x440 + 16 * i, 16, 0)])).flatten

/-- R411: a port's word. -/
def portWord (b : Option PortBind) : Nat := match b with | some b => b.chan + b.core * 256 + (if b.write then 2 else 1) * 2 ^ 24 | none => 0

/-- R411: the code of a token that is DONE or FAILED. -/
def tokCode (t : Token) : Nat := match t with | .failed _ _ => 2 | _ => 0

/-- R411: the fault of a token. -/
def tokFault (t : Token) : Nat × Nat := match t with | .failed a i => (a.toNat, i.toNat) | _ => (0, 0)

/-- R411: the special registers of a frame, by selector. -/
def frameSpecials (v : Wave) : List Word := [v.modeReg, BitVec.ofNat 64 v.flags, v.ctxbase, v.wdlimit, v.tpc, v.tcause, v.taddr, v.tinfo, v.tvec]

/-- R411: the yield fields of a frame. -/
def yieldFields (y : Option YieldSt) : List (Nat × Nat × Nat) :=
  match y with
  | some y => [(0x10, 8, y.cont.toNat), (0x18, 4, y.kind % 4 + y.idx % 16 * 16), (0x1C, 4, (nub y.toks).foldl (fun a k => a + 2 ^ k) 0)]
  | none => [(0x10, 16, 0)]

/-- R411: a list of numbers of n bytes each from an offset on. -/
def rowFields (off n : Nat) (l : List Nat) : List (Nat × Nat × Nat) := l.zipIdx.map (fun x => (off + n * x.2, n, x.1))

/-- R411: a frame, as (offset, bytes, value); the bundle area and the handler area stay as they are (log 53, DEDUCED). -/
def frameFields (v : Wave) (reason : Nat) (inh : Bool) : List (Nat × Nat × Nat) :=
  [(0, 4, 1), (4, 1, ofBool v.isBundle + 2 * ofBool inh + 4 * ofBool (v.bun.claim || v.handler.any (·.claim)) + 8 * ofBool v.yield_.isSome), (5, 1, reason), (6, 1, v.kernel.vregs), (7, 1, 0), (8, 8, v.wd)]
  ++ yieldFields v.yield_
  ++ [(0x20, 4, v.launchId), (0x24, 4, v.cohortIdx), (0x28, 2, v.index), (0x2A, 22, 0)]
  ++ rowFields 0x40 8 ((List.range 96).map (fun r => (v.getS r).toNat)) ++ rowFields 0x340 8 ((frameSpecials v).map (·.toNat)) ++ [(0x388, 56, 0)]
  ++ rowFields 0x3C0 8 (if v.isBundle then bundleHinge v else simtHinge v) ++ subFields v
  ++ rowFields 0x540 4 ((List.range 7).map (fun k => (v.getP k).toNat)) ++ [(0x55C, 4, 0)]
  ++ [(0x560, 8, packBits ((List.range 32).map (fun k => (2, tokCode (v.tok k))))), (0x568, 24, 0)]
  ++ rowFields 0x580 8 (((List.range 32).map (fun k => [(tokFault (v.tok k)).1, (tokFault (v.tok k)).2])).flatten)
  ++ rowFields 0x780 8 ((List.range 8).map (fun n => (tblGet 0 v.fregs n).toNat)) ++ rowFields 0x7C0 4 ((List.range 8).map (fun q => portWord (tblFind v.ports q)))
  ++ rowFields 0x7E0 2 ((List.range 16).map (fun g => tblGet 0 v.wph g)) ++ rowFields 0x800 64 ((List.range 16).map (fun n => wordsNat ((tblFind v.recs n).getD [])))
  ++ [(0xC68, 0x398, 0)]
  ++ ((List.range v.kernel.alloc).map (fun j => rowFields (0x1000 + 128 * j) 4 (lanes.map (fun l => (v.getV j l).toNat)))).flatten

/-- R219, R410, R457: the owner key and the place in device memory of a byte of a context's store, whose addresses the context's tables translate (log 40, DEDUCED). -/
def storePlace (s : State) (ctx va : Nat) : Option (Nat × Nat) :=
  match walk s ctx (va % 2 ^ 64) 0 with
  | .leaf l => if l.h || !(inDevice l.pa) then none else some (l.key, l.pa)
  | .page _ _ => none

/-- The places of `n` bytes of a context's store from an address on, `p` that of the first; each page is translated once. -/
def storePlaces (s : State) (ctx va : Nat) (p : Option (Nat × Nat)) : Nat → List (Option (Nat × Nat))
  | 0 => []
  | n + 1 =>
    let q := if va % 4096 = 0 then storePlace s ctx va else p
    q :: storePlaces s ctx (va + 1) (q.map (fun x => (x.1, x.2 + 1))) n

/-- The bytes of a context's store; one that its tables do not map reads as a free byte (log 40, DEDUCED). -/
def storeBytes (s : State) (ctx va n : Nat) : List Byte :=
  (storePlaces s ctx va (storePlace s ctx va) n).zipIdx.map (fun x => match x.1 with | some (k, pa) => homeByte s k pa 0 | none => BitVec.ofNat 8 (free s (2 ^ 73 + va + x.2)))

/-- Bytes written in a context's store at package scope; one that its tables do not map is dropped (log 40, DEDUCED). -/
def storePut (s : State) (ctx va : Nat) (l : List Byte) : State :=
  ((storePlaces s ctx va (storePlace s ctx va) l.length).zip l).foldl (fun t x => match x.1 with | some (k, pa) => packagePut t k pa x.2 | none => t) s

/-- Fields written in a context's store from a base on (log 40, DEDUCED). -/
def putFields (s : State) (ctx base : Nat) (l : List (Nat × Nat × Nat)) : State := l.foldl (fun t f => storePut t ctx (base + f.1) (leBytes f.2.1 f.2.2)) s

/-- The number of `n` bytes of a record in a context's store. -/
def getField (s : State) (ctx base off n : Nat) : Nat := leNat (storeBytes s ctx (base + off) n)

/-- Numbers of n bytes each from an offset on. -/
def getRow (s : State) (ctx base off n count : Nat) : List Nat := (List.range count).map (fun i => getField s ctx base (off + n * i) n)

/-- R411: whether an entry of a hinge stack splits the taken branch of its parent: the parent's taken branch is SPLIT and no lower valid entry claims it (log 54, DEDUCED). -/
def takenParent (ws : List Nat) (i : Nat) : Bool :=
  let p := bits (ws.getD i 0) 27 4
  let m := (ws.getD i 0) / 2 ^ 32
  p = 0 || (decide (brOf (bits (ws.getD p 0) 25 2) = .split) && (decide (brOf (bits (ws.getD p 0) 23 2) ≠ .split)
    || (List.range 16).all (fun j => decide (j = i) || !(bitAt (ws.getD j 0) 31) || decide (j = 0) || decide (bits (ws.getD j 0) 27 4 ≠ p) || decide (m ≤ ws.getD j 0 / 2 ^ 32))))

/-- R411: the split records of a frame; where both branches of an entry split, the place of each comes from the wave as it was parked (log 54, DEDUCED). -/
def hingesOf (ws : List Nat) (w16 : Bool) (old : Tbl Hinge) : Tbl Hinge :=
  (List.range 16).filterMap (fun i => if !(isRoot w16 i) && bitAt (ws.getD i 0) 31 then some (i, hingeOf (ws.getD i 0) (match tblFind old i with | some e => e.pbranch | none => takenParent ws i)) else none)

/-- R411: the sub-waves of a frame. -/
def subsOf (s : State) (ctx f : Nat) : Tbl Sub :=
  (List.range 16).foldl (fun t i =>
    let b := getField s ctx f (0x44C + 16 * i) 1
    if bitAt b 7 then tblPut t (bits b 0 4 * 2 + bits b 4 1) { pc := BitVec.ofNat 64 (getField s ctx f (0x440 + 16 * i) 8), mask := BitVec.ofNat 32 (getField s ctx f (0x448 + 16 * i) 4), hold := if bitAt b 5 then .atJoin else .run } else t) []

/-- R411: the tokens of a frame. -/
def toksOf (s : State) (ctx f : Nat) : Tbl Token :=
  (List.range 32).filterMap (fun k => if bits (getField s ctx f 0x560 8) (2 * k) 2 = 2 then some (k, .failed (BitVec.ofNat 64 (getField s ctx f (0x580 + 16 * k) 8)) (BitVec.ofNat 64 (getField s ctx f (0x588 + 16 * k) 8))) else none)

/-- R411: the port bindings of a frame. -/
def portsOf (s : State) (ctx f : Nat) : Tbl PortBind :=
  (List.range 8).filterMap (fun q =>
    let x := getField s ctx f (0x7C0 + 4 * q) 4
    if bits x 24 2 = 0 then none else some (q, { core := bits x 8 9, chan := bits x 0 3, write := decide (bits x 24 2 = 2) }))

/-- R411: the records of a frame. -/
def recsOf (s : State) (ctx f : Nat) : Tbl (List Word) :=
  (List.range 16).filterMap (fun n => let x := getField s ctx f (0x800 + 64 * n) 64; if recValid x then some (n, words8 x) else none)

/-- R411: the yield condition of a frame. -/
def yieldOf (s : State) (ctx f : Nat) (old : Option YieldSt) : YieldSt :=
  let c := getField s ctx f 0x18 4
  { (old.getD {}) with kind := bits c 0 2, idx := bits c 4 4, cont := BitVec.ofNat 64 (getField s ctx f 0x10 8), toks := (List.range 32).filter (fun k => bitAt (getField s ctx f 0x1C 4) k) }

/-- A table of the nonzero numbers of a list, under their places. -/
def tblOf (l : List Nat) : Tbl Nat := l.zipIdx.filterMap (fun x => if x.1 = 0 then none else some (x.2, x.1))

/-- R411: the vector registers of a frame. -/
def vregsOf (s : State) (ctx f alloc : Nat) : Tbl Lane32 :=
  ((List.range alloc).map (fun j => lanes.filterMap (fun l => let x := BitVec.ofNat 32 (getField s ctx f (0x1000 + 128 * j + 4 * l) 4); if x = 0 then none else some (32 * j + l, x)))).flatten

/-- R407, R411: the control registers of a wave from its frame. -/
def loadControl (s : State) (ctx f : Nat) (v : Wave) : Wave :=
  let sp := getRow s ctx f 0x340 8 9
  let w (i : Nat) : Word := BitVec.ofNat 64 (sp.getD i 0)
  { v with wd := getField s ctx f 8 8, s := (tblOf (getRow s ctx f 0x40 8 96)).map (fun e => (e.1, BitVec.ofNat 64 e.2)), rm := sp.getD 0 0 % 4, ftz := bitAt (sp.getD 0 0) 2, flags := sp.getD 1 0 % 32,
           ctxbase := w 2, wdlimit := w 3, tpc := w 4, tcause := w 5, taddr := w 6, tinfo := w 7, tvec := w 8 }

/-- R407, R411: a wave as its frame gives it; what no frame holds is as it was parked (log 55, DEDUCED). -/
def loadFrame (s : State) (f : Nat) (old : Wave) : Wave :=
  let ctx := old.ctx
  let st := getField s ctx f 4 1
  let ws := getRow s ctx f 0x3C0 8 16
  let v := loadControl s ctx f old
  let root := BitVec.ofNat 32 (ws.getD 0 0 / 2 ^ 32) ||| (if v.kernel.w16 then BitVec.ofNat 32 (ws.getD 8 0 / 2 ^ 32) else 0)
  { v with
    hinge := if bitAt st 0 then [] else hingesOf ws v.kernel.w16 old.hinge
    subs := subsOf s ctx f
    rootMask := root
    phase := if bitAt st 0 then .bundle else .simt
    bun := { loops := if bitAt st 0 then loopsOf (ws.drop 1) else [], claim := bitAt st 2 && (bitAt st 0 || bitAt st 1), firstAt := s.clock + 16, counters := old.bun.counters, lastHdr := old.bun.lastHdr, lastStamp := old.bun.lastStamp }
    handler := if bitAt st 1 then old.handler.map (fun h => if bitAt st 0 then h else { h with claim := bitAt st 2 }) else none
    yield_ := if bitAt st 3 then some (yieldOf s ctx f old.yield_) else none
    v := vregsOf s ctx f v.kernel.alloc
    p := ((tblOf (getRow s ctx f 0x540 4 7)).map (fun e => (e.1, BitVec.ofNat 32 e.2)))
    toks := toksOf s ctx f
    fregs := (tblOf (getRow s ctx f 0x780 8 8)).map (fun e => (e.1, BitVec.ofNat 64 e.2))
    ports := portsOf s ctx f
    wph := tblOf (getRow s ctx f 0x7E0 2 16)
    recs := recsOf s ctx f
    parkReq := none
    preemptAt := none }

/-- R311: a gate's state word. -/
def gateWord (g : Gate) : Nat := ofBool g.err * 2 ^ 63 + g.expect % 2 ^ 15 * 2 ^ 48 + ofBool g.nextV * 2 ^ 47 + g.nextExp % 2 ^ 15 * 2 ^ 32 + g.count % 2 ^ 16 * 2 ^ 16 + g.phase % 2 ^ 16

/-- R311: a gate from its state word. -/
def gateOfWord (x : Nat) : Gate := { phase := bits x 0 16, count := bits x 16 16, expect := bits x 48 15, nextV := bitAt x 47, nextExp := bits x 32 15, err := bitAt x 63 }

/-- R410: the head of a cohort record, its gates and saved census slots, as (offset, bytes, value); `slots` are (position, slot, value, status). -/
def recordFields (c : Cohort) (slots : List (Nat × Nat × Word × Word)) : List (Nat × Nat × Nat) :=
  [(0, 4, c.total), (4, 1, c.spad.length), (5, 3, 0), (8, 4, c.kernel.spad), (0xC, 52, 0)]
  ++ rowFields 0x40 8 ((List.range 16).map (fun g => gateWord (tblGet {} c.gates g)))
  ++ [(0xC0, 8, slots.foldl (fun a x => a + 2 ^ (16 * x.1 + x.2.1)) 0), (0xC8, 56, 0), (0x100, 0xF00, 0)]
  ++ (slots.map (fun x => [(0x100 + 0x100 * x.1 + 16 * x.2.1, 8, x.2.2.1.toNat), (0x108 + 0x100 * x.1 + 16 * x.2.1, 8, x.2.2.2.toNat)])).flatten

/-- R410: the scratchpad image of a cohort's i-th core. -/
def spadBytes (a : SpadAlloc) : List Byte := (List.range a.size).map (fun o => tblGet 0 a.bytes o)

/-- R406, R410: a cohort record written, but for its frames; a poisoned byte makes its line of the record poisoned (log 55, DEDUCED). -/
def putRecord (s : State) (base : Nat) (c : Cohort) (slots : List (Nat × Nat × Word × Word)) : State :=
  let s1 := putFields s c.ctx base (recordFields c slots)
  c.spad.zipIdx.foldl (fun t x =>
    let b := base + 0x1000 + 0x80000 * x.2
    let t1 := storePut t c.ctx b (spadBytes x.1.2)
    { t1 with poison := nub (x.1.2.poison.filterMap (fun o => (storePlace s c.ctx (b + o)).map (fun q => lineOf q.2)) ++ t1.poison) }) s1

/-- R407, R410: the scratchpad image of a cohort's i-th core read back; a poisoned line leaves its bytes poisoned (log 55, DEDUCED). -/
def loadSpad (s : State) (ctx base i : Nat) (a : SpadAlloc) : SpadAlloc :=
  let b := base + 0x1000 + 0x80000 * i
  { a with bytes := (storeBytes s ctx b a.size).zipIdx.filterMap (fun x => if x.1 = 0 then none else some (x.2, x.1)),
           poison := (storePlaces s ctx b (storePlace s ctx b) a.size).zipIdx.filterMap (fun x => if x.1.any (fun q => poisoned s q.2) then some x.2 else none) }

/-- R407, R410: a cohort's gates read back. -/
def loadGates (s : State) (ctx base : Nat) : Tbl Gate := ((getRow s ctx base 0x40 8 16).zipIdx).filterMap (fun x => if gateOfWord x.1 = {} then none else some (x.2, gateOfWord x.1))

/-- R410: the census slots that a record holds: (position, slot, value, status). -/
def recordSlots (s : State) (ctx base : Nat) : List (Nat × Nat × Word × Word) :=
  ((List.range 64).filter (fun i => bitAt (getField s ctx base 0xC0 8) i)).map (fun i =>
    (i / 16, i % 16, BitVec.ofNat 64 (getField s ctx base (0x100 + 16 * i) 8), BitVec.ofNat 64 (getField s ctx base (0x108 + 16 * i) 8)))

/-- R412: the core area of a context for a logical core. -/
def areaAt (t : CtxTable) (core : Nat) : Nat := t.coreAreas + 0xE0000 * core

/-- R412: the matrix state as (offset, bytes, value). -/
def matrixFields (m : Matrix) : List (Nat × Nat × Nat) :=
  ((List.range 8).map (fun n => rowFields (0x10000 + 0x8000 * n) 512 ((List.range 64).map (fun r => (tblGet [] m.acc n).getD r 0)))).flatten
  ++ ((List.range 4).map (fun n => rowFields (0x50000 + 0x1000 * n) 32 ((List.range 128).map (fun c => (tblGet [] m.station n).getD c 0)))).flatten
  ++ ((List.range 4).map (fun n => rowFields (0x54000 + 0x800 * n) 32 ((List.range 64).map (fun r => (tblGet [] m.stage n).getD r 0)))).flatten
  ++ (List.range 4).map (fun n => (0x56000 + 8 * n, 8, (tblGet (0, false) m.rank n).1 % 1024 + ofBool (tblGet (0, false) m.rank n).2 * 2 ^ 16))
  ++ ((List.range 4).map (fun n => rowFields (0x60000 + 0x20000 * n) 256 ((List.range 512).map (fun r => (tblGet [] m.proj n).getD r 0)))).flatten

/-- R337: the station columns that hold canonical NaNs, as (station, column). -/
def nanColumns (m : Matrix) : List (Nat × Nat) :=
  (m.station.map (fun t => (t.2.zipIdx.filter (fun c => decide (2 ^ 256 ≤ c.1))).map (fun c => (t.1, c.2)))).flatten

/-- R337: a matrix state with station columns that hold canonical NaNs. -/
def Matrix.marked (m : Matrix) (l : List (Nat × Nat)) : Matrix :=
  { m with station := m.station.map (fun t => (t.1, t.2.zipIdx.map (fun c => if (t.1, c.2) ∈ l then 2 ^ 256 + c.1 % 2 ^ 256 else c.1))) }

/-- R412: the matrix state of a core area. -/
def loadMatrix (s : State) (ctx base : Nat) : Matrix :=
  let rows (off n count : Nat) : List Nat := getRow s ctx base off n count
  { ctx := some ctx, acc := (List.range 8).map (fun n => (n, rows (0x10000 + 0x8000 * n) 512 64)), station := (List.range 4).map (fun n => (n, rows (0x50000 + 0x1000 * n) 32 128)),
    stage := (List.range 4).map (fun n => (n, rows (0x54000 + 0x800 * n) 32 64)), proj := (List.range 4).map (fun n => (n, rows (0x60000 + 0x20000 * n) 256 512)),
    rank := (List.range 4).map (fun n => let x := getField s ctx base (0x56000 + 8 * n) 8; (n, (bits x 0 10, bitAt x 16))) }

/-- R412: a channel as (offset, bytes, value). -/
def chanFields (c : Nat) (l : List ChanEntry) : List (Nat × Nat × Nat) :=
  (0x2200 + 0x400 * c, 8, l.length % 128) :: rowFields (0x2208 + 0x400 * c) 8 (l.map (fun e => (e.val.getD 0).toNat))

/-- R412: the entries of a channel of a core area, numbered from `next`. -/
def loadChan (s : State) (ctx base c next : Nat) : List ChanEntry :=
  (List.range (min 64 (bits (getField s ctx base (0x2200 + 0x400 * c) 8) 0 7))).map (fun i => { id := next + i, val := some (BitVec.ofNat 64 (getField s ctx base (0x2208 + 0x400 * c + 8 * i) 8)), arrived := true })

end Sys2Proof.Machine
end

