-- ==== Sys2Proof/Machine/Traps.lean ====
section
/-! DEFINITION. Asynchronous causes at a boundary, `tret`, aging, and the gap and pre-emption limits (R136, R139, R224, R391 to R395, R400, R405). -/

namespace Sys2Proof.Machine

/-- R395: what `tret` refuses: outside the handler state, or where the mask or hinge position differs from entry. -/
def tretBad (e : Env) : Option Trap :=
  match e.v.handler with
  | none => some (e.illegal 10)
  | some h => if e.x ≠ h.sub ∨ e.mask ≠ h.mask then some (e.modeTrap 10) else none

/-- R390: TCAUSE.BUNDLE. -/
def Wave.causeBundle (v : Wave) : Bool := bitAt v.tcause.toNat 8

/-- R400: a wave back in bundle mode with the claim it held, its loop levels from the frame's bundle area as it stands. -/
def Wave.toBundle (v : Wave) (s : State) (claim : Bool) : Wave :=
  { v with phase := .bundle, bun := { flights := v.bun.flights, loops := loopsOf (getRow s v.ctx v.frame 0xC00 8 12), claim := claim, claimWait := v.bun.claimWait, firstAt := s.clock + 16, counters := v.bun.counters, lastHdr := v.bun.lastHdr, lastStamp := v.bun.lastStamp } }

/-- R395: a wave whose handler returns, or parks; a yield whose resumption raised DIVERGE stands again (R431). -/
def tretWave (s : State) (v : Wave) (x : Nat) (park : Bool) : Wave :=
  let v1 := { v.leaveHandler x with yield_ := v.handler.bind (·.yield) }
  let v2 := if v.causeBundle then v1.toBundle s v.keptClaim else v1
  if park then { v2 with parkReq := some (v.tcause.toNat % 256, false) } else v2

/-- R395: the return from a handler; in a bundle the thread first drains. The handler state is left before the issue completes, so that the issue of a SIMT `tret` counts for the watchdog (log 97, DEDUCED). -/
def bodyTret (park : Bool) (e : Env) (s : State) : Res :=
  match tretBad e with
  | some t => .trap s t
  | none =>
    if e.slot.isSome then .done (modWave s e.w (fun v => { v with phase := .tretDrain park })) { go := .kept }
    else .done (modWave s e.w (fun v => tretWave s v e.x park)) { go := .kept }
/-- `tret` (R395). -/
def execTret (f : RRR) (s : State) : Out := issue (.tret f) (bodyTret false) s
/-- `tret.park` (R395). -/
def execTretPark (f : RRR) (s : State) : Out := issue (.tretPark f) (bodyTret true) s

/-- R391: whether every instruction that a wave has issued has completed: none waits for responses, and no `gsync` or completed gate wait is left (log 33, DEDUCED). -/
def atBoundary (s : State) (v : Wave) : Bool :=
  v.subs.all (fun u => match u.2.hold with
    | .peer _ _ _ => false
    | .gate g _ sync => !sync && !(gateOver s v g)
    | _ => true)

/-- R405: a waiting sub-wave as a boundary finds it: it stands at its instruction, which it will execute in full again (log 33, DEDUCED). -/
def Hold.stand (h : Hold) : Hold := match h with | .atJoin => .atJoin | _ => .run

/-- R391, R405: a wave stopped at a boundary. -/
def Wave.stand (v : Wave) : Wave :=
  { v with subs := v.subs.map (fun u => (u.1, { u.2 with hold := u.2.hold.stand })), accs := v.accs.filter (fun a => decide (a.kind ≠ .poll)) }

/-- R279: the channel entries that a wave's waiting `waitv`s have reserved are released, as they will execute in full again. -/
def freeWaits (s : State) (v : Wave) : State :=
  freeDsts s (v.subs.map (fun u => match u.2.hold with | .waitv q => q.dst | _ => [])).flatten

/-- R391: the sub-wave at whose boundary an asynchronous cause is taken: the one with the lowest active lane that waits at no `join`. -/
def asyncSub (v : Wave) : Nat :=
  match v.subs.filter (fun u => decide (u.2.hold ≠ .atJoin)) with
  | [] => v.soleSub
  | u :: r => (r.foldl (fun m y => if lowestLane y.2.mask < lowestLane m.2.mask then y else m) u).1

/-- R391, R392, R405: an asynchronous cause taken by a SIMT wave. With TVEC 0, PREEMPT parks the wave and MIGRATE is not delivered. -/
def takeAsync (s : State) (w x : Nat) (v : Wave) (t : Trap) : State :=
  let s1 := modWave (dropReads (freeWaits s v) w) w (·.stand)
  if v.tvec = 0 ∧ t.cause = .preempt then modWave s1 w (parkAsk 16 false)
  else if v.tvec = 0 ∧ t.cause = .migrate then s1
  else enterTrap s1 w x t

/-- R392, R421: whether a wave may take an asynchronous cause now. -/
def mayTake (s : State) (v : Wave) : Bool :=
  !v.ended && !v.stopped && !v.inHandler && v.yield_.isNone && v.parkReq.isNone && (match v.phase with
    | .simt => !v.subs.isEmpty && atBoundary s v
    | .bundle => v.bun.gsyncHold.isNone
    | _ => false)

/-- The cause taken, in the mode the wave is in: a bundle thread drains first (R400). -/
def takeCause (s : State) (w x : Nat) (v : Wave) (t : Trap) : State :=
  match v.phase with
  | .simt => takeAsync s w x v t
  | _ => if v.tvec = 0 ∧ t.cause = .migrate then s else drainTrap s w t true

/-- TRAP_ENTRY: a cause held for a wave is taken at its next instruction boundary (R391, R392, R405, R418, R443). -/
def execTrapEntry (w : Nat) (s : State) : Out :=
  match waveAt s w with
  | none => notEnabled
  | some v =>
    match v.held with
    | [] => notEnabled
    | (c, a, i) :: r =>
      if mayTake s v then nextOf s (settle (takeCause (modWave s w (fun u => { u with held := r })) w (asyncSub v) v (asTaken s v { cause := c, addr := a, info := i })))
      else notEnabled

/-- WATCHDOG: a wave whose count has reached WDLIMIT takes WATCHDOG at the boundary of the instruction that raised it (R139, R140). -/
def execWatchdog (w : Nat) (s : State) : Out :=
  match waveAt s w with
  | none => notEnabled
  | some v =>
    match v.async with
    | none => notEnabled
    | some (c, a, i, x) =>
      if mayTake s v && !(v.waitOpen x) then nextOf s (settle (takeCause (modWave s w (fun u => { u with async := none })) w (if (tblFind v.subs x).isSome then x else asyncSub v) v { cause := c, addr := a, info := i }))
      else notEnabled

/-- SUBWAVE_AGED: the ready count of a sub-wave reaches 1,024 (R136). -/
def execSubwaveAged (w x : Nat) (s : State) : Out :=
  match waveAt s w with
  | none => notEnabled
  | some v =>
    match tblFind v.subs x with
    | none => notEnabled
    | some u =>
      let k := tblGet {} (coreAt s (physCore s v.core)).sects v.sect
      if u.aged = 1023 ∧ k.issuedAt = some s.clock ∧ k.last ≠ some (w, x) then nextOf s (modWave s w (fun v => v.modSub x (fun u => { u with aged := 1024 }))) else notEnabled

/-- R224: a gap of a context gone. -/
def dropGap (s : State) (ctx g : Nat) : State := modCtx s ctx (fun c => { c with gaps := tblErase c.gaps g })

/-- R224, R401: the trap of an access of a bundle thread that its check found. -/
def accFault (s : State) (w : Nat) (a : Acc) (t : Trap) : State :=
  modWave (releaseEntries s [a]) w (fun v => { v with accs := v.accs.filter (fun x => decide (x.id ≠ a.id)), bun := { v.bun with faults := v.bun.faults ++ [v.accPending t a] } })

/-- R391, R421: whether a gap's trap is entered later (log 105, DEDUCED). -/
def gapLater (s : State) (x : Gap) : Bool :=
  match x.wave with
  | some (w, y) => (waveAt s w).any (fun v => decide (v.phase = .simt) && v.trapLater y)
  | none => false

/-- R224, R303: a gap answered as unmapped, or not in time: the access raises PAGE, or the engine instruction fails; an access whose sub-wave a handler has stopped executes again. -/
def gapUnmapped (s : State) (ctx g : Nat) (x : Gap) : State :=
  let s1 := dropGap s ctx g
  match x.eng, x.wave with
  | some k, _ =>
    match tblFind s1.eng k with
    | some o => if o.gap = some g then opFailed s1 k o (o.fault.getD (0, 0)) else s1
    | none => s1
  | none, some (w, y) =>
    match waveAt s1 w with
    | none => s1
    | some v =>
      if v.holdOf y = .gap g then
        let s2 := modWave s1 w (fun v => v.modSub y (fun u => { u with hold := .run }))
        if gapLater s x then modCtx s ctx (fun c => { c with gaps := tblPut c.gaps g { x with unmapped := true } })
        else if v.awake y then raiseTrap s2 w y x.trap else s2
      else match v.accs.find? (fun a => decide (a.gap = some g)) with
        | some a => accFault s1 w a x.trap
        | none => s1
  | none, none => s1

/-- R421: whether a gap's limit does not advance because its wave is stopped. -/
def gapStopped (s : State) (x : Gap) : Bool :=
  match x.wave, x.eng with
  | some (w, _), _ => (waveAt s w).any (·.stopped)
  | none, some k => ((tblFind s.eng k).bind (fun o => waveAt s o.wave)).any (·.stopped)
  | none, none => false

/-- GAP_LIMIT: no answer to a gap has come within the context's gap limit, or one that the wave can act on only now (R224). -/
def execGapLimit (ctx gap : Nat) (s : State) : Out :=
  match tblFind (ctxAt s ctx).gaps gap with
  | none => notEnabled
  | some x => if (x.unmapped = true ∨ x.since + (ctxAt s ctx).t.gapLimit ≤ s.clock) ∧ gapStopped s x = false ∧ gapLater s x = false then nextOf s (settle (gapUnmapped s ctx gap x)) else notEnabled

/-- PREEMPT_LIMIT: a wave has not parked within the pre-emption limit: it parks at its next boundary (R405) (log 53, DEDUCED). -/
def execPreemptLimit (w : Nat) (s : State) : Out :=
  match waveAt s w with
  | none => notEnabled
  | some v =>
    match v.preemptAt with
    | none => notEnabled
    | some t =>
      if t + (ctxAt s v.ctx).t.preemptLimit ≤ s.clock ∧ v.parkReq.isNone = true ∧ v.stopped = false ∧ v.ended = false ∧ (v.inHandler || !(v.held.any (fun h => decide (h.1 = .preempt)))) = true then
        nextOf s (modWave s w (fun v => { v with parkReq := some (16, true), held := v.held.filter (fun h => decide (h.1 ≠ .preempt)) }))
      else notEnabled

end Sys2Proof.Machine
end

