-- ==== Sys2Proof/Machine/Park.lean ====
section
/-! DEFINITION. Parking and placing again (R394, R405 to R409). -/

namespace Sys2Proof.Machine

/-- R394: whether a wave of a faulted context may stop: it does not wait for responses; one that waits at a gate stops there (log 47). -/
def faultStop (s : State) (v : Wave) : Bool :=
  (ctxAt s v.ctx).faulted.isSome && v.subs.all (fun u => match u.2.hold with | .peer _ _ _ => false | _ => true)

/-- R406, R408: whether a wave that was asked to park may: its issue stands at a boundary, nothing of it is in flight, no census slot of its cohort is OPEN (log 47, DEDUCED). -/
def mayPark (s : State) (w : Nat) (v : Wave) : Bool :=
  !v.ended && !v.stopped && v.drained && v.owed.isEmpty && !(engLeft s w) && (atBoundary s v || faultStop s v) && v.bun.regions.isEmpty && (v.bun.faults.isEmpty || faultStop s v)
    && (match v.phase with | .simt => true | .bundle => v.bun.gsyncHold.isNone || faultStop s v | _ => false)
    && !(s.cores.any (fun c => c.2.slots.any (fun x => decide (x.1 / 16 = v.ctx) && decide (x.2.cohort = v.cohort) && !x.2.done)))

/-- R409, R410: the address of a cohort's record (log 40, DEDUCED; log 43, DESIGN CHOICE). -/
def recordAt (s : State) (c : Cohort) : Nat :=
  if c.card.isSome then (ctxAt s c.ctx).t.cardPoolBase + cardStride * c.recNo else (ctxAt s c.ctx).t.cohortRecords + recordStride * c.recNo

/-- R408: the DONE census slots that waves of a cohort opened, by the position of their core. -/
def cohortSlots (s : State) (co : Nat) (c : Cohort) : List (Nat × Nat × Word × Word) :=
  ((tblKeys c.spad).zipIdx.map (fun k => ((coreAt s (physCore s k.1)).slots.filter (fun x => decide (x.1 / 16 = c.ctx) && decide (x.2.cohort = co) && x.2.done)).map (fun x => (k.2, x.1 % 16, x.2.value, x.2.status)))).flatten

/-- R406, R408: when every wave of a cohort is parked, the cohort's record is written and its scratchpad released. -/
def parkCohort (s : State) (co : Nat) : State :=
  match tblFind s.cohorts co, tblFind s.parked co with
  | some c, some p =>
    if c.waves.all (fun w => (waveAt s w).isNone) then
      let slots := cohortSlots s co c
      let s1 := putRecord s (recordAt s c) c slots
      let s2 := (tblKeys c.spad).zipIdx.foldl (fun t k => modCore t (physCore t k.1) (fun x => { x with slots := x.slots.filter (fun y => !(decide (y.1 / 16 = c.ctx) && slots.any (fun z => decide (z.1 = k.2) && decide (z.2.1 = y.1 % 16)))) })) s1
      { dropMig s2 co with cohorts := tblErase s2.cohorts co, parked := tblPut s2.parked co { p with co := c } }
    else s
  | _, _ => s

/-- R382, R412: the channels of a physical core that a context holds. -/
def heldChans (s : State) (p ctx : Nat) : List Nat := (List.range 8).filter (fun ch => decide (ctx ∈ chanHolders s p ch))

/-- R406, R412: the last wave of a context has left a core: the matrix state and the held channels go to its core area, for every parked cohort that had waves there. -/
def leaveCore (s : State) (core ctx : Nat) : State :=
  let p := physCore s core
  let a := areaAt (ctxAt s ctx).t core
  let m := (coreAt s p).mx
  let chans := (heldChans s p ctx).map (fun ch => (ch, chanEntries s p ch))
  let s1 := if m.ctx = some ctx then putFields s ctx a (matrixFields m) else s
  let s2 := chans.foldl (fun t c => putFields t ctx a (chanFields c.1 c.2)) s1
  let s3 := if m.ctx = some ctx ∨ chans.isEmpty = false then putFields s2 ctx a [(0x4200, 0xBE00, 0)] else s2
  let s4 := modCtx s3 ctx (fun c => { c with saved := tblPut c.saved core chans })
  { s4 with parked := s4.parked.map (fun q => if q.2.co.ctx = ctx ∧ core ∈ tblKeys q.2.co.spad then (q.1, { q.2 with cores := nub (core :: q.2.cores), owners := tblPut q.2.owners core (m.own, m.by_), marks := tblPut q.2.marks core (nanColumns m) }) else q) }

/-- R406: whether a wave of a context is resident on a logical core. -/
def resides (s : State) (core ctx : Nat) : Bool := s.waves.any (fun e => decide (e.2.ctx = ctx) && decide (physCore s e.2.core = physCore s core))

/-- R406: the cores that the last wave of a context has left, by parking or by ending, since the context has a parked cohort of them: each is saved once; a core where a wave is resident again has no saved state (log 55, DEDUCED). -/
def leaveCores (s : State) : State :=
  let s1 : State := { s with ctxs := s.ctxs.map (fun c => (c.1, { c.2 with saved := c.2.saved.filter (fun k => !(resides s k.1 c.1)) })) }
  ((s1.parked.map (fun q => (tblKeys q.2.co.spad).map (fun k => (q.2.co.ctx, k)))).flatten).foldl (fun t x =>
    if resides t x.2 x.1 || (tblFind (ctxAt t x.1).saved x.2).isSome then t else leaveCore t x.2 x.1) s1

/-- R406: a wave parked: its frame is written, its place and registers are released (log 53, DEDUCED). -/
def parkWave (s : State) (w : Nat) (v : Wave) (reason : Nat) (inh : Bool) : State :=
  let s1 := putFields (freeWaits s v) v.ctx v.frame (frameFields v reason inh)
  let v1 := { v.stand with parkReq := none, preemptAt := none }
  let old := (tblFind s1.parked v.cohort).getD {}
  let co := (tblFind s1.cohorts v.cohort).getD {}
  let s2 := { s1 with waves := tblErase s1.waves w, parked := tblPut s1.parked v.cohort { old with co := co, recNo := co.recNo, waves := old.waves ++ [v1] } }
  placeFreed (parkCohort (leaveCores s2) v.cohort) v.core v.sect v.kernel.alloc

/-- R401, R405: whether a bundle thread that was asked to park takes first a fault that a check has found (log 47, DEDUCED). -/
def parkFault (s : State) (v : Wave) : Bool := decide (v.phase = .bundle) && !v.stopped && !v.ended && !v.bun.faults.isEmpty && !(faultStop s v)

/-- PARK: a wave that was asked to park is parked (R394, R406, R408); a bundle thread with a fault that a check has found first traps. -/
def execPark (w : Nat) (s : State) : Out :=
  match waveAt s w with
  | none => notEnabled
  | some v =>
    match v.parkReq with
    | none => notEnabled
    | some (reason, inh) => if parkFault s v then nextOf s (foundFault s w v) else if mayPark s w v then nextOf s (settle (parkWave s w v reason inh)) else notEnabled

/-- R407: what a core gives the parked waves of one position: the base of the scratchpad, and a place for each wave in the section it had (log 55, DEDUCED). -/
def placesAgain (s : State) (ctx core cls : Nat) (planned : List (Nat × Nat)) : List Wave → Option (List (Nat × Nat))
  | [] => some planned
  | v :: r =>
    let n := (planned.filter (fun x => decide (x.1 = v.sect))).length
    if sectFits s ctx core v.sect v.kernel.alloc n cls v.conv none then
      match (freePlaces s (physCore s core) v.sect)[n]? with
      | some q => placesAgain s ctx core cls (planned ++ [(v.sect, q)]) r
      | none => none
    else none

/-- R407, R408: whether a core takes the parked waves of a position: its census slots that the record names are IDLE, its matrix engine free. -/
def coreAgain (s : State) (c : Cohort) (slots : List Nat) (ws : List Wave) (core : Nat) : Option (Nat × List (Nat × Nat)) :=
  let p := physCore s core
  let here := s.waves.filter (fun x => decide (physCore s x.2.core = p))
  if !(mayPlace s c.ctx core) || slots.any (fun e => (slotOf s p c.ctx e).isSome) || !(mtxFree s c.kernel c.ctx core)
    || (ws.any (fun v => v.bun.claim) && here.any (fun x => x.2.bun.claim)) then none
  else match spadBase (spadHeld s core) c.kernel.spad, placesAgain s c.ctx core c.cls [] ws with
    | some b, some l => some (b, l)
    | _, _ => none

/-- The waves of a parked cohort by position, in index order, each with its number. -/
def parkedAt (p : Parked) : List (List (Nat × Wave)) :=
  let ws := p.co.waves.zip (p.waves.mergeSort (fun a b => decide (a.index ≤ b.index)))
  (tblKeys p.co.spad).map (fun k => ws.filter (fun x => decide (x.2.core = k)))

/-- R407: the positions of a parked cohort given to the lowest cores that take them. -/
def planAgain (s : State) (c : Cohort) (slots : List (Nat × Nat × Word × Word)) : List Nat → Nat → List (List (Nat × Wave)) → Option (List (Nat × Nat × List (Nat × Nat)))
  | _, _, [] => some []
  | [], _, _ :: _ => none
  | core :: cs, i, ws :: r =>
    match coreAgain s c ((slots.filter (fun x => decide (x.1 = i))).map (·.2.1)) (ws.map (·.2)) core with
    | some x => (planAgain s c slots cs (i + 1) r).map (fun t => (core, x) :: t)
    | none => planAgain s c slots cs i (ws :: r)

/-- R363, R369, R441: whether a quad may take a parked cohort. -/
def quadAgain (s : State) (c : Cohort) (q : Nat) : Bool := quadTakes s c.qlock c.conv q

/-- R407: one position of a cohort restored on its core: scratchpad, census slots, matrix state, waves (log 55, DEDUCED). -/
def restoreCore (s : State) (co : Nat) (p : Parked) (base i : Nat) (x : Nat × Nat × List (Nat × Nat)) (old : Nat) (ws : List (Nat × Wave)) : State :=
  let core := x.1
  let pc := physCore s core
  let s1 := modCohort s co (fun c => { c with spad := tblPut c.spad core (loadSpad s p.co.ctx base i { (tblGet {} p.co.spad old) with base := x.2.1, away := [] }) })
  let s2 := ((recordSlots s p.co.ctx base).filter (fun y => decide (y.1 = i))).foldl (fun t y => openSlot t pc p.co.ctx y.2.1 { done := true, value := y.2.2.1, status := y.2.2.2, cohort := co }) s1
  let s3 := if p.co.kernel.mtx ∧ old ∈ p.cores ∧ resides s core p.co.ctx = false then
    modCore s2 pc (fun c => { c with mx := { (loadMatrix s p.co.ctx (areaAt (ctxAt s p.co.ctx).t old)).marked (tblGet [] p.marks old) with lastMma := c.mx.lastMma, own := (tblGet (0, []) p.owners old).1, by_ := (tblGet (0, []) p.owners old).2 } })
    else if p.co.kernel.mtx then mtxServe s2 pc p.co.ctx ((p.waves.headD {}).work) else s2
  (ws.zip x.2.2).foldl (fun t y => { t with waves := tblPut t.waves y.1.1 { loadFrame s y.1.2.frame y.1.2 with core := core, sect := y.2.1, place := y.2.2, started := s.clock } }) s3

/-- R407, R412: the channels of the core areas that were saved are restored, those that nothing has used since (log 55, DEDUCED). -/
def restoreChans (s : State) (ctx : Nat) (cores : List Nat) : State :=
  cores.foldl (fun t core =>
    let p := physCore t core
    let kept := ((tblFind (ctxAt s ctx).saved core).getD []).filter (fun c => decide (chanEntries s p c.1 = c.2))
    ((heldChans t p ctx).filter (fun ch => kept.any (fun c => decide (c.1 = ch)))).foldl (fun t ch => modCore t p (fun c => { c with chans := tblPut c.chans ch (loadChan s ctx (areaAt (ctxAt s ctx).t core) ch c.nextEntry), nextEntry := c.nextEntry + 64 })) t) s

/-- PLACE_PARKED: a parked cohort is placed again on a quad freely chosen among those that take it; the range slot of a card has its owner there (R374, R407, R408). -/
def execPlaceParked (cohort : Nat) (s : State) : Out :=
  match tblFind s.parked cohort with
  | none => notEnabled
  | some p =>
    let base := recordAt s p.co
    let pos := parkedAt p
    let plan (q : Nat) : Option (List (Nat × Nat × List (Nat × Nat))) := if quadAgain s p.co q then planAgain s p.co (recordSlots s p.co.ctx base) ((List.range 4).map (4 * q + ·)) 0 pos else none
    if (tblFind s.cohorts cohort).isSome then notEnabled
    else
      let qs := (List.range 80).filter (fun q => (plan q).isSome)
      match qs[free s 0 % qs.length]? with
      | none => notEnabled
      | some q =>
        match plan q with
        | none => notEnabled
        | some pl =>
          let s1 := { s with cohorts := tblPut s.cohorts cohort { p.co with quad := q, spad := [], gates := loadGates s p.co.ctx base } }
          let s2 := (pl.zip ((tblKeys p.co.spad).zip pos)).zipIdx.foldl (fun t x => restoreCore t cohort p base x.2 x.1.1 x.1.2.1 x.1.2.2) s1
          let s3 := modCtx (restoreChans s2 p.co.ctx p.cores) p.co.ctx (fun c => { c with saved := c.saved.filter (fun k => decide (k.1 ∉ p.cores)) })
          nextOf s (settle { s3 with parked := tblErase s3.parked cohort, cards := match p.co.card, pl.head? with | some k, some x => tblMod s3.cards k (fun c => { c with core := some x.1 }) | _, _ => s3.cards })

end Sys2Proof.Machine
end

