-- ==== Sys2Proof/Machine/Debug.lean ====
section
/-! DEFINITION. `mark`, `brk` and the trace unit of a core (R423 to R428). -/

namespace Sys2Proof.Machine

/-- R427: the header of a trace record of n words. -/
def traceHead (n type body : Nat) : Nat := 0xA5 * 2 ^ 56 + (n - 1) * 2 ^ 54 + type * 2 ^ 48 + body % 2 ^ 48

/-- R427: a BLOCK record. -/
def blockRecord (imm place : Nat) (bundle : Bool) (delta : Nat) : List Nat :=
  let body (d : Nat) : Nat := imm % 2 ^ 16 * 2 ^ 32 + place % 64 * 2 ^ 26 + ofBool bundle * 2 ^ 25 + d
  if delta ≤ 0x1FFFFFF then [traceHead 1 1 (body delta)] else [traceHead 2 1 (body 0x1FFFFFF), delta]

/-- R427: a CLOCK record. -/
def clockRecord (now : Nat) : List Nat := [traceHead 2 3 0, now]

/-- R427: a WRAP record. -/
def wrapRecord (lost : Nat) : List Nat := [traceHead 1 2 (lost % 2 ^ 32)]

/-- R428: a record not written, counted. -/
def TraceUnit.lose (u : TraceUnit) : TraceUnit := { u with lost := min (u.lost + 1) 0xFFFFFFFF }

/-- R428: whether a record of n words fits where the unit stands. -/
def TraceUnit.fits (u : TraceUnit) (n : Nat) : Bool := decide (u.pos + n ≤ u.size / 8 - 1)

/-- R427, R428: what the unit writes for a BLOCK record, word by word from its position, and where it then stands (log 64, DESIGN CHOICE). -/
def TraceUnit.block (u : TraceUnit) (imm place : Nat) (bundle : Bool) (now : Nat) : List (Nat × Nat) × TraceUnit :=
  if u.stopped then ([], u.lose)
  else
    let at0 (p : Nat) (l : List Nat) : List (Nat × Nat) := l.zipIdx.map (fun x => (p + x.2, x.1))
    let l := if u.first then clockRecord now ++ blockRecord imm place bundle 0 else blockRecord imm place bundle (now - u.last)
    if u.fits l.length then (at0 u.pos l, { u with pos := u.pos + l.length, last := now, first := false })
    else if u.ring then
      let r := clockRecord now ++ blockRecord imm place bundle 0
      (at0 u.pos (wrapRecord u.lost) ++ at0 0 r, { u with pos := r.length, last := now, first := false })
    else (at0 u.pos (wrapRecord u.lost), { u.lose with stopped := true })

/-- R428: words written in a trace buffer of a core of die `d`, counted by its trace-byte counter (log 93, DESIGN CHOICE). -/
def traceWords (s : State) (d base : Nat) (l : List (Nat × Nat)) : State :=
  modDie (l.foldl (fun t x => packagePutAll t 0 (base + 8 * x.1) (leBytes 8 x.2)) s) d (fun x => { x with traceBytes := x.traceBytes + 8 * l.length })

/-- R428, R483: the host is told of a trace buffer that overflows: one that stops (log 67, DESIGN CHOICE). -/
def traceTell (s : State) (core : Nat) (old new : TraceUnit) : State := if new.stopped && !old.stopped then tellHost s (.traceLost core) else s

/-- R428: a mark in the unit's queue, or lost where that holds 64. -/
def TraceUnit.take (u : TraceUnit) (m : TraceMark) : TraceUnit := if u.queue.length < 64 then { u with queue := u.queue ++ [m] } else u.lose

/-- R425: a mark on a core, where its trace buffer is enabled (log 64, DESIGN CHOICE). -/
def traceMark (s : State) (core imm place : Nat) (bundle : Bool) : State :=
  let u := (coreAt s core).trace
  if u.on && decide (u.size ≠ 0) then modCore s core (fun c => { c with trace := u.take { imm := imm, place := place, bundle := bundle, at_ := s.clock } })
  else s

/-- R425, R427, R428: the oldest n marks of a core's queue written to its buffer (log 64, DESIGN CHOICE). -/
def traceDrain (s : State) (core : Nat) : Nat → State
  | 0 => s
  | n + 1 =>
    let u := (coreAt s core).trace
    match u.queue with
    | [] => s
    | m :: q =>
      let r := { u with queue := q }.block m.imm m.place m.bundle m.at_
      traceDrain (traceTell (modCore (traceWords s (dieOf core) u.base r.1) core (fun c => { c with trace := r.2 })) core u r.2) core n

/-- R428: what the trace units write in a cycle, each freely much of its queue (log 64, DESIGN CHOICE). -/
def tracesOut (s : State) : State :=
  (s.cores.filter (fun c => !c.2.trace.queue.isEmpty)).foldl (fun t c => traceDrain t c.1 (free s (2 ^ 62 + c.1) % (c.2.trace.queue.length + 1))) s

/-- R414: TRACE of a context. -/
def tracing (s : State) (ctx : Nat) : Bool := bitAt (ctxAt s ctx).dbgWord.toNat 3

/-- R425: the block marker. -/
def bodyMark (f : RI) (e : Env) (s : State) : Res :=
  .done (if tracing s e.v.ctx then traceMark s e.core f.imm.toNat e.v.place e.slot.isSome else s) {}
/-- `mark` (R423, R425). -/
def execMark (f : RI) (s : State) : Out := issue (.mark f) (bodyMark f) s

/-- R414: BRKSTOP of a context. -/
def brkStop (s : State) (ctx : Nat) : Bool := bitAt (ctxAt s ctx).dbgWord.toNat 0

/-- R426: the breakpoint: BREAK, or the foghorn, which stops the issuing wave at once. -/
def bodyBrk (f : RI) (e : Env) (s : State) : Res :=
  if brkStop s e.v.ctx then .done { soundFog s { seq := 0, cycle := 0, core := e.v.core, ctx := e.v.ctx, cause := 15, wave := some e.w, brk := f.imm.toNat } with agenda := s.agenda ++ [.foghorn s.fogs.length] } {}
  else .trap s { cause := .break, tpc := some e.next, addr := e.p, info := f.imm }
/-- `brk` (R423, R426). -/
def execBrk (f : RI) (s : State) : Out := issue (.brk f) (bodyBrk f) s

end Sys2Proof.Machine
end

