-- ==== Sys2Proof/Machine/Approx.lean ====
section
/-! DEFINITION. The approximate forms (R158, R159): the exact cases, enclosures of the exact function, the error bounds, and the value the device returns: its own candidate where that lies within the bound, a value within the bound otherwise (log 13). -/

namespace Sys2Proof.Machine

/-- A dyadic number: mantissa and exponent of two. -/
abbrev Dy := Int × Int

/-- a ≤ b. -/
def dyLe (a b : Dy) : Bool := decide ((sumExact a (-b.1, b.2)).1 ≤ 0)

/-- An enclosure of an exact real: lo ≤ x ≤ hi. -/
structure Encl where
  lo : Dy
  hi : Dy
  deriving DecidableEq, Repr, Inhabited

/-- Whether every real of the enclosure lies within `b` of `c`. -/
def Encl.near (x : Encl) (b c : Dy) : Bool := dyLe (sumExact x.hi (-b.1, b.2)) c && dyLe c (sumExact x.lo b)

/-- ln 2 in units of 2^−128, rounded down. -/
def ln2Fix : Int := 235865763225513294137944142764154484399

/-- π in units of 2^−128, rounded down. -/
def piFix : Int := 1069028584064966747859680373161870783300

/-- The product of two fixed-point numbers of 128 fraction bits, rounded down. -/
def mulFix (a b : Int) : Int := a * b / 2 ^ 128

/-- The sum of y^j / j! for j from n on, `k` terms, from the term `t` for j = n. -/
def expSeries (y : Int) : Nat → Nat → Int → Int
  | 0, _, _ => 0
  | k + 1, n, t => t + expSeries y k (n + 1) (mulFix t y / (n + 1 : Nat))

/-- The sum of ± y^(2j+1) / (2j+1)!, `k` terms, from the term `t` of power n. -/
def sinSeries (y2 : Int) : Nat → Nat → Int → Int
  | 0, _, _ => 0
  | k + 1, n, t => t + sinSeries y2 k (n + 2) (-(mulFix t y2) / ((n + 1) * (n + 2) : Nat))

/-- The first k binary digits of log₂ of t in [1, 2), t in units of 2^−200. -/
def log2Digits : Nat → Nat → Nat → Nat
  | 0, _, acc => acc
  | k + 1, t, acc =>
    let u := t * t / 2 ^ 200
    if 2 ^ 201 ≤ u then log2Digits k (u / 2) (2 * acc + 1) else log2Digits k u (2 * acc)

/-- The floor of ±m·2^e. -/
def dyFloor (a : Dy) : Int := if 0 ≤ a.2 then a.1 * 2 ^ a.2.toNat else a.1 / 2 ^ (-a.2).toNat

/-- ±m·2^e minus an integer, in units of 2^−128, rounded down. -/
def dyFix (a : Dy) (i : Int) : Int :=
  let d := sumExact a (-i, 0)
  if -128 ≤ d.2 then d.1 * 2 ^ (d.2 + 128).toNat else d.1 / 2 ^ (-128 - d.2).toNat

/-- 2^a enclosed, with ⌊a⌋. -/
def exp2Encl (a : Dy) : Encl × Int :=
  let i := dyFloor a
  let s := expSeries (mulFix (dyFix a i) ln2Fix) 40 0 (2 ^ 128)
  ({ lo := (s - 200, i - 128), hi := (s + 200, i - 128) }, i)

/-- log₂ of m·2^e enclosed. -/
def log2Encl (m : Nat) (e : Int) : Encl :=
  let k := (bitLen m : Int) - 1 + e
  let d : Int := log2Digits 96 (m * 2 ^ 200 / 2 ^ (bitLen m - 1)) 0
  { lo := (k * 2 ^ 96 + d - 1, -96), hi := (k * 2 ^ 96 + d + 2, -96) }

/-- sin(π·r) for r in [0, 2) in units of 2^−128, enclosed to a few units. -/
def sinPiFix (r : Int) : Int :=
  let one : Int := 2 ^ 128
  let neg := decide (one ≤ r)
  let r1 := if neg then r - one else r
  let r2 := if one < 2 * r1 then one - r1 else r1
  let y := mulFix r2 piFix
  let s := sinSeries (mulFix y y) 24 1 y
  if neg then -s else s

/-- sin(π·a), or cos(π·a) where shift is ½, enclosed. -/
def sinPiEncl (a : Dy) (cos : Bool) : Encl :=
  let b := if cos then sumExact a (1, -1) else a
  let i := 2 * (dyFloor (b.1, b.2 - 1))
  let s := sinPiFix (dyFix b i)
  { lo := (s - 2 ^ 40, -128), hi := (s + 2 ^ 40, -128) }

/-- The `.f32` format. -/
def f32 : FFmt := ⟨8, 23⟩

/-- The value of a `.f32` pattern as a dyadic; an infinity counts as ±2^128. -/
def dyOf (x : Nat) : Option Dy :=
  match decodeF f32 x with
  | .nan _ => none
  | .inf n => some (if n then -1 else 1, 128)
  | .fin n m e => some (signed n m, e)

/-- The `.f32` pattern nearest a dyadic, by mode NE, a zero as +0. -/
def nearF32 (a : Dy) : Nat := if a.1 = 0 then 0 else (roundF f32 0 false (decide (a.1 < 0)) a.1.natAbs a.2 false).1

/-- R158: the exponent of an ulp at the magnitude of a dyadic. -/
def ulpExp (a : Dy) : Int := (bitLen a.1.natAbs : Int) - 1 + a.2 - 23

/-- R158: the bound of `vexp2` for a result in [2^i, 2^(i+1)). -/
def exp2Bound (i : Int) : Dy := if i < -126 then (1, -148) else (2, i - 23)

/-- R158: the bound of `vlog2` at m·2^e. -/
def log2Bound (m : Nat) (e : Int) (x : Encl) : Dy :=
  if dyLe (1, -1) (m, e) && dyLe (m, e) (1, 1) then (1, -22)
  else (2, if ulpExp x.lo ≤ ulpExp x.hi then ulpExp x.hi else ulpExp x.lo)

/-- 1 ÷ √(m·2^e) enclosed; an exact root encloses itself. -/
def rsqEncl (m : Nat) (e : Int) : Encl :=
  let (m, e) := if e % 2 = 0 then (m, e) else (2 * m, e - 1)
  let k := bitLen m + 80
  let r := isqrt (2 ^ (2 * k) / m) (k + 1) 0
  { lo := (r, -(k : Int) - e / 2), hi := (if r * r * m = 2 ^ (2 * k) then r else r + 1, -(k : Int) - e / 2) }

/-- Candidate `c` where it is a number within the bound, a value of the enclosure otherwise (log 13, DESIGN CHOICE). -/
def pickApprox (x : Encl) (b : Dy) (c : Nat) : Nat :=
  match dyOf c with
  | some d => if x.near b d then c else nearF32 x.lo
  | none => nearF32 x.lo

/-- Whether ±m·2^e is an integer, and whether it is even. -/
def dyInt (m : Nat) (e : Int) : Option Bool :=
  if 0 ≤ e then some (decide (m * 2 ^ e.toNat % 2 = 0))
  else if m % 2 ^ (-e).toNat = 0 then some (decide (m / 2 ^ (-e).toNat % 2 = 0))
  else none

/-- R159: k where m·2^e is 2^k. -/
def dyPow (m : Nat) (e : Int) : Option Int := if m = 2 ^ (bitLen m - 1) then some ((bitLen m : Int) - 1 + e) else none

/-- The approximate forms. -/
inductive ApproxOp where
  | rsq | exp2 | log2 | sin | cos
  deriving DecidableEq, Repr, Inhabited

/-- The number of a form in `Config.approx`. -/
def ApproxOp.num (o : ApproxOp) : Nat := match o with | .rsq => 0 | .exp2 => 1 | .log2 => 2 | .sin => 3 | .cos => 4

/-- R158, R159: the `.f32` result for a `.f32` input as it is read, with its flags (log 13, DESIGN CHOICE; log 19, DEDUCED). -/
def approx32 (o : ApproxOp) (x : Nat) : Nat × Nat :=
  let c := (Config.approx o.num (BitVec.ofNat 32 x)).toNat
  let one := 0x3F800000
  match o, decodeF f32 x with
  | _, .nan sig => (f32.nan, flagIf sig flagNV)
  | .rsq, .inf n => if n then (f32.nan, flagNV) else (0, 0)
  | .rsq, .fin n m e =>
    if m = 0 then (f32.inf n, flagDZ) else if n then (f32.nan, flagNV)
    else let r := rsqEncl m e
      (pickApprox r (1, ulpExp r.lo) c, 0)
  | .exp2, .inf n => (if n then 0 else f32.inf false, 0)
  | .exp2, .fin n m e =>
    let a : Dy := (signed n m, e)
    if dyLe (128, 0) a then (f32.inf false, flagOF)
    else if (dyInt m e).isSome && dyLe (-149, 0) a then (nearF32 (1, signed n (m * 2 ^ e.toNat / 2 ^ (-e).toNat)), 0)
    else
      let (r, i) := if dyLe a (-400, 0) then ({ lo := (0, 0), hi := (1, -400) }, -400) else exp2Encl a
      let v := pickApprox r (exp2Bound i) c
      (v, flagIf (decide (v = f32.inf false)) flagOF)
  | .log2, .inf n => if n then (f32.nan, flagNV) else (f32.inf false, 0)
  | .log2, .fin n m e =>
    if m = 0 then (f32.inf true, flagDZ) else if n then (f32.nan, flagNV)
    else match dyPow m e with
      | some k => (nearF32 (k, 0), 0)
      | none => let r := log2Encl m e
        (pickApprox r (log2Bound m e r) c, 0)
  | .sin, .inf _ | .cos, .inf _ => (f32.nan, flagNV)
  | .sin, .fin n m e =>
    match dyInt m e, dyInt m (e + 1) with
    | some _, _ => (f32.zero n, 0)
    | none, some _ =>
      let k := dyFloor (signed n m, e)
      (if k % 2 = 0 then one else one + 2 ^ 31, 0)
    | none, none => (pickApprox (sinPiEncl (signed n m, e) false) (1, -22) c, 0)
  | .cos, .fin n m e =>
    match dyInt m e, dyInt m (e + 1) with
    | some ev, _ => (if ev then one else one + 2 ^ 31, 0)
    | none, some _ => (0, 0)
    | none, none => (pickApprox (sinPiEncl (signed n m, e) true) (1, -22) c, 0)

/-- R158: the form on a type: narrow inputs widened exactly, the `.f32` result rounded once by NE, MODE.FTZ flushing inputs and tiny results without flags (log 13, DESIGN CHOICE). -/
def approxF (o : ApproxOp) (f : FFmt) (ftz : Bool) (x : Nat) : Nat × Nat :=
  let v := readF f ftz x
  let wide := match v with
    | .nan sig => if sig then f32.nan - 2 ^ 22 + 1 else f32.nan
    | .inf n => f32.inf n
    | .fin n m e => if m = 0 then f32.zero n else (roundF f32 0 false n m e false).1
  let (r, fl) := approx32 o wide
  let r1 := flushIn f32 ftz r
  if f = f32 then (r1, fl)
  else
    let (q, fl2) := deliverF f 0 ftz (decodeF f32 r1)
    (q, fl ||| (fl2 &&& flagOF))

end Sys2Proof.Machine
end

