-- ==== Sys2Proof/Machine/Vector.lean ====
section
/-! DEFINITION. The per-lane integer and floating-point vector instructions of groups 2 and 3 (R141 to R161). -/

namespace Sys2Proof.Machine

/-- R143: source A, B or C of an element: half `h` of a packed register, or the element of n bits; a scalar gives its low bits to both halves. -/
def Env.elem (e : Env) (x2 sc : Bool) (n r l h : Nat) : Nat :=
  if x2 then (if sc then (e.rdSLane r l).toNat % 2 ^ 16 else bits (e.rdV r l) (16 * h) 16) else e.rdVec sc n r l

/-- Source B of an element, the literal where there is one. -/
def Env.elemB (e : Env) (f : RRR) (n l h : Nat) : Nat :=
  match f.lit with
  | some x => x.toNat % 2 ^ (if f.x2 then 16 else n)
  | none => e.elem f.x2 f.sb n f.b l h

/-- The results of every executing lane, with the flags any of them raises (R74, R124). -/
def eachLane (e : Env) (g : Nat → List Wr × Nat) : Eff :=
  let r := e.lanes.map g
  { wr := (r.map (·.1)).flatten, flags := flagAll (r.map (·.2)) }

/-- R142, R143: an element-wise form over A, B, C: `op` gives the n bits of a result, `out` its extension to the register. -/
def vecMap (f : RRR) (n : Nat) (out : Nat → Nat) (op : Nat → Nat → Nat → Nat × Nat) (e : Env) : Eff :=
  eachLane e (fun l =>
    let one (h : Nat) := op (e.elem f.x2 f.sa n f.a l h) (e.elemB f n l h) (e.elem f.x2 f.sc n f.c l h)
    if f.x2 then
      let r0 := one 0
      let r1 := one 1
      (e.wrV 32 f.d l (r0.1 + 2 ^ 16 * r1.1), flagOr r0.2 r1.2)
    else
      let r := one 0
      (e.wrV n f.d l (out r.1), r.2))

/-- R144: the width of a vector integer form; TYPE 0 means `.i32`. -/
def vBits (f : RRR) : Nat := tyBits 32 f.ty

/-- R144: an integer element-wise form. -/
def vInt (f : RRR) (op : Nat → Nat → Nat → Nat) (e : Env) : Eff :=
  vecMap f (vBits f) (ext32 (tySigned f.ty) (vBits f)) (fun a b c => (op a b c, 0)) e

/-- R145: a two-source integer form. -/
def effVInt (o : IntOp) (f : RRR) (e : Env) : Eff :=
  vInt f (fun a b _ => fitN f.sat (tySigned f.ty) (vBits f) (intOp o (vBits f) (toInt (tySigned f.ty) (vBits f) a) (toInt (tySigned f.ty) (vBits f) b))) e

/-- R146: multiply and add. -/
def effVmad (f : RRR) (e : Env) : Eff :=
  let g := toInt (tySigned f.ty) (vBits f)
  vInt f (fun a b c => fitN f.sat (tySigned f.ty) (vBits f) (g a * g b + g c)) e

/-- R147: a bitwise or shift form. -/
def effVBit (o : BitOp) (f : RRR) (e : Env) : Eff := vInt f (fun a b _ => bitOp o (vBits f) a b) e

/-- R148: the absolute value. -/
def effVabs (f : RRR) (e : Env) : Eff := vInt f (fun a _ _ => fitN f.sat true (vBits f) (sint (vBits f) a).natAbs) e

/-- R148: a count, written as the form's result. -/
def effVCount (g : Nat → Nat → Nat) (f : RRR) (e : Env) : Eff := vInt f (fun a _ _ => g (vBits f) a) e

/-- R148: a move. -/
def effVmov (f : RRR) (e : Env) : Eff := vInt f (fun a _ _ => a) e

/-- R149: the width in bits of a bit-field form. -/
def bfBits (f : RRR) : Nat := tyBits 32 f.ty

/-- R149: bit-field extraction. -/
def effVbfx (f : RRR) (e : Env) : Eff :=
  let n := bfBits f
  eachLane e (fun l =>
    let pos := e.rdVecB f 32 l % n
    let w := fieldWidth n (e.rdVec f.sc 32 f.c l)
    let r := bitField n (e.rdVec f.sa n f.a l) pos w
    (e.wrV n f.d l (if w = 0 then 0 else if tySigned f.ty then truncN n (sint w r) else r), 0))

/-- R149: bit-field insertion; D is read and written, and kept where the width is 0. -/
def effVbfi (f : RRR) (e : Env) : Eff :=
  let n := bfBits f
  eachLane e (fun l =>
    let pos := e.rdVecB f 32 l % n
    let w := fieldWidth n (e.rdVec f.sc 32 f.c l)
    (if w = 0 then [] else e.wrV n f.d l (bitInsert n (e.rdVec false n f.d l) (e.rdVec f.sa n f.a l) pos w), 0))

/-- R150: comparison into a predicate. -/
def effVcmp (f : RRR) (e : Env) : Eff :=
  let n := vBits f
  eachLane e (fun l => (e.wrP f.d l (intCond f.fn (toInt (tySigned f.ty) n (e.rdVec f.sa n f.a l)) (toInt (tySigned f.ty) n (e.rdVecB f n l))), 0))

/-- R151: selection by a predicate. -/
def effVsel (f : RRR) (e : Env) : Eff :=
  let n := vBits f
  eachLane e (fun l => (e.wrV n f.d l (if e.rdP f.c l then e.rdVec f.sa n f.a l else e.rdVecB f n l), 0))

/-- R152: add or subtract with the carry in a predicate. -/
def effVaddc (f : RRR) (e : Env) : Eff :=
  eachLane e (fun l =>
    let a : Int := e.rdVec f.sa 32 f.a l
    let b : Int := e.rdVecB f 32 l
    let c : Int := ofBool (e.rdP f.c l)
    let x := if f.fn = 0 then a + b + c else a - b - c
    (e.wrV 32 f.d l (truncN 32 x) ++ e.wrP f.c l (if f.fn = 0 then decide (2 ^ 32 ≤ x) else decide (x < 0)), 0))

/-- R153: the format of a vector float form; TYPE 0 means `.f32`. -/
def vFmt (f : RRR) : FFmt := fmtOf .f32 f.ty

/-- R153: a float element-wise form over the patterns of its sources. -/
def vFlt (f : RRR) (op : Nat → Nat → Nat → Nat × Nat) (e : Env) : Eff := vecMap f (vFmt f).width (fun r => r) op e

/-- R154: sum or difference. -/
def effVfadd (sub : Bool) (f : RRR) (e : Env) : Eff :=
  vFlt f (fun a b _ => addF (vFmt f) (e.rmode f.rnd) e.v.ftz (readF (vFmt f) e.v.ftz a) ((readF (vFmt f) e.v.ftz b).negIf sub)) e

/-- R154: product. -/
def effVfmul (f : RRR) (e : Env) : Eff := vFlt f (fun a b _ => mulF (vFmt f) (e.rmode f.rnd) e.v.ftz (readF (vFmt f) e.v.ftz a) (readF (vFmt f) e.v.ftz b)) e

/-- R154: fused multiply and add. -/
def effVffma (f : RRR) (e : Env) : Eff :=
  vFlt f (fun a b c => fmaF (vFmt f) (e.rmode f.rnd) e.v.ftz (bitAt f.fn 0) (bitAt f.fn 1) (readF (vFmt f) e.v.ftz a) (readF (vFmt f) e.v.ftz b) (readF (vFmt f) e.v.ftz c)) e

/-- R155: the lesser or the greater. -/
def effVfMinMax (mx : Bool) (f : RRR) (e : Env) : Eff := vFlt f (fun a b _ => minMaxF (vFmt f) mx (decide (f.fn = 1)) e.v.ftz a b) e

/-- R156: float comparison into a predicate. -/
def effVfcmp (f : RRR) (e : Env) : Eff :=
  let n := (vFmt f).width
  eachLane e (fun l =>
    let r := condF f.fn (readF (vFmt f) e.v.ftz (e.rdVec f.sa n f.a l)) (readF (vFmt f) e.v.ftz (e.rdVecB f n l))
    (e.wrP f.d l r.1, r.2))

/-- R157: the reciprocal. -/
def effVrcp (f : RRR) (e : Env) : Eff := vFlt f (fun a _ _ => rcpF (vFmt f) (e.rmode f.rnd) e.v.ftz (readF (vFmt f) e.v.ftz a)) e

/-- R157: the square root. -/
def effVsqrt (f : RRR) (e : Env) : Eff := vFlt f (fun a _ _ => sqrtF (vFmt f) (e.rmode f.rnd) e.v.ftz (readF (vFmt f) e.v.ftz a)) e

/-- R158: an approximate form. -/
def effVApprox (o : ApproxOp) (f : RRR) (e : Env) : Eff := vFlt f (fun a _ _ => approxF o (vFmt f) e.v.ftz a) e

/-- R160: the class of each element. -/
def effVfclass (f : RRR) (e : Env) : Eff :=
  eachLane e (fun l => (e.wrV 32 f.d l (classF (vFmt f) (e.rdVec f.sa (vFmt f).width f.a l)), 0))

/-- R161: the source width of a conversion: the register for a narrow format. -/
def cvSrcBits (t : Ty) : Nat := if t = .fq then 32 else tyBits 32 t

/-- R161: a conversion in every executing lane. -/
def bodyVcvt (f : CV) (e : Env) (s : State) : Res :=
  if cvBadFmt f e then .trap s (e.illegal 10)
  else
    let n := if f.ty = .fq then 32 else tyBits 32 f.ty
    .done s (eachLane e (fun l =>
      let r := cvOne f e (e.rdVec f.sa (cvSrcBits f.stype) f.a l)
      (e.wrV n f.d l (if f.ty = .fq ∨ isFloatTy f.ty then r.1 else ext32 (tySigned f.ty) n r.1), r.2)))

/-- R145. -/
def bodyVadd (f : RRR) : Env → State → Res := pureBody (effVInt .add f)
/-- `vadd` (R145). -/
def execVadd (f : RRR) (s : State) : Out := issue (.vadd f) (bodyVadd f) s

/-- R145. -/
def bodyVsub (f : RRR) : Env → State → Res := pureBody (effVInt .sub f)
/-- `vsub` (R145). -/
def execVsub (f : RRR) (s : State) : Out := issue (.vsub f) (bodyVsub f) s

/-- R145. -/
def bodyVmul (f : RRR) : Env → State → Res := pureBody (effVInt .mul f)
/-- `vmul` (R145). -/
def execVmul (f : RRR) (s : State) : Out := issue (.vmul f) (bodyVmul f) s

/-- R145. -/
def bodyVmulh (f : RRR) : Env → State → Res := pureBody (effVInt .mulh f)
/-- `vmulh` (R145). -/
def execVmulh (f : RRR) (s : State) : Out := issue (.vmulh f) (bodyVmulh f) s

/-- R145. -/
def bodyVmin (f : RRR) : Env → State → Res := pureBody (effVInt .min f)
/-- `vmin` (R145). -/
def execVmin (f : RRR) (s : State) : Out := issue (.vmin f) (bodyVmin f) s

/-- R145. -/
def bodyVmax (f : RRR) : Env → State → Res := pureBody (effVInt .max f)
/-- `vmax` (R145). -/
def execVmax (f : RRR) (s : State) : Out := issue (.vmax f) (bodyVmax f) s

/-- R146. -/
def bodyVmad (f : RRR) : Env → State → Res := pureBody (effVmad f)
/-- `vmad` (R146). -/
def execVmad (f : RRR) (s : State) : Out := issue (.vmad f) (bodyVmad f) s

/-- R147. -/
def bodyVand (f : RRR) : Env → State → Res := pureBody (effVBit .and f)
/-- `vand` (R147). -/
def execVand (f : RRR) (s : State) : Out := issue (.vand f) (bodyVand f) s

/-- R147. -/
def bodyVor (f : RRR) : Env → State → Res := pureBody (effVBit .or f)
/-- `vor` (R147). -/
def execVor (f : RRR) (s : State) : Out := issue (.vor f) (bodyVor f) s

/-- R147. -/
def bodyVxor (f : RRR) : Env → State → Res := pureBody (effVBit .xor f)
/-- `vxor` (R147). -/
def execVxor (f : RRR) (s : State) : Out := issue (.vxor f) (bodyVxor f) s

/-- R147. -/
def bodyVandn (f : RRR) : Env → State → Res := pureBody (effVBit .andn f)
/-- `vandn` (R147). -/
def execVandn (f : RRR) (s : State) : Out := issue (.vandn f) (bodyVandn f) s

/-- R147. -/
def bodyVshl (f : RRR) : Env → State → Res := pureBody (effVBit .shl f)
/-- `vshl` (R147). -/
def execVshl (f : RRR) (s : State) : Out := issue (.vshl f) (bodyVshl f) s

/-- R147. -/
def bodyVshr (f : RRR) : Env → State → Res := pureBody (effVBit .shr f)
/-- `vshr` (R147). -/
def execVshr (f : RRR) (s : State) : Out := issue (.vshr f) (bodyVshr f) s

/-- R147. -/
def bodyVsar (f : RRR) : Env → State → Res := pureBody (effVBit .sar f)
/-- `vsar` (R147). -/
def execVsar (f : RRR) (s : State) : Out := issue (.vsar f) (bodyVsar f) s

/-- R148. -/
def bodyVabs (f : RRR) : Env → State → Res := pureBody (effVabs f)
/-- `vabs` (R148). -/
def execVabs (f : RRR) (s : State) : Out := issue (.vabs f) (bodyVabs f) s

/-- R148. -/
def bodyVclz (f : RRR) : Env → State → Res := pureBody (effVCount leadZeros f)
/-- `vclz` (R148). -/
def execVclz (f : RRR) (s : State) : Out := issue (.vclz f) (bodyVclz f) s

/-- R148. -/
def bodyVpopc (f : RRR) : Env → State → Res := pureBody (effVCount popcount f)
/-- `vpopc` (R148). -/
def execVpopc (f : RRR) (s : State) : Out := issue (.vpopc f) (bodyVpopc f) s

/-- R148. -/
def bodyVmov (f : RRR) : Env → State → Res := pureBody (effVmov f)
/-- `vmov` (R148). -/
def execVmov (f : RRR) (s : State) : Out := issue (.vmov f) (bodyVmov f) s

/-- R149. -/
def bodyVbfx (f : RRR) : Env → State → Res := pureBody (effVbfx f)
/-- `vbfx` (R149). -/
def execVbfx (f : RRR) (s : State) : Out := issue (.vbfx f) (bodyVbfx f) s

/-- R149. -/
def bodyVbfi (f : RRR) : Env → State → Res := pureBody (effVbfi f)
/-- `vbfi` (R149). -/
def execVbfi (f : RRR) (s : State) : Out := issue (.vbfi f) (bodyVbfi f) s

/-- R150. -/
def bodyVcmp (f : RRR) : Env → State → Res := pureBody (effVcmp f)
/-- `vcmp` (R150). -/
def execVcmp (f : RRR) (s : State) : Out := issue (.vcmp f) (bodyVcmp f) s

/-- R151. -/
def bodyVsel (f : RRR) : Env → State → Res := pureBody (effVsel f)
/-- `vsel` (R151). -/
def execVsel (f : RRR) (s : State) : Out := issue (.vsel f) (bodyVsel f) s

/-- R152. -/
def bodyVaddc (f : RRR) : Env → State → Res := pureBody (effVaddc f)
/-- `vaddc` (R152). -/
def execVaddc (f : RRR) (s : State) : Out := issue (.vaddc f) (bodyVaddc f) s

/-- R154. -/
def bodyVfadd (f : RRR) : Env → State → Res := pureBody (effVfadd false f)
/-- `vfadd` (R154). -/
def execVfadd (f : RRR) (s : State) : Out := issue (.vfadd f) (bodyVfadd f) s

/-- R154. -/
def bodyVfsub (f : RRR) : Env → State → Res := pureBody (effVfadd true f)
/-- `vfsub` (R154). -/
def execVfsub (f : RRR) (s : State) : Out := issue (.vfsub f) (bodyVfsub f) s

/-- R154. -/
def bodyVfmul (f : RRR) : Env → State → Res := pureBody (effVfmul f)
/-- `vfmul` (R154). -/
def execVfmul (f : RRR) (s : State) : Out := issue (.vfmul f) (bodyVfmul f) s

/-- R154. -/
def bodyVffma (f : RRR) : Env → State → Res := pureBody (effVffma f)
/-- `vffma` (R154). -/
def execVffma (f : RRR) (s : State) : Out := issue (.vffma f) (bodyVffma f) s

/-- R155. -/
def bodyVfmin (f : RRR) : Env → State → Res := pureBody (effVfMinMax false f)
/-- `vfmin` (R155). -/
def execVfmin (f : RRR) (s : State) : Out := issue (.vfmin f) (bodyVfmin f) s

/-- R155. -/
def bodyVfmax (f : RRR) : Env → State → Res := pureBody (effVfMinMax true f)
/-- `vfmax` (R155). -/
def execVfmax (f : RRR) (s : State) : Out := issue (.vfmax f) (bodyVfmax f) s

/-- R156. -/
def bodyVfcmp (f : RRR) : Env → State → Res := pureBody (effVfcmp f)
/-- `vfcmp` (R156). -/
def execVfcmp (f : RRR) (s : State) : Out := issue (.vfcmp f) (bodyVfcmp f) s

/-- R157. -/
def bodyVrcp (f : RRR) : Env → State → Res := pureBody (effVrcp f)
/-- `vrcp` (R157). -/
def execVrcp (f : RRR) (s : State) : Out := issue (.vrcp f) (bodyVrcp f) s

/-- R157. -/
def bodyVsqrt (f : RRR) : Env → State → Res := pureBody (effVsqrt f)
/-- `vsqrt` (R157). -/
def execVsqrt (f : RRR) (s : State) : Out := issue (.vsqrt f) (bodyVsqrt f) s

/-- R158, R159. -/
def bodyVrsq (f : RRR) : Env → State → Res := pureBody (effVApprox .rsq f)
/-- `vrsq` (R158, R159). -/
def execVrsq (f : RRR) (s : State) : Out := issue (.vrsq f) (bodyVrsq f) s

/-- R158, R159. -/
def bodyVexp2 (f : RRR) : Env → State → Res := pureBody (effVApprox .exp2 f)
/-- `vexp2` (R158, R159). -/
def execVexp2 (f : RRR) (s : State) : Out := issue (.vexp2 f) (bodyVexp2 f) s

/-- R158, R159. -/
def bodyVlog2 (f : RRR) : Env → State → Res := pureBody (effVApprox .log2 f)
/-- `vlog2` (R158, R159). -/
def execVlog2 (f : RRR) (s : State) : Out := issue (.vlog2 f) (bodyVlog2 f) s

/-- R158, R159. -/
def bodyVsin (f : RRR) : Env → State → Res := pureBody (effVApprox .sin f)
/-- `vsin` (R158, R159). -/
def execVsin (f : RRR) (s : State) : Out := issue (.vsin f) (bodyVsin f) s

/-- R158, R159. -/
def bodyVcos (f : RRR) : Env → State → Res := pureBody (effVApprox .cos f)
/-- `vcos` (R158, R159). -/
def execVcos (f : RRR) (s : State) : Out := issue (.vcos f) (bodyVcos f) s

/-- R160. -/
def bodyVfclass (f : RRR) : Env → State → Res := pureBody (effVfclass f)
/-- `vfclass` (R160). -/
def execVfclass (f : RRR) (s : State) : Out := issue (.vfclass f) (bodyVfclass f) s

/-- `vcvt` (R161). -/
def execVcvt (f : CV) (s : State) : Out := issue (.vcvt f) (bodyVcvt f) s

end Sys2Proof.Machine
end

