-- ==== Sys2Proof/Machine/LaneOps.lean ====
section
/-! DEFINITION. Predicate forms and lane operations of group 4 (R162 to R171, R470). -/

namespace Sys2Proof.Machine

/-- R162: predicate logic. -/
def effPlog (f : RRR) (e : Env) : Eff :=
  eachLane e (fun l =>
    let a := e.rdP f.a l
    let b := e.rdP f.b l
    (e.wrP f.d l (match f.fn with
      | 0 => a && b
      | 1 => a || b
      | 2 => a != b
      | 3 => a && !b
      | 4 => !a
      | 5 => true
      | _ => false), 0))

/-- R163, R467: moves between predicates and other registers. -/
def effPmov (f : RRR) (e : Env) : Eff :=
  eachLane e (fun l =>
    (match f.fn with
      | 0 => e.wrV 32 f.d l (ofBool (e.rdP f.a l))
      | 1 => e.wrP f.d l (decide (e.rdV f.a l ≠ 0))
      | _ => e.wrP f.d l ((e.rdS f.a).getLsbD (e.laneNo l)), 0))

/-- R470: how many lanes a lane operation works on: a half of a width-16 wave, else all. -/
def Env.span (e : Env) : Nat := if e.w16 then 16 else 32

/-- R470: the native lane of a lane index of the issuing half. -/
def Env.native (e : Env) (j : Nat) : Nat := if e.w16 then 16 * e.half + j else j

/-- R164, R470: counting a predicate, or its lowest lane. -/
def effPcnt (f : RRR) (e : Env) : Eff :=
  let on := e.lanes.filter (fun l => e.rdP f.a l)
  { wr := e.wrS f.d (BitVec.ofNat 64 (if f.fn = 0 then on.length else match on with
      | [] => e.span
      | l :: _ => e.laneNo l)) }

/-- R133, R470: the executing lanes whose member bit is clear, as bits of the lane numbers the kernel uses. -/
def memberClear (e : Env) (c : Nat) : Nat :=
  let m := (e.rdS c).toNat
  ((e.lanes.filter (fun l => !(m.testBit (e.laneNo l)))).map (fun l => 2 ^ e.laneNo l)).foldl (· + ·) 0

/-- R133: a lane operation after the member check. -/
def withMembers (c : Nat) (eff : Env → Eff) (e : Env) (s : State) : Res :=
  if memberClear e c = 0 then .done s (eff e) else .trap s { cause := .member, info := BitVec.ofNat 64 (memberClear e c) }

/-- R165: the element a receiving lane gets from lane index j: its own where that lane takes no part. -/
def fromLane (e : Env) (f : RRR) (n l j : Nat) : Nat :=
  let k := e.native j
  e.rdVec f.sa n f.a (if e.act.getLsbD k then k else l)

/-- R166: shuffle by a per-lane index. -/
def effVshf (f : RRR) (e : Env) : Eff :=
  let n := vBits f
  eachLane e (fun l => (e.wrV n f.d l (fromLane e f n l (e.rdVecB f 32 l % e.span)), 0))

/-- R166, R470: shuffle by a distance. -/
def effVshfi (f : RRR) (e : Env) : Eff :=
  let n := vBits f
  let k := (e.rdB f).toNat % e.span
  eachLane e (fun l =>
    let j := e.laneNo l
    let src := match f.fn with
      | 0 => if k ≤ j then j - k else j
      | 1 => if j + k ≤ e.span - 1 then j + k else j
      | _ => j ^^^ k
    (e.wrV n f.d l (fromLane e f n l src), 0))

/-- R167: broadcast of one lane. -/
def effVbcast (f : RRR) (e : Env) : Eff :=
  let n := vBits f
  eachLane e (fun l => (e.wrV n f.d l (fromLane e f n l ((e.rdB f).toNat % e.span)), 0))

/-- R168: the lowest executing lane read into a scalar. -/
def effVrfl (f : RRR) (e : Env) : Eff :=
  let n := vBits f
  let x := e.rdVec f.sa n f.a (lowestLane e.act)
  { wr := e.wrS f.d (if f.ty = .i32 then sext64 32 x else BitVec.ofNat 64 x) }

/-- R120, R168: one lane written from a scalar, where it executes; source A has scalar class, so `%lane` there is the lowest active lane (log 95, DEDUCED). -/
def effVwlane (f : RRR) (e : Env) : Eff :=
  let n := vBits f
  let l := e.native ((e.rdB f).toNat % e.span)
  { wr := if e.act.getLsbD l then e.wrV n f.d l ((e.rdS f.a).toNat % 2 ^ n) else [] }

/-- R169: the mask of lanes that hold the predicate. -/
def effVballot (f : RRR) (e : Env) : Eff :=
  { wr := e.wrS f.d (BitVec.ofNat 64 (((e.lanes.filter (fun l => e.rdP f.a l)).map (fun l => 2 ^ e.laneNo l)).foldl (· + ·) 0)) }

/-- R169: a vote. -/
def effVvote (f : RRR) (e : Env) : Eff :=
  let ps := e.lanes.map (fun l => e.rdP f.a l)
  let v := match f.fn with
    | 0 => ps.all id
    | 1 => ps.any id
    | _ => ps.all id || ps.all not
  eachLane e (fun l => (e.wrP f.d l v, 0))

/-- R170: one combination of a reduction: the n bits of the result and its flags. -/
def redOne (f : RRR) (e : Env) (x y : Nat) : Nat × Nat :=
  if isFloatTy f.ty then
    (match f.fn with
      | 0 => addF (vFmt f) (e.rmode f.rnd) e.v.ftz (readF (vFmt f) e.v.ftz x) (readF (vFmt f) e.v.ftz y)
      | 1 => minMaxF (vFmt f) false false e.v.ftz x y
      | _ => minMaxF (vFmt f) true false e.v.ftz x y)
  else
    let n := vBits f
    let sg := tySigned f.ty
    (match f.fn with
      | 0 => fitN f.sat sg n (toInt sg n x + toInt sg n y)
      | 1 => fitN false sg n (intOp .min n (toInt sg n x) (toInt sg n y))
      | 2 => fitN false sg n (intOp .max n (toInt sg n x) (toInt sg n y))
      | 3 => x &&& y
      | 4 => x ||| y
      | _ => x ^^^ y, 0)

/-- R83: a node from its two children; one present child passes unchanged, a NaN or a subnormal too (log 96, DEDUCED). -/
def treeNode (op : Nat → Nat → Nat × Nat) (a b : Option (Nat × Nat)) : Option (Nat × Nat) :=
  match a, b with
  | some x, some y =>
    let r := op x.1 y.1
    some (r.1, flagOr r.2 (flagOr x.2 y.2))
  | some x, none => some x
  | none, b => b

/-- R83: one level of the tree. -/
def treeLevel (op : Nat → Nat → Nat × Nat) : List (Option (Nat × Nat)) → List (Option (Nat × Nat))
  | a :: b :: r => treeNode op a b :: treeLevel op r
  | r => r

/-- R83: the root over 2^k leaves. -/
def treeRoot (op : Nat → Nat → Nat × Nat) : Nat → List (Option (Nat × Nat)) → Option (Nat × Nat)
  | 0, l => l.headD none
  | k + 1, l => treeRoot op k (treeLevel op l)

/-- R83, R470: the leaves of a reduction: the elements of the lanes that take part among the first `upto`. -/
def redLeaves (f : RRR) (e : Env) (upto : Nat) : List (Option (Nat × Nat)) :=
  (List.range e.span).map (fun j => if j < upto ∧ e.act.getLsbD (e.native j) then some (e.rdVec f.sa (vBits f) f.a (e.native j), 0) else none)

/-- R83: the tree over the first `upto` lane indices (log 96, DEDUCED). -/
def redTree (f : RRR) (e : Env) (upto : Nat) : Option (Nat × Nat) := treeRoot (redOne f e) (if e.w16 then 4 else 5) (redLeaves f e upto)

/-- R171: the identity of an operation. -/
def redIdentity (f : RRR) : Nat :=
  let n := vBits f
  match f.fn with
  | 1 => if isFloatTy f.ty then (vFmt f).inf false else if tySigned f.ty then 2 ^ (n - 1) - 1 else 2 ^ n - 1
  | 2 => if isFloatTy f.ty then (vFmt f).inf true else if tySigned f.ty then 2 ^ (n - 1) else 0
  | 3 => 2 ^ n - 1
  | _ => 0

/-- R170: reduction to a scalar (log 15, DEDUCED). -/
def effVred (f : RRR) (e : Env) : Eff :=
  let r := (redTree f e e.span).getD (redIdentity f, 0)
  { wr := e.wrS f.d (if isFloatTy f.ty then BitVec.ofNat 64 r.1 else ext64 (tySigned f.ty) (vBits f) r.1), flags := r.2 }

/-- R171: inclusive or exclusive scan (log 15, DEDUCED). -/
def effVscan (f : RRR) (e : Env) : Eff :=
  let n := vBits f
  eachLane e (fun l =>
    let j := e.laneNo l
    let r := (redTree f e (if f.b = 1 then j else j + 1)).getD (redIdentity f, 0)
    (e.wrV n f.d l (if isFloatTy f.ty then r.1 else ext32 (tySigned f.ty) n r.1), r.2))

/-- R162. -/
def bodyPlog (f : RRR) : Env → State → Res := pureBody (effPlog f)
/-- `plog` (R162). -/
def execPlog (f : RRR) (s : State) : Out := issue (.plog f) (bodyPlog f) s

/-- R163. -/
def bodyPmov (f : RRR) : Env → State → Res := pureBody (effPmov f)
/-- `pmov` (R163). -/
def execPmov (f : RRR) (s : State) : Out := issue (.pmov f) (bodyPmov f) s

/-- R164. -/
def bodyPcnt (f : RRR) : Env → State → Res := pureBody (effPcnt f)
/-- `pcnt` (R164). -/
def execPcnt (f : RRR) (s : State) : Out := issue (.pcnt f) (bodyPcnt f) s

/-- R168. -/
def bodyVrfl (f : RRR) : Env → State → Res := pureBody (effVrfl f)
/-- `vrfl` (R168). -/
def execVrfl (f : RRR) (s : State) : Out := issue (.vrfl f) (bodyVrfl f) s

/-- R168. -/
def bodyVwlane (f : RRR) : Env → State → Res := pureBody (effVwlane f)
/-- `vwlane` (R168). -/
def execVwlane (f : RRR) (s : State) : Out := issue (.vwlane f) (bodyVwlane f) s

/-- R166, after the check of R133. -/
def bodyVshf (f : RRR) : Env → State → Res := withMembers f.c (effVshf f)
/-- `vshf` (R166). -/
def execVshf (f : RRR) (s : State) : Out := issue (.vshf f) (bodyVshf f) s

/-- R166, after the check of R133. -/
def bodyVshfi (f : RRR) : Env → State → Res := withMembers f.c (effVshfi f)
/-- `vshfi` (R166). -/
def execVshfi (f : RRR) (s : State) : Out := issue (.vshfi f) (bodyVshfi f) s

/-- R167, after the check of R133. -/
def bodyVbcast (f : RRR) : Env → State → Res := withMembers f.c (effVbcast f)
/-- `vbcast` (R167). -/
def execVbcast (f : RRR) (s : State) : Out := issue (.vbcast f) (bodyVbcast f) s

/-- R169, after the check of R133. -/
def bodyVballot (f : RRR) : Env → State → Res := withMembers f.c (effVballot f)
/-- `vballot` (R169). -/
def execVballot (f : RRR) (s : State) : Out := issue (.vballot f) (bodyVballot f) s

/-- R169, after the check of R133. -/
def bodyVvote (f : RRR) : Env → State → Res := withMembers f.c (effVvote f)
/-- `vvote` (R169). -/
def execVvote (f : RRR) (s : State) : Out := issue (.vvote f) (bodyVvote f) s

/-- R170, after the check of R133. -/
def bodyVred (f : RRR) : Env → State → Res := withMembers f.c (effVred f)
/-- `vred` (R170). -/
def execVred (f : RRR) (s : State) : Out := issue (.vred f) (bodyVred f) s

/-- R171, after the check of R133. -/
def bodyVscan (f : RRR) : Env → State → Res := withMembers f.c (effVscan f)
/-- `vscan` (R171). -/
def execVscan (f : RRR) (s : State) : Out := issue (.vscan f) (bodyVscan f) s

end Sys2Proof.Machine
end

