-- ==== Sys2Proof/Machine/BundleOps.lean ====
section
/-! DEFINITION. The instructions of bundle mode, the bounds of R193, what each slot word does, and results on their way (R183 to R204, R257). -/

namespace Sys2Proof.Machine

/-- R193: the bound of a floating-point form. -/
def floatBound (t : Ty) : Nat := if t = .f64 then 8 else 4

/-- R97, R193: the bound of a scalar floating-point form, whose TYPE 0000 is `.f64`. -/
def sfloatBound (t : Ty) : Nat := if t = .dflt then 8 else floatBound t

/-- R193: the latency bound of the register results of a word. -/
def boundOf (i : Instr) : Nat :=
  match i with
  | .smul _ | .smulh _ | .vmul _ | .vmulh _ | .vmad _ => 3
  | .sdiv _ | .srem _ => 24
  | .sfadd f | .sfmul f | .sffma f | .sfcmp f => sfloatBound f.ty
  | .vfadd f | .vfsub f | .vfmul f | .vffma f | .vfmin f | .vfmax f | .vfcmp f => floatBound f.ty
  | .vcvt _ | .sfcvt _ | .vfclass _ => 4
  | .vrcp f | .vsqrt f => if f.ty = .f64 then 24 else 12
  | .vrsq _ | .vexp2 _ | .vlog2 _ | .vsin _ | .vcos _ => 12
  | .xmov _ | .xbcast _ => 2
  | .fset _ => 4
  | .treg _ | .tdrop _ | .tfind _ | .tmove _ | .cwait _ | .post _ | .rnext _ => 32
  | _ => 1

/-- R195: one cluster's register copied into the executing clusters. -/
def bodyXmov (f : RRR) (e : Env) (s : State) : Res :=
  let n := if f.ty.is64 then 64 else 32
  .done s { wr := (e.lanes.map (fun l => e.wrV n f.d l (e.rdVec false n f.a f.b))).flatten }

/-- R199: the end of a loop level's body. -/
def LoopLevel.stop (l : LoopLevel) : Word := l.start + BitVec.ofNat 64 (8 * l.len)

/-- R200: the opening of a loop level; the SPLIT_OVERFLOW of a seventh level has TADDR 0 (log 104, DEDUCED). -/
def bodyLoop (f : LP) (e : Env) (s : State) : Res :=
  let stop := e.next + BitVec.ofNat 64 (8 * f.len)
  let t := (e.rdS f.a).toNat % 2 ^ 32
  if decide (2048 < f.len) || (e.v.bun.loops.head?.any (fun l => decide (l.stop.toNat < stop.toNat))) then .trap s (e.illegal 10)
  else if e.v.bun.loops.length = 6 then .trap s { cause := .splitOverflow, info := 6 }
  else if t = 0 then .done s { go := .abs stop }
  else .done (modWave s e.w (fun v => { v with bun := { v.bun with loops := { firstit := true, start := e.next, remain := t, len := f.len, dreg := f.d, breg := f.b } :: v.bun.loops } })) { go := .abs e.next }

/-- R203: the exit of the innermost loop level. -/
def bodyLexit (f : RRR) (e : Env) (s : State) : Res :=
  if e.rdS f.a = 0 then .done s {}
  else match e.v.bun.loops with
    | [] => .trap s (e.illegal 10)
    | l :: r => .done (modWave s e.w (fun v => { v with bun := { v.bun with loops := r } })) { go := .abs l.stop }

/-- R187: the return to SIMT mode; the drain follows the bundle (log 8, DEDUCED). -/
def bodyXmodeS (e : Env) (s : State) : Res := if e.v.bun.loops.isEmpty then .done s {} else .trap s (e.modeTrap 10)

/-- R188, R403: `end` of a bundle thread; the drain follows the bundle. -/
def bodyEndSlot (e : Env) (s : State) : Res :=
  match failedTrap e.v with
  | some t => takeFailed s e.w t
  | none => .done s {}

/-- The logical core that a scratchpad place lies on. -/
def placeCore (s : State) (p : Place) : Nat := match p with | .spad _ core _ => core | .tile core _ _ => logicalOf s core | _ => 0

/-- R193, R268: the bound of a scratchpad access of a thread, decided by its highest core. -/
def spadBound (s : State) (v : Wave) (ps : List Place) : Nat := if (ps.map (placeCore s)).foldl max 0 = v.core then 8 else 16

/-- R397: the byte at a place as a load issued in cycle t sees it past the gated stores: a gated byte whose bound has elapsed, either value before (log 61, DEDUCED). -/
def gatedByte (s : State) (v : Wave) (t : Nat) (p : Place) : Byte :=
  ((v.bun.regions.map (·.gate)).flatten).foldl (fun b g =>
    match g.cells.reverse.find? (fun c => decide (c.1 = p)) with
    | none => b
    | some c => if g.issue + spadBound s v (g.cells.map (·.1)) ≤ t ∨ freeBool s (2 ^ 43 + g.issue) = true then c.2 else b) (spadByte s p)

/-- R257: the results of a scratchpad load that takes its value now. -/
def Flight.loaded (f : Flight) (s : State) (v : Wave) : List Wr :=
  match f.src with
  | some (ps, parts) => partWrs parts (ps.zipIdx.map (fun p => (tblFind f.got p.2).getD (gatedByte s v f.issue p.1)))
  | none => []

/-- A load on its way with its value taken (log 61, DEDUCED). -/
def Flight.taken (f : Flight) (s : State) (v : Wave) : Flight :=
  match f.src with
  | some (ps, _) => { f with got := ps.zipIdx.map (fun p => (p.2, (tblFind f.got p.2).getD (gatedByte s v f.issue p.1))) }
  | none => f

/-- R248: the stored bytes of a flight that are not written yet. -/
def Flight.left (f : Flight) : List (Place × Byte) := (f.st.zipIdx.filter (fun c => (tblFind f.got c.2).isNone)).map (·.1)

/-- R248: the bytes, by index, that an access of a thread which is not single-copy atomic reads or writes by themselves now, freely; one whose bound has come performs whole. -/
def Flight.apart (s : State) (f : Flight) : List Nat :=
  let n := match f.src with | some (ps, _) => ps.length | none => f.st.length
  if f.unit = 0 ∨ f.due ≤ s.clock then List.range n else (List.range n).filter (fun i => (tblFind f.got i).isSome || freeBool s (2 ^ 71 + i))

/-- Whether a load not landed reads one of some places. -/
def Flight.readsAny (f : Flight) (ps : List Place) : Bool := !f.landed && match f.src with | some (l, _) => l.any (fun p => decide (p ∈ ps)) | none => false

/-- R205: the loads of a wave that read places about to be written take their values (log 61, DEDUCED). -/
def takeLoads (s : State) (ps : List Place) (w : Nat) : State :=
  modWave s w (fun v => { v with bun := { v.bun with flights := v.bun.flights.map (fun f => if f.readsAny ps then f.taken s v else f) } })

/-- R397: an undo entry after a result issued before the region has landed. -/
def Undo.note (u : Undo) (x : Wr) : Undo :=
  match u, x.dst with
  | .s r o, .s q => if r = q then .s r (BitVec.ofNat 64 x.val) else .s r o
  | .v r l, .v q k => if r = q then .v r (l.set k x.val) else .v r l
  | .p r m, .p q k => if r = q then .p r (if x.val % 2 = 1 then m ||| BitVec.ofNat 32 (2 ^ k) else m &&& ~~~(BitVec.ofNat 32 (2 ^ k))) else .p r m
  | u, _ => u

/-- R397: the undo logs after results of an earlier cycle have landed. -/
def Wave.noteUndo (v : Wave) (t : Nat) (l : List Wr) : Wave :=
  { v with bun := { v.bun with regions := v.bun.regions.map (fun r => if t < r.start then { r with undo := r.undo.map (fun u => l.foldl Undo.note u) } else r) } }

/-- R194: a result of a bypass name. -/
def bypassOf (f : Flight) (x : Wr) : Option Bypass :=
  match x.dst with
  | .v r l => if 248 ≤ r then some { name := r - 248, lane := l, val := x.val, issue := f.issue, lo := f.due, hi := f.due + 4 } else none
  | _ => none

/-- R192: whether the latency windows of two results of one bypass name overlap. -/
def Bypass.overlaps (b c : Bypass) : Bool := decide (c.name = b.name) && decide (c.lane = b.lane) && decide (max c.issue b.issue < min c.lo b.lo)

/-- R192, R194: a result of a bypass name opens its window; where it overlaps others, all of them hold one of the results from then on, freely. -/
def openBypass (s : State) (l : List Bypass) (b : Bypass) : List Bypass :=
  match (l.filter b.overlaps).getLast? with
  | none => l ++ [b]
  | some c =>
    let x := if freeBool s (2 ^ 44 + 32 * b.name + b.lane) then b.val else c.val
    l.map (fun d => if b.overlaps d then { d with val := x } else d) ++ [{ b with val := x }]

/-- R191, R192, R194: the results of wave `w` put in their places; those of bypass names open their windows. -/
def putFlight (s : State) (w : Nat) (f : Flight) (l : List Wr) : State :=
  let s1 := modWave s w (fun v => { (v.noteUndo f.issue l) with bun := { (v.noteUndo f.issue l).bun with bypass := (l.filterMap (bypassOf f)).foldl (openBypass s) (v.bun.bypass.filter (fun b => decide (s.clock ≤ b.hi + 32))) } })
  landAll s1 w (l.filter (fun x => (bypassOf f x).isNone))

/-- R257, R416: scratchpad bytes that a thread's access touched, seen at their target. -/
def spadSeen (s : State) (w : Nat) (v : Wave) (kind : Nat) (ps : List Place) : State :=
  if ps.isEmpty then s else matchAccess s (waveSeen w v kind (ps.map (fun p => { at_ := p })))

/-- R191, R205, R257: flight k of wave `w` lands (log 34, DEDUCED). -/
def landFlight (s : State) (w k : Nat) (v : Wave) (f : Flight) : State :=
  let ps := f.st.map (·.1)
  let s1 := if f.exact then (tblKeys s.waves).foldl (fun t x => takeLoads t ps x) s else s
  let l := f.wr ++ f.loaded s1 v
  let s2 := putFlight s1 w f l
  let s3 := f.left.foldl (fun t c => spadStore t c.1 c.2) s2
  let s4 := spadSeen (spadSeen s3 w v 0 (match f.src with | some (p, _) => p | none => [])) w v 1 ps
  modWave s4 w (fun u => { u with bun := { u.bun with flights := (u.bun.flights.zipIdx.map (fun x => if x.2 = k then { x.1 with landed := true } else x.1)).filter (fun x => !x.landed || decide (s.clock < x.due)) } })

/-- R248: some bytes of flight k read or written, the rest still on its way (log 61, DEDUCED). -/
def splitFlight (s : State) (w k : Nat) (v : Wave) (f : Flight) (is : List Nat) : State :=
  let put (l : List Byte) : Tbl Byte := (l.zipIdx.filter (fun b => decide (b.2 ∈ is))).map (fun b => (b.2, (tblFind f.got b.2).getD b.1))
  let got := match f.src with | some (ps, _) => put (ps.map (gatedByte s v f.issue)) | none => put (f.st.map (·.2))
  let now := (f.st.zipIdx.filter (fun c => (tblFind f.got c.2).isNone && decide (c.2 ∈ is))).map (·.1)
  modWave (now.foldl (fun t c => spadStore t c.1 c.2) s) w (fun u => { u with bun := { u.bun with flights := u.bun.flights.zipIdx.map (fun x => if x.2 = k then { x.1 with got := got } else x.1) } })

/-- Whether two stores write a common byte. -/
def Flight.meets (f g : Flight) : Bool := g.st.any (fun c => f.st.any (fun d => decide (d.1 = c.1)))

/-- R193, R205, R257: whether a flight waits for an earlier one: of two stores of one cycle to a common byte that have bounds, or of two exact ones, the one listed before, and an exact one of a lower section (log 61, DEDUCED). -/
def landWaits (s : State) (v : Wave) (k : Nat) (f : Flight) : Bool :=
  ((v.bun.flights.take k).any (fun g => !g.landed && decide (g.issue = f.issue) && decide (g.exact = f.exact) && f.meets g))
    || (f.exact && s.waves.any (fun x => decide (4 * x.2.core + x.2.sect < 4 * v.core + v.sect) && x.2.bun.flights.any (fun g => !g.landed && g.exact && decide (g.due ≤ s.clock) && f.meets g)))

/-- R193: a store before another of its cycle to a common byte lands by that one's bound (log 61, DEDUCED). -/
def byBounds : List Flight → List Flight
  | [] => []
  | f :: r => { f with due := ((byBounds r).filter (fun g => !f.exact && !g.exact && f.meets g)).foldl (fun d g => min d g.due) f.due } :: byBounds r

/-- R191, R205, R257: whether a flight may land now. -/
def landOk (s : State) (v : Wave) (k : Nat) (f : Flight) : Bool :=
  !f.landed && !(landWaits s v k f) && (if f.exact then decide (f.due ≤ s.clock) else if f.src.isSome || !f.st.isEmpty then decide (f.issue ≤ s.clock) else decide (f.issue < s.clock))

/-- OPERATION_LANDS: result k of bundle thread `w` lands (R191); of an access that is not single-copy atomic some bytes may come first (R248). -/
def execOperationLands (w k : Nat) (s : State) : Out :=
  match waveAt s w with
  | none => notEnabled
  | some v =>
    match v.bun.flights[k]? with
    | none => notEnabled
    | some f =>
      let is := f.apart s
      let whole := match f.src with | some (ps, _) => decide (ps.length ≤ is.length) | none => decide (f.st.length ≤ is.length)
      if landOk s v k f then nextOf s (settle (if whole then landFlight s w k v f else splitFlight s w k v f is)) else notEnabled

/-- Results joined by lane, so that the two halves of a pair land together. -/
def groupWrs : List Wr → List (List Wr)
  | [] => []
  | x :: r =>
    match x.dst, groupWrs r with
    | .v _ l, (y :: t) :: rest => (match y.dst with | .v _ k => if k = l then (x :: y :: t) :: rest else [x] :: (y :: t) :: rest | _ => [x] :: (y :: t) :: rest)
    | _, rest => [x] :: rest

/-- R193: the flights of a word's register results and FLAGS. -/
def wrFlights (now : Nat) (i : Instr) (eff : Eff) : List Flight :=
  ((groupWrs eff.wr).map (fun l => { wr := l, issue := now, due := now + boundOf i }))
    ++ (if eff.flags = 0 then [] else [{ wr := [⟨.flags, eff.flags⟩], issue := now, due := now + boundOf i }])

/-- R205: whether a thread's quad is locked. -/
def quadLocked (s : State) (v : Wave) : Bool :=
  match tblFind s.cohorts v.cohort with
  | some c => c.qlock && c.waves.all (fun w => (waveAt s w).any (·.isBundle))
  | none => false

/-- The bytes a scratchpad store writes. -/
def Acc.cells (a : Acc) : List (Place × Byte) := match a.kind with | .store d => (a.bytes.map (·.at_)).zip d | _ => []

/-- R193, R257, R298: a scratchpad access of a word on its way; the last cycle in which a record may still be read as it stood before is 16 after its issue. -/
def accFlight (s : State) (v : Wave) (rec_ : Bool) (a : Acc) : Flight :=
  let ps := a.bytes.map (·.at_)
  let due := s.clock + (if rec_ then 17 else spadBound s v ps)
  match a.kind with
  | .load parts => { issue := s.clock, due := due, src := some (ps, parts), since := s.clock, unit := a.unit }
  | _ => { issue := s.clock, due := due, st := a.cells, since := s.clock, unit := a.unit }

/-- What becomes of the accesses of a word: flights, gated stores, accesses for the queues. -/
def placeAccs (s : State) (v : Wave) (i : Instr) (l : List Acc) : List Flight × List Gated × List Acc :=
  match i with
  | .lds _ => (l.map (accFlight s v false), [], [])
  | .trec _ => (l.map (accFlight s v true), [], [])
  | .sts _ => if v.bun.regions.isEmpty then (l.map (accFlight s v false), [], []) else ([], l.map (fun a => { cells := a.cells, issue := s.clock, unit := a.unit }), [])
  | .stm _ => if quadLocked s v ∧ !l.isEmpty then ([{ issue := s.clock, due := s.clock + 10, st := (l.map (·.cells)).flatten, exact := true, since := s.clock }], [], []) else ([], [], l)
  | _ => ([], [], l)

/-- R397: the register an undo entry holds. -/
def Undo.key (u : Undo) : RegRef := match u with | .v r _ => .v r | .p k _ => .p k | .s r _ => .s r

/-- R397: the register a result is written to, where an undo log holds it. -/
def undoRef (d : Dst) : Option RegRef :=
  match d with
  | .s r => some (.s r)
  | .v r _ => if r < 248 then some (.v r) else none
  | .p k _ => some (.p k)
  | _ => none

/-- R397: the undo entry of a register from before the bundle. -/
def undoOf (v : Wave) (k : RegRef) : Option Undo :=
  match k with
  | .s r => some (.s r (v.getS r))
  | .v r => some (.v r (lanes.map (fun l => (v.getV r l).toNat)))
  | .p k => some (.p k (v.getP k))
  | .t _ => none

/-- A list of registers with each once. -/
def nubRef : List RegRef → List RegRef
  | [] => []
  | a :: r => a :: (nubRef r).filter (fun b => decide (b ≠ a))

/-- R397: the entries a region's undo log takes for the writes of flights. -/
def newUndo (v : Wave) (r : Region) (fl : List Flight) : List Undo :=
  ((nubRef ((fl.map (fun f => f.dsts.filterMap undoRef)).flatten)).filter (fun k => !(r.undo.any (fun u => decide (u.key = k))))).filterMap (undoOf v)

/-- R396: whether a word is of the list that a pure region accepts. -/
def pureWord (sl : Slot) (i : Instr) : Bool :=
  match sl, i with
  | _, .nop _ => true
  | .ln, .stm _ => false
  | .ln, _ => true
  | .xq, _ => true
  | .sc, .swrite _ | .sc, .endThread _ | .sc, .xmodeS _ | .sc, .tret _ | .sc, .tretPark _ => false
  | .sc, _ => true
  | .cp, .kwait _ | .cp, .solicit _ | .cp, .tmove _ | .cp, .post _ => true
  | _, _ => false

/-- R398: the committing words. -/
def committingWord (i : Instr) : Bool := match i with | .satom _ | .solicit _ | .tmove _ | .post _ => true | _ => false

/-- R396: the words that may name a queue port in a pure region. -/
def portWordOk (i : Instr) : Bool := match i with | .satom _ | .tmove _ | .post _ => true | _ => false

/-- R201: a bundle whose last word ends the innermost level: the levels after it, the strided registers, and where the next bundle stands; `next` is the address after the bundle (log 60, DEDUCED). -/
def iterationEnd (next : Word) : List LoopLevel → List LoopLevel × List Nat × Option Word
  | [] => ([], [], none)
  | l :: r =>
    if l.stop = next then
      let st := [l.dreg, l.breg].filter (· ≠ 255)
      if 1 < l.remain then ({ l with remain := l.remain - 1, firstit := false } :: r, st, some l.start)
      else
        let t := iterationEnd next r
        (t.1, st ++ t.2.1, some (t.2.2.getD l.stop))
    else (l :: r, [], none)

/-- R204: the levels left open by a branch to an address (log 60, DEDUCED). -/
def popLevels (t : Word) : List LoopLevel → List LoopLevel
  | [] => []
  | l :: r => if l.start.toNat ≤ t.toNat ∧ t.toNat < l.stop.toNat then l :: r else popLevels t r

/-- R202: whether a word's FIRST and LAST let it issue. -/
def issues (loops : List LoopLevel) (i : Instr) : Bool :=
  match loops with
  | [] => true
  | l :: _ => (!(fieldsOf i).first || l.firstit) && (!(fieldsOf i).last || decide (l.remain = 1))

/-- Whether a flight is a store that has not landed, of no exact moment. -/
def Flight.storing (f : Flight) : Bool := !f.landed && !f.exact && !f.st.isEmpty

/-- R257, R260: the scratchpad accesses of a thread on their way are performed now: loads take their values, then stores are written. -/
def landStores (s : State) (w : Nat) (v : Wave) : State :=
  let fl := v.bun.flights.filter (·.storing)
  let s1 := fl.foldl (fun t f => f.left.foldl (fun u c => spadStore u c.1 c.2) t) s
  let s2 := fl.foldl (fun t f => spadSeen t w v 1 (f.st.map (·.1))) s1
  modWave s2 w (fun u => { u with bun := { u.bun with flights := u.bun.flights.map (fun f => if f.landed then f else if f.storing then { f.taken s v with landed := true } else f.taken s v) } })

/-- R257, R260, R313: whether the release of an arrival in a bundle has effect at its issue: nothing queued, gated or of an exact moment is before it, nor another arrival that waits (log 103, DEDUCED). -/
def arriveNow (s : State) (w : Nat) (v : Wave) : Bool :=
  relCohort v.accs && v.bun.regions.all (fun r => r.gate.isEmpty) && v.bun.flights.all (fun f => f.landed || !f.exact)
    && s.eng.all (fun o => !(decide (o.2.wave = w) && decide (o.2.pay.engine = 4)))

/-- R190, R257, R312, R313: an arrival in a bundle, made at issue; it holds no bundle back: where an access of a queue, a gated store or a store of an exact moment stands before it, the waits of its phase end only once its release has effect (log 103, DEDUCED). -/
def bodyArrive (g : Nat) (body : Env → State → Res) (e : Env) (s : State) : Res :=
  if gateBad e s g then body e s
  else if arriveNow s e.w e.v then body e (landStores s e.w e.v)
  else match body e s with
    | .done s1 eff => .done (engIssue e s1 {} (.arr g (gateOf s e.v.cohort g).phase)) eff
    | r => r

/-- R60: what each scalar-slot word does. -/
def scBody (i : Instr) : Env → State → Res :=
  match i with
  | .sadd f => bodySadd f | .ssub f => bodySsub f | .smul f => bodySmul f | .smulh f => bodySmulh f | .sdiv f => bodySdiv f | .srem f => bodySrem f | .smin f => bodySmin f | .smax f => bodySmax f
  | .sand f => bodySand f | .sor f => bodySor f | .sxor f => bodySxor f | .sandn f => bodySandn f | .sshl f => bodySshl f | .sshr f => bodySshr f | .ssar f => bodySsar f | .srot f => bodySrot f
  | .sabs f => bodySabs f | .sclz f => bodySclz f | .spopc f => bodySpopc f | .smov f => bodySmov f | .sext f => bodySext f | .sbfx f => bodySbfx f | .sbfi f => bodySbfi f
  | .scmp f => bodyScmp f | .ssel f => bodySsel f | .sli f => bodySli f
  | .sfadd f => bodySfadd f | .sfmul f => bodySfmul f | .sffma f => bodySffma f | .sfcmp f => bodySfcmp f | .sfcvt f => bodySfcvt f
  | .jmp f => bodyJmp f | .jc f => bodyJc f | .endThread _ => bodyEndSlot | .sread f => bodySread f | .swrite f => bodySwrite f
  | .trap f => bodyTrap f | .tret _ => bodyTret false | .tretPark _ => bodyTret true | .mark f => bodyMark f | .brk f => bodyBrk f
  | .satom f => bodySatom f | .fence f => bodyFence f | .align f => bodyAlign f
  | .xmodeS _ => bodyXmodeS | .loop f => bodyLoop f | .lexit f => bodyLexit f
  | _ => bodyNop

/-- R60: what each lane word does. -/
def lnBody (i : Instr) : Env → State → Res :=
  match i with
  | .vadd f => bodyVadd f | .vsub f => bodyVsub f | .vmul f => bodyVmul f | .vmulh f => bodyVmulh f | .vmin f => bodyVmin f | .vmax f => bodyVmax f | .vmad f => bodyVmad f
  | .vand f => bodyVand f | .vor f => bodyVor f | .vxor f => bodyVxor f | .vandn f => bodyVandn f | .vshl f => bodyVshl f | .vshr f => bodyVshr f | .vsar f => bodyVsar f
  | .vabs f => bodyVabs f | .vclz f => bodyVclz f | .vpopc f => bodyVpopc f | .vmov f => bodyVmov f | .vbfx f => bodyVbfx f | .vbfi f => bodyVbfi f
  | .vcmp f => bodyVcmp f | .vsel f => bodyVsel f | .vaddc f => bodyVaddc f
  | .vfadd f => bodyVfadd f | .vfsub f => bodyVfsub f | .vfmul f => bodyVfmul f | .vffma f => bodyVffma f | .vfmin f => bodyVfmin f | .vfmax f => bodyVfmax f | .vfcmp f => bodyVfcmp f
  | .vrcp f => bodyVrcp f | .vsqrt f => bodyVsqrt f | .vrsq f => bodyVrsq f | .vexp2 f => bodyVexp2 f | .vlog2 f => bodyVlog2 f | .vsin f => bodyVsin f | .vcos f => bodyVcos f
  | .vfclass f => bodyVfclass f | .vcvt f => bodyVcvt f | .plog f => bodyPlog f | .pmov f => bodyPmov f
  | .stm f => bodyStm f | .xmov f => bodyXmov f
  | _ => bodyNop

/-- R60: what each word of the `mx`, `cp` and `xq` slots does. -/
def engBody (i : Instr) : Env → State → Res :=
  match i with
  | .fset f => bodyFset f | .mbld f => bodyMbld f | .mma f => bodyMma f | .mclr f => bodyMclr f | .mst f => bodyMst f | .mlat f => bodyMlat f | .jld f => bodyJld f
  | .trec f => bodyTrec f | .tcopy f => bodyTcopy f | .kwait f => bodyKwait f | .kjoin f => bodyKjoin f | .gset f => bodyGset f
  | .garr f => if f.ncons = 0 then bodyArrive f.a (bodyGarr f) else bodyGarr f
  | .gwait f => bodyGwait f | .gsync f => bodyArrive f.a (bodyGsync f)
  | .treg f => bodyTreg f | .tdrop f => bodyTdrop f | .tfind f => bodyTfind f | .tmove f => bodyTmove f | .solicit f => bodySolicit f | .cwait f => bodyCwait f
  | .post f => bodyPost f | .rnext f => bodyRnext f | .xbcast f => bodyXmov f
  | _ => bodyNop

/-- R60: what the word of a slot does. -/
def slotBody (sl : Slot) (i : Instr) : Env → State → Res :=
  match i with
  | .lds f => bodyLds f
  | .sts f => bodySts f
  | i => match sl with
    | .ln => lnBody i
    | .sc => scBody i
    | _ => engBody i

end Sys2Proof.Machine
end

