-- ==== Sys2Proof/Machine/Bundle.lean ====
section
/-! DEFINITION. Converting a section, issuing a bundle, pure regions, and the drains of a bundle thread (R183 to R204, R396 to R402). -/

namespace Sys2Proof.Machine

/-- R184: whether a register write of an earlier instruction has not landed. -/
def writesPending (v : Wave) : Bool := v.accs.any (fun a => !a.kind.dsts.isEmpty) || v.owed.any (fun d => match d with | .chan _ _ _ => false | _ => true)

/-- R184: what refuses the conversion; a wave whose issuing sub-wave is its only one is not split here. -/
def convertBad (e : Env) (s : State) (mx : Bool) : Bool :=
  !e.v.kernel.conv || !e.v.conv || s.waves.any (fun x => decide (x.1 ≠ e.w) && decide (physCore s x.2.core = e.core) && decide (x.2.sect = e.v.sect)) || decide (e.v.subs.length ≠ 1)
    || (mx && (!e.v.kernel.mtx || claimed s e.core e.w))

/-- R184 to R186: the conversion begins (log 8, DEDUCED). -/
def bodyXmodeB (mx : Bool) (e : Env) (s : State) : Res :=
  if writesPending e.v then .hold s
  else if convertBad e s mx then .trap s (e.modeTrap 10)
  else .done (modWave s e.w (fun v => { v with phase := .converting (s.clock + 16), bun := { claim := mx || v.keptClaim, claimWait := mx, firstAt := s.clock + 16, lastHdr := v.bun.lastHdr, lastStamp := v.bun.lastStamp } })) { wdReset := true }
/-- `xmode.b` (R184). -/
def execXmodeB (f : RRR) (s : State) : Out := issue (.xmodeB f) (bodyXmodeB false) s
/-- `xmode.b.mx` (R184, R186). -/
def execXmodeBMx (f : RRR) (s : State) : Out := issue (.xmodeBMx f) (bodyXmodeB true) s

/-- R185: a wave as a bundle thread: the clusters of lanes outside the active mask are unspecified. -/
def Wave.converted (v : Wave) (g : Nat → Nat) : Wave :=
  let out := lanes.filter (fun l => !(v.rootMask.getLsbD l))
  let v1 := (List.range v.kernel.alloc).foldl (fun t r => out.foldl (fun u l => u.setV r l (BitVec.ofNat 32 (g (64 * r + l)))) t) v
  let v2 := (List.range 7).foldl (fun t k => out.foldl (fun u l => u.setPBit k l (decide (g (2 ^ 20 + 64 * k + l) % 2 = 1))) t) v1
  { v2 with phase := .bundle, hinge := [], subs := v.subs.map (fun u => (rootSub, { u.2 with mask := v.rootMask })) }

/-- XMODE_CONVERT: the wave becomes a bundle thread (R185). -/
def execXmodeConvert (w : Nat) (s : State) : Out :=
  match waveAt s w with
  | none => notEnabled
  | some v =>
    match v.phase with
    | .converting _ => nextOf s (modWave s w (fun v => v.converted (free s)))
    | _ => notEnabled

/-- An operation of a bundle that issues: its position, slot, clusters and instruction. -/
structure BWord where
  pos : Nat
  slot : Slot
  clusters : Lane32
  i : Instr
  deriving DecidableEq, Repr, Inhabited

/-- What the words of a bundle come to. -/
structure BunRun where
  s : State
  flights : List Flight := []
  gate : List Gated := []
  accs : List (List Acc) := []
  go : Go := .seq
  reset : Bool := false
  faults : List Pending := []
  post : Option Trap := none
  deriving DecidableEq, Repr

/-- How a bundle ends at issue. -/
inductive BunRes where
  | done (b : BunRun)
  | trap (s : State) (t : Trap)
  | gap (s : State)
  | hold
  deriving DecidableEq, Repr

/-- R182: what a word of a bundle sees. -/
def bunEnv (s : State) (w : Nat) (v : Wave) (h : BundleHeader) (p next : Word) (pops : Tbl Word) (pushes : Tbl (Nat × Nat × Nat)) (o : BWord) : Env :=
  let e : Env := { w := w, x := rootSub, v := v, slot := some o.slot, act := if o.slot = .ln then o.clusters else h.lanes, mask := v.rootMask, p := p, next := next, now := s.clock, draw := s.fresh, tag := o.pos,
                   pops := pops, pushes := pushes, die := dieOf v.core, core := physCore s v.core }
  { e with act := laneMask (fun l => e.act.getLsbD l && e.guardOk (fieldsOf o.i).g l) }

/-- R114, R314, R426: the traps that a bundle takes after it has issued. -/
def postTrap (i : Instr) : Bool := match i with | .trap _ | .brk _ | .gwait _ => true | _ => false

/-- R399, R401: the words whose memory checks end after issue. -/
def lateWord (i : Instr) : Bool := match i with | .lds _ | .sts _ | .stm _ | .trec _ | .satom _ => true | _ => false

/-- R399, R401: a fault that a check after issue finds (log 58, DEDUCED). -/
def lateFault (i : Instr) (t : Trap) : Bool := lateWord i && (decide (t.cause = .page) || decide (t.cause = .protection))

/-- R224: whether a fault of a word's access is one that a mirrored context reports as a gap first. -/
def gapFault (s : State) (v : Wave) (t : Trap) : Bool := (ctxAt s v.ctx).t.mirrored && decide (t.cause = .page) && decide (bits t.info.toNat 10 2 = 0)

/-- R274: the access of a scalar atomic, its bytes not translated. -/
def satomAcc (f : ATM) (e : Env) : Acc :=
  let n := 2 ^ cWid f.c
  { kind := .atomic f.atop (e.rdS f.b) (if f.atop = 1 then e.rdS (f.b + 1) else 0) (scalarParts (e.dstS f.d) n (decide (n = 4) && decide (f.atop = 6 ∨ f.atop = 7))),
    va := (e.rdS f.a + f.off).toNat, n := n, flat := !(cSgn f.c), ord := cOrd f.c, scope := cScope f.c, gated := inRegion e }

/-- R224: a gap of a bundle thread's atomic: the thread goes on, the access waits for the answer. -/
def gapAcc (s : State) (e : Env) (f : ATM) (t : Trap) : State × Acc :=
  let g := (ctxAt s e.v.ctx).gapSeq
  let s1 := modCtx s e.v.ctx (fun c => { c with gapSeq := c.gapSeq + 1, gaps := tblPut c.gaps g { va := t.addr, since := s.clock, kind := 2, by_ := e.v.place, wave := some (e.w, e.x), trap := t } })
  (tellHost s1 (.gap (gapRecord e.v.ctx g e.v.core e.v.place 2 t.addr)), { satomAcc f e with gap := some g })

/-- R190 to R193, R224, R399, R401: one word of a bundle, after those before it; a gap of its check at issue holds the bundle, none of whose words has had effect, until the driver's answer. -/
def runWord (s0 : State) (o : BWord) (e : Env) (b : BunRun) : BunRes :=
  match slotBody o.slot o.i e b.s with
  | .hold _ => (match o.i, slotBody o.slot o.i e s0 with | .post _, .hold s2 => .gap s2 | _, _ => .hold)
  | .issued _ => .hold
  | .trap s1 t =>
    if postTrap o.i then .done { b with s := s1, post := some t, reset := b.reset || (match o.i with | .gwait _ => true | _ => false) }
    else if lateFault o.i t then
      match o.i with
      | .satom f => if gapFault b.s e.v t then (let r := gapAcc b.s e f t; .done { b with s := r.1, accs := b.accs ++ [[r.2]] }) else .done { b with faults := b.faults ++ [{ t := t, header := e.p, issue := e.now, res := e.dstS f.d }] }
      | _ => .done { b with faults := b.faults ++ [{ t := t, header := e.p, issue := e.now }] }
    else match slotBody o.slot o.i e s0 with
      | .trap s2 t2 => .trap s2 t2
      | _ => .trap s0 t
  | .done s1 eff =>
    let r := placeAccs b.s e.v o.i eff.accs
    .done { b with s := s1, flights := b.flights ++ wrFlights e.now o.i eff ++ r.1.filter (fun f => !f.dsts.isEmpty || !f.st.isEmpty), gate := b.gate ++ r.2.1.filter (fun g => !g.cells.isEmpty), accs := if r.2.2.isEmpty then b.accs else b.accs ++ [r.2.2],
                   go := if eff.go = .seq then b.go else eff.go, reset := b.reset || eff.wdReset }

/-- The words of a bundle one after another, all reading the state before it. -/
def runWords (s0 : State) (env : BWord → Env) (b : BunRun) : List BWord → BunRes
  | [] => .done b
  | o :: r =>
    match runWord s0 o (env o) b with
    | .done b1 => runWords s0 env b1 r
    | .trap s t => (match runWords s0 env b r with | .hold => .hold | _ => .trap s t)
    | .gap s => (match runWords s0 env b r with | .hold => .hold | _ => .gap s)
    | .hold => .hold

/-- The ports that the words of a bundle pop. -/
def bunPops (l : List BWord) : List Nat := nub ((l.map (fun o => popsOf (some o.slot) o.i)).flatten)

/-- The ports that the words of a bundle push. -/
def bunPushes (l : List BWord) : List Nat := (l.map (fun o => pushesOf (some o.slot) o.i)).flatten

/-- R65, R186, R197, R396: what a word's place in the thread refuses (log 59, DEDUCED). -/
def wordBad (s : State) (v : Wave) (p : Word) (o : BWord) : Option Trap :=
  let e : Env := { p := p, tag := o.pos }
  let ports := popsOf (some o.slot) o.i ++ pushesOf (some o.slot) o.i
  if v.bun.pure_ && (!(pureWord o.slot o.i) || (!ports.isEmpty && !(portWordOk o.i))) then some (e.illegal 10)
  else if !((popsOf (some o.slot) o.i).all (portBound s v false) && (pushesOf (some o.slot) o.i).all (portBound s v true)) then some (e.illegal 10)
  else none

/-- R186: a matrix slot of a thread without the claim (log 59, DEDUCED). -/
def claimBad (v : Wave) (h : BundleHeader) (p : Word) : Option Trap :=
  if h.pmx && !v.bun.claim then some { cause := .mode, addr := p, info := BitVec.ofNat 64 (10 + 65536 * (h.len - 1 - ofBool h.pcp - ofBool h.pxq)) } else none

/-- R201: a bundle of a body whose words run past its end (log 60, DEDUCED). -/
def pastEnd (v : Wave) (p next : Word) : Bool :=
  match v.bun.loops with
  | [] => false
  | l :: _ => decide (l.start.toNat ≤ p.toNat) && decide (p.toNat < l.stop.toNat) && decide (l.stop.toNat < next.toNat)

/-- R198: the hazards of a bundle (log 59, DEDUCED). -/
def hazardOf (s : State) (v : Wave) (ws : List BWord) : Option Nat :=
  let m := (coreAt s (physCore s v.core)).mx
  if ws.any (fun o => match o.i with | .mma _ => m.lastMma.any (fun t => decide (s.clock < t + 32)) | _ => false) then some 1
  else if ws.any (fun o => match o.i with | .mst f => (tblFind m.accMma (bits f.a 0 3)).any (fun t => decide (s.clock < t + 96)) | _ => false) then some 2
  else if (bunPushes ws).length ≠ (nub (bunPushes ws)).length then some 3
  else none

/-- R430, R431: the synchronising operations of a bundle against the log, one entry each. -/
def replayTraps (s : State) (v : Wave) : List BWord → Option Trap
  | [] => none
  | o :: r =>
    if syncOp o.i then
      match replayTrap s v o.i with
      | some t => some t
      | none => replayTraps s { v with replayPos := v.replayPos + 1 } r
    else replayTraps s v r

/-- R198, R431: what refuses a bundle that nothing holds back: a hazard, then a replay mismatch (log 59, DEDUCED). -/
def bunBefore (s : State) (v : Wave) (p : Word) (ws : List BWord) : Option Trap :=
  match hazardOf s v ws with
  | some k => some { cause := .hazard, addr := p, info := BitVec.ofNat 64 k }
  | none => replayTraps s v ws

/-- R430: the synchronising operations of a bundle recorded, or counted. -/
def replayNotes (s : State) (w : Nat) (v : Wave) : List BWord → State
  | [] => s
  | o :: r => replayNotes (replayDone s w v o.i) w (if syncOp o.i then { v with replayPos := v.replayPos + 1 } else v) r

/-- R396, R398: the regions of a thread after a bundle's mark (log 57, DEDUCED). -/
def markRegions (now : Nat) (latch : Nat) (p : Word) (loops : List LoopLevel) (l : List Region) : List Region :=
  let ended := l.map (fun r => { r with stop := some (r.stop.getD (now - 1)) })
  match latch with
  | 1 => ended ++ [{ mark := p, start := now, loops := loops }]
  | 2 => ended
  | _ => l

/-- R396: whether a bundle belongs to a pure region: by its mark, else as the bundle before it (log 57, DEDUCED). -/
def markPure (latch : Nat) (old : Bool) : Bool := match latch with | 1 => true | 2 => false | _ => old

/-- The last region changed. -/
def modLast (l : List Region) (f : Region → Region) : List Region :=
  match l with
  | [] => []
  | [r] => [f r]
  | r :: t => r :: modLast t f

/-- R397: whether what a bundle gates and shadows overflows the structures (log 57, DEDUCED). -/
def overflows (v : Wave) (fl : List Flight) (gate : List Gated) : Bool :=
  match v.bun.regions.getLast? with
  | none => false
  | some r => decide (64 < ((v.bun.regions.map (·.gate)).flatten).length + gate.length) || decide (128 < ((v.bun.regions.map (·.undo)).flatten).length + (newUndo v r fl).length)

/-- R429: which counters a bundle raises, each with how much (log 65, DEDUCED). -/
def bunCounts (h : BundleHeader) (level : Nat) (ws : List BWord) : List (Nat × Nat) :=
  let real (o : BWord) : Bool := match o.i with | .nop _ => false | _ => true
  let ln := ((ws.filter (fun o => decide (o.slot = .ln) && real o)).map (fun o => (maskLanes o.clusters).length)).foldl (· + ·) 0
  let eng (k : Nat) (sl : Slot) : Nat × Nat := (16 * level + k + ofBool (!(ws.any (fun o => decide (o.slot = sl) && real o))), 1)
  let _ := h
  [(16 * level, 1), (16 * level + 2, ln), (16 * level + 3, 32 - ln), eng 4 .sc, eng 6 .mx, eng 8 .cp, eng 10 .xq]

/-- R429: counters raised, modulo 2⁶⁴ (log 65, DEDUCED). -/
def addCounts (t : Tbl Nat) (l : List (Nat × Nat)) : Tbl Nat := l.foldl (fun c x => tblSet 0 c x.1 ((tblGet 0 c x.1 + x.2) % 2 ^ 64)) t

/-- R65, R400: a bundle that fails a check at issue has no effect; the thread drains and traps at its header. -/
def bunTrap (s : State) (w : Nat) (p : Word) (t : Trap) : State := drainTrap s w { t with tpc := some p } false

/-- R204: where the next bundle stands and which levels are open: the address after the bundle where nothing redirects (log 60, DEDUCED). -/
def bunNext (v : Wave) (cur : List LoopLevel) (go : Go) (next : Word) : Word × List LoopLevel × List Nat :=
  match go with
  | .seq => let t := iterationEnd next v.bun.loops; (t.2.2.getD next, t.1, t.2.1)
  | .br t => (BitVec.ofInt 64 t, popLevels (BitVec.ofInt 64 t) v.bun.loops, [])
  | .abs t => (t, cur, [])
  | .kept => (next, cur, [])

/-- R201: the stride additions of an iteration's end. -/
def strideFlights (e : Env) (l : List Nat) : List Flight := l.map (fun r => { wr := [⟨.s r, (e.rdS r + e.rdS (r + 1)).toNat⟩], issue := e.now, due := e.now + 1 })

/-- R187, R188: the phase a bundle leaves its thread in. -/
def bunPhase (ws : List BWord) (next : Word) (old : Phase) : Phase :=
  if ws.any (fun o => match o.i with | .xmodeS _ => true | _ => false) then .ret next
  else if ws.any (fun o => match o.i with | .endThread _ => true | _ => false) then .ending
  else old

/-- R314: the gate that a bundle's `gsync` waits at. -/
def bunSync (ws : List BWord) : Option Nat := ws.findSome? (fun o => match o.i with | .gsync f => some f.a | _ => none)

/-- R398: the committing words of a bundle: the accesses, engine instructions and census slots that wait for the region's commit (log 57, DEDUCED). -/
def gatedAccs (v : Wave) (old : Nat) : List Nat := (v.accs.filter (fun a => a.gated && decide (old ≤ a.id))).map (·.id)

/-- R190, R191, R201, R396 to R398: a bundle that issues. -/
def bunDone (s : State) (w : Nat) (v : Wave) (h : BundleHeader) (p next : Word) (ws : List BWord) (e : Env) (b : BunRun) : State :=
  let cur := match waveAt b.s w with | some u => u.bun.loops | none => []
  let n := bunNext v cur b.go next
  let fl := byBounds b.flights ++ strideFlights e n.2.2
  let engs := ((b.s.eng.filter (fun x => decide (s.nextEng ≤ x.1) && decide (x.2.wave = w) && x.2.gated)).map (·.1))
  let slots := ws.filterMap (fun o => match o.i with | .solicit f => some f.a | _ => none)
  let ends := decide (b.go ≠ .seq) || !(n.2.2.isEmpty && decide (n.1 = next) && decide (n.2.1 = v.bun.loops)) || ws.any (fun o => committingWord o.i)
  let s1 := takePushes (takePops b.s v (bunPops ws)) v (bunPushes ws)
  let s2 := b.accs.foldl (fun t l => modWave t w (·.queue rootSub (l.map (fun a => { a with cyc := s.clock, hdr := p })))) s1
  let s3 := modWave s2 w (fun u =>
    let regions := modLast v.bun.regions (fun r => { r with gate := r.gate ++ b.gate, undo := r.undo ++ newUndo v r fl, accs := r.accs ++ gatedAccs u v.nextAcc, engs := r.engs ++ engs, slots := r.slots ++ slots, stop := if r.stop.isNone && ends then some s.clock else r.stop })
    let bun := { u.bun with flights := u.bun.flights ++ fl, regions := regions, pure_ := v.bun.pure_, loops := n.2.1, faults := (u.bun.faults.map (fun f => { f with later := true })) ++ b.faults, lastHdr := p, lastStamp := h.stamp, lastCyc := s.clock, claimWait := false,
                            counters := addCounts u.bun.counters (bunCounts h v.bun.loops.length ws), gsyncHold := bunSync ws }
    let u1 := { u with bun := bun, retired := u.retired + 1, phase := bunPhase ws n.1 u.phase }
    let u2 := u1.modSub rootSub (fun y => { y with pc := n.1, aged := 0 })
    u2.countIssue rootSub b.reset v.wdlimit)
  let s4 := modSect s3 e.core v.sect (fun k => { k with last := some (w, rootSub), issuedAt := some s.clock })
  let s5 := if (bunPops ws).isEmpty then s4 else dropL1 s4 e.core
  let s6 := replayNotes s5 w v ws
  match b.post with
  | some t => drainTrap s6 w { t with tpc := none } false
  | none => s6

/-- R190, R401: a bundle held back; a fault found meanwhile stops the thread. -/
def bunHold (s : State) (w : Nat) (v : Wave) : Out := nextOf s (if v.bun.faults.isEmpty then s else foundFault s w v)

/-- R64, R190, R198, R397: a decoded bundle at the head of its thread (log 59, DEDUCED; log 7, DEDUCED). -/
def bunIssue (s : State) (w : Nat) (v0 : Wave) (h : BundleHeader) (p : Word) (ops : List BundleOp) : Out :=
  let next := p + BitVec.ofNat 64 (8 * h.len)
  let v := { v0 with bun := { v0.bun with regions := markRegions s.clock h.latch p v0.bun.loops v0.bun.regions, pure_ := markPure h.latch v0.bun.pure_ } }
  let ws := ((ops.zipIdx.map (fun o => ({ pos := o.2 + 1, slot := o.1.slot, clusters := o.1.clusters, i := o.1.i } : BWord))).filter (fun o => issues v.bun.loops o.i))
  let pops := bunPops ws
  let pushes := bunPushes ws
  let env := bunEnv s w v h p next (popAll s v pops) (pushAll s v pushes)
  let e := env { pos := 0, slot := .sc, clusters := 0, i := .nop {} }
  if pastEnd v p next then nextOf s (bunTrap s w p (e.illegal 10))
  else match (claimBad v h p).or (ws.findSome? (wordBad s v p)) with
  | some t => nextOf s (bunTrap s w p t)
  | none =>
    if !(pops.all (popReady s v)) || !(pushes.all (pushReady s v)) then bunHold s w v0
    else if seqCarries p (8 * h.len) && ws.all (fun o => goesOn o.i (env o)) then nextOf s (bunTrap s w p (carryTrap p (8 * h.len)))
    else match bunBefore s v p ws, runWords s env { s := s } ws with
        | _, .hold => bunHold s w v0
        | some t, _ => nextOf s (bunTrap s w p t)
        | none, .trap s1 t => nextOf s (bunTrap s1 w p t)
        | none, .gap s1 => nextOf s s1
        | none, .done b =>
          match b.go with
          | .br t => if brOut t then nextOf s (bunTrap s w p (brTrap t))
                     else if overflows v b.flights b.gate then nextOf s (modWave s w (fun u => { u with bun := { u.bun with regions := markRegions s.clock 2 p [] v0.bun.regions, pure_ := false } }))
                     else nextOf s (settle (bunDone s w v h p next ws e b))
          | _ => if overflows v b.flights b.gate then nextOf s (modWave s w (fun u => { u with bun := { u.bun with regions := markRegions s.clock 2 p [] v0.bun.regions, pure_ := false } }))
                 else nextOf s (settle (bunDone s w v h p next ws e b))

/-- R186: whether the matrix instructions of SIMT waves still keep a thread that has just claimed the engine. -/
def claimHeld (s : State) (v : Wave) : Bool :=
  v.bun.claimWait && s.eng.any (fun o => decide (o.2.core = physCore s v.core) && (match o.2.pay with | .mx m => m.inp.isNone | _ => false))

/-- R190, R314: whether a thread may not issue its next bundle yet (log 33, DEDUCED; log 59, DEDUCED). -/
def bunWaits (s : State) (v : Wave) : Bool := decide (s.clock < v.bun.firstAt) || claimHeld s v || v.bun.gsyncHold.isSome

/-- R419, R189, R224: whether a wave is a bundle thread that issues. -/
def mayBundle (v : Wave) : Bool := decide (v.phase = .bundle) && !v.ended && !v.inGap && (!v.stopped || v.stepping) && v.parkReq.isNone

/-- R401: whether a fault found after issue stops the thread now: freely, and within 16 cycles (log 58, DEDUCED). -/
def faultFound (s : State) (v : Wave) : Bool := match v.bun.faults with | [] => false | f :: _ => freeBool s 3 || decide (f.issue + 16 ≤ s.clock)

/-- A bundle thread named by `cur`, with the address of its next bundle. -/
def bundleCur (s : State) (run : Nat → Wave → Word → Out) : Out :=
  match s.cur with
  | none => .refused .noIssuer
  | some (w, x) =>
    match waveAt s w with
    | none => .refused .noIssuer
    | some v =>
      match tblFind v.subs x with
      | none => .refused .noIssuer
      | some u =>
        if mayBundle v && decide (u.hold = .run) then
          if faultFound s v then nextOf s (foundFault s w v)
          else if bunWaits s v then bunHold s w v
          else run w v u.pc
        else .refused .noIssuer

/-- BUNDLE_ISSUE: the thread that `cur` names issues the bundle of these words, the header first; a word not given is zero (R190) (log 62, DESIGN CHOICE). -/
def execBundleIssue (words : List Word) (s : State) : Out :=
  bundleCur s (fun w v p =>
    let h := headerOf (words.headD 0)
    match decodeBundle v.kernel.alloc (words ++ List.replicate h.len 0) with
    | .error (f, pos) => nextOf s (bunTrap s w p (decTrap { p := p, tag := pos } f))
    | .ok (h, ops) => bunIssue s w v h p ops)

/-- An instruction that only bundle code holds, as the one word of a bundle in a slot, a lane word in every cluster; a SIMT wave takes MODE (R60, R64) (log 62, DESIGN CHOICE). -/
def issueAlone (sl : Slot) (i : Instr) (s : State) : Out :=
  match s.cur.bind (fun c => waveAt s c.1) with
  | none => .refused .noIssuer
  | some v =>
    if v.phase = .bundle then
      bundleCur s (fun w v p =>
        match check { slot := some sl, alloc := v.kernel.alloc } i with
        | some f => nextOf s (bunTrap s w p (decTrap { p := p, tag := 1 } f))
        | none =>
          let ln := decide (sl = .ln)
          bunIssue s w v { lanes := if ln || decide (sl = .xq) then BitVec.allOnes 32 else 0, psc := decide (sl = .sc), pmx := decide (sl = .mx), pcp := decide (sl = .cp), pxq := decide (sl = .xq), spread := ln, latch := 0, len := 2, stamp := 0, ver := 1 } p
            [{ slot := sl, clusters := BitVec.allOnes 32, i := i }])
    else issue i bodyNop s

/-- `xmode.s` (R187). -/
def execXmodeS (f : RRR) (s : State) : Out := issueAlone .sc (.xmodeS f) s
/-- `xmov` (R195). -/
def execXmov (f : RRR) (s : State) : Out := issueAlone .ln (.xmov f) s
/-- `xbcast` (R196). -/
def execXbcast (f : RRR) (s : State) : Out := issueAlone .xq (.xbcast f) s
/-- `loop` (R200). -/
def execLoop (f : LP) (s : State) : Out := issueAlone .sc (.loop f) s
/-- `lexit` (R203). -/
def execLexit (f : RRR) (s : State) : Out := issueAlone .sc (.lexit f) s

/-- R398: whether every faultable access issued in a region has passed its checks: no fault is pending, no gap, no response outstanding; in a faulted context a region commits past its faults (R394, R401). -/
def regionClear (s : State) (v : Wave) (r : Region) : Bool :=
  ((ctxAt s v.ctx).faulted.isSome || v.bun.faults.all (fun f => decide (f.issue < r.start) || (match r.stop with | some t => decide (t < f.issue) | none => false)))
    && v.accs.all (fun a => !(decide (a.id ∈ r.accs)) || a.gap.isNone)

/-- R402: the peer accesses of a region's committing word. -/
def regionPeers (v : Wave) (r : Region) : List Acc := v.accs.filter (fun a => decide (a.id ∈ r.accs) && a.bytes.any (fun b => b.at_.isPeer))

/-- R398: gated accesses released. -/
def ungate (ids : List Nat) (v : Wave) : Wave := { v with accs := v.accs.map (fun a => if a.id ∈ ids then { a with gated := false } else a) }

/-- R350, R398: the censuses of a region's `solicit` go on; their slots are OPEN since the issue. -/
def ungateSlots (s : State) (w : Nat) (slots : List Nat) : State :=
  { s with censuses := s.censuses.map (fun c => if decide (c.opener = some w) && c.gated && decide (c.slot ∈ slots) then { c with gated := false } else c) }

/-- R399: a census whose `solicit` is rolled back: its slot is as it was before. -/
def dropCensus (s : State) (p : Nat) (c : Census) : State :=
  modCore s p (fun x => { x with slots := match c.prior with | some y => tblPut x.slots (16 * c.so.ctx + c.slot) y | none => tblErase x.slots (16 * c.so.ctx + c.slot) })

/-- R398: the oldest region commits: its gated stores enter the store queue in issue order, its committing words go on. -/
def commitRegion (s : State) (w : Nat) (v : Wave) (r : Region) : State :=
  let places := ((r.gate.map (·.cells)).flatten).map (·.1)
  let s1 := takeLoads s places w
  let st := byBounds (r.gate.map (fun g => ({ issue := s.clock, due := s.clock + spadBound s v (g.cells.map (·.1)), st := g.cells, since := g.issue, unit := g.unit } : Flight)))
  let s2 := modWave s1 w (fun u => { (ungate r.accs u) with bun := { u.bun with regions := u.bun.regions.tail, flights := u.bun.flights ++ st } })
  let s3 := r.engs.foldl (fun t k => modEng t k (fun o => { o with gated := false })) s2
  ungateSlots s3 w r.slots

/-- Whether a thread's oldest region may commit: it has ended, or the thread is asked to park (R398, R419) (log 57, DEDUCED). -/
def mayCommit (s : State) (v : Wave) : Bool :=
  match v.bun.regions with
  | [] => false
  | r :: _ => (!v.stopped || v.stepping) && (r.stop.isSome || v.parkReq.isSome) && regionClear s v r

/-- REGION_COMMIT: the oldest region of bundle thread `w` commits; a peer atomic of it is first sent, and its response awaited (R398, R402). -/
def execRegionCommit (w : Nat) (s : State) : Out :=
  match waveAt s w with
  | none => notEnabled
  | some v =>
    match v.bun.regions with
    | [] => notEnabled
    | r :: _ =>
      if mayCommit s v then
        match regionPeers v r with
        | [] => nextOf s (settle (commitRegion s w v r))
        | l => if l.any (·.gated) then nextOf s (settle (modWave s w (ungate (l.map (·.id))))) else notEnabled
      else notEnabled

/-- R187, R336: whether everything a thread has issued has landed, every matrix operation among it. -/
def threadDrained (s : State) (w : Nat) (v : Wave) : Bool :=
  v.bun.flights.isEmpty && v.accs.all (·.gated) && v.accs.all (fun a => a.gap.isNone) && v.owed.all (fun d => match d with | .chan _ _ _ => true | _ => false)
    && !(s.eng.any (fun o => decide (o.2.wave = w) && (match o.2.pay with | .mx m => m.inp.isSome | _ => false)))

/-- R187, R400: the section of a thread whose drain ends in this cycle issues nothing in it. -/
def sectDone (s : State) (v : Wave) : State := modSect s (physCore s v.core) v.sect (fun k => { k with issuedAt := some s.clock })

/-- R399: an undo entry restored (log 56, DEDUCED). -/
def Wave.restore (v : Wave) (u : Undo) : Wave :=
  match u with
  | .s r x => v.setS r x
  | .v r l => (l.zipIdx).foldl (fun t y => t.setV r y.2 (BitVec.ofNat 32 y.1)) v
  | .p k m => v.setP k m

/-- R399: an engine instruction of a committing word withdrawn: its token is as before, its reserved entries go. -/
def dropEng (s : State) (w k : Nat) : State :=
  match tblFind s.eng k with
  | none => s
  | some o =>
    let res := match o.pay with | .move m => m.res | .post _ r => r | _ => []
    let s1 := releaseEntries { s with eng := tblErase s.eng k } [{ kind := .slot res }]
    modWave s1 w (fun v => { (match o.out with | some t => v.setTok t o.prior | none => v) with owed := v.owed.filter (fun d => !(decide (d ∈ res))) })

/-- R399: the uncommitted regions of a thread rolled back, the youngest first (log 56, DEDUCED). -/
def rollback (s : State) (w : Nat) (v : Wave) : State :=
  let ids := (v.bun.regions.map (·.accs)).flatten
  let s1 := releaseEntries s (v.accs.filter (fun a => decide (a.id ∈ ids)))
  let s2 := ((v.bun.regions.map (·.engs)).flatten).reverse.foldl (fun t k => dropEng t w k) s1
  let mine (c : Census) : Bool := decide (c.opener = some w) && c.gated
  let s3 := (s2.censuses.filter mine).reverse.foldl (fun t c => dropCensus t (physCore s v.core) c) { s2 with censuses := s2.censuses.filter (fun c => !(mine c)) }
  modWave s3 w (fun u =>
    let u1 := (v.bun.regions.reverse).foldl (fun t r => r.undo.foldl Wave.restore t) u
    { u1 with accs := u1.accs.filter (fun a => !(decide (a.id ∈ ids))), bun := { u1.bun with regions := [], loops := (v.bun.regions.headD {}).loops } }.modSub rootSub (fun y => { y with pc := (v.bun.regions.headD {}).mark }))

/-- R398, R399: every region left committed, as a trap that rolls nothing back does. -/
def commitAll (s : State) (w : Nat) (v : Wave) : State := v.bun.regions.foldl (fun t r => match waveAt t w with | some u => commitRegion t w u r | none => t) s

/-- R399: the causes that roll back. -/
def rollsBack (c : Cause) : Bool := match c with | .page | .protection | .peerFault | .peerTimeout | .preempt | .migrate | .watchdog => true | _ => false

/-- R400: the fault that decides among those a drain has found: the oldest in issue order, before a check that failed at issue (log 58, DEDUCED). -/
def oldestFault (l : List Pending) : Option Pending :=
  match l with
  | [] => none
  | f :: r => some (r.foldl (fun m x => if x.issue < m.issue then x else m) f)

/-- R399 to R401: what a drain that has ended takes: the trap, the fault behind it, whether it rolls back; an asynchronous cause that rolls back discards the faults of the region with it (R405, R413) (log 58, DEDUCED). -/
def drainCause (v : Wave) (t : Trap) (isAsync : Bool) : Trap × Option Pending × Bool :=
  match oldestFault v.bun.faults with
  | some f =>
    let inside := match v.bun.regions with | [] => false | r :: _ => decide (r.start ≤ f.issue)
    if isAsync && inside && rollsBack t.cause then (t, none, true) else (f.t, some f, rollsBack f.t.cause && inside)
  | none => (t, none, rollsBack t.cause && !v.bun.regions.isEmpty && decide (t.cause ≠ .peerFault) && decide (t.cause ≠ .peerTimeout))

/-- R186, R400: the thread runs its handler as one unsplit SIMT wave, the claim kept, and with it the wait before a first bundle. -/
def Wave.bunHandler (v : Wave) (t : Trap) (tpc tcause : Word) : Wave :=
  let v1 := { v with phase := .simt, hinge := [], subs := [(rootSub, { pc := tpc, mask := v.rootMask })], bun := { flights := v.bun.flights, claim := v.bun.claim, claimWait := v.bun.claimWait, counters := v.bun.counters, lastHdr := v.bun.lastHdr, lastStamp := v.bun.lastStamp } }
  v1.enterHandler rootSub t tpc tcause { bundle := true, claim := v.bun.claim, migrate := decide (t.cause = .migrate) }

/-- R400, R411: the loop levels and the faulting bundle's address written to the frame's bundle area (log 107, DEDUCED). -/
def putBundleArea (s : State) (v : Wave) : State := putFields s v.ctx v.frame (rowFields 0xC00 8 (loopEntries v.bun.loops) ++ [(0xC60, 8, v.bun.faultAddr.toNat)])

/-- R392, R394, R405: a drained thread that has no handler to enter: PREEMPT parks it, MIGRATE is not delivered, any other cause faults its context. -/
def bunNoHandler (s : State) (w : Nat) (t : Trap) : State :=
  let s1 := modWave s w (fun v => { v with phase := .bundle, bun := { v.bun with faults := [] } })
  match t.cause with
  | .preempt => modWave s1 w (parkAsk 16 false)
  | .migrate => s1
  | c => contextFault s1 w c

/-- R399 to R401: a bundle thread's trap once its drain has ended (log 107, DEDUCED). -/
def drainEnd (s : State) (w : Nat) (v : Wave) (t : Trap) (isAsync : Bool) : State :=
  let c := drainCause v t isAsync
  let s0 := releaseEntries s (v.bun.faults.map (fun f => { kind := .slot f.res }))
  let s1 := if c.2.2 then rollback s0 w v else commitAll s0 w v
  let s2 := if isAsync && c.2.1.isSome then modWave s1 w (fun u => { u with held := (t.cause, t.addr, t.info) :: u.held }) else s1
  match waveAt s2 w with
  | none => s2
  | some u =>
    if u.isResponder then responderFault s2 w
    else if u.inHandler || decide (u.tvec = 0) then bunNoHandler s2 w c.1
    else
      let pc := ((tblFind u.subs rootSub).map (·.pc)).getD 0
      let tpc := if c.2.2 then pc else if c.2.1.isSome then pc else c.1.tpc.getD pc
      let imprec := !c.2.2 && (match c.2.1 with | some f => f.later | none => false)
      let u1 := { u with bun := { u.bun with faultAddr := match c.2.1 with | some f => f.header | none => 0 } }
      let s3 := putBundleArea (modWave s2 w (fun _ => u1)) u1
      let s4 := match c.1.failedToken with | some k => clearTok s3 w k | none => s3
      modWave s4 w (fun u => u.bunHandler c.1 tpc (tcauseOf c.1.cause true c.2.2 imprec))

/-- BUNDLE_TRAP_DRAIN_END: a trapped thread has drained and every check is resolved: it rolls back or commits and enters its handler, whose first instruction issues in the cycle after (R400). -/
def execBundleTrapDrainEnd (w : Nat) (s : State) : Out :=
  match waveAt s w with
  | none => notEnabled
  | some v =>
    match v.phase with
    | .drain t isAsync => if threadDrained s w v && (!v.stopped || v.stepping) && !(mayCommit s v) then nextOf s (settle (drainEnd (sectDone s v) w v (asTaken s v t) isAsync)) else notEnabled
    | _ => notEnabled

/-- R187, R402: whether a return or an ending may end: all has landed, every region has committed (log 70, DEDUCED). -/
def drainClear (s : State) (w : Nat) (v : Wave) : Bool := threadDrained s w v && v.bun.regions.isEmpty && v.bun.faults.isEmpty && (!v.stopped || v.stepping)

/-- R186, R187, R400: the bundle thread as a wave again: its claim has ended, but not one that the thread it handles the trap of holds. -/
def Wave.returned (v : Wave) (pc : Word) : Wave :=
  { v with phase := .simt, hinge := [], subs := [(rootSub, { pc := pc, mask := v.rootMask })], bun := { claim := v.keptClaim, counters := v.bun.counters, lastHdr := v.bun.lastHdr, lastStamp := v.bun.lastStamp } }

/-- R401: a fault found while a thread drains for a return or an end stops that: the thread traps instead. -/
def drainFault (s : State) (w : Nat) (v : Wave) : Out := if v.bun.faults.isEmpty then notEnabled else nextOf s (foundFault s w v)

/-- RETURN_DRAIN_END: the drain of `xmode.s`, or of a `tret` in a bundle, has ended; the wave's first instruction issues in the cycle after (R187, R395). -/
def execReturnDrainEnd (w : Nat) (s : State) : Out :=
  match waveAt s w with
  | none => notEnabled
  | some v =>
    if drainClear s w v then
      match v.phase with
      | .ret pc => nextOf s (settle (modWave (sectDone s v) w (·.returned pc)))
      | .tretDrain park => nextOf s (settle (modWave (sectDone s v) w (fun v => tretWave s (v.returned (((tblFind v.subs rootSub).map (·.pc)).getD 0)) rootSub park)))
      | _ => notEnabled
    else match v.phase with
      | .ret _ | .tretDrain _ => drainFault s w v
      | _ => notEnabled

/-- ENDING_DRAIN_END: the drain of `end` has ended: the wave ends, its claim with it (R188). -/
def execEndingDrainEnd (w : Nat) (s : State) : Out :=
  match waveAt s w with
  | none => notEnabled
  | some v =>
    match v.phase with
    | .ending => if drainClear s w v then nextOf s (settle (endWave (modWave s w (fun v => { ({ v with handler := none }).returned 0 with subs := [] })) w)) else drainFault s w v
    | _ => notEnabled

end Sys2Proof.Machine
end

