-- ==== Sys2Proof/Machine/Fetch.lean ====
section
/-! DEFINITION. Fetching: the code region, translation, the words of an instruction or bundle as the launch found them, and decoding (R38, R41, R64, R220, R368). -/

namespace Sys2Proof.Machine

/-- What a fetch gives: a step to execute, a trap, or a word that a peer or the host has still to send (R478); a PAGE reason 0 of a mirrored context comes with the fault that its gap reports. -/
inductive Fetch where
  | run (i : Instr)
  | fault (t : Trap) (gap : Option MemFault)
  | away (l : List AByte)
  deriving DecidableEq, Repr

/-- R41: whether a word lies in the kernel's code region, at a canonical aligned address. -/
def inCode (k : Kernel) (a : Nat) : Bool := canonical a && decide (a % 8 = 0) && decide (k.h.toNat + 8 ≤ a) && decide (a < k.h.toNat + 8 + 8 * k.codeLen)

/-- R38, R236, R368, R478: a byte of code as its launch found it; unspecified bytes are free, those of a window are what it has sent (log 38, DEDUCED). -/
def codeByte (s : State) (v : Wave) (b : AByte) : Byte :=
  match b.at_ with
  | .dev pa =>
    if decide (pa ∈ s.unspec) || (match tblFind s.lineKey (lineOf pa) with | some k => decide (k ≠ b.attr.key) | none => false) then BitVec.ofNat 8 (free s (2 ^ 57 + pa))
    else tblGet 0 v.code pa
  | .peer pa | .host pa => tblGet 0 v.code pa
  | p => spadByte s p

/-- R478: whether a byte of code lies in a window and has still to come. -/
def codeAway (v : Wave) (b : AByte) : Bool := (b.at_.remote).any (fun pa => (tblFind v.code pa).isNone)

/-- The place of the free choices of a fetch of a page. -/
def fetchTag (a : Nat) : Nat := 2 ^ 66 + 8 * (a / 4096)

/-- R41, R220, R221: one word fetched at `a` for the instruction or bundle at `pc`, or the trap; a word beyond the last one of the address space has the address 0, and R41 comes before R42 (log 63, DEDUCED; log 101, DEDUCED). -/
def fetchWord (s : State) (v : Wave) (pc a : Nat) : Except Fetch Word :=
  let tpc := some (BitVec.ofNat 64 pc)
  if !(inCode v.kernel a) then .error (.fault { cause := .fetchBounds, tpc := tpc, addr := BitVec.ofNat 64 a } none)
  else match ownChecked s v.ctx a (checkFlat s (coreView s (physCore s v.core) v.ctx) v.ctx .fetch a 8 (fetchTag a)) with
    | .error f => .error (.fault { f.trap .fetch 0 with tpc := tpc } (if f.isGap && (ctxAt s v.ctx).t.mirrored then some f else none))
    | .ok bs => if bs.any (codeAway v) then .error (.away bs) else .ok (BitVec.ofNat 64 (leNat (bs.map (codeByte s v))))

/-- Words fetched from `a` on. -/
def fetchWords (s : State) (v : Wave) (pc a : Nat) : Nat → Except Fetch (List Word)
  | 0 => .ok []
  | n + 1 =>
    match fetchWord s v pc a with
    | .error e => .error e
    | .ok w => match fetchWords s v pc (a + 8) n with
      | .error e => .error e
      | .ok r => .ok (w :: r)

/-- R29, R41, R64: the instruction of a SIMT sub-wave (log 63, DEDUCED; log 101, DEDUCED). -/
def fetchSimt (s : State) (w x : Nat) (v : Wave) (u : Sub) : Fetch :=
  let pc := u.pc.toNat
  let e := simtEnv s w x v u (.nop {})
  match fetchWord s v pc pc with
  | .error f => f
  | .ok w0 =>
    match (if wordHasLit w0 then fetchWord s v pc (pc + 8) else .ok 0) with
    | .error f => f
    | .ok w1 =>
      match decodeWord { alloc := v.kernel.alloc, w16 := e.w16 } w0 w1 with
      | .error f => .fault (decTrap e f) none
      | .ok i => .run i

/-- R41, R61, R64: the bundle of a bundle thread; a header that is not valid stands alone (log 63, DEDUCED; log 101, DEDUCED). -/
def fetchBundle (s : State) (v : Wave) (u : Sub) : Fetch :=
  let pc := u.pc.toNat
  match fetchWord s v pc pc with
  | .error f => f
  | .ok w0 =>
    match (if headerOk (headerOf w0) then fetchWords s v pc (pc + 8) ((headerOf w0).len - 1) else .ok []) with
    | .error f => f
    | .ok ws => .run (.bundleIssue (w0 :: ws))

/-- What the sub-wave, or the bundle thread, would execute next. -/
def fetchNext (s : State) (w x : Nat) (v : Wave) (u : Sub) : Fetch := if v.phase = .bundle then fetchBundle s v u else fetchSimt s w x v u

/-- R224, R391, R400: a fetch that traps, or in a mirrored context waits on a gap first. -/
def fetchFault (s : State) (w x : Nat) (v : Wave) (u : Sub) (t : Trap) (g : Option MemFault) : State :=
  match g with
  | some f => startGap s (simtEnv s w x v u (.nop {})) .fetch f t
  | none => raiseTrap s w x t

/-- R134, R420: whether what a sub-wave would execute waits on a queue port. -/
def portWait (s : State) (w x : Nat) (v : Wave) (u : Sub) : Bool :=
  match fetchNext s w x v u with
  | .run (.bundleIssue ws) =>
    (match decodeBundle v.kernel.alloc ws with
     | .ok (_, ops) =>
       let l := (ops.map (fun o => ({ pos := 0, slot := o.slot, clusters := o.clusters, i := o.i } : BWord))).filter (fun o => issues v.bun.loops o.i)
       !((bunPops l).all (popReady s v)) || !((bunPushes l).all (pushReady s v))
     | .error _ => false)
  | .run i => !((popsOf none i).all (popReady s v)) || !((pushesOf none i).all (pushReady s v))
  | _ => false

/-- R420: whether a bundle thread's next bundle waits in its `cp` slot. -/
def cpWait (s : State) (w : Nat) (v : Wave) (u : Sub) : Bool :=
  v.bun.gsyncHold.isSome || match fetchNext s w rootSub v u with
    | .run (.bundleIssue ws) =>
      (match decodeBundle v.kernel.alloc ws with
       | .ok (_, ops) => (ops.filter (fun o => issues v.bun.loops o.i)).any (fun o => match o.i with
           | .kwait f => !(toksSettled v ([f.ka, f.kb, f.kc].take f.ncons))
           | .gwait f => !(gateOver s v f.a)
           | .cwait f => (slotOf s (physCore s v.core) v.ctx f.b).any (fun c => !c.done)
           | _ => false)
       | .error _ => false)
    | _ => false

end Sys2Proof.Machine
end

