-- ==== Sys2Proof/Machine/Stops.lean ====
section
/-! DEFINITION. The foghorn, stop records and the step that a debugger lets a wave take (R419 to R422, R426). -/

namespace Sys2Proof.Machine

/-- R420: the sub-wave that holds a wave's lowest active lane. -/
def lowSub (v : Wave) : Option (Nat × Sub) :=
  v.subs.foldl (fun m y => match m with
    | none => some y
    | some x => if lowestLane y.2.mask < lowestLane x.2.mask then some y else m) none

/-- R420: what sets WAITING of a sub-wave that issues nothing: every wait but an operand interlock or the responses of peer accesses. -/
def Hold.waits (h : Hold) : Bool := match h with | .run | .peer _ _ _ => false | _ => true

/-- R420: WAITING of a wave. -/
def stopWaiting (s : State) (w : Nat) (v : Wave) : Bool :=
  match lowSub v with
  | none => false
  | some (x, u) =>
    if v.phase = .simt then u.hold.waits || (decide (u.hold = .run) && portWait s w x v u)
    else u.hold.waits || (decide (v.phase = .bundle) && (cpWait s w v u || portWait s w x v u))

/-- R420: the flags of a stop record. -/
def stopFlags (s : State) (w : Nat) (v : Wave) (origin : Bool) : Nat :=
  ofBool v.isBundle + 2 * ofBool origin + 4 * ofBool v.inHandler + 8 * ofBool (stopWaiting s w v)

/-- R420: the PC of a stop record. -/
def stopPc (v : Wave) : Word := if v.isBundle then v.bun.lastHdr else ((lowSub v).map (·.2.pc)).getD 0

/-- R420: the instructions or bundles a wave has issued in cycles after the event cycle. -/
def skidOf (s : State) (f : Fog) (w : Nat) (v : Wave) : Nat := if s.clock ≤ f.cycle then 0 else v.retired - tblGet 0 f.base w

/-- R420, R426: the stop record of a wave as an event stops it; the operand of a `brk` stands in the record of the wave that issued it (log 69, DEDUCED). -/
def stopRecord (s : State) (f : Fog) (w : Nat) (v : Wave) : StopRec :=
  let origin := decide (f.wave = some w)
  { seq := f.seq, skid := skidOf s f w v, flags := stopFlags s w v origin, cause := f.cause, pc := stopPc v, stamp := if v.isBundle then v.bun.lastStamp else 0, imm := if origin && decide (f.cause = 15) then f.brk % 2 ^ 16 else 0 }

/-- R420: the 32 bytes of a stop record. -/
def StopRec.bytes (r : StopRec) : List Byte :=
  leBytes 4 r.seq ++ leBytes 2 r.skid ++ leBytes 1 r.flags ++ leBytes 1 r.cause ++ leBytes 8 r.pc.toNat ++ leBytes 2 (r.stamp % 2 ^ 12) ++ leBytes 2 r.imm ++ leBytes 12 0

/-- R419, R421: a wave stopped by an event that reaches its core; one already stopped keeps its record (log 69, DEDUCED). -/
def stopWave (s : State) (f : Fog) (w : Nat) (v : Wave) : State :=
  if v.stopped || v.ended then s else modWave s w (fun u => { u with stopped := true, stopRec := some (stopRecord s f w v) })

/-- R419: an event reaches a list of cores: every wave, bundle thread and responder of its context there stops. -/
def stopCores (s : State) (f : Fog) (cores : List Nat) : State :=
  s.waves.foldl (fun t e => if e.2.ctx = f.ctx ∧ e.2.core ∈ cores then stopWave t f e.1 e.2 else t) s

/-- R419: the cores of an event's group that it has not reached. -/
def Fog.left (f : Fog) : List Nat := (List.range 320).filter (fun c => f.covers c && !(decide (c ∈ f.reached)))

/-- R419: the cores that an event reaches in one step: any of those left, in the cycle that ends issue all of them, a `brk`'s first that of its own core, whose wave goes no further (R426) (log 85, DESIGN CHOICE). -/
def fogNext (s : State) (f : Fog) : List Nat :=
  if f.cycle + 64 ≤ s.clock then f.left else f.left.filter (fun c => freeBool s c || (decide (f.cause = 15) && decide (c = f.core)))

/-- The bytes of a reply's head and results (R483). -/
def reply (s : State) (op status : Nat) (res : List Byte) : State := tellHost s (.reply op status res)

/-- R419: an event after it has reached more cores: once it has reached its whole group it stands among the stops, and the STOP command that asked for it is answered (R483, R484) (log 85, DESIGN CHOICE). -/
def fogMove (s : State) (k : Nat) (f : Fog) : State :=
  if f.left.isEmpty then
    let s1 := { s with fogs := s.fogs.eraseIdx k, stops := s.stops ++ [{ f with ask := false }] }
    if f.ask then reply s1 0x32 0 [] else s1
  else { s with fogs := s.fogs.set k f }

/-- FOGHORN: the event numbered k among those on their way stops the waves of its context on more cores of its group (R419 to R421). -/
def execFoghorn (k : Nat) (s : State) : Out :=
  match s.fogs[k]? with
  | none => notEnabled
  | some f =>
    let l := fogNext s f
    let f1 := { f with reached := f.reached ++ l }
    nextOf s (fogMove (stopCores s f l) k f1)

/-- R422: whether a step that a wave was let take has taken place: it has issued, taken a trap, or begun to wait. -/
def stepTaken (a b : Wave) : Bool :=
  decide (a.retired ≠ b.retired) || decide (a.handler ≠ b.handler) || decide (a.phase ≠ b.phase) || decide (a.ended ≠ b.ended) || decide (a.parkReq ≠ b.parkReq) || decide (a.yield_ ≠ b.yield_)
    || decide (a.subs.map (fun u => u.2.hold) ≠ b.subs.map (fun u => u.2.hold))

/-- R422: STEP, taken at TVEC after the instruction where the command asks for it; a cause that may not be taken now is held (log 70, DEDUCED). -/
def stepDeliver (s : State) (w : Nat) : State :=
  match waveAt s w with
  | none => s
  | some v =>
    if !v.stepDeliver then s
    else
      let s1 := modWave s w (fun u => { u with stepDeliver := false })
      if mayTake s { v with stopped := false } then takeCause s1 w (asyncSub v) v { cause := .step } else holdCause s1 w .step 0 0

/-- R422: a stepped wave stops again, with cause 14 and SKID 1, and the STEP command is answered (log 70, DEDUCED). -/
def stepStop (s : State) (w : Nat) : State :=
  match waveAt s w with
  | none => s
  | some v =>
    let s1 := modWave s w (fun u => { u with stopped := true, stepping := false, stepAsk := false, stopRec := u.stopRec.map (fun r => { r with skid := 1, cause := 14, flags := stopFlags s w v (bitAt r.flags 1), pc := stopPc v, stamp := if v.isBundle then v.bun.lastStamp else 0 }) })
    if v.stepAsk then reply s1 0x33 0 [] else s1

/-- R422: what follows the issue of a wave that a step command let issue, or the drain that this began; `s` is the state before it. -/
def stepEnd (s t : State) (w : Nat) : State :=
  match waveAt s w, waveAt t w with
  | some a, some b =>
    if a.stepping && b.stepping && stepTaken a b && !b.draining then
      let t1 := stepDeliver t w
      if (waveAt t1 w).any (·.draining) then t1 else stepStop t1 w
    else t
  | _, _ => t

/-- R422: the waves an event stopped are ready again, and the event is over (log 69, DEDUCED). -/
def resumeEvent (s : State) (seq : Nat) : State :=
  { s with waves := s.waves.map (fun e => if e.2.stopped = true ∧ e.2.stopRec.map (·.seq) = some seq then (e.1, { e.2 with stopped := false, stepping := false, stepDeliver := false, stepAsk := false, stopRec := none }) else e)
           fogs := s.fogs.filter (fun f => decide (f.seq ≠ seq)), stops := s.stops.filter (fun f => decide (f.seq ≠ seq)) }

/-- R421: the limits of stopped waves do not advance: after n cycles, the pre-emption limit has moved on by n, and the wave has stood still n cycles more; its age under R135 stays. -/
def stoppedShift (s : State) (n : Nat) : State :=
  { s with
    waves := s.waves.map (fun e => if e.2.stopped then (e.1, { e.2 with preemptAt := e.2.preemptAt.map (· + n), still := e.2.still + n }) else e)
    ctxs := s.ctxs.map (fun c => (c.1, { c.2 with gaps := c.2.gaps.map (fun g => if gapStopped s g.2 then (g.1, { g.2 with since := g.2.since + n }) else g) })) }

end Sys2Proof.Machine
end

