-- ==== Sys2Proof/Machine/Collect.lean ====
section
/-! DEFINITION. Collectives: `creduce`, the contributions, the tree, the end (R452 to R454). -/

namespace Sys2Proof.Machine

/-- R452: a descriptor from its 64 bytes. -/
def collOf (at_ : Word) (x : Nat) : CollDesc :=
  { at_ := at_, src := BitVec.ofNat 64 (recField x 0 8), dst := BitVec.ofNat 64 (recField x 8 8), count := recField x 0x10 4, ty := recField x 0x14 1, op := recField x 0x15 1, mode := recField x 0x16 1, members := recField x 0x18 8, tag := recField x 0x20 4 }

/-- R452: the types of a collective. -/
def collTy (n : Nat) : Option Ty := match n with | 3 => some .i32 | 4 => some .i64 | 7 => some .n32 | 8 => some .n64 | 9 => some .f16 | 10 => some .bf16 | 11 => some .f32 | 12 => some .f64 | _ => none

/-- R452: what a descriptor may not hold; `x` its bytes, `rank` the device's own (log 80, DEDUCED). -/
def collBad (x : Nat) (d : CollDesc) (rank : Option Nat) : Bool :=
  decide (recField x 0x17 1 ≠ 0) || decide (recField x 0x24 4 ≠ 0) || decide (recField x 0x38 8 ≠ 0) || decide (d.count = 0) || decide (16777216 < d.count) || decide (5 < d.op) || decide (1 < d.mode)
    || (match collTy d.ty with | none => true | some t => isFloatTy t && decide (3 ≤ d.op))
    || (match rank with | none => true | some r => !(bitAt d.members r))

/-- R402, R452: the load of a descriptor: the state after it, and the bytes, those of a window as they were answered. -/
def collRead (e : Env) (s : State) (a0 : Acc) : State × List Byte :=
  let who := WinFor.sub e.w e.x
  let a := { a0 with got := a0.bytes.zipIdx.filterMap (fun b => (b.1.at_.remote.bind (winByte s who)).map (fun y => (b.2, y))) }
  let s1 := evictLines s e.core e.die a.lines
  let bs := readAcc s1 e.core e.die e.v.accs a 0
  (winDrop (matchAccess (fillLines s1 e.core e.die e.v.accs a) (waveSeen e.w e.v 0 a.bytes)) who, bs)

/-- R241, R245, R450: whether the load of a descriptor may perform now: behind nothing of its agent, nor, in a window, behind a store of its granule that has yet to be sent. -/
def collReads (e : Env) (s : State) (a : Acc) : Bool :=
  loadReady a e.v.accs && !(a.bytes.any (readWaits s e.core e.die false e.v.accs))
    && !(a.bytes.any (fun b => b.at_.isAway) && e.v.accs.any (fun x => x.kind.stores && sameGranule x a && decide (x.stage = 0)))

/-- R452: the collective as it issues; a descriptor in a window is waited for (R402). -/
def bodyCreduce (f : EN) (e : Env) (s : State) : Res :=
  let at_ := e.rdS f.a
  if at_.toNat % 8 ≠ 0 then .trap s (e.illegal 10)
  else match checkReqs e s true .load [{ va := at_.toNat, n := 64, kind := .load [] }] with
    | .error b => reqFail e s .load b
    | .ok l =>
      let a := { l.headD { kind := .load [] } with issue := e.v.nextAcc, id := e.v.nextAcc }
      if !(collReads e s a) then .hold s
      else match winWait e s at_.toNat a.bytes with
      | some r => r
      | none =>
        let r := collRead e (served e s true [{ va := at_.toNat, n := 64 }]) a
        let d := collOf at_ (leNat r.2)
        if collBad (leNat r.2) d s.net.rank then .trap (winDrop s (.sub e.w e.x)) (e.illegal 10)
        else match engForm e r.1 f (.coll d) with
          | .hold _ | .issued _ => .hold s
          | x => x
/-- `creduce` (R452). -/
def execCreduce (f : EN) (s : State) : Out := issue (.creduce f) (bodyCreduce f) s

/-- The bytes of an element of a type code. -/
def collSize (ty : Nat) : Nat := match ty with | 9 | 10 => 2 | 4 | 8 | 12 => 8 | _ => 4

/-- The bytes of a member's SRC or of the result. -/
def CollDesc.len (d : CollDesc) : Nat := d.count * collSize d.ty

/-- R453: the ranks of a member mask, lowest first. -/
def memberRanks (m : Nat) : List Nat := (List.range 64).filter (bitAt m)

/-- R212, R219, R447: a range of flat addresses translated and checked page by page; `fuel` bounds the pages. -/
def mapRun (s : State) (tlb : View) (ctx : Nat) (k : Kind) : Nat → Nat → Nat → Except MemFault (List AByte)
  | 0, _, _ => .ok []
  | fuel + 1, va, n =>
    if n = 0 then .ok []
    else
      let m := min n (4096 - va % 4096)
      match ownChecked s ctx va (checkFlat s tlb ctx k va m 0) with
      | .error f => .error f
      | .ok bs => match mapRun s tlb ctx k fuel ((va + m) % 2 ^ 64) (n - m) with
        | .error f => .error f
        | .ok r => .ok (bs ++ r)

/-- The pages a range may touch, and one more. -/
def runFuel (n : Nat) : Nat := n / 4096 + 3

/-- R453: the descriptor at the head of each frame of a contribution; its layout is the model's (log 44). -/
def collHead (d : CollDesc) : List Byte := leBytes 4 d.count ++ leBytes 1 d.ty ++ leBytes 1 d.op ++ leBytes 2 d.mode ++ leBytes 8 d.members

/-- R449, R453, R476: the payloads of a contribution, of at most 4,096 of its bytes each; `fuel` bounds them (log 44, DESIGN CHOICE). -/
def collParts (d : CollDesc) (data : List Byte) : Nat → List (List Byte)
  | 0 => []
  | fuel + 1 => if data.length ≤ 4096 then [collHead d ++ data] else (collHead d ++ data.take 4096) :: collParts d (data.drop 4096) fuel

/-- R453: what one frame of a contribution brings (log 44, DESIGN CHOICE). -/
def collInOf (dom tag rank : Nat) (b : List Byte) : CollIn :=
  { dom := dom, tag := tag, rank := rank, count := leNat (b.take 4), ty := leNat ((b.drop 4).take 1), op := leNat ((b.drop 5).take 1), mode := leNat ((b.drop 6).take 2), members := leNat ((b.drop 8).take 8), bytes := b.drop 16 }

/-- R453: whether a contribution has come whole. -/
def CollIn.whole (c : CollIn) : Bool := decide (c.count * collSize c.ty ≤ c.bytes.length)

/-- R453: a frame of a contribution takes its place behind those before it (log 44, DESIGN CHOICE). -/
def collAdd (l : List CollIn) (c : CollIn) : List CollIn :=
  match l with
  | [] => [c]
  | x :: r => if x.dom = c.dom ∧ x.tag = c.tag ∧ x.rank = c.rank ∧ x.whole = false then { x with bytes := x.bytes ++ c.bytes } :: r else x :: collAdd r c

/-- R454: whether a contribution's descriptor differs. -/
def collDiffers (d : CollDesc) (c : CollIn) : Bool := decide (c.count ≠ d.count) || decide (c.ty ≠ d.ty) || decide (c.op ≠ d.op) || decide (c.mode ≠ d.mode) || decide (c.members ≠ d.members)

/-- R453, R454: the contribution of a member to a collective, where it has arrived, or the first frame of one that differs. -/
def collFrom (s : State) (ctx : Nat) (d : CollDesc) (r : Nat) : Option CollIn :=
  (s.net.colls.find? (fun c => decide (c.dom = (ctxAt s ctx).t.domainTag) && decide (c.tag = d.tag) && decide (c.rank = r))).bind (fun c => if c.whole || collDiffers d c then some c else none)

/-- R453: one combination: float sums round once in mode NE and keep subnormals, whatever MODE is. -/
def collOp (t : Ty) (op : Nat) (x y : Nat) : Nat × Nat := redOne { ty := t, fn := op, rnd := .ne } { v := {} } x y

/-- R453: element i of the result: the root of the tree over the 64 ranks; which device computes a node does not show in it (log 44, DESIGN CHOICE). -/
def collElem (s : State) (ctx : Nat) (d : CollDesc) (t : Ty) (i : Nat) : Nat :=
  let n := collSize d.ty
  let leaf (r : Nat) : Option (Nat × Nat) := if bitAt d.members r then some (leNat ((((collFrom s ctx d r).getD {}).bytes.drop (n * i)).take n), 0) else none
  ((treeRoot (collOp t d.op) 6 ((List.range 64).map leaf)).getD (0, 0)).1

/-- R453: the bytes of the result. -/
def collResult (s : State) (ctx : Nat) (d : CollDesc) : List Byte :=
  match collTy d.ty with
  | some t => ((List.range d.count).map (fun i => leBytes (collSize d.ty) (collElem s ctx d t i))).flatten
  | none => []

/-- R453: whether this device writes the result. -/
def collWrites (s : State) (d : CollDesc) : Bool := decide (d.mode = 0) || decide (s.net.rank = (memberRanks d.members).head?)

/-- R454: the members whose contribution has not arrived, as a mask. -/
def collMissing (s : State) (ctx : Nat) (d : CollDesc) : Nat := (((memberRanks d.members).filter (fun r => (collFrom s ctx d r).isNone)).map (2 ^ ·)).sum

/-- R454: the status a collective ends with. -/
def collStatus (s : State) (ctx : Nat) (d : CollDesc) : Nat :=
  if (memberRanks d.members).any (fun r => (collFrom s ctx d r).any (collDiffers d)) then 2 else if collMissing s ctx d = 0 then 0 else 1

/-- R453: the contributions that a collective has used are gone: the first of each member. -/
def collTake (dom tag : Nat) : List Nat → List CollIn → List CollIn
  | _, [] => []
  | ranks, c :: r => if c.dom = dom ∧ c.tag = tag ∧ c.rank ∈ ranks then collTake dom tag (ranks.filter (· ≠ c.rank)) r else c :: collTake dom tag ranks r

/-- R453, R454: where the bytes of SRC, of the result on this device, and of STATUS with MISSING lie (log 80, DEDUCED). -/
def collMaps (s : State) (o : EngOp) (d : CollDesc) : Except MemFault (List AByte) × Except MemFault (List AByte) × Except MemFault (List AByte) :=
  let u := walkView s o.core o.ctx
  let n := if collWrites s d then d.len else 0
  (mapRun s u o.ctx .load (runFuel d.len) d.src.toNat d.len, mapRun s u o.ctx .store (runFuel n) d.dst.toNat n, mapRun s u o.ctx .store 3 (d.at_ + 0x28).toNat 16)

/-- R303, R304, R454: the faults of a collective, each with its kind; a gap is waited for where nothing else fails, else the token fails with the lowest (log 80, DEDUCED). -/
def collFault (s : State) (k : Nat) (o : EngOp) (l : List (MemFault × Kind)) : State :=
  match l with
  | [] => s
  | x :: r =>
    let low := r.foldl (fun m y => if y.1.va < m.1.va then y else m) x
    if l.all (fun y => y.1.isGap) then engGap s k o (logicalOf s o.core) 64 x.2 x.1 (faultWords 0 low.1 low.2) else engFail s k (faultWords 0 low.1 low.2)

/-- The fault of a mapping with its kind. -/
def faultOf (k : Kind) (r : Except MemFault (List AByte)) : List (MemFault × Kind) := match r with | .error f => [(f, k)] | .ok _ => []

/-- The bytes of a mapping. -/
def bytesOf (r : Except MemFault (List AByte)) : List AByte := match r with | .ok l => l | .error _ => []

/-- R258: bytes stored where they lie: those of a window go to it, and their answers are awaited; run i has the number n + i (log 25, DESIGN CHOICE). -/
def putRun (s : State) (k : Nat) (o : EngOp) (n : Nat) (bs : List AByte) (data : List Byte) : State × List Nat :=
  let s1 := (bs.zip data).foldl (fun t x => engPut t x.1 (x.2, false)) s
  ((peerRuns bs 0).foldl (fun t r => sendFrame t 2 o.ctx (peerRank r.2.1) (peerOff r.2.1) (logicalOf t o.core) ((data.drop r.1).take r.2.2) { size := r.2.2 } (.eng k (n + r.1) r.2.2)) s1, (peerRuns bs 0).map (fun r => n + r.1))

/-- R305, R447: a collective whose stores are all performed completes. -/
def collOver (s : State) (k : Nat) : State :=
  match tblFind s.eng k with
  | some o => (match o.pay with
    | .coll d => if d.closing && d.wait.isEmpty then (if o.fault.isSome then engEnd s k else engDone s k none) else if o.failing then engEnd s k else s
    | _ => s)
  | none => s

/-- R454: a collective ends with a status: the result, STATUS and MISSING are stored, and its token completes DONE with them; a fault of DST or of the descriptor fails it (log 80, DEDUCED). -/
def collEnd (s : State) (k : Nat) (o : EngOp) (d : CollDesc) (status : Nat) : State :=
  let core := logicalOf s o.core
  let m := collMaps s o d
  match faultOf .store m.2.2 ++ faultOf .store m.2.1 with
  | [] =>
    let ds := if status = 0 then bytesOf m.2.1 else []
    let hs := bytesOf m.2.2
    let s1 := putRun s k o 0 ds (collResult s o.ctx d)
    let s2 := putRun s1.1 k o d.len hs (leBytes 8 status ++ leBytes 8 (collMissing s o.ctx d))
    let s3 := matchAccess s2.1 { ctx := o.ctx, core := core, init := 64, kind := 1, places := (ds ++ hs).map (·.at_) }
    let s4 := modEng { s3 with net := { s3.net with colls := collTake (ctxAt s o.ctx).t.domainTag d.tag (memberRanks d.members) s3.net.colls } } k (fun o => { o with pay := .coll { d with wait := s1.2 ++ s2.2, closing := true } })
    collOver s4 k
  | l => collFault s k o l

/-- R453: this device's contribution goes to every other member that has a route (log 80, DEDUCED). -/
def collGive (s : State) (k : Nat) (o : EngOp) (d : CollDesc) : State :=
  let own := s.net.rank.getD 0
  let data := (List.range d.len).map (fun i => BitVec.ofNat 8 (tblGet 0 d.got i))
  let s1 := ((memberRanks d.members).filter (fun r => decide (r ≠ own) && !(peerOwn s o.ctx r))).foldl (fun t r =>
    (collParts d data data.length).foldl (fun t b => sendFrame t 8 o.ctx r d.tag (logicalOf s o.core) b {} .coll) t) s
  modEng { s1 with net := { s1.net with colls := s1.net.colls ++ [collInOf (ctxAt s o.ctx).t.domainTag d.tag own (collHead d ++ data)] } } k (fun o => { o with pay := .coll { d with given := true, got := [] } })

/-- R245, R303: whether a begun collective may go on: it is not over, has not failed, no gap of its agent holds it, and nothing that it stores to waits behind its die's own stores. -/
def collGoes (s : State) (k : Nat) (o : EngOp) (d : CollDesc) : Bool :=
  o.begun && !d.closing && o.gap.isNone && o.fault.isNone && !(stalled s k o)
    && (let m := collMaps s o d; !(engWaits s (dieOf (logicalOf s o.core)) true (bytesOf m.2.1 ++ bytesOf m.2.2)))

/-- Whether a collective has its contribution to give, or has every contribution. -/
def collDue (s : State) (o : EngOp) (d : CollDesc) : Bool := if d.given then decide (collMissing s o.ctx d = 0) else d.wait.isEmpty

/-- R453, R454: a begun collective gives its contribution once the bytes asked of a peer or the host are there, and ends once it has every contribution (log 80, DEDUCED). -/
def collCheck (s : State) (k : Nat) : State :=
  match tblFind s.eng k with
  | some o =>
    match o.pay with
    | .coll d =>
      if collGoes s k o d && collDue s o d then
        if d.given then collEnd s k o d (collStatus s o.ctx d)
        else
          let s1 := collGive s k o d
          match tblFind s1.eng k with
          | some o1 => (match o1.pay with
            | .coll d1 => if collDue s1 o1 d1 then collEnd s1 k o1 d1 (collStatus s1 o1.ctx d1) else s1
            | _ => s1)
          | none => s1
      else s
    | _ => s
  | none => s

/-- R447, R453, R454: a collective begins: SRC, the result's place and the descriptor's are checked, and SRC is read; bytes in the peer or host window are asked for first (log 80, DEDUCED). -/
def collBegin (s : State) (k : Nat) (o : EngOp) (d : CollDesc) : State :=
  let core := logicalOf s o.core
  let m := collMaps s o d
  match faultOf .load m.1 ++ faultOf .store m.2.1 ++ faultOf .store m.2.2 with
  | [] =>
    let bs := bytesOf m.1
    let runs := peerRuns bs 0
    let got := (bs.zipIdx.filter (fun b => !b.1.at_.isAway)).map (fun b => (b.2, (engByte s (dieOf core) b.1 0).1.toNat))
    let s1 := runs.foldl (fun t r => sendFrame t 1 o.ctx (peerRank r.2.1) (peerOff r.2.1) core [] { size := r.2.2 } (.eng k r.1 r.2.2)) (engFill s (dieOf core) bs)
    let s2 := matchAccess s1 { ctx := o.ctx, core := core, init := 64, kind := 0, places := bs.map (·.at_) }
    collCheck (modEng s2 k (fun o => { o with begun := true, pay := .coll { d with got := got, wait := runs.map (·.1) } })) k
  | l => collFault s k o l

/-- R303, R453, R454: a frame that a collective sent has its answer (log 79, DEDUCED). -/
def collAnswer (s : State) (k : Nat) (o : EngOp) (d : CollDesc) (c : Nat) (bytes : List Byte) (bad : Option (Word × Word)) : State :=
  let d1 := { d with wait := d.wait.filter (· ≠ c), got := if d.closing || d.given then d.got else (bytes.zipIdx).foldl (fun t b => tblPut t (c + b.2) b.1.toNat) d.got }
  let s1 := modEng s k (fun o => { o with pay := .coll d1 })
  match bad with
  | some f => engFail s1 k f
  | none => if d.closing || o.failing then collOver s1 k else collCheck s1 k

/-- COLLECTIVE_LIMIT: a collective goes on that another instruction's gap or its die's stores held, or has not received every contribution in time (R303, R454). -/
def execCollectiveLimit (k : Nat) (s : State) : Out :=
  match tblFind s.eng k with
  | some o =>
    match o.pay with
    | .coll d =>
      if collGoes s k o d && !s.heat.tripped then
        if collDue s o d then nextOf s (settle (collCheck s k))
        else if o.issue + (ctxAt s o.ctx).t.collectiveLimit ≤ s.clock then nextOf s (settle (collEnd s k o d (collStatus s o.ctx d)))
        else notEnabled
      else notEnabled
    | _ => notEnabled
  | none => notEnabled

end Sys2Proof.Machine
end

