-- ==== Sys2Proof/Machine/Host.lean ====
section
/-! DEFINITION. The host session and its commands (R223, R224, R405, R412, R414 to R422, R476 to R484). -/

namespace Sys2Proof.Machine

/-- R481: the code of a state of bring-up. -/
def bootCode (b : BootState) : Nat := match b with | .root => 1 | .train => 2 | .link => 3 | .session => 4 | .attest => 5 | .ready => 6 | .failRoot => 0x81 | .failMem => 0x82

/-- Whether a command can arrive: the host link is up and the device has not tripped. -/
def hostUp (s : State) : Bool := decide (hostPort ∈ s.boot.links) && !s.heat.tripped

/-- An operand of a payload: `n` bytes from offset `off`. -/
def opNat (p : Payload) (off n : Nat) : Nat := leNat ((p.ops.drop off).take n)

/-- R483: the head of a payload as its command asks for it: the operand length, the zero bytes (log 67, DESIGN CHOICE). -/
def headOk (p : Payload) (len : Nat) (zeros : List (Nat × Nat)) : Bool :=
  decide (p.zero = 0) && decide (p.len = len) && decide (p.ops.length = len) && zeros.all (fun z => decide (opNat p z.1 z.2 = 0))

/-- R479, R483: whether a state of bring-up accepts a command: STATUS and ATTEST in every session, the others once READY (log 67, DESIGN CHOICE). -/
def stateOk (s : State) (always : Bool) : Bool := s.boot.session.isSome && (always || decide (s.boot.st = .ready))

/-- What a command comes to: the state, the status of its reply and its results. -/
abbrev Ans := State × Nat × List Byte

/-- R483: a command refused, or with bad operands. -/
def ansNo (s : State) (status : Nat) : Ans := (s, status, [])

/-- R483: a command done. -/
def ansOk (s : State) : Ans := (s, 0, [])

/-- R477: the number of the next frame of the host's series. -/
def cmdNext (s : State) : Nat := tblGet 0 s.net.rxSeq hostRank

/-- R484: whether a command waits: one of those that wait for their effects, a STOP or a STEP that has not replied (log 71, DEDUCED). -/
def cmdBusy (s : State) : Bool := s.host.waiting.isSome || s.fogs.any (·.ask) || s.waves.any (·.2.stepAsk)

/-- R449, R477: the next frame of the host's series taken. -/
def cmdTook (s : State) (seq : Nat) : State :=
  { s with net := { s.net with rxSeq := tblSet 0 s.net.rxSeq hostRank (seq + 1), early := s.net.early.filter (fun e => decide (e.1 ≠ seq)) } }

/-- R449, R477, R484: a command frame: one performed before is not performed again, one behind a gap is held, the next in order is performed; while a command waits, or others are held behind one, it is held in order, but for those that R484 performs on arrival (log 67, DESIGN CHOICE). -/
def cmdGate (i : HostCmd) (during : Bool) (p : Payload) (s : State) (act : State → Out) : Out :=
  if !(hostUp s) then notEnabled
  else if s.host.queue.head? = some i ∧ cmdBusy s = false then act { s with host := { s.host with queue := s.host.queue.drop 1 } }
  else if p.seq < cmdNext s then nextOf s s
  else if cmdNext s < p.seq then nextOf s { s with net := { s.net with early := s.net.early ++ [(p.seq, i)] } }
  else if during || (s.host.queue.isEmpty && !(cmdBusy s)) then act (cmdTook s p.seq)
  else nextOf s { cmdTook s p.seq with host := { s.host with queue := s.host.queue ++ [i] } }

/-- R483: a command whose turn has come: its payload, then the state, are checked, and it is performed and answered (log 67, DESIGN CHOICE). -/
def commandDo (op len : Nat) (zeros : List (Nat × Nat)) (always : Bool) (p : Payload) (act : State → Ans) (s : State) : Out :=
  if !(headOk p len zeros) then nextOf s (reply s op 2 [])
  else if !(stateOk s always) then nextOf s (reply s op 3 [])
  else nextOf s (settle (reply (act s).1 op (act s).2.1 (act s).2.2))

/-- R483, R484: a command (log 67, DESIGN CHOICE). -/
def command (i : HostCmd) (op len : Nat) (zeros : List (Nat × Nat)) (always during : Bool) (p : Payload) (s : State) (act : State → Ans) : Out :=
  cmdGate i during p s (commandDo op len zeros always p act)

/-- R482: the commands of a closed session that have not replied are abandoned, those held among them: none replies (log 71, DEDUCED). -/
def abandon (s : State) : State :=
  { s with host := { s.host with waiting := none, queue := [] }, fogs := s.fogs.map (fun f => { f with ask := false }), waves := s.waves.map (fun e => (e.1, { e.2 with stepAsk := false })) }

/-- R479, R481: the state after an OPEN. -/
def openState (b : BootState) : BootState := match b with | .session => .attest | x => x

/-- R482: a session opened. -/
def openDo (p : Payload) (s : State) : State :=
  let s1 := abandon s
  { s1 with boot := { s1.boot with session := some (opNat p 0 4), st := openState s1.boot.st } }

/-- OPEN: the host opens a session (R482). -/
def execOpenSession (p : Payload) (s : State) : Out :=
  cmdGate (.openSession p) true p s (fun s => if !(headOk p 8 [(4, 4)]) then nextOf s (reply s 0x01 2 []) else nextOf s (reply (openDo p s) 0x01 0 []))

/-- R480: the count of blown anti-rollback fuses: those of the device as it came, and those that firmware has blown since (log 11, DESIGN CHOICE; log 120, DESIGN CHOICE). -/
def fuseCount (s : State) : Nat := Config.fuseCount + s.boot.fuses

/-- R483 STATUS: the state, the fuse count, the lost counts: watch records by die, frames dropped, trace records by core (log 67, DESIGN CHOICE). -/
def statusBytes (s : State) : List Byte :=
  leBytes 4 (bootCode s.boot.st) ++ leBytes 4 (fuseCount s) ++ ((List.range 4).map (fun d => leBytes 8 (dieAt s d).watch.lost)).flatten ++ leBytes 8 s.host.dropped
    ++ ((List.range 320).map (fun c => leBytes 4 (coreAt s (physCore s c)).trace.lost)).flatten

/-- STATUS (R483). -/
def execStatus (p : Payload) (s : State) : Out := command (.status p) 0x02 0 [] true true p s (fun s => (s, 0, statusBytes s))

/-- A list of bytes as a field of n bytes. -/
def fitBytes (n : Nat) (l : List Byte) : List Byte := (l ++ List.replicate n 0).take n

/-- R481: the part number. -/
def partNumber : List Byte := [0x4E, 0x58, 0x37, 0x2D, 0x34, 0x44, 0x2D, 0x31, 0x39, 0x32, 0, 0, 0, 0, 0, 0]

/-- R481: bytes 0x000 to 0x2BF of a report. -/
def reportBody (s : State) (nonce : List Byte) : List Byte :=
  fitBytes 64 nonce ++ fitBytes 64 s.boot.digest ++ leBytes 2 s.boot.version ++ leBytes 2 (fuseCount s) ++ leBytes 4 (bootCode s.boot.st) ++ partNumber ++ [3, 1] ++ List.replicate 38 0 ++ fitBytes 512 Config.identityModulus

/-- R481: a report (log 11, DESIGN CHOICE). -/
def report (s : State) (nonce : List Byte) : List Byte := reportBody s nonce ++ fitBytes 512 (Config.identitySign (reportBody s nonce))

/-- R481: the state after a reply to ATTEST. -/
def attestState (b : BootState) : BootState := match b with | .attest => .ready | x => x

/-- ATTEST (R481). -/
def execAttest (p : Payload) (s : State) : Out := command (.attest p) 0x03 64 [] true false p s (fun s => ({ s with boot := { s.boot with st := attestState s.boot.st } }, 0, report s p.ops))

/-- R376: whether a table names a section that another installed context reserves. -/
def class0Taken (s : State) (ctx : Nat) (t : CtxTable) : Bool := s.ctxs.any (fun c => decide (c.1 ≠ ctx) && t.class0.any (fun x => decide (x ∈ c.2.t.class0)))

/-- R231: every line a context pinned is unpinned (log 72, DEDUCED). -/
def unpinAll (s : State) (ctx : Nat) : State := { s with pins := s.pins.filter (fun e => decide (e.2.ctx ≠ ctx)) }

/-- R339, R340: the tile areas a context holds on the cores made those of a table: areas no longer granted are withdrawn, new ones are zero (log 72, DEDUCED). -/
def grantAreas (s : State) (ctx : Nat) (t : CtxTable) : State :=
  (List.range 320).foldl (fun u core =>
    let p := physCore u core
    let old := tblFind (coreAt u p).tiles ctx
    let new := t.tileAreas.find? (fun a => decide (a.1 = core) && decide (a.2.2 ≠ 0))
    match old, new with
    | none, none => u
    | some _, none => withdrawArea u p ctx
    | none, some a => modCore u p (fun c => { c with tiles := tblPut c.tiles ctx { base := a.2.1, size := a.2.2 } })
    | some o, some a => if o.base = a.2.1 ∧ o.size = a.2.2 then u else modCore (withdrawArea u p ctx) p (fun c => { c with tiles := tblPut c.tiles ctx { base := a.2.1, size := a.2.2 } })) s

/-- R237, R319, R382, R483: a context cleared: all the device holds of it is gone, its bindings end and empty their channels, and a matrix state that served it serves none (log 72, DEDUCED). -/
def clearCtx (s : State) (ctx : Nat) : State :=
  let s0 := unpinAll (grantAreas s ctx {}) ctx
  let ports := (((s0.waves.filter (fun e => decide (e.2.ctx = ctx))).map (·.2.ports)) ++ ((s0.parked.filter (fun e => decide (e.2.co.ctx = ctx))).map (fun e => (e.2.waves.map (·.ports)).flatten))).flatten
  let s1 := freeChans { s0 with waves := s0.waves.filter (fun e => decide (e.2.ctx ≠ ctx)), parked := s0.parked.filter (fun e => decide (e.2.co.ctx ≠ ctx)) } ports
  { s1 with
    ctxs := tblErase s1.ctxs ctx
    cohorts := s1.cohorts.filter (fun e => decide (e.2.ctx ≠ ctx)), launches := s1.launches.filter (fun e => decide (e.2.ctx ≠ ctx))
    cards := s1.cards.filter (fun e => decide (e.2.ctx ≠ ctx)), eng := s1.eng.filter (fun e => decide (e.2.ctx ≠ ctx))
    censuses := s1.censuses.filter (fun c => decide (c.so.ctx ≠ ctx)), fogs := s1.fogs.filter (fun f => decide (f.ctx ≠ ctx)), stops := s1.stops.filter (fun f => decide (f.ctx ≠ ctx))
    cores := s1.cores.map (fun e => (e.1, { e.2 with slots := e.2.slots.filter (fun x => decide (x.1 / 16 ≠ ctx)), keyring := e.2.keyring.filter (fun k => decide (k.2.ctx ≠ ctx)), matches_ := e.2.matches_.filter (fun m => decide (m.so.ctx ≠ ctx)), defers := e.2.defers.filter (fun d => decide (d.so.ctx ≠ ctx)), tlb := e.2.tlb.filter (fun t => decide (t.ctx ≠ ctx)), walk := e.2.walk.filter (fun t => decide (t.ctx ≠ ctx)), snaps := e.2.snaps.filter (fun t => decide (t.ctx ≠ ctx)), mx := if e.2.mx.ctx = some ctx then { lastMma := e.2.mx.lastMma } else e.2.mx })) }

/-- Whether a command's context is installed. -/
def installed (s : State) (ctx : Nat) : Bool := (tblFind s.ctxs ctx).isSome

/-- STREAM_WRITE: the host advances a stream's write index (R361). -/
def execStreamWrite (p : Payload) (s : State) : Out :=
  let ctx := opNat p 0 4
  command (.streamWrite p) 0x11 8 [] false false p s (fun s => if !(installed s ctx) || decide (ringSize (ctxAt s ctx).t ≤ opNat p 4 4) then ansNo s 2 else ansOk (modCtx s ctx (fun c => { c with writeIdx := opNat p 4 4 })))

/-- The logical cores of a mask of 40 bytes. -/
def maskCores (p : Payload) (off : Nat) : List Nat := (List.range 320).filter (fun c => bitAt (opNat p off 40) c)

/-- R223: the entries of a TLB outside a range of a context (log 76, DESIGN CHOICE). -/
def tlbDrop (ctx va n : Nat) (l : List TlbEntry) : List TlbEntry :=
  l.filter (fun t => !(decide (t.ctx = ctx) && decide (t.base < va + n) && decide (va < t.base + 2 ^ t.leaf.size)))

/-- R223: a core after a range of a context is invalidated: no TLB of it holds an entry of the range, and the tables as they are now are the old ones there. -/
def Core.invalidate (c : Core) (ctx va n : Nat) (mem : List Host.Cell) : Core :=
  { c with tlb := tlbDrop ctx va n c.tlb, walk := tlbDrop ctx va n c.walk,
           snaps := { ctx := ctx, va := va, n := n, mem := mem } :: c.snaps.filter (fun p => !(decide (p.ctx = ctx) && decide (va ≤ p.va) && decide (p.va + p.n ≤ va + n))) }

/-- INVALIDATE: the TLBs of the named cores lose a range of a context (R223) (log 76, DESIGN CHOICE). -/
def execInvalidate (p : Payload) (s : State) : Out :=
  let ctx := opNat p 0 4
  command (.invalidate p) 0x12 64 [(4, 4)] false false p s (fun s => if !(installed s ctx) then ansNo s 2 else ansOk ((maskCores p 24).foldl (fun t c => modCore t (physCore t c) (fun x => x.invalidate ctx (opNat p 8 8) (opNat p 16 8) s.mem)) s))

/-- R405: a wave of a pre-empted cohort: yielded, or with TVEC 0, it is parked directly; any other takes PREEMPT at its next boundary. -/
def preemptWave (s : State) (v : Wave) : Wave :=
  let v1 := { v with preemptAt := if v.preemptAt.isSome then v.preemptAt else some s.clock }
  if v.yield_.isSome || (decide (v.tvec = 0) && !v.inHandler && decide (v.phase = .simt)) then parkAsk 16 false v1
  else if v.parkReq.isSome || v.held.any (fun h => decide (h.1 = .preempt)) then v1
  else { v1 with held := v1.held ++ [(.preempt, 0, 0)] }

/-- R405: the cohorts of a context with a wave on some cores. -/
def preempted (s : State) (ctx : Nat) (cores : List Nat) : List Nat :=
  (s.cohorts.filter (fun c => decide (c.2.ctx = ctx) && c.2.waves.any (fun w => (waveAt s w).any (fun v => decide (v.core ∈ cores) && !v.isResponder)))).map (·.1)

/-- R405, R421: a pre-emption of a context on some cores (log 71, DEDUCED). -/
def preemptDo (s : State) (ctx : Nat) (cores : List Nat) : State :=
  let cs := preempted s ctx cores
  { s with waves := s.waves.map (fun e => if e.2.ctx = ctx ∧ e.2.cohort ∈ cs ∧ e.2.isResponder = false ∧ e.2.ended = false then (e.1, preemptWave s e.2) else e)
           host := { s.host with waiting := some (.preempt cs) } }

/-- R412: whether a save or restore of a context may go on: no slot of it is OPEN, no move of its tiles is open. -/
def areaReady (s : State) (ctx : Nat) : Bool :=
  !(s.cores.any (fun c => c.2.slots.any (fun x => decide (x.1 / 16 = ctx) && !x.2.done) || c.2.keyring.any (fun k => decide (k.2.ctx = ctx) && decide (k.2.st = .lent ∨ k.2.st = .arriving))))

/-- R340: the code of a keyring entry's state. -/
def keyCode (k : KSt) : Nat := match k with | .resident => 1 | .pinned => 2 | .lent => 3 | .arriving => 4

/-- R340: the four words of a keyring entry. -/
def keyWords (e : Option KeyEntry) : List Nat :=
  match e with
  | none => [0, 0, 0, 0]
  | some k => [k.key.toNat, keyCode k.st * 2 ^ 61 + k.peer % 2 ^ 9 * 2 ^ 52 + k.len % 2 ^ 8 * 2 ^ 44 + k.off % 2 ^ 11 * 2 ^ 33, k.stamp % 2 ^ 32 * 2 ^ 32 + k.owner % 2 ^ 32, k.ctx % 2 ^ 32]

/-- R412: the keyring and the census slots of a context on a core, as fields of its core area. -/
def areaFields (s : State) (p ctx : Nat) : List (Nat × Nat × Nat) :=
  rowFields 0 8 (((List.range 256).map (fun i => keyWords ((keyAt s p i).bind (fun k => if k.ctx = ctx then some k else none)))).flatten)
  ++ ((List.range 16).map (fun e =>
      match slotOf s p ctx e with
      | some c => [(0x2000 + 32 * e, 8, 2), (0x2008 + 32 * e, 8, c.value.toNat), (0x2010 + 32 * e, 8, c.status.toNat), (0x2018 + 32 * e, 8, 0)]
      | none => [(0x2000 + 32 * e, 32, 0)])).flatten

/-- R412 CORE_SAVE. -/
def areaSave (s : State) (ctx core : Nat) : State := putFields s ctx (areaAt (ctxAt s ctx).t core) (areaFields s (physCore s core) ctx)

/-- R340: a keyring entry from its words; entries not RESIDENT or PINNED are none. -/
def keyOf (w : List Nat) (old : Option KeyEntry) : Option KeyEntry :=
  let c := w.getD 1 0
  let k : KeyEntry := { key := BitVec.ofNat 64 (w.getD 0 0), st := if bits c 61 3 = 2 then .pinned else .resident, len := bits c 44 8, off := bits c 33 11, owner := bits (w.getD 2 0) 0 32, ctx := bits (w.getD 3 0) 0 32, mig := old.bind (·.mig) }
  if bits c 61 3 = 1 ∨ bits c 61 3 = 2 then some k else none

/-- R412: an entry of a core's keyring restored; an entry of another context stays (log 73, DEDUCED). -/
def keyRestore (s : State) (area p ctx i : Nat) : State :=
  let old := keyAt s p i
  if old.any (fun k => decide (k.ctx ≠ ctx)) then s
  else match keyOf (getRow s ctx area (32 * i) 8 4) old with
    | some k => modCore s p (fun c => { c with keyring := tblPut c.keyring i { k with ctx := ctx } })
    | none => modCore s p (fun c => { c with keyring := tblErase c.keyring i })

/-- R412: a census slot restored (log 73, DEDUCED). -/
def slotRestore (s : State) (area p ctx e : Nat) : State :=
  if getField s ctx area (0x2000 + 32 * e) 1 = 2 then
    openSlot s p ctx e { done := true, value := BitVec.ofNat 64 (getField s ctx area (0x2008 + 32 * e) 8), status := BitVec.ofNat 64 (getField s ctx area (0x2010 + 32 * e) 8), cohort := ((slotOf s p ctx e).map (·.cohort)).getD (2 ^ 40) }
  else modCore s p (fun c => { c with slots := tblErase c.slots (16 * ctx + e) })

/-- R412 CORE_RESTORE (log 73, DEDUCED). -/
def areaRestore (s : State) (ctx core : Nat) : State :=
  let a := areaAt (ctxAt s ctx).t core
  let p := physCore s core
  let s1 := (List.range 256).foldl (fun t i => keyRestore t a p ctx i) s
  (List.range 16).foldl (fun t e => slotRestore t a p ctx e) s1

/-- R484: the command that waits is answered once its effects are performed (log 71, DEDUCED). -/
def hostSettle (s : State) : State :=
  let fin (t : State) (op : Nat) : State := reply { t with host := { t.host with waiting := none } } op 0 []
  match s.host.waiting with
  | none => s
  | some (.preempt cs) => if cs.all (fun c => (tblFind s.cohorts c).isNone) then fin s 0x13 else s
  | some (.save ctx core) => if areaReady s ctx then fin (areaSave s ctx core) 0x14 else s
  | some (.restore ctx core) => if areaReady s ctx then fin (areaRestore s ctx core) 0x15 else s

/-- R483, R484: a command that may wait: its effect begins, and it replies once that is complete. -/
def waitCommand (i : HostCmd) (op len : Nat) (zeros : List (Nat × Nat)) (p : Payload) (s : State) (bad : State → Bool) (begin : State → State) : Out :=
  cmdGate i false p s (fun s =>
    if !(headOk p len zeros) then nextOf s (reply s op 2 [])
    else if !(stateOk s false) then nextOf s (reply s op 3 [])
    else if bad s then nextOf s (reply s op 2 [])
    else nextOf s (hostSettle (settle (begin s))))

/-- PREEMPT (R405, R484). -/
def execPreempt (p : Payload) (s : State) : Out := waitCommand (.preempt p) 0x13 48 [(4, 4)] p s (fun s => !(installed s (opNat p 0 4))) (fun s => preemptDo s (opNat p 0 4) (maskCores p 8))

/-- CORE_SAVE (R412, R484). -/
def execCoreSave (p : Payload) (s : State) : Out :=
  waitCommand (.coreSave p) 0x14 8 [(6, 2)] p s (fun s => !(installed s (opNat p 0 4)) || decide (319 < opNat p 4 2)) (fun s => { s with host := { s.host with waiting := some (.save (opNat p 0 4) (opNat p 4 2)) } })

/-- CORE_RESTORE (R412, R484). -/
def execCoreRestore (p : Payload) (s : State) : Out :=
  waitCommand (.coreRestore p) 0x15 8 [(6, 2)] p s (fun s => !(installed s (opNat p 0 4)) || decide (319 < opNat p 4 2)) (fun s => { s with host := { s.host with waiting := some (.restore (opNat p 0 4) (opNat p 4 2)) } })

/-- R224: the access of a bundle thread that waited on a gap is checked again with a new walk. -/
def accRecheck (s : State) (w : Nat) (v : Wave) (a : Acc) : State :=
  match checkFlat s (coreView s (physCore s v.core) v.ctx) v.ctx .atomic a.va a.n 0 with
  | .ok bs => if hostBad bs then accFault s w a ({ cause := .protection, addr := a.va, reason := 0 : MemFault }.trap .atomic 0) else modAcc s w a.id (fun x => { x with gap := none, bytes := withGran true a.va bs })
  | .error f =>
    if f.isGap then
      let c := ctxAt s v.ctx
      let s1 := modCtx s v.ctx (fun c => { c with gapSeq := c.gapSeq + 1, gaps := tblPut c.gaps c.gapSeq { va := BitVec.ofNat 64 f.va, since := s.clock, kind := 2, by_ := v.place, wave := some (w, rootSub), trap := f.trap .atomic 0 } })
      tellHost (modAcc s1 w a.id (fun x => { x with gap := some c.gapSeq })) (.gap (gapRecord v.ctx c.gapSeq v.core v.place 2 (BitVec.ofNat 64 f.va)))
    else accFault s w a (f.trap .atomic 0)

/-- R224, R303: after a gap the instruction executes again in full; the engine goes on. -/
def gapResume (s1 : State) (g : Nat) (x : Gap) : State :=
  match x.eng, x.wave with
  | some k, _ => if (tblFind s1.eng k).any (fun o => decide (o.gap = some g)) then collCheck (modEng s1 k (fun o => { o with gap := none, fault := none })) k else s1
  | none, some (w, y) =>
    match waveAt s1 w with
    | none => s1
    | some v =>
      if v.holdOf y = .gap g then modWave s1 w (fun v => v.modSub y (fun u => { u with hold := .run }))
      else match v.accs.find? (fun a => decide (a.gap = some g)) with
        | some a => accRecheck s1 w v a
        | none => s1
  | none, none => s1

/-- R224, R303: a gap answered as filled. -/
def gapFilled (s : State) (ctx g : Nat) (x : Gap) : State := gapResume (dropGap s ctx g) g x

/-- R224, R225: the gaps of a context that its installation leaves behind: numbers begin at 0 again, what waited executes in full again (log 72, DEDUCED). -/
def regap (s : State) (ctx : Nat) : State :=
  (ctxAt s ctx).gaps.foldl (fun t g => gapResume t g.1 g.2) (modCtx s ctx (fun c => { c with gapSeq := 0, gaps := [] }))

/-- R216, R376, R394, R483: a context installed from its table, or its table replaced; its tables are those of memory as it is now, and a faulted context may be placed again (log 14, DESIGN CHOICE; log 72, DEDUCED). -/
def installCtx (s : State) (ctx : Nat) (t : CtxTable) : Ans :=
  if t.root % 4096 ≠ 0 ∨ inDevice t.root = false then ansNo s 2
  else if class0Taken s ctx t then ansNo s 1
  else ansOk (regap (grantAreas { s with ctxs := tblPut s.ctxs ctx { (ctxAt s ctx) with t := t, mem0 := s.mem, faulted := none } } ctx t) ctx)

/-- CTX_SET: installs or clears a context; `t` is what its table holds (R216, R231, R339, R376, R483) (log 14, DESIGN CHOICE). -/
def execCtxSet (p : Payload) (t : CtxTable) (s : State) : Out :=
  command (.ctxSet p t) 0x10 16 [(4, 4)] false false p s (fun s => if opNat p 8 8 = 0 then ansOk (clearCtx s (opNat p 0 4)) else installCtx s (opNat p 0 4) t)

/-- R224: the answer to a gap. -/
def gapAnswerDo (s : State) (ctx ans g : Nat) : Ans :=
  if 1 < ans ∨ installed s ctx = false then ansNo s 2
  else match tblFind (ctxAt s ctx).gaps g with
    | none => ansNo s 1
    | some x => ansOk (if ans = 0 then gapFilled s ctx g x else gapUnmapped s ctx g x)

/-- GAP_ANSWER (R224). -/
def execGapAnswer (p : Payload) (s : State) : Out := command (.gapAnswer p) 0x16 16 [(5, 3)] false true p s (fun s => gapAnswerDo s (opNat p 0 4) (opNat p 4 1) (opNat p 8 8))

/-- R235, R236: the bytes of the lines held under an owner key are unspecified from now on (log 74, DEDUCED). -/
def keyLost (s : State) (i : Nat) : State :=
  let ls := (s.lineKey.filter (fun e => decide (e.2 = i))).map (·.1)
  { s with unspec := (ls.map lineBytes).flatten ++ s.unspec, lineKey := s.lineKey.filter (fun e => decide (e.2 ≠ i)) }

/-- R236: every cached line tagged with a key is dropped (log 74, DEDUCED). -/
def keyDrop (s : State) (i : Nat) : State :=
  { s with cores := s.cores.map (fun c => (c.1, { c.2 with l1 := c.2.l1.filter (fun l => decide (l.2.key ≠ i)) })), dies := s.dies.map (fun d => (d.1, { d.2 with remote := d.2.remote.filter (fun l => decide (l.2.key ≠ i)) })) }

/-- R235, R483: a key pair loaded; lines written under another pair of that index are no longer those bytes (log 11, DESIGN CHOICE; log 74, DEDUCED). -/
def keyLoadDo (s : State) (i : Nat) (w : List Byte) : Ans :=
  if i = 0 ∨ 4095 < i then ansNo s 2
  else match Config.unwrapKey w with
    | none => ansNo s 2
    | some k =>
      let s1 := if tblFind s.host.keys i = some k then s else keyLost s i
      ansOk { s1 with host := { s1.host with keys := tblPut s1.host.keys i k } }

/-- KEY_LOAD (R235, R483, R485). -/
def execKeyLoad (p : Payload) (s : State) : Out := command (.keyLoad p) 0x20 520 [(2, 6)] false false p s (fun s => keyLoadDo s (opNat p 0 2) (p.ops.drop 8))

/-- R236: a key index retired (log 74, DEDUCED). -/
def keyRetireDo (s : State) (i : Nat) : Ans :=
  if i = 0 ∨ 4095 < i then ansNo s 2
  else
    let s1 := keyLost (keyDrop s i) i
    ansOk { s1 with host := { s1.host with keys := tblErase s1.host.keys i } }

/-- KEY_RETIRE (R236). -/
def execKeyRetire (p : Payload) (s : State) : Out := command (.keyRetire p) 0x21 8 [(2, 6)] false false p s (fun s => keyRetireDo s (opNat p 0 2))

/-- R228, R237: a way mask written; where a way newly in it serves a different context, which the device is not told and is a free choice for each pinned line, the way's lines are gone, pinned ones too (log 10, DESIGN CHOICE). -/
def partitionDo (s : State) (die part mask : Nat) : State :=
  let new (i : Nat) : Bool := bitAt mask i && !(bitAt (wayMask s die part) i)
  let s1 := { s with pins := s.pins.filter (fun e => !(decide (homeDie (64 * e.1) = die) && new e.2.way && freeBool s (2 ^ 72 + 2 * e.1))) }
  modDie s1 die (fun d => { d with partition := tblSet 0xFFFF d.partition part mask })

/-- PARTITION_SET: a way mask of a die's partition table (R228, R237). -/
def execPartitionSet (p : Payload) (s : State) : Out :=
  command (.partitionSet p) 0x22 8 [(4, 4)] false false p s (fun s => if 3 < opNat p 0 1 ∨ 15 < opNat p 1 1 then ansNo s 2 else ansOk (partitionDo s (opNat p 0 1) (opNat p 1 1) (opNat p 2 2)))

/-- R448: the grant of a 32-byte entry. -/
def grantOf (e : Nat) : Grant :=
  { tag := bits e 0 32, key := bits e 32 12, part := bits e 44 4, valid := bitAt e 48, r := bitAt e 49, w := bitAt e 50, pol := bits e 51 2, base := bits e 64 64, limit := bits e 128 64 }

/-- R448: whether an entry keeps its layout. -/
def grantOk (e : Nat) : Bool := decide (bits e 53 11 = 0) && decide (bits e 192 64 = 0) && decide (bits e 64 12 = 0) && decide (bits e 128 12 = 0xFFF)

/-- R483: a GRANT_SET of a table (log 75, DESIGN CHOICE). -/
def grantSet (i : HostCmd) (table : Nat) (p : Payload) (s : State) (act : State → Nat → Nat → Ans) : Out :=
  if (headOk p 40 [(1, 1), (4, 4)] && decide (opNat p 0 1 ≠ table) && decide (opNat p 0 1 ≤ 3 ∨ table ≠ 0)) = true then notEnabled
  else command i 0x23 40 [(1, 1), (4, 4)] false false p s (fun s => if opNat p 0 1 ≠ table then ansNo s 2 else act s (opNat p 2 2) (opNat p 8 32))

/-- GRANT_SET of the host grant table (R478). -/
def execGrantSetHost (p : Payload) (s : State) : Out :=
  grantSet (.grantSetHost p) 0 p s (fun s i e => if 15 < i ∨ grantOk e = false then ansNo s 2 else ansOk { s with host := { s.host with hostGrants := tblSet {} s.host.hostGrants i (grantOf e) } })

/-- GRANT_SET of the inbound grant table (R448). -/
def execGrantSetInbound (p : Payload) (s : State) : Out :=
  grantSet (.grantSetInbound p) 1 p s (fun s i e => if 255 < i ∨ grantOk e = false then ansNo s 2 else ansOk { s with host := { s.host with inbound := tblSet {} s.host.inbound i (grantOf e) } })

/-- GRANT_SET of the route table (R447). -/
def execGrantSetRoute (p : Payload) (s : State) : Out :=
  grantSet (.grantSetRoute p) 2 p s (fun s i e => if 63 < i ∨ 15 < e then ansNo s 2 else ansOk { s with net := { s.net with routes := tblPut s.net.routes i e } })

/-- GRANT_SET of the rank, at index 0, and of a context's domain tag, at any other (R447) (log 75, DESIGN CHOICE). -/
def execGrantSetRank (p : Payload) (s : State) : Out :=
  grantSet (.grantSetRank p) 3 p s (fun s i e =>
    if i = 0 then (if 63 < e then ansNo s 2 else ansOk { s with net := { s.net with rank := some e } })
    else if !(installed s (bits e 0 32)) || decide (2 ^ 64 ≤ e) then ansNo s 2
    else ansOk (modCtx s (bits e 0 32) (fun c => { c with t := { c.t with inDomain := true, domainTag := bits e 32 32 } })))

/-- R414: a debug control word that system software may write. -/
def controlOk (x : Nat) : Bool := decide (x < 2 ^ 6) && decide (bits x 1 2 ≠ 3) && !(bitAt x 4 && bitAt x 5)

/-- R415: a watchpoint's words as system software may write them. -/
def watchOk (d ctl addr : Nat) : Bool :=
  decide (bits ctl 61 2 < 2) && decide (bits ctl 59 2 < 3) && decide (bits ctl 44 11 = 0) && decide (addr < 2 ^ 52)
    && (!(bitAt ctl 63) || decide (bits ctl 61 2 = 0) || (decide (addr < 2 ^ 29) && decide (bits addr 19 1 = 0) && decide (addr / 2 ^ 20 < 320) && decide (dieOf (addr / 2 ^ 20) = d)))

/-- R416: the lines that a die's watchpoint keeps from the caches are dropped from every one. -/
def watchDrop (s : State) : State :=
  { s with cores := s.cores.map (fun c => (c.1, { c.2 with l1 := c.2.l1.filter (fun l => !(ldWatched s l.1)) })), dies := s.dies.map (fun d => (d.1, { d.2 with remote := d.2.remote.filter (fun l => !(ldWatched s l.1)) })) }

/-- R415, R416: a watchpoint written. -/
def watchSet (s : State) (d i ctl addr : Nat) : Ans :=
  if 3 < d ∨ 7 < i ∨ watchOk d ctl addr = false then ansNo s 2
  else ansOk (watchDrop (modDie s d (fun x => { x with watch := { x.watch with wctl := tblSet 0 x.watch.wctl i (BitVec.ofNat 64 ctl), waddr := tblSet 0 x.watch.waddr i (BitVec.ofNat 64 addr) } })))

/-- R417, R427: a power of two from 4 KiB to 256 MiB. -/
def traceSizeOk (x : Nat) : Bool := (List.range 17).any (fun k => decide (x = 4096 * 2 ^ k))

/-- The trace unit of a logical core changed, its queue written first (log 64, DESIGN CHOICE). -/
def traceSet (s : State) (core : Nat) (ok : Bool) (f : TraceUnit → TraceUnit) : Ans :=
  if !ok || decide (319 < core) then ansNo s 2 else ansOk (modCore (traceDrain s (physCore s core) 64) (physCore s core) (fun c => { c with trace := f c.trace }))

/-- The watch ring of a die changed. -/
def ringSet (s : State) (d : Nat) (ok : Bool) (f : WatchUnit → WatchUnit) : Ans :=
  if !ok || decide (3 < d) then ansNo s 2 else ansOk (modDie s d (fun x => { x with watch := f x.watch }))

/-- R414 to R428, R451: a debug register written (log 77, DESIGN CHOICE). -/
def debugSet (s : State) (x : Nat) (r : DebugReg) : Ans :=
  match r with
  | .control ctx => if !(installed s ctx) || !(controlOk x) then ansNo s 2 else ansOk (modCtx s ctx (fun c => { c with dbgWord := BitVec.ofNat 64 x }))
  | .wctl d i => watchSet s d i x (tblGet 0 (dieAt s d).watch.waddr i).toNat
  | .waddr d i => watchSet s d i (tblGet 0 (dieAt s d).watch.wctl i).toNat x
  | .ringBase d => ringSet s d (inDevice x) (fun u => { u with base := x, rd := 0, wr := 0 })
  | .ringSize d => ringSet s d (decide (64 ≤ x) && decide (x ≤ 65536)) (fun u => { u with size := x, rd := 0, wr := 0 })
  | .ringRead d => ringSet s d (decide (x < (dieAt s d).watch.size)) (fun u => { u with rd := x })
  | .traceBase c => traceSet s c (decide (x % 4096 = 0) && inDevice x) (fun u => { u with base := x })
  | .traceSize c => traceSet s c (traceSizeOk x) (fun u => { u with size := x })
  | .traceMode c => traceSet s c (decide (x < 3)) (fun u => { u with on := decide (x ≠ 0), ring := decide (x = 1), stopped := false, first := true, pos := 0 })
  | .eventBase => if !(inDevice x) then ansNo s 2 else ansOk { s with net := { s.net with ringBase := x, ringAt := 0 } }
  | .eventSize => ansOk { s with net := { s.net with ringSize := x, ringAt := 0 } }

/-- DEBUG_WRITE: the value is written to the register that the selector names, `r` (R414 to R428) (log 32, DESIGN CHOICE). -/
def execDebugWrite (p : Payload) (r : DebugReg) (s : State) : Out := command (.debugWrite p r) 0x30 16 [] false false p s (fun s => debugSet s (opNat p 8 8) r)

/-- R411: 4,096 bytes of the frame of a wave as it stands. -/
def frameBlock (s : State) (v : Wave) (b : Nat) : List Byte := storeBytes (putFields s v.ctx v.frame (frameFields v 0 v.inHandler)) v.ctx (v.frame + 4096 * b) 4096

/-- R483: where a wave is, in the form of a target. -/
def targetOf (v : Wave) : Nat := v.core % 2 ^ 9 + v.place % 2 ^ 6 * 2 ^ 9 + 2 ^ 15

/-- R369, R433: the placement of a cohort: the target of each of its waves, then the core and the array offset of each of its allocations (log 32, DESIGN CHOICE). -/
def placementBytes (s : State) (c : Cohort) : List Byte :=
  (c.waves.map (fun w => leBytes 4 (((waveAt s w).map targetOf).getD 0))).flatten ++ (c.spad.map (fun a => leBytes 4 a.1 ++ leBytes 4 a.2.base)).flatten

/-- R483 DEBUG_READ: what a selector names (log 65, DEDUCED). -/
def debugGet (s : State) (r : DebugSrc) : Ans :=
  match r with
  | .stopRecord w => (match (waveAt s w).bind (·.stopRec) with | some x => (s, 0, x.bytes) | none => ansNo s 1)
  | .loopCounter w level which => (match waveAt s w with | some v => if 6 < level ∨ 11 < which then ansNo s 2 else (s, 0, leBytes 8 (tblGet 0 v.bun.counters (16 * level + which))) | none => ansNo s 1)
  | .frame w b => (match waveAt s w with | some v => if !v.stopped || decide (9 < b) then ansNo s 1 else (s, 0, frameBlock s v b) | none => ansNo s 1)
  | .placement c => (match tblFind s.cohorts c with | some x => (s, 0, placementBytes s x) | none => ansNo s 1)
  | .lost d => if 3 < d then ansNo s 2 else (s, 0, leBytes 8 (dieAt s d).watch.lost)

/-- DEBUG_READ: what the selector names, `r`, is read (R417, R420, R429) (log 32, DESIGN CHOICE). -/
def execDebugRead (p : Payload) (r : DebugSrc) (s : State) : Out := command (.debugRead p r) 0x31 8 [] false true p s (fun s => debugGet s r)

/-- R483: the wave of a context that a target names. -/
def targetWave (s : State) (ctx t : Nat) : Option (Nat × Wave) :=
  s.waves.find? (fun e => decide (e.2.ctx = ctx) && decide (e.2.core = bits t 0 9) && decide (e.2.place = bits t 9 6))

/-- R483: whether a target keeps its layout (log 70, DEDUCED). -/
def targetOk (t : Nat) : Bool := decide (t < 2 ^ 16) && decide (bits t 0 9 < 320)

/-- STOP: the foghorn sounds for a context with a named core as its origin (R419) (log 70, DEDUCED). -/
def execStop (p : Payload) (s : State) : Out :=
  let ctx := opNat p 0 4
  let t := opNat p 4 4
  let bad := !(installed s ctx) || !(targetOk t) || bitAt t 15 || decide (opNat p 8 8 ≠ 0)
  cmdGate (.stop p) true p s (fun s =>
    if !(headOk p 16 []) then nextOf s (reply s 0x32 2 [])
    else if !(stateOk s false) then nextOf s (reply s 0x32 3 [])
    else if bad then nextOf s (reply s 0x32 2 [])
    else nextOf s (soundFog s { seq := 0, cycle := 0, core := bits t 0 9, ctx := ctx, cause := 0, ask := true }))

/-- STEP: a stopped wave issues one instruction or bundle (R422) (log 70, DEDUCED). -/
def execStep (p : Payload) (s : State) : Out :=
  let ctx := opNat p 0 4
  let t := opNat p 4 4
  let bad := !(installed s ctx) || !(targetOk t) || !(bitAt t 15) || decide (1 < opNat p 8 8)
  cmdGate (.step p) true p s (fun s =>
    if !(headOk p 16 []) then nextOf s (reply s 0x33 2 [])
    else if !(stateOk s false) then nextOf s (reply s 0x33 3 [])
    else if bad then nextOf s (reply s 0x33 2 [])
    else match targetWave s ctx t with
      | some (w, v) => if v.stopped && !v.stepping then nextOf s (modWave s w (fun u => { u with stepping := true, stepDeliver := bitAt (opNat p 8 8) 0, stepAsk := true })) else nextOf s (reply s 0x33 1 [])
      | none => nextOf s (reply s 0x33 1 []))

/-- R422: the events that a RESUME ends: that which stopped the named wave, or those whose group holds the named core (log 70, DEDUCED). -/
def resumed (s : State) (ctx t : Nat) : List Nat :=
  if bitAt t 15 then (((targetWave s ctx t).bind (·.2.stopRec)).map (·.seq)).toList
  else ((s.stops ++ s.fogs).filter (fun f => decide (f.ctx = ctx) && f.covers (bits t 0 9))).map (·.seq)

/-- RESUME: the waves that an event stopped are ready again (R422). -/
def execResume (p : Payload) (s : State) : Out :=
  let ctx := opNat p 0 4
  let t := opNat p 4 4
  command (.resume p) 0x34 16 [] false true p s
    (fun s => if !(installed s ctx) || !(targetOk t) || decide (opNat p 8 8 ≠ 0) then ansNo s 2
     else match resumed s ctx t with
       | [] => ansNo s 1
       | l => ansOk (l.foldl resumeEvent s))

/-- R483: the opcodes of the commands. -/
def commandCodes : List Nat := [0x01, 0x02, 0x03, 0x10, 0x11, 0x12, 0x13, 0x14, 0x15, 0x16, 0x20, 0x21, 0x22, 0x23, 0x30, 0x31, 0x32, 0x33, 0x34]

/-- A payload whose opcode is no command's (R483). -/
def execUnknownCommand (opcode : Nat) (p : Payload) (s : State) : Out :=
  if opcode ∈ commandCodes then notEnabled
  else cmdGate (.unknown opcode p) false p s (fun s => nextOf s (reply s opcode 2 []))

/-- R484: a held command whose turn has come. -/
def runCmd (c : HostCmd) (s : State) : Out :=
  match c with
  | .openSession p => execOpenSession p s
  | .status p => execStatus p s
  | .attest p => execAttest p s
  | .ctxSet p t => execCtxSet p t s
  | .streamWrite p => execStreamWrite p s
  | .invalidate p => execInvalidate p s
  | .preempt p => execPreempt p s
  | .coreSave p => execCoreSave p s
  | .coreRestore p => execCoreRestore p s
  | .gapAnswer p => execGapAnswer p s
  | .keyLoad p => execKeyLoad p s
  | .keyRetire p => execKeyRetire p s
  | .partitionSet p => execPartitionSet p s
  | .grantSetHost p => execGrantSetHost p s
  | .grantSetInbound p => execGrantSetInbound p s
  | .grantSetRoute p => execGrantSetRoute p s
  | .grantSetRank p => execGrantSetRank p s
  | .debugWrite p r => execDebugWrite p r s
  | .debugRead p r => execDebugRead p r s
  | .stop p => execStop p s
  | .step p => execStep p s
  | .resume p => execResume p s
  | .unknown opcode p => execUnknownCommand opcode p s

/-- R449, R477, R484: the commands of the host whose turn has come: the first behind one that waited, that behind a gap which has closed. -/
def cmdsDue (s : State) : List HostCmd :=
  (if cmdBusy s then [] else s.host.queue.take 1) ++ (s.net.early.filter (fun e => decide (e.1 = cmdNext s))).map (·.2)

/-- The state after a held command, where one has its turn. -/
def cmdRun (s : State) : Option State := (cmdsDue s).findSome? (fun c => match runCmd c s with | .next t => some t | _ => none)

end Sys2Proof.Machine
end

