-- ==== Sys2Proof/Machine/Boot.lean ====
section
/-! DEFINITION. Package reset, bring-up, and uncorrectable errors (R211, R212, R476, R479, R480). -/

namespace Sys2Proof.Machine

/-- R480: the number of `n` bytes of an image from an offset. -/
def imageNat (image : List Byte) (off n : Nat) : Nat := leNat ((image.drop off).take n)

/-- R480: the bytes of an image's header that its signature covers, after the body (log 11; log 66, DEDUCED). -/
def signedBytes (image : List Byte) : List Byte := image.drop 1152 ++ image.take 0x280

/-- R480: whether an image has the layout of its header (log 66, DEDUCED). -/
def imageForm (image : List Byte) : Bool :=
  decide (imageNat image 0 4 = 0x57465852) && decide (imageNat image 4 4 < 64) && decide (image.length = 1152 + imageNat image 8 8) && decide (imageNat image 16 112 = 0)

/-- R480: what the boot ROM accepts with `count` fuses blown (log 11, DESIGN CHOICE; log 66, DEDUCED). -/
def imageOk (count : Nat) (image : List Byte) : Bool :=
  let n := (image.drop 0x80).take 512
  imageForm image && decide (Config.sha512 n = Config.rootKeyDigest) && Config.pssVerifies n ((image.drop 0x280).take 512) (signedBytes image) && decide (count ≤ imageNat image 4 4)

/-- R479: the device after reset release: nothing is left on the dies, the bytes of device memory that had been written are unspecified, the boot ROM has verified the firmware image (log 68, DEDUCED). -/
def resetDo (s : State) (image : List Byte) : State :=
  { State.reset with
    inputs := s.inputs, mem := s.mem, unspec := tblKeys s.mem ++ ((tblKeys s.lineKey).map lineBytes).flatten ++ s.unspec, wlog := [], fresh := s.fresh
    boot := { digest := Config.sha512 image, version := imageNat image 4 4, st := if imageOk (fuseCount s) image then .train else .failRoot, fuses := s.boot.fuses } }

/-- PACKAGE_RESET: reset is released, and the boot ROM verifies the image (R479, R480). -/
def execPackageReset (image : List Byte) (s : State) : Out := nextOf s (resetDo s image)

/-- R480, R485: what firmware adds to the anti-rollback count while it trains memory: nothing, or freely what brings it up to its own version (log 120, DESIGN CHOICE). -/
def fuseRaise (s : State) : Nat := if freeBool s 0 then s.boot.version - fuseCount s else 0

/-- MEMORY_TRAINING: firmware trains the memory and tests it, and may raise the anti-rollback count (R211, R479, R480). -/
def execMemoryTraining (ok : Bool) (s : State) : Out :=
  if s.boot.st = .train ∧ s.heat.tripped = false then nextOf s { s with boot := { s.boot with st := if ok then .link else .failMem, fuses := s.boot.fuses + fuseRaise s } } else notEnabled

/-- R479: the cycles after which the host port is tried again, 100 ms. -/
def retryCycles : Nat := 200000000

/-- R479: whether a port may be trained: the host port in LINK or after a failure, a peer port in LINK (log 82, DEDUCED). -/
def mayTrain (s : State) (port : Nat) : Bool :=
  !s.heat.tripped && !(decide (port ∈ s.boot.links)) && !(decide (port ∈ s.boot.down))
    && (if port = hostPort then decide (s.boot.st = .link ∨ s.boot.st = .failRoot ∨ s.boot.st = .failMem) && s.boot.retry.isNone else decide (port < hostPort) && decide (s.boot.st = .link))

/-- R479: a port that has come up, or failed: the host port is tried again later, a peer port stays down (log 91, DESIGN CHOICE). -/
def trainPort (b : Boot) (clock port : Nat) (ok : Bool) : Boot :=
  if ok then { b with links := port :: b.links, st := if port = hostPort ∧ b.st = .link then .session else b.st }
  else if port = hostPort then { b with retry := some (clock + retryCycles) }
  else { b with down := port :: b.down }

/-- LINK_TRAINING: auto-negotiation and link training of a port have ended (R476, R479). -/
def execLinkTraining (port : Nat) (ok : Bool) (s : State) : Out :=
  if mayTrain s port then nextOf s { s with boot := trainPort s.boot s.clock port ok } else notEnabled

/-- LINK_RETRY: 100 ms after it failed the host port is tried again (R479). -/
def execLinkRetry (s : State) : Out :=
  match s.boot.retry with
  | some t => if t ≤ s.clock ∧ s.heat.tripped = false then nextOf s { s with boot := { s.boot with retry := none } } else notEnabled
  | none => notEnabled

/-- NON_PYZAN_FRAME: a frame of another EtherType is dropped and counted (R476). -/
def execNonPyzanFrame (port : Nat) (s : State) : Out :=
  if port ∈ s.boot.links ∧ s.heat.tripped = false then nextOf s { s with host := { s.host with dropped := s.host.dropped + 1 } } else notEnabled

/-- R212: the scratchpad place of a byte of a physical core's array, in the allocation, or the line that a migration has brought there (R445), or the tile area that holds it (log 86, DEDUCED; log 81, DEDUCED). -/
def arrayPlace (s : State) (p off : Nat) : Option Place :=
  let inA (a : SpadAlloc) : Bool := decide (a.base ≤ off) && decide (off < a.base + a.size)
  match s.cohorts.findSome? (fun c => c.2.spad.findSome? (fun k => if inA k.2 && decide ((tblFind k.2.away ((off - k.2.base) / 64)).getD (physCore s k.1) = p) then some (Place.spad c.1 k.1 (off - k.2.base)) else none)) with
  | some x => some x
  | none => (coreAt s p).tiles.findSome? (fun t => if inA t.2 then some (Place.tile p t.1 (off - t.2.base)) else none)

/-- UNCORRECTABLE_ERROR: a line of device memory, or a byte of a physical core's scratchpad, is poisoned (R212) (log 86, DEDUCED). -/
def execUncorrectableError (e : ErrorSite) (s : State) : Out :=
  match e with
  | .memLine line => if inDevice (64 * line) then nextOf s { s with poison := line :: s.poison.filter (· ≠ line) } else notEnabled
  | .spadByte core off => if core < 320 ∧ off < 524288 then nextOf s (match arrayPlace s core off with | some p => spadPoison s p true | none => s) else notEnabled

end Sys2Proof.Machine
end

