-- ==== Sys2Proof/Machine/Heat.lean ====
section
/-! DEFINITION. Heat, power, and `remap` (R440 to R446, R485). -/

namespace Sys2Proof.Machine

/-- R442: a sensor's reading, by physical quad (log 82, DEDUCED). -/
def setTemp (s : State) (quad celsius : Nat) : State := { s with temps := tblSet 0 s.temps quad celsius }

/-- R443: the cohorts that a request against a physical quad names. -/
def migrNames (s : State) (quad : Nat) (c : Cohort) : Bool :=
  c.migr && c.waves.any (fun w => (waveAt s w).any (fun v => decide (quadOf (physCore s v.core) = quad))) && c.waves.all (fun w => (waveAt s w).all (fun v => decide (v.tvec ≠ 0)))

/-- R442, R443: a migration request against a physical quad. -/
def askMigration (s : State) (quad : Nat) : State :=
  if quad ∈ s.heat.hot then s
  else { s with heat := { s.heat with hot := quad :: s.heat.hot }, cohorts := s.cohorts.map (fun c => if migrNames s quad c.2 then (c.1, { c.2 with migReq := quad :: c.2.migReq.filter (· ≠ quad) }) else c) }

/-- MIGRATION_REQUEST: a quad reads 95 °C (R442, R443). -/
def execMigrationRequest (quad : Nat) (s : State) : Out :=
  if quad < 80 ∧ quadTemp s quad < 95 ∧ s.heat.tripped = false then nextOf s (askMigration (setTemp s quad 95) quad) else notEnabled

/-- THROTTLE_105: a quad reads 105 °C and issues at half rate (R442) (log 82, DEDUCED). -/
def execThrottle105 (quad : Nat) (s : State) : Out :=
  if quad < 80 ∧ quadTemp s quad < 105 ∧ s.heat.tripped = false then
    let s1 := askMigration (setTemp s quad 105) quad
    nextOf s { s1 with heat := { s1.heat with half := quad :: s1.heat.half.filter (· ≠ quad) } }
  else notEnabled

/-- R442, R483: what is left when every die stops its clocks: the contents of device memory, the readings, and the records sent, the trip's the last. -/
def tripped (s : State) : State :=
  { State.reset with inputs := s.inputs, clock := s.clock, fresh := s.fresh, mem := s.mem, unspec := s.unspec, lineKey := s.lineKey, poison := s.poison, temps := s.temps, boot := s.boot, out := s.out, net := { told := s.out.length, wire := s.net.wire ++ [s.out.length - 1] }, heat := { s.heat with tripped := true } }

/-- TRIP_115: a quad reads 115 °C: the host is told, then every clock stops and on-die storage is lost (R442, R483). -/
def execTrip115 (quad : Nat) (s : State) : Out :=
  if quad < 80 ∧ quadTemp s quad < 115 ∧ s.heat.tripped = false then nextOf s (tripped (tellHost (setTemp s quad 115) .trip)) else notEnabled

/-- R443: the requests of a quad that are still pending are withdrawn. -/
def dropRequest (s : State) (quad : Nat) : State :=
  { s with heat := { s.heat with hot := s.heat.hot.filter (· ≠ quad) }, cohorts := s.cohorts.map (fun c => (c.1, { c.2 with migReq := c.2.migReq.filter (· ≠ quad) })) }

/-- THERMAL_CLEAR: a quad's reading falls: below 100 °C it issues at full rate, below 90 °C its pending request is withdrawn (R442, R443). -/
def execThermalClear (quad celsius : Nat) (s : State) : Out :=
  if quad < 80 ∧ celsius < quadTemp s quad ∧ s.heat.tripped = false then
    let s1 := setTemp s quad celsius
    let s2 := if celsius < 100 then { s1 with heat := { s1.heat with half := s1.heat.half.filter (· ≠ quad) } } else s1
    nextOf s (if celsius < 90 then dropRequest s2 quad else s2)
  else notEnabled

/-- POWER_LIMIT: the average of the package power passes 2,400 W, or falls below 2,300 W (R485). -/
def execPowerLimit (on : Bool) (s : State) : Out :=
  if s.heat.power ≠ on ∧ s.heat.tripped = false then nextOf s { s with heat := { s.heat with power := on } } else notEnabled

/-- R446: what keeps a cohort on core `a` from a remap: a bound port, MTX, QLOCK, a convertible section. -/
def remapBound (s : State) (c : Cohort) (here : List Wave) : Bool :=
  here.any (fun v => !v.ports.isEmpty || v.kernel.mtx) || c.qlock || c.conv

/-- R444, R446: whether no migration entry of the cohort's allocation on core `a` has yet to complete its move to `b`; with no entry there is none (log 81, DEDUCED). -/
def piecesMoved (s : State) (co : Nat) (a b : Nat) : Bool :=
  s.cores.all (fun p => p.2.keyring.all (fun k => decide (k.2.mig ≠ some (co, a)) || (decide (p.1 = physCore s b) && decide (k.2.st = .resident))))

/-- R446: whether core `b` is idle apart from the cohort's migration entries, with every census slot of the context IDLE. -/
def remapFree (s : State) (co ctx a b : Nat) : Bool :=
  idleButKeys s b && (coreAt s (physCore s b)).keyring.all (fun k => decide (k.2.mig = some (co, a))) && (coreAt s (physCore s b)).slots.all (fun x => decide (x.1 / 16 ≠ ctx))

/-- R440: entry c of the remap table set to a physical core; the identity is not listed. -/
def remapSet (t : Tbl Nat) (c p : Nat) : Tbl Nat := if p = c then tblErase t c else tblPut t c p

/-- R446: the move itself: other work of the old physical core stays there, under its new logical number (log 81, DEDUCED). -/
def remapDo (s : State) (co : Nat) (c : Cohort) (a b : Nat) : State :=
  let pa := physCore s a
  let pb := physCore s b
  let moved (v : Wave) : Bool := decide (v.cohort = co) && !v.isResponder
  let keys (x : Core) : Core := { x with keyring := x.keyring.filter (fun k => decide (k.2.mig ≠ some (co, a))) }
  let slots := (coreAt s pa).slots.filter (fun x => decide (x.1 / 16 = c.ctx))
  let s1 := modCore s pa (fun x => { keys x with slots := x.slots.filter (fun y => decide (y.1 / 16 ≠ c.ctx)) })
  let s2 := modCore s1 pb (fun x => { keys x with slots := slots.foldl (fun t y => tblPut t y.1 y.2) x.slots })
  let s3 := { s2 with
    remap := remapSet (remapSet s2.remap a pb) b pa
    waves := s2.waves.map (fun e => if e.2.core = a ∧ moved e.2 = false then (e.1, { e.2 with core := b }) else e)
    cohorts := s2.cohorts.map (fun x => if x.1 = co then (x.1, { x.2 with spad := tblMod x.2.spad a (fun al => { al with away := [] }) }) else match tblFind x.2.spad a with | some al => (x.1, { x.2 with spad := tblPut (tblErase x.2.spad a) b al }) | none => x) }
  dropL1 s3 pb

/-- R446: the remap. -/
def bodyRemap (f : RRR) (e : Env) (s : State) : Res :=
  let a := (e.rdS f.a).toNat
  let b := (e.rdB f).toNat
  if !(e.v.handler.any (·.migrate)) then .trap s (e.modeTrap 10)
  else if a ≠ e.v.core ∨ 319 < b ∨ b = a ∨ dieOf b ≠ dieOf e.v.core then .trap s (e.illegal 10)
  else match tblFind s.cohorts e.v.cohort with
    | none => .done s { wr := e.wrS f.d 1 }
    | some c =>
      let here := (tblVals s.waves).filter (fun v => decide (v.cohort = e.v.cohort) && !v.isResponder && decide (v.core = a))
      if remapBound s c here then .done s { wr := e.wrS f.d 3 }
      else if !(piecesMoved s e.v.cohort a b) then .done s { wr := e.wrS f.d 1 }
      else if !(remapFree s e.v.cohort e.v.ctx a b) then .done s { wr := e.wrS f.d 2 }
      else if !(s.waves.all (fun x => decide (x.1 = e.w) || decide (x.2.cohort ≠ e.v.cohort) || x.2.isResponder || decide (x.2.core ≠ a) || decide (x.2.phase ≠ .simt) || atBoundary s x.2)) then .hold s
      else .done (remapDo s e.v.cohort c a b) { wr := e.wrS f.d 0 }
/-- `remap` (R446). -/
def execRemap (f : RRR) (s : State) : Out := issue (.remap f) (bodyRemap f) s

end Sys2Proof.Machine
end

