-- ==== Sys2Proof/Machine/Inbound.lean ====
section
/-! DEFINITION. Frames that arrive from peers and from the host, and what the device does with each (R351, R358, R402, R403, R447 to R453, R477, R478). -/

namespace Sys2Proof.Machine

/-- R477: the rank by which the device names itself to a sender. -/
def ownRank (s : State) (fr : Frame) : Nat := if fr.port = hostPort then 0xFE else s.net.rank.getD 0

/-- R449, R476, R477: whether a frame of a type is one the device takes: of version 1, with a payload that fits beside the header, from the host types 1 to 5, from a peer 1 to 8. -/
def frameOk (s : State) (ty : Nat) (fr : Frame) : Bool :=
  decide (fr.ver = 1) && decide (fr.ty = ty) && decide (fr.bytes.length ≤ 4128) && if fr.port = hostPort then decide (fr.src = hostRank) && decide (fr.dst = 0xFE) && decide (ty ≤ 5)
  else decide (fr.src < 64) && s.net.rank.any (fun r => decide (fr.dst = r) && decide (fr.src ≠ r))

/-- R449: an answer sent; it is kept against a repetition of what it answers (log 78, DEDUCED). -/
def answerFrame (s : State) (fr : Frame) (ty status : Nat) (bytes : List Byte) : State :=
  let n := s.net
  let a : Frame := { port := fr.port, src := ownRank s fr, dst := fr.src, tag := fr.tag, seq := tblGet 0 n.txSeq fr.src, addr := fr.addr, core := fr.core, status := status, bytes := bytes, ty := ty }
  tellHost { s with net := { n with txSeq := tblSet 0 n.txSeq fr.src (a.seq + 1), replies := (fr.src, fr.seq, ty, a) :: n.replies } } (.frame a)

/-- R448, R478: the grants that an inbound frame is checked against. -/
def grantsFor (s : State) (fr : Frame) : List Grant := if fr.port = hostPort then tblVals s.host.hostGrants else tblVals s.host.inbound

/-- R448, R478: the entry that admits an access of `n` bytes: the lowest valid one of its tag that holds every byte. -/
def grantFind (s : State) (fr : Frame) (n : Nat) : Option Grant :=
  if fr.port = hostPort ∧ s.boot.session ≠ some fr.tag then none
  else (grantsFor s fr).find? (fun g => g.valid && decide (g.tag = fr.tag) && decide (g.base ≤ fr.addr) && decide (fr.addr + n ≤ g.limit + 1))

/-- R448: the permission an access needs. -/
def Grant.allows (g : Grant) (k : Kind) : Bool := match k with | .store => g.w | .atomic => g.r && g.w | _ => g.r

/-- R448: an inbound access checked: the grant it is performed under, or the fault bits of R221 (log 79, DEDUCED; log 23, DEDUCED). -/
def grantCheck (s : State) (fr : Frame) (n : Nat) (k : Kind) : Except Nat Grant :=
  let bad (c : Cause) (r : Nat) : Nat := ({ cause := c, addr := fr.addr, reason := r : MemFault }).info k 0
  match grantFind s fr n with
  | none => .error (bad .protection 0)
  | some g =>
    if !(g.allows k) then .error (bad .protection 0)
    else if !((List.range n).all (fun i => inDevice (fr.addr + i))) then .error (bad .page 2)
    else if (List.range n).any (fun i => poisoned s (fr.addr + i)) then .error (bad .page 3)
    else .ok g

/-- R451: the record of an inbound access that fails, written to the peer event ring (log 77, DESIGN CHOICE). -/
def peerEvent (s : State) (fr : Frame) (k : Kind) (fault : Nat) : State :=
  let n := s.net
  let b := leBytes 8 fr.addr ++ leBytes 4 fr.tag ++ leBytes 1 fr.src ++ leBytes 1 k.code ++ leBytes 2 fr.core ++ leBytes 8 fault ++ leBytes 8 n.ringSeq
  let s1 := { s with net := { n with ringSeq := n.ringSeq + 1, ringAt := if n.ringSize = 0 then 0 else (n.ringAt + 1) % n.ringSize } }
  if n.ringSize = 0 then s1 else packagePutAll s1 0 (n.ringBase + 32 * n.ringAt) b

/-- R451: an inbound access that fails: its record, and the fault to the initiator. -/
def refuseFrame (s : State) (fr : Frame) (k : Kind) (fault : Nat) : State := answerFrame (peerEvent s fr k fault) fr 4 fault []

/-- R416, R417: an inbound access as a watchpoint sees it (log 30, DEDUCED). -/
def frameSeen (fr : Frame) (kind n : Nat) : Seen :=
  { init := if fr.port = hostPort then 68 else 67, rank := if fr.port = hostPort then 0 else fr.src, kind := kind, places := (List.range n).map (fun i => Place.dev (fr.addr + i)) }

/-- R448: an inbound load performed at its home. -/
def inLoad (s : State) (fr : Frame) (op : FrameOp) : State :=
  match grantCheck s fr op.size .load with
  | .error f => refuseFrame s fr .load f
  | .ok g => answerFrame (matchAccess s (frameSeen fr 0 op.size)) fr 4 0 (homeBytes s g.key fr.addr 0 op.size)

/-- R448, R450: an inbound store performed at system scope, and acknowledged. -/
def inStore (s : State) (fr : Frame) : State :=
  match grantCheck s fr fr.bytes.length .store with
  | .error f => refuseFrame s fr .store f
  | .ok g => answerFrame (matchAccess (packagePutAll s g.key fr.addr fr.bytes) (frameSeen fr 1 fr.bytes.length)) fr 5 0 []

/-- R256, R448, R450: an inbound atomic performed at its home. -/
def inAtomic (s : State) (fr : Frame) (op : FrameOp) : State :=
  match grantCheck s fr op.size .atomic with
  | .error f => refuseFrame s fr .atomic f
  | .ok g =>
    let n := op.size
    let old := homeBytes s g.key fr.addr 0 n
    let s1 := invalidateOthers s none (lineOf fr.addr)
    let s2 := match atomicNew op.atop (8 * n) (leNat old) (op.b.toNat % 2 ^ (8 * n)) (op.c.toNat % 2 ^ (8 * n)) with
      | some y => packagePutAll s1 g.key fr.addr (leBytes n y)
      | none => s1
    answerFrame (matchAccess s2 (frameSeen fr 2 n)) fr 4 0 old

/-- R449: the first frame sent that an answer belongs to: to that rank, with that address and initiator core, of a type it can answer (log 78, DEDUCED). -/
def txFor (s : State) (fr : Frame) (types : List Nat) : Option TxFrame :=
  s.net.tx.find? (fun t => decide (t.fr.dst = fr.src) && decide (t.fr.addr = fr.addr) && decide (t.fr.core = fr.core) && decide (t.ty ∈ types))

/-- R449: a frame that has its answer is no longer kept. -/
def txDrop (s : State) (t : TxFrame) : State :=
  { s with net := { s.net with tx := s.net.tx.filter (fun x => !(decide (x.fr.dst = t.fr.dst) && decide (x.fr.seq = t.fr.seq))) } }

/-- R402, R403, R478: an access of the peer or host window has had a response: `bytes` what it read, `bad` its failure. -/
def accAnswer (s : State) (w k at_ : Nat) (bytes : List Byte) (bad : Option (Bool × Nat × Nat)) : State :=
  match accAt s w k with
  | none => s
  | some (_, _, a) =>
    if a.bad.isSome then s
    else
      let s1 := modAcc s w k (fun x => { x with need := x.need - 1, bad := bad, got := (bytes.zipIdx).foldl (fun t b => tblPut t (at_ + b.2) b.1) x.got })
      if a.kind.stores then
        (if bad.isSome then recordFailed s1 w k else if a.need ≤ 1 then modAcc s1 w k (fun x => { x with stage := 3 }) else s1)
      else match waveAt s1 w with
        | some v => if hostOnly v a then (if a.need ≤ 1 then hostEffect s1 w v k else s1) else peerFinish s1 w v a.issue
        | none => s1

/-- R304: the fault of a chunk that a peer refused (log 79, DEDUCED). -/
def chunkFault (engine va fault : Nat) : Word × Word := (BitVec.ofNat 64 va, BitVec.ofNat 64 ((if 2 ≤ bits fault 10 2 then 0 else 2 ^ 24) + engine * 2 ^ 21 + fault % 2 ^ 13 / 32 * 32))

/-- A run that a `mbld` or `jld` has asked for is answered. -/
def mxAnswered (s : State) (k c : Nat) : State :=
  modEng s k (fun o => match o.pay with | .mx m => { o with pay := .mx { m with wait := m.wait.filter (· ≠ c) } } | _ => o)

/-- R270, R302, R303, R327: a part of a chunk of a copy, a unit of a `vlds`, a run of a row of `mbld` or `jld`, has its answer from a peer; one that fails ends the `vlds`, whose arrival then carries the failure, and fails the others once every answer has come (log 79, DEDUCED; log 102, DESIGN CHOICE). -/
def chunkAnswer (s : State) (k c : Nat) (bytes : List Byte) (bad : Option Nat) : State :=
  match tblFind s.eng k with
  | none => s
  | some o =>
    match o.pay, waveAt s o.wave with
    | .vlds g l moved wait, some v =>
      if c ∉ wait then s
      else match bad with
      | some _ => vldsFailed s k g l
      | none =>
        let s1 := engSeen (vldsPut s l (moved.filter (· ≠ c)) c bytes) o.ctx v.core 64 1 (vldsUnit l c).2
        modEng s1 k (fun o => { o with pay := .vlds g l moved (wait.filter (· ≠ c)) })
    | .mx m, some v =>
      match bad with
      | some f => loadFailed (mxAnswered s k c) k (physCore s v.core) v.work m (chunkFault m.engine ((loadAddrs m).1.getD (c / 256) 0 + c % 256) f)
      | none => if o.failing then engEnd (mxAnswered s k c) k else modEng s k (fun o => { o with pay := .mx { m with wait := m.wait.filter (· ≠ c), peer := (bytes.zipIdx).foldl (fun t b => tblPut t (c + b.2) b.1) m.peer } })
    | .coll d, _ =>
      let va := if !d.closing then d.src.toNat + c else if c < d.len then d.dst.toNat + c else d.at_.toNat + 0x28 + (c - d.len)
      collAnswer s k o d c bytes (bad.map (chunkFault 0 va))
    | .tcopy st r goff soff moved wait, some v =>
      let x := c / 8
      let sp := chunkSpan (r.gaddr goff x) r.esz (c % 8)
      let fin (t : State) (m : List Nat) : State := modEng t k (fun o => { o with pay := o.pay.progress m (wait.erase c) })
      match bad with
      | some f => engFail (fin s moved) k (chunkFault 0 (r.gaddr goff x + sp.1) f)
      | none =>
        if st || o.failing then tcopyCheck (fin s moved) k
        else tcopyCheck (fin (chunkSeen (chunkLoad s v r soff x sp.1 moved (bytes.map (fun b => (b, false)))) o v st r goff soff moved c false) (c :: moved)) k
    | _, _ => s

/-- R478: a read of a window has its answer: code goes to its wave, the rest stays for its reader; what a target refuses of code or of a bundle's image reads as free (log 26, DESIGN CHOICE; log 113, DESIGN CHOICE). -/
def winAnswer (s : State) (who : WinFor) (pa : Nat) (bytes : List Byte) (bad : Option Nat) : State :=
  let n := ((s.net.reads.find? (fun r => decide (r.who = who) && decide (r.pa = pa))).map (·.n)).getD 0
  let any := (List.range n).map (fun i => BitVec.ofNat 8 (free s (2 ^ 57 + pa + i)))
  let put (l : List Byte) (f : Option Nat) : State := { s with net := { s.net with reads := s.net.reads.map (fun r => if r.who = who ∧ r.pa = pa then { r with bytes := some l, bad := f } else r) } }
  match who with
  | .code w => modWave (winDrop s who) w (fun v => { v with code := ((if bad.isSome then any else bytes).zipIdx).foldl (fun t b => tblPut t (pa + b.2) b.1) v.code })
  | .eng _ => put (if bad.isSome then any else bytes) none
  | _ => put bytes bad

/-- R402, R403, R449: a response: what was read, or a failure of the access (log 78, DEDUCED); a read that the host refuses gives free bytes, a store that it refuses has its acknowledgement (log 26, DESIGN CHOICE). -/
def inResponse (s : State) (fr : Frame) : State :=
  match txFor s fr [1, 2, 3] with
  | none => s
  | some t =>
    let s1 := txDrop s t
    let whole := decide (t.ty ≠ 2) && decide (fr.bytes.length = t.op.size)
    let host := decide (t.fr.dst = hostRank)
    let bytes := if whole then fr.bytes else if host && decide (t.ty ≠ 2) then (List.range t.op.size).map (fun i => BitVec.ofNat 8 (free s (2 ^ 58 + i))) else []
    let ok := whole || host
    match t.tx with
    | .acc w k at_ _ => accAnswer s1 w k at_ bytes (if ok then none else some (false, fr.src, fr.status % 2 ^ 13))
    | .eng k c _ => chunkAnswer s1 k c bytes (if ok then none else some (fr.status % 2 ^ 13))
    | .win who pa => winAnswer s1 who pa bytes (if ok then none else some (fr.status % 2 ^ 13))
    | .compl ctx l st => if ok then s1 else tellHost s1 (.complFault ctx l st (fr.status % 2 ^ 13))
    | .census _ | .coll | .msg _ => s1

/-- R244, R449, R450: an acknowledgement: the store is performed at system scope (log 78, DEDUCED). -/
def inAck (s : State) (fr : Frame) : State :=
  match txFor s fr [2, 7, 8, 17, 18] with
  | none => s
  | some t =>
    let s1 := txDrop s t
    match t.tx with
    | .acc w k at_ _ => accAnswer s1 w k at_ [] none
    | .eng k c _ => chunkAnswer s1 k c [] none
    | .census _ | .coll | .win _ _ | .compl _ _ _ | .msg _ => s1

/-- R351, R447: the context of a domain tag. -/
def tagCtx (s : State) (tag : Nat) : Option Nat := (s.ctxs.find? (fun c => c.2.t.inDomain && decide (c.2.t.domainTag = tag))).map (·.1)

/-- R351: a peer's solicit: this root stamps it in its own series and delivers it; with no context of the tag it answers with no response (log 42, DESIGN CHOICE). -/
def inSolicit (s : State) (fr : Frame) : State :=
  let n (off k : Nat) : Nat := leNat ((fr.bytes.drop off).take k)
  match tagCtx s fr.tag with
  | none => answerFrame s fr 7 0 (leBytes 8 (combUnit (n 32 1)) ++ leBytes 8 0)
  | some ctx =>
    let so : Solicit := { ctx := ctx, core := fr.core, scope := 2, key := BitVec.ofNat 64 (n 0 8), mask := BitVec.ofNat 64 (n 8 8), arg := BitVec.ofNat 64 (n 16 8), hdr := BitVec.ofNat 64 (n 24 8) }
    let c : Census := { so := so, comb := n 32 1, fromPeer := some (fr.src, fr.addr) }
    stampCensus { s with censuses := s.censuses ++ [c] } s.censuses.length c

/-- R357, R358: a peer root's answer (log 42, DESIGN CHOICE). -/
def peerAnsOf (fr : Frame) : PeerAns :=
  let st := leNat ((fr.bytes.drop 8).take 8)
  { rank := fr.src, value := BitVec.ofNat 64 (leNat (fr.bytes.take 8)), matches_ := bits st 28 28, answers := bits st 0 28, flt := bitAt st 62 }

/-- R358, R449: a peer root's answer to a census reaches the asker's root, and is acknowledged. -/
def inCensusAnswer (s : State) (fr : Frame) : State :=
  answerFrame { s with
    censuses := s.censuses.map (fun c => if c.stamped = true ∧ c.so.stamp = fr.addr ∧ fr.src ∈ c.peers then { c with peers := c.peers.filter (· ≠ fr.src), peerAns := c.peerAns ++ [peerAnsOf fr] } else c)
    net := { s.net with tx := s.net.tx.filter (fun t => !(decide (t.ty = 6) && decide (t.fr.addr = fr.addr) && decide (t.fr.dst = fr.src))) } } fr 5 0 []

/-- R453: a member's contribution arrives; a collective that has them all ends. -/
def inCollective (s : State) (fr : Frame) : State :=
  let s1 := answerFrame { s with net := { s.net with colls := collAdd s.net.colls (collInOf fr.tag fr.addr fr.src fr.bytes) } } fr 5 0 []
  (tblKeys s1.eng).foldl collCheck s1

/-- R449: a frame performed. -/
def rxDo (s : State) (x : RxFrame) : State :=
  match x.ty with
  | 1 => inLoad s x.fr x.op
  | 2 => inStore s x.fr
  | 3 => inAtomic s x.fr x.op
  | 4 => inResponse s x.fr
  | 5 => inAck s x.fr
  | 6 => inSolicit s x.fr
  | 7 => inCensusAnswer s x.fr
  | _ => inCollective s x.fr

/-- R449: the number of the next frame expected from a rank. -/
def rxNext (s : State) (src : Nat) : Nat := tblGet 0 s.net.rxSeq src

/-- R449: the next frame of its pair performed. -/
def rxStep (s : State) (x : RxFrame) : State := rxDo { s with net := { s.net with rxSeq := tblSet 0 s.net.rxSeq x.fr.src (x.fr.seq + 1), held := s.net.held.filter (fun y => !(decide (y.fr.src = x.fr.src) && decide (y.fr.seq = x.fr.seq))) } } x

/-- R449: the frames held behind a gap that has closed are performed in turn. -/
def rxHeld (s : State) (src : Nat) : Nat → State
  | 0 => s
  | n + 1 =>
    match s.net.held.find? (fun x => decide (x.fr.src = src) && decide (x.fr.seq = rxNext s src)) with
    | none => s
    | some x => rxHeld (rxStep { s with net := { s.net with held := s.net.held.filter (· ≠ x) } } x) src n

/-- R449: a frame that was performed before: its answer is sent again. -/
def rxAgain (s : State) (fr : Frame) : State :=
  match s.net.replies.find? (fun r => decide (r.1 = fr.src) && decide (r.2.1 = fr.seq)) with
  | some r => tellHost s (.frame r.2.2.2)
  | none => s

/-- R449: a frame that arrives on a port: performed in its pair's order, exactly once; held behind a gap; one the device does not take is dropped (log 91, DESIGN CHOICE). -/
def rxFrame (ty : Nat) (fr : Frame) (op : FrameOp) (s : State) : Out :=
  if !(decide (fr.port ∈ s.boot.links)) || s.heat.tripped then notEnabled
  else if !(frameOk s ty fr) then nextOf s s
  else if fr.seq = rxNext s fr.src then nextOf s (settle (rxHeld (rxStep s { ty := ty, fr := fr, op := op }) fr.src s.net.held.length))
  else if fr.seq < rxNext s fr.src then nextOf s (rxAgain s fr)
  else nextOf s { s with net := { s.net with held := s.net.held.filter (fun x => !(decide (x.fr.src = fr.src) && decide (x.fr.seq = fr.seq))) ++ [{ ty := ty, fr := fr, op := op }] } }

/-- PYZAN_LOAD: an inbound load (R448, R449, R451, R478). -/
def execPyzanLoad (fr : Frame) (op : FrameOp) (s : State) : Out := rxFrame 1 fr op s

/-- PYZAN_STORE: an inbound store (R448 to R451, R478). -/
def execPyzanStore (fr : Frame) (s : State) : Out := rxFrame 2 fr {} s

/-- PYZAN_ATOMIC: an inbound atomic (R448, R450, R451, R478). -/
def execPyzanAtomic (fr : Frame) (op : FrameOp) (s : State) : Out := rxFrame 3 fr op s

/-- PYZAN_RESPONSE: the response to a load or atomic of this device, or the failure of a store (R402, R403, R449). -/
def execPyzanResponse (fr : Frame) (s : State) : Out := rxFrame 4 fr {} s

/-- PYZAN_ACKNOWLEDGEMENT: a store of this device is performed at its target (R244, R449, R450). -/
def execPyzanAcknowledgement (fr : Frame) (s : State) : Out := rxFrame 5 fr {} s

/-- PYZAN_SOLICIT: a peer's solicit reaches this device's root (R351). -/
def execPyzanSolicit (fr : Frame) (s : State) : Out := rxFrame 6 fr {} s

/-- PYZAN_CENSUS_ANSWER: a peer root's answer (R358). -/
def execPyzanCensusAnswer (fr : Frame) (s : State) : Out := rxFrame 7 fr {} s

/-- PYZAN_COLLECTIVE: a contribution arrives (R453, R454). -/
def execPyzanCollective (fr : Frame) (s : State) : Out := rxFrame 8 fr {} s

/-- PYZAN_RESEND: a frame unacknowledged for 4,000 cycles is sent again (R449). -/
def execPyzanResend (dst seq : Nat) (s : State) : Out :=
  match s.net.tx.find? (fun t => decide (t.fr.dst = dst) && decide (t.fr.seq = seq)) with
  | some t =>
    if t.sent + Config.resendCycles ≤ s.clock ∧ s.heat.tripped = false then
      let s1 : State := { s with net := { s.net with tx := s.net.tx.map (fun x => if x.fr.dst = dst ∧ x.fr.seq = seq then { x with sent := s.clock, tries := x.tries + 1 } else x) } }
      nextOf s (match t.tx with | .msg i => putHost s1 i | _ => tellHost s1 (.frame t.fr))
    else notEnabled
  | none => notEnabled

/-- R449: the answers to an access's frames are no longer awaited; the frames are sent again until they are acknowledged (log 78, DEDUCED). -/
def txForget (s : State) (w k : Nat) : State :=
  { s with net := { s.net with tx := s.net.tx.map (fun t => match t.tx with | .acc w1 k1 _ _ => if w1 = w ∧ k1 = k then { t with tx := .coll } else t | _ => t) } }

/-- The rank of the first peer byte of an access. -/
def Acc.rank (a : Acc) : Nat := (a.bytes.findSome? (fun b => match b.at_ with | .peer pa => some (peerRank pa) | _ => none)).getD 0

/-- R391, R421: the instruction of an access has its responses, and nothing delays its trap any longer (log 105, DEDUCED). -/
def peerNow (s : State) (v : Wave) (a : Acc) : Bool :=
  let l := v.accs.filter (fun b => decide (b.issue = a.issue))
  decide (v.phase = .simt) && !(hostOnly v a) && peerReady l && !(peerStays s v (l.headD a).sub l)

/-- PEER_ACCESS_LIMIT: an access of the peer window has had no response in time (R402, R403), or the trap of its instruction, which had to wait, is taken (R391, R421). -/
def execPeerAccessLimit (w k : Nat) (s : State) : Out :=
  match accAt s w k with
  | none => notEnabled
  | some (v, _, a) =>
    if decide (0 < a.need) && a.bad.isNone && decide (a.sent + (ctxAt s v.ctx).t.peerLimit ≤ s.clock) && a.bytes.any (fun b => b.at_.isPeer) then
      nextOf s (settle (accAnswer (txForget s w k) w k 0 [] (some (true, a.rank, 0))))
    else if peerNow s v a then nextOf s (settle (peerFinish s w v a.issue))
    else notEnabled

end Sys2Proof.Machine
end

