-- ==== Sys2Proof/Machine/Begin.lean ====
section
/-! DEFINITION. Engine instructions beginning (R258, R259, R306 to R308, R313, R335, R343, R346, R347, R377, R453). -/

namespace Sys2Proof.Machine

/-- R306, R313, R346: an engine instruction that does not run because a token it consumed has failed. -/
def beginFailed (s : State) (k : Nat) (o : EngOp) (f : Word × Word) : State :=
  let s1 := match o.pay with
    | .move m => (match m.card with | none => landOwed s o.wave m.res 7 | some _ => s)
    | _ => s
  engDone s1 k (some (f.1, inherit f.2))

/-- An engine instruction marked as begun. -/
def markBegun (s : State) (k : Nat) : State := modEng s k (fun o => { o with begun := true })

/-- R260, R313: a `garr` that arrives once its release has effect, with ERR where a consumed token failed. -/
def beginGarr (s : State) (k g : Nat) (o : EngOp) : Option State :=
  match waveAt s o.wave with
  | none => none
  | some v => if arriveReady s o then some (gateArrive (engDone s k none) v.cohort g o.badDep.isSome) else none

/-- R306: what an instruction that may begin does at its beginning; none where its own conditions do not hold yet. -/
def beginDo (s : State) (k : Nat) (o : EngOp) : Option State :=
  match o.pay, o.badDep with
  | .garr g, _ => beginGarr s k g o
  | .arr _ _, _ => if arriveReady s o then some (engDone s k none) else none
  | _, some f => some (beginFailed s k o f)
  | .kjoin, none => some (engDone s k none)
  | .tcopy _ _ _ _ _ _, none => some (tcopyCheck (markBegun s k) k)
  | .move m, none => some (moveBegin s k o m)
  | .coll d, none => if engWaits s (dieOf (logicalOf s o.core)) false (bytesOf (collMaps s o d).1) then none else some (collBegin s k o d)
  | .mx m, none => if mxMayBegin s k o m then some (markBegun (mxNote s o.core m) k) else none
  | .reg key off len res, none =>
    match waveAt s o.wave with
    | some v =>
      if v.relPackage o.mark o.issue then
        let r := regTile s o.core o.ctx (ownerOf v) key off len
        some (engDone (landOwed r.1 o.wave res r.2) k none)
      else none
    | none => none
  | .post bs res, none =>
    match waveAt s o.wave with
    | some v =>
      if postReady s v o.mark o.issue then
        if winOpen s (.eng k) bs then (if (winReads s (.eng k)).isEmpty then some (winAsk s (.eng k) o.ctx v.core bs) else none)
        else
          let r := postDo (matchAccess (winDrop s (.eng k)) (waveSeen o.wave v 0 bs)) o.ctx (postImage s (.eng k) (dieOf v.core) bs)
          some (engDone (landOwed r.1 o.wave res r.2) k none)
      else none
    | none => none
  | .vlds _ _ _ _, none => none

/-- ENGINE_BEGIN: an engine instruction begins: every token it consumes is DONE or FAILED, every earlier one of its agent has begun (R258, R259, R306). -/
def execEngineBegin (k : Nat) (s : State) : Out :=
  match tblFind s.eng k with
  | none => notEnabled
  | some o =>
    if o.begun || o.gap.isSome || !(mayBegin s o) || !(o.depsDone) || !(inOrder s k o) || stalled s k o then notEnabled
    else match beginDo s k o with
      | some t => nextOf s (settle t)
      | none => notEnabled

end Sys2Proof.Machine
end

