-- ==== Sys2Proof/Machine/Dispatch.lean ====
section
/-! DEFINITION. What each instruction and each step of the operation table does: one arm per constructor, each one call of its meaning. -/

namespace Sys2Proof.Machine

/-- The meaning of an instruction or step in a state. -/
def exec (i : Instr) (s : State) : Host.Outcome State Fault Refusal :=
  match i with
  | .sadd f => Sys2Proof.Machine.execSadd f s
  | .ssub f => Sys2Proof.Machine.execSsub f s
  | .smul f => Sys2Proof.Machine.execSmul f s
  | .smulh f => Sys2Proof.Machine.execSmulh f s
  | .sdiv f => Sys2Proof.Machine.execSdiv f s
  | .srem f => Sys2Proof.Machine.execSrem f s
  | .smin f => Sys2Proof.Machine.execSmin f s
  | .smax f => Sys2Proof.Machine.execSmax f s
  | .sand f => Sys2Proof.Machine.execSand f s
  | .sor f => Sys2Proof.Machine.execSor f s
  | .sxor f => Sys2Proof.Machine.execSxor f s
  | .sandn f => Sys2Proof.Machine.execSandn f s
  | .sshl f => Sys2Proof.Machine.execSshl f s
  | .sshr f => Sys2Proof.Machine.execSshr f s
  | .ssar f => Sys2Proof.Machine.execSsar f s
  | .srot f => Sys2Proof.Machine.execSrot f s
  | .sabs f => Sys2Proof.Machine.execSabs f s
  | .sclz f => Sys2Proof.Machine.execSclz f s
  | .spopc f => Sys2Proof.Machine.execSpopc f s
  | .smov f => Sys2Proof.Machine.execSmov f s
  | .sext f => Sys2Proof.Machine.execSext f s
  | .sbfx f => Sys2Proof.Machine.execSbfx f s
  | .sbfi f => Sys2Proof.Machine.execSbfi f s
  | .scmp f => Sys2Proof.Machine.execScmp f s
  | .ssel f => Sys2Proof.Machine.execSsel f s
  | .sli f => Sys2Proof.Machine.execSli f s
  | .sfadd f => Sys2Proof.Machine.execSfadd f s
  | .sfmul f => Sys2Proof.Machine.execSfmul f s
  | .sffma f => Sys2Proof.Machine.execSffma f s
  | .sfcmp f => Sys2Proof.Machine.execSfcmp f s
  | .sfcvt f => Sys2Proof.Machine.execSfcvt f s
  | .jmp f => Sys2Proof.Machine.execJmp f s
  | .jc f => Sys2Proof.Machine.execJc f s
  | .jmpx f => Sys2Proof.Machine.execJmpx f s
  | .call f => Sys2Proof.Machine.execCall f s
  | .callx f => Sys2Proof.Machine.execCallx f s
  | .ret f => Sys2Proof.Machine.execRet f s
  | .endThread f => Sys2Proof.Machine.execEndThread f s
  | .nop f => Sys2Proof.Machine.execNop f s
  | .sld f => Sys2Proof.Machine.execSld f s
  | .sst f => Sys2Proof.Machine.execSst f s
  | .sread f => Sys2Proof.Machine.execSread f s
  | .swrite f => Sys2Proof.Machine.execSwrite f s
  | .trap f => Sys2Proof.Machine.execTrap f s
  | .tret f => Sys2Proof.Machine.execTret f s
  | .tretPark f => Sys2Proof.Machine.execTretPark f s
  | .mark f => Sys2Proof.Machine.execMark f s
  | .brk f => Sys2Proof.Machine.execBrk f s
  | .remap f => Sys2Proof.Machine.execRemap f s
  | .vadd f => Sys2Proof.Machine.execVadd f s
  | .vsub f => Sys2Proof.Machine.execVsub f s
  | .vmul f => Sys2Proof.Machine.execVmul f s
  | .vmulh f => Sys2Proof.Machine.execVmulh f s
  | .vmin f => Sys2Proof.Machine.execVmin f s
  | .vmax f => Sys2Proof.Machine.execVmax f s
  | .vmad f => Sys2Proof.Machine.execVmad f s
  | .vand f => Sys2Proof.Machine.execVand f s
  | .vor f => Sys2Proof.Machine.execVor f s
  | .vxor f => Sys2Proof.Machine.execVxor f s
  | .vandn f => Sys2Proof.Machine.execVandn f s
  | .vshl f => Sys2Proof.Machine.execVshl f s
  | .vshr f => Sys2Proof.Machine.execVshr f s
  | .vsar f => Sys2Proof.Machine.execVsar f s
  | .vabs f => Sys2Proof.Machine.execVabs f s
  | .vclz f => Sys2Proof.Machine.execVclz f s
  | .vpopc f => Sys2Proof.Machine.execVpopc f s
  | .vmov f => Sys2Proof.Machine.execVmov f s
  | .vbfx f => Sys2Proof.Machine.execVbfx f s
  | .vbfi f => Sys2Proof.Machine.execVbfi f s
  | .vcmp f => Sys2Proof.Machine.execVcmp f s
  | .vsel f => Sys2Proof.Machine.execVsel f s
  | .vaddc f => Sys2Proof.Machine.execVaddc f s
  | .vfadd f => Sys2Proof.Machine.execVfadd f s
  | .vfsub f => Sys2Proof.Machine.execVfsub f s
  | .vfmul f => Sys2Proof.Machine.execVfmul f s
  | .vffma f => Sys2Proof.Machine.execVffma f s
  | .vfmin f => Sys2Proof.Machine.execVfmin f s
  | .vfmax f => Sys2Proof.Machine.execVfmax f s
  | .vfcmp f => Sys2Proof.Machine.execVfcmp f s
  | .vrcp f => Sys2Proof.Machine.execVrcp f s
  | .vsqrt f => Sys2Proof.Machine.execVsqrt f s
  | .vrsq f => Sys2Proof.Machine.execVrsq f s
  | .vexp2 f => Sys2Proof.Machine.execVexp2 f s
  | .vlog2 f => Sys2Proof.Machine.execVlog2 f s
  | .vsin f => Sys2Proof.Machine.execVsin f s
  | .vcos f => Sys2Proof.Machine.execVcos f s
  | .vfclass f => Sys2Proof.Machine.execVfclass f s
  | .vcvt f => Sys2Proof.Machine.execVcvt f s
  | .plog f => Sys2Proof.Machine.execPlog f s
  | .pmov f => Sys2Proof.Machine.execPmov f s
  | .pcnt f => Sys2Proof.Machine.execPcnt f s
  | .vshf f => Sys2Proof.Machine.execVshf f s
  | .vshfi f => Sys2Proof.Machine.execVshfi f s
  | .vbcast f => Sys2Proof.Machine.execVbcast f s
  | .vrfl f => Sys2Proof.Machine.execVrfl f s
  | .vwlane f => Sys2Proof.Machine.execVwlane f s
  | .vballot f => Sys2Proof.Machine.execVballot f s
  | .vvote f => Sys2Proof.Machine.execVvote f s
  | .vred f => Sys2Proof.Machine.execVred f s
  | .vscan f => Sys2Proof.Machine.execVscan f s
  | .brv f => Sys2Proof.Machine.execBrv f s
  | .join f => Sys2Proof.Machine.execJoin f s
  | .wend f => Sys2Proof.Machine.execWend f s
  | .vunpk f => Sys2Proof.Machine.execVunpk f s
  | .vpack f => Sys2Proof.Machine.execVpack f s
  | .vld f => Sys2Proof.Machine.execVld f s
  | .vst f => Sys2Proof.Machine.execVst f s
  | .lds f => Sys2Proof.Machine.execLds f s
  | .sts f => Sys2Proof.Machine.execSts f s
  | .stm f => Sys2Proof.Machine.execStm f s
  | .vlds f => Sys2Proof.Machine.execVlds f s
  | .vatom f => Sys2Proof.Machine.execVatom f s
  | .satom f => Sys2Proof.Machine.execSatom f s
  | .fence f => Sys2Proof.Machine.execFence f s
  | .align f => Sys2Proof.Machine.execAlign f s
  | .prefetch f => Sys2Proof.Machine.execPrefetch f s
  | .discard f => Sys2Proof.Machine.execDiscard f s
  | .pin f => Sys2Proof.Machine.execPin f s
  | .unpin f => Sys2Proof.Machine.execUnpin f s
  | .waitv f => Sys2Proof.Machine.execWaitv f s
  | .trec f => Sys2Proof.Machine.execTrec f s
  | .tcopy f => Sys2Proof.Machine.execTcopy f s
  | .kwait f => Sys2Proof.Machine.execKwait f s
  | .kjoin f => Sys2Proof.Machine.execKjoin f s
  | .gset f => Sys2Proof.Machine.execGset f s
  | .garr f => Sys2Proof.Machine.execGarr f s
  | .gwait f => Sys2Proof.Machine.execGwait f s
  | .gsync f => Sys2Proof.Machine.execGsync f s
  | .yield f => Sys2Proof.Machine.execYield f s
  | .fset f => Sys2Proof.Machine.execFset f s
  | .mbld f => Sys2Proof.Machine.execMbld f s
  | .mma f => Sys2Proof.Machine.execMma f s
  | .mclr f => Sys2Proof.Machine.execMclr f s
  | .mst f => Sys2Proof.Machine.execMst f s
  | .mlat f => Sys2Proof.Machine.execMlat f s
  | .jld f => Sys2Proof.Machine.execJld f s
  | .treg f => Sys2Proof.Machine.execTreg f s
  | .tdrop f => Sys2Proof.Machine.execTdrop f s
  | .tfind f => Sys2Proof.Machine.execTfind f s
  | .tmove f => Sys2Proof.Machine.execTmove f s
  | .solicit f => Sys2Proof.Machine.execSolicit f s
  | .answer f => Sys2Proof.Machine.execAnswer f s
  | .cwait f => Sys2Proof.Machine.execCwait f s
  | .post f => Sys2Proof.Machine.execPost f s
  | .rnext f => Sys2Proof.Machine.execRnext f s
  | .qbind f => Sys2Proof.Machine.execQbind f s
  | .creduce f => Sys2Proof.Machine.execCreduce f s
  | .xmodeB f => Sys2Proof.Machine.execXmodeB f s
  | .xmodeBMx f => Sys2Proof.Machine.execXmodeBMx f s
  | .xmodeS f => Sys2Proof.Machine.execXmodeS f s
  | .xmov f => Sys2Proof.Machine.execXmov f s
  | .xbcast f => Sys2Proof.Machine.execXbcast f s
  | .loop f => Sys2Proof.Machine.execLoop f s
  | .lexit f => Sys2Proof.Machine.execLexit f s
  | .bundleIssue words => Sys2Proof.Machine.execBundleIssue words s
  | .operationLands w k => Sys2Proof.Machine.execOperationLands w k s
  | .regionCommit w => Sys2Proof.Machine.execRegionCommit w s
  | .subwaveAged w x => Sys2Proof.Machine.execSubwaveAged w x s
  | .watchdog w => Sys2Proof.Machine.execWatchdog w s
  | .xmodeConvert w => Sys2Proof.Machine.execXmodeConvert w s
  | .returnDrainEnd w => Sys2Proof.Machine.execReturnDrainEnd w s
  | .endingDrainEnd w => Sys2Proof.Machine.execEndingDrainEnd w s
  | .trapEntry w => Sys2Proof.Machine.execTrapEntry w s
  | .bundleTrapDrainEnd w => Sys2Proof.Machine.execBundleTrapDrainEnd w s
  | .callxWake w x => Sys2Proof.Machine.execCallxWake w x s
  | .callxReread w x => Sys2Proof.Machine.execCallxReread w x s
  | .waitvWake w x => Sys2Proof.Machine.execWaitvWake w x s
  | .loadPerformed w k => Sys2Proof.Machine.execLoadPerformed w k s
  | .storePerformed w k => Sys2Proof.Machine.execStorePerformed w k s
  | .atomicPerformed w k => Sys2Proof.Machine.execAtomicPerformed w k s
  | .gapLimit ctx gap => Sys2Proof.Machine.execGapLimit ctx gap s
  | .engineBegin k => Sys2Proof.Machine.execEngineBegin k s
  | .tcopyChunk k chunk => Sys2Proof.Machine.execTcopyChunk k chunk s
  | .vldsComplete k => Sys2Proof.Machine.execVldsComplete k s
  | .matrixComplete k => Sys2Proof.Machine.execMatrixComplete k s
  | .kwaitComplete w x => Sys2Proof.Machine.execKwaitComplete w x s
  | .gateWaitComplete w x => Sys2Proof.Machine.execGateWaitComplete w x s
  | .yieldResume w => Sys2Proof.Machine.execYieldResume w s
  | .channelEntryArrive core ch entry => Sys2Proof.Machine.execChannelEntryArrive core ch entry s
  | .tmoveReservation k => Sys2Proof.Machine.execTmoveReservation k s
  | .tmoveReply k => Sys2Proof.Machine.execTmoveReply k s
  | .tmoveHandoff k => Sys2Proof.Machine.execTmoveHandoff k s
  | .tmoveCopy k => Sys2Proof.Machine.execTmoveCopy k s
  | .tmoveArrival k => Sys2Proof.Machine.execTmoveArrival k s
  | .tmoveComplete k => Sys2Proof.Machine.execTmoveComplete k s
  | .tmoveAbort k => Sys2Proof.Machine.execTmoveAbort k s
  | .tileAreaWithdraw ctx core => Sys2Proof.Machine.execTileAreaWithdraw ctx core s
  | .censusStamp k => Sys2Proof.Machine.execCensusStamp k s
  | .solicitAccept core => Sys2Proof.Machine.execSolicitAccept core s
  | .responderSpawn core => Sys2Proof.Machine.execResponderSpawn core s
  | .responderLimit w => Sys2Proof.Machine.execResponderLimit w s
  | .coreAnswer core stamp => Sys2Proof.Machine.execCoreAnswer core stamp s
  | .censusComplete stamp => Sys2Proof.Machine.execCensusComplete stamp s
  | .peerTimeout stamp => Sys2Proof.Machine.execPeerTimeout stamp s
  | .emptyRecord ctx => Sys2Proof.Machine.execEmptyRecord ctx s
  | .unknownRecord ctx => Sys2Proof.Machine.execUnknownRecord ctx s
  | .launchRecord ctx => Sys2Proof.Machine.execLaunchRecord ctx s
  | .cohortPlace launch => Sys2Proof.Machine.execCohortPlace launch s
  | .launchComplete launch => Sys2Proof.Machine.execLaunchComplete launch s
  | .jobCard ctx posted => Sys2Proof.Machine.execJobCard ctx posted s
  | .cardStart card => Sys2Proof.Machine.execCardStart card s
  | .rangeCard ctx posted => Sys2Proof.Machine.execRangeCard ctx posted s
  | .ask core ctx => Sys2Proof.Machine.execAsk core ctx s
  | .preemptLimit w => Sys2Proof.Machine.execPreemptLimit w s
  | .park w => Sys2Proof.Machine.execPark w s
  | .placeParked cohort => Sys2Proof.Machine.execPlaceParked cohort s
  | .migrationRequest quad => Sys2Proof.Machine.execMigrationRequest quad s
  | .throttle105 quad => Sys2Proof.Machine.execThrottle105 quad s
  | .trip115 quad => Sys2Proof.Machine.execTrip115 quad s
  | .thermalClear quad celsius => Sys2Proof.Machine.execThermalClear quad celsius s
  | .powerLimit on => Sys2Proof.Machine.execPowerLimit on s
  | .peerAccessLimit w k => Sys2Proof.Machine.execPeerAccessLimit w k s
  | .pyzanLoad fr op => Sys2Proof.Machine.execPyzanLoad fr op s
  | .pyzanStore fr => Sys2Proof.Machine.execPyzanStore fr s
  | .pyzanAtomic fr op => Sys2Proof.Machine.execPyzanAtomic fr op s
  | .pyzanResponse fr => Sys2Proof.Machine.execPyzanResponse fr s
  | .pyzanAcknowledgement fr => Sys2Proof.Machine.execPyzanAcknowledgement fr s
  | .pyzanSolicit fr => Sys2Proof.Machine.execPyzanSolicit fr s
  | .pyzanCensusAnswer fr => Sys2Proof.Machine.execPyzanCensusAnswer fr s
  | .pyzanCollective fr => Sys2Proof.Machine.execPyzanCollective fr s
  | .pyzanResend dst seq => Sys2Proof.Machine.execPyzanResend dst seq s
  | .nonPyzanFrame port => Sys2Proof.Machine.execNonPyzanFrame port s
  | .collectiveLimit k => Sys2Proof.Machine.execCollectiveLimit k s
  | .foghorn k => Sys2Proof.Machine.execFoghorn k s
  | .packageReset image => Sys2Proof.Machine.execPackageReset image s
  | .memoryTraining ok => Sys2Proof.Machine.execMemoryTraining ok s
  | .linkTraining port ok => Sys2Proof.Machine.execLinkTraining port ok s
  | .linkRetry => Sys2Proof.Machine.execLinkRetry s
  | .openSession p => Sys2Proof.Machine.execOpenSession p s
  | .status p => Sys2Proof.Machine.execStatus p s
  | .attest p => Sys2Proof.Machine.execAttest p s
  | .ctxSet p t => Sys2Proof.Machine.execCtxSet p t s
  | .streamWrite p => Sys2Proof.Machine.execStreamWrite p s
  | .invalidate p => Sys2Proof.Machine.execInvalidate p s
  | .preempt p => Sys2Proof.Machine.execPreempt p s
  | .coreSave p => Sys2Proof.Machine.execCoreSave p s
  | .coreRestore p => Sys2Proof.Machine.execCoreRestore p s
  | .gapAnswer p => Sys2Proof.Machine.execGapAnswer p s
  | .keyLoad p => Sys2Proof.Machine.execKeyLoad p s
  | .keyRetire p => Sys2Proof.Machine.execKeyRetire p s
  | .partitionSet p => Sys2Proof.Machine.execPartitionSet p s
  | .grantSetHost p => Sys2Proof.Machine.execGrantSetHost p s
  | .grantSetInbound p => Sys2Proof.Machine.execGrantSetInbound p s
  | .grantSetRoute p => Sys2Proof.Machine.execGrantSetRoute p s
  | .grantSetRank p => Sys2Proof.Machine.execGrantSetRank p s
  | .debugWrite p r => Sys2Proof.Machine.execDebugWrite p r s
  | .debugRead p r => Sys2Proof.Machine.execDebugRead p r s
  | .stop p => Sys2Proof.Machine.execStop p s
  | .step p => Sys2Proof.Machine.execStep p s
  | .resume p => Sys2Proof.Machine.execResume p s
  | .unknownCommand opcode p => Sys2Proof.Machine.execUnknownCommand opcode p s
  | .uncorrectableError e => Sys2Proof.Machine.execUncorrectableError e s

end Sys2Proof.Machine
end

