-- ==== Sys2Proof/Machine/Sched.lean ====
section
/-! DEFINITION. Which step of the device comes next: the steps whose moment has come, the steps that may take place, the issue of the sections (R134 to R137, R190), and the end of a cycle (R34). -/

namespace Sys2Proof.Machine

/-- The next state that a step of the device leads to, where it is enabled. -/
def runStep (s : State) (i : Instr) : Option State :=
  match exec i s with
  | .next t => some t
  | _ => none

/-- The first enabled step of a list. -/
def firstRun (s : State) (l : List Instr) : Option State := l.findSome? (runStep s)

/-- A free choice of the current step among n. -/
def pick (s : State) (tag n : Nat) : Nat := free s (2 ^ 60 + tag) % n

/-- The inputs that have come and can take effect, each with the state after it; `past` for those of earlier cycles only (log 3, DESIGN CHOICE). -/
def inputRuns (s : State) (past : Bool) : List State :=
  s.inputs.zipIdx.filterMap (fun e =>
    if decide (e.1.1 < s.clock) || (!past && decide (e.1.1 = s.clock)) || s.heat.tripped then runStep { s with inputs := s.inputs.eraseIdx e.2 } e.1.2 else none)

/-- A list from a place of it on, then what stands before. -/
def rotated {α : Type} (l : List α) (k : Nat) : List α :=
  match l with
  | [] => []
  | [a] => [a]
  | l => l.drop (k % l.length) ++ l.take (k % l.length)

/-- A step where a condition holds. -/
def given (b : Bool) (i : Instr) : List Instr := if b then [i] else []

/-- The steps of a waiting sub-wave: what it waits for has come, or its next read (R108, R278, R279, R309, R312). -/
def subSteps (w : Nat) (u : Nat × Sub) : List Instr :=
  match u.2.hold with
  | .kwait _ _ => [.kwaitComplete w u.1]
  | .gate _ _ _ => [.gateWaitComplete w u.1]
  | .callx _ _ _ _ => [.callxWake w u.1, .callxReread w u.1]
  | .waitv _ => [.waitvWake w u.1]
  | _ => []

/-- The steps of a wave that take place as soon as they can: ends of waits, traps held for it, parking, conversion, commits, landings at their bound in a free order (R192), limits (R108, R185, R191, R205, R279, R309, R312, R316, R355, R391, R392, R398, R402, R405, R406). -/
def waveDue (s : State) (e : Nat × Wave) : List Instr :=
  List.flatten
    [(e.2.subs.map (subSteps e.1)).flatten, given e.2.bun.gsyncHold.isSome (.gateWaitComplete e.1 rootSub), given e.2.yield_.isSome (.yieldResume e.1),
     given e.2.async.isSome (.watchdog e.1), given (!e.2.held.isEmpty) (.trapEntry e.1), given e.2.preemptAt.isSome (.preemptLimit e.1), given e.2.parkReq.isSome (.park e.1),
     given (match e.2.phase with | .converting t => decide (t ≤ s.clock) | _ => false) (.xmodeConvert e.1), given (!e.2.bun.regions.isEmpty) (.regionCommit e.1),
     rotated ((e.2.bun.flights.zipIdx.filter (fun f => !f.1.landed && decide (f.1.due ≤ s.clock))).map (fun f => Instr.operationLands e.1 f.2)) (free s (2 ^ 60 + 2 + e.1)),
     given e.2.isResponder (.responderLimit e.1), (e.2.accs.filter (fun a => decide (0 < a.need) || decide (a.stage = 1))).map (fun a => Instr.peerAccessLimit e.1 a.id)]

/-- The steps that the accesses of a wave with numbers below one may take. -/
def accSteps (w : Nat) (v : Wave) (mark : Nat) : List Instr :=
  ((v.accs.filter (fun a => decide (a.id < mark))).map (fun a => [Instr.loadPerformed w a.id, .storePerformed w a.id, .atomicPerformed w a.id])).flatten

/-- The steps of an engine instruction whose moment has come: a matrix instruction of a bundle at its bounds, an arrival whose release has effect, a registration at its bound with the stores before it, the limit of a collective (R193, R313, R336, R343, R454) (log 49, DEDUCED). -/
def engDue (s : State) (e : Nat × EngOp) : List Instr :=
  match e.2.pay with
  | .mx m => if m.inp.isSome && (mxDue e.2 m).any (fun t => decide (t ≤ s.clock)) then [.matrixComplete e.1] else []
  | .arr _ _ => [.engineBegin e.1]
  | .reg _ _ _ _ => if e.2.issue + 32 ≤ s.clock then .engineBegin e.1 :: (match waveAt s e.2.wave with | some v => accSteps e.2.wave v e.2.mark | none => []) else []
  | .coll _ => [.collectiveLimit e.1]
  | _ => []

/-- The entries of a core's channels on their way. -/
def chanSteps (s : State) (due : Bool) (c : Nat × Core) : List Instr :=
  (c.2.chans.map (fun h => h.2.filterMap (fun x => if x.val.isSome && !x.arrived && (!due || decide (x.due ≤ s.clock)) then some (.channelEntryArrive c.1 h.1 x.id) else none))).flatten

/-- R376: whether the start of a class-0 job card is due: a section of its core that its context reserves has room for it, 800 cycles are over, the quad is not at half rate (R442). -/
def cardDue (s : State) (c : Card) : Bool :=
  decide (c.cls = 0) && c.range.isNone && c.since.any (fun t => decide (t + 799 ≤ s.clock)) && c.core.any (fun core => !(decide (quadOf (physCore s core) ∈ s.heat.half))
    && (List.range 4).any (fun k => decide ((core, k) ∈ (ctxAt s c.ctx).t.class0) && (decide (k = c.sect) || decide (k ∈ cardSects s c core))))

/-- R449: a held frame as the step that performs it. -/
def rxInstr (x : RxFrame) : Instr :=
  match x.ty with
  | 1 => .pyzanLoad x.fr x.op
  | 2 => .pyzanStore x.fr
  | 3 => .pyzanAtomic x.fr x.op
  | 4 => .pyzanResponse x.fr
  | 5 => .pyzanAcknowledgement x.fr
  | 6 => .pyzanSolicit x.fr
  | 7 => .pyzanCensusAnswer x.fr
  | _ => .pyzanCollective x.fr

/-- R449, R477: the frames of the host's series behind a gap that a command has closed. -/
def hostDue (s : State) : List Instr := (s.net.held.filter (fun x => decide (x.fr.src = hostRank) && decide (x.fr.seq = cmdNext s))).map rxInstr

/-- The steps whose moment has come: they come before any other (log 83, DESIGN CHOICE; log 85, DESIGN CHOICE). -/
def dueSteps (s : State) : List Instr :=
  (s.waves.map (waveDue s)).flatten
    ++ (s.eng.map (engDue s)).flatten
    ++ (s.cores.map (chanSteps s true)).flatten
    ++ (s.fogs.zipIdx.filterMap (fun f => if f.1.cycle + 64 ≤ s.clock then some (.foghorn f.2) else none))
    ++ (s.ctxs.map (fun c => c.2.gaps.map (fun g => Instr.gapLimit c.1 g.1))).flatten
    ++ (s.censuses.filterMap (fun c => if c.peers.isEmpty then none else some (.peerTimeout c.so.stamp)))
    ++ (s.net.tx.filterMap (fun t => if t.sent + Config.resendCycles ≤ s.clock then some (.pyzanResend t.fr.dst t.fr.seq) else none))
    ++ (s.cards.filterMap (fun c => if cardDue s c.2 then some (.cardStart c.1) else none))
    ++ hostDue s ++ (if s.boot.retry.isSome then [.linkRetry] else [])

/-- The steps of a wave that may take place: its accesses, its results. -/
def waveSteps (e : Nat × Wave) : List Instr :=
  accSteps e.1 e.2 e.2.nextAcc ++ (List.range e.2.bun.flights.length).map (Instr.operationLands e.1)

/-- The steps of an engine instruction that may take place. -/
def engSteps (e : Nat × EngOp) : List Instr :=
  Instr.engineBegin e.1 :: (match e.2.pay with
    | .tcopy st r goff _ _ _ => (chunks st r goff).map (Instr.tcopyChunk e.1)
    | .vlds _ _ _ _ => [.vldsComplete e.1]
    | .mx _ => [.matrixComplete e.1]
    | .move _ => [.tmoveReservation e.1, .tmoveReply e.1, .tmoveHandoff e.1, .tmoveCopy e.1, .tmoveArrival e.1, .tmoveComplete e.1, .tmoveAbort e.1]
    | _ => [])

/-- The steps of the censuses: stamping, acceptance, responders, answers (R350 to R358). -/
def censusSteps (s : State) : List Instr :=
  (List.range s.censuses.length).map Instr.censusStamp
    ++ (if s.solicits.isEmpty then [] else (List.range 320).map Instr.solicitAccept)
    ++ (s.cores.filterMap (fun c => if c.2.matches_.isEmpty then none else some (.responderSpawn c.1)))
    ++ (s.censuses.map (fun c => c.accepted.map (fun p => Instr.coreAnswer p c.so.stamp))).flatten
    ++ (s.censuses.filterMap (fun c => if c.stamped then some (.censusComplete c.so.stamp) else none))

/-- The steps of a context's command stream and posts (R361, R377). -/
def streamSteps (c : Nat × Ctx) : List Instr :=
  (if c.2.readIdx = c.2.writeIdx then [] else [.emptyRecord c.1, .unknownRecord c.1, .launchRecord c.1, .jobCard c.1 false, .rangeCard c.1 false])
    ++ (if c.2.posts.isEmpty then [] else [.jobCard c.1 true, .rangeCard c.1 true])

/-- The steps of the dispatchers (R361 to R375, R407). -/
def dispatchSteps (s : State) : List Instr :=
  (s.ctxs.map streamSteps).flatten
    ++ (s.launches.map (fun l => [Instr.cohortPlace l.1, .launchComplete l.1])).flatten
    ++ (s.cards.map (fun c => Instr.cardStart c.1))
    ++ (s.ctxs.map (fun c => if (askCandidates s c.1).isEmpty then [] else (List.range 320).map (fun k => Instr.ask k c.1))).flatten
    ++ (s.parked.map (fun p => Instr.placeParked p.1))

/-- The steps that may take place (log 83, DESIGN CHOICE; log 92, DESIGN CHOICE). -/
def freeSteps (s : State) : List Instr :=
  (s.waves.map waveSteps).flatten ++ (s.eng.map engSteps).flatten ++ (s.cores.map (chanSteps s false)).flatten ++ censusSteps s ++ dispatchSteps s ++ (List.range s.fogs.length).map Instr.foghorn

/-- The states that the enabled ones of these steps, and the inputs of this cycle, lead to. -/
def freeRuns (s : State) : List State := (freeSteps s).filterMap (runStep s) ++ inputRuns s false

/-- R222: the core's TLB has served a fetch, and the fetch of the next page where the words reach it. -/
def fetchServed (s : State) (v : Wave) (pc n : Nat) : State :=
  coreServed s (physCore s v.core) v.ctx ((pc, fetchTag pc) :: (if pc / 4096 = (pc + 8 * n - 8) / 4096 then [] else [(pc + 8 * n - 8, fetchTag (pc + 8 * n - 8))]))

/-- The words that what is fetched takes. -/
def fetchLen (i : Instr) : Nat :=
  match i with
  | .bundleIssue ws => ws.length
  | i => instrLen i / 8

/-- R41: whether an earlier instruction of a wave has results that are not written. -/
def resultsDue (v : Wave) : Bool := v.accs.any (fun a => !a.kind.dsts.isEmpty) || !v.owed.isEmpty

/-- R41, R134, R478: sub-wave `x` of wave `w` executes what it fetches, or asks a peer or the host for a word of it; FETCH_BOUNDS comes once every earlier instruction has written its results. -/
def attempt (s : State) (w x : Nat) (v : Wave) (u : Sub) : Out :=
  match fetchNext s w x v u with
  | .away l => nextOf s (winAsk s (.code w) v.ctx v.core l)
  | .run i => exec i { fetchServed s v u.pc.toNat (fetchLen i) with cur := some (w, x) }
  | .fault t g => if v.phase = .simt ∧ t.cause = .fetchBounds ∧ resultsDue v = true then nextOf s s
    else if v.phase = .bundle then bundleCur { s with cur := some (w, x) } (fun _ _ _ => nextOf s (fetchFault s w x v u t g)) else nextOf s (fetchFault s w x v u t g)

/-- R134, R190: whether a fetch misses the instruction cache: freely, but for a thread's first (log 84, DEDUCED). -/
def fetchMiss (s : State) (w x : Nat) (v : Wave) : Bool := decide (0 < v.retired) && freeBool s (2 ^ 61 + 64 * w + x)

/-- R442, R485: whether a core of a quad at half rate issues nothing in this cycle (log 82, DEDUCED). -/
def throttled (s : State) (v : Wave) : Bool := (s.heat.power || decide (quadOf (physCore s v.core) ∈ s.heat.half)) && decide (s.clock % 2 = 1)

/-- Whether the wave is as it was: what was executed has not issued, nor trapped, nor begun to wait, nor asked for anything (R478). -/
def sameWave (s t : State) (w : Nat) : Bool :=
  match waveAt s w, waveAt t w with
  | some a, some b => !(stepTaken a b) && decide (a = b) && decide (t.net.reads.length = s.net.reads.length)
  | _, _ => false

/-- R391: whether a sub-wave has entered its handler before an instruction of another one has completed (log 105, DEDUCED). -/
def trapEarly (t : State) (w x : Nat) (v : Wave) : Bool := v.handler.isNone && v.othersOut x && (waveAt t w).any (·.inHandler)

/-- R134: the state after sub-wave `x` of wave `w` executes its next instruction or bundle, where it is ready. -/
def tryIssue (s : State) (w x : Nat) : Option State :=
  match waveAt s w with
  | none => none
  | some v =>
    match tblFind v.subs x with
    | none => none
    | some u =>
      if (mayIssue v u || (mayBundle v && decide (u.hold = .run))) && !(throttled s v) && !(fetchMiss s w x v) then
        match attempt s w x v u with
        | .next t => if sameWave s t w || trapEarly t w x v then none else some t
        | _ => none
      else none

/-- A sub-wave that is ready, with the state after it executes. -/
structure Ready where
  w : Nat
  x : Nat
  started : Nat
  place : Nat
  lane : Nat
  aged : Bool
  t : State
  deriving DecidableEq, Repr

/-- The ready sub-waves of a wave. -/
def readyOf (s : State) (e : Nat × Wave) : List Ready :=
  e.2.subs.filterMap (fun u => (tryIssue s e.1 u.1).map (fun t => { w := e.1, x := u.1, started := e.2.started, place := e.2.place, lane := lowestLane u.2.mask, aged := decide (1024 ≤ u.2.aged), t := t }))

/-- The ready sub-waves of a section of a physical core. -/
def sectReady (s : State) (p k : Nat) : List Ready :=
  ((s.waves.filter (fun e => decide (physCore s e.2.core = p) && decide (e.2.sect = k))).map (readyOf s)).flatten

/-- R135: whether a sub-wave is older than another. -/
def Ready.older (a b : Ready) : Bool :=
  decide (a.started < b.started) || (decide (a.started = b.started) && (decide (a.place < b.place) || (decide (a.place = b.place) && decide (a.lane < b.lane))))

/-- R135: the oldest of a list. -/
def oldest : List Ready → Option Ready
  | [] => none
  | a :: r => some (r.foldl (fun m b => if b.older m then b else m) a)

/-- R135: the sub-wave that a section picks. -/
def pickReady (s : State) (p k : Nat) (l : List Ready) : Option Ready :=
  match oldest (l.filter (·.aged)) with
  | some r => some r
  | none =>
    match (tblGet {} (coreAt s p).sects k).last with
    | some (w, x) => (l.find? (fun r => decide (r.w = w) && decide (r.x = x))).or (oldest l)
    | none => oldest l

/-- R136: the ready sub-waves that were not picked count the cycle; one that reaches 1,024 ages in the step that follows. -/
def ageOthers (t : State) (l : List Ready) : State :=
  l.foldl (fun t r =>
    match (waveAt t r.w).bind (fun v => tblFind v.subs r.x) with
    | none => t
    | some u =>
      if u.aged < 1023 then modWave t r.w (fun v => v.modSub r.x (fun u => { u with aged := u.aged + 1 }))
      else if u.aged = 1023 then { t with agenda := t.agenda ++ [.subwaveAged r.w r.x] }
      else t) t

/-- Whether a section has issued in this cycle. -/
def sectIssued (s : State) (p k : Nat) : Bool := decide ((tblGet {} (coreAt s p).sects k).issuedAt = some s.clock)

/-- R135 to R137, R422: the state after a section's pick has executed: the section is done for the cycle, a step command has its end, the others that were ready age, also where the pick trapped or began to wait (log 84, DEDUCED). -/
def afterIssue (s : State) (p k : Nat) (r : Ready) (l : List Ready) : State :=
  let t := ageOthers (if sectIssued r.t p k then r.t else modSect r.t p k (fun c => { c with issuedAt := some s.clock })) (l.filter (fun x => !(decide (x.w = r.w) && decide (x.x = r.x))))
  stepEnd s t r.w

/-- The sections that hold waves and have not issued in this cycle: physical core and section. -/
def openSects (s : State) : List (Nat × Nat) :=
  (nub (s.waves.map (fun e => 4 * physCore s e.2.core + e.2.sect))).map (fun n => (n / 4, n % 4)) |>.filter (fun c => !(sectIssued s c.1 c.2))

/-- R135: what the sections that have a ready sub-wave come to, each on its own (log 84, DEDUCED). -/
def issues_ (s : State) : List State :=
  (openSects s).filterMap (fun c => let l := sectReady s c.1 c.2; (pickReady s c.1 c.2 l).map (fun r => finish r.t (afterIssue s c.1 c.2 r l)))

/-- The drains that end with the cycle (R187, R188, R400). -/
def drainSteps (s : State) : List Instr :=
  s.waves.filterMap (fun e => match e.2.phase with
    | .ret _ | .tretDrain _ => some (.returnDrainEnd e.1)
    | .ending => some (.endingDrainEnd e.1)
    | .drain _ _ => some (.bundleTrapDrainEnd e.1)
    | _ => none)

/-- R422: the steps of stepped threads that a drain has ended (log 70, DEDUCED). -/
def stepEnds (s t : State) : State := (tblKeys s.waves).foldl (stepEnd s) t

/-- R419, R420: what an event whose cycle ends remembers: how much each wave of its context has issued. -/
def fogBase (s : State) (f : Fog) : Fog :=
  if f.cycle = s.clock then { f with base := s.waves.filterMap (fun e => if e.2.ctx = f.ctx then some (e.1, e.2.retired) else none) } else f

/-- R190, R429: a cycle in which a bundle thread is held back: for a port, a wait of its `cp` slot, a `gsync`, a fetch or its claim, and not for its quad's half rate or the 16 cycles after a return (log 65, DEDUCED). -/
def stallCount (s : State) (v : Wave) : Wave :=
  if (mayBundle v && !(throttled s v) && decide (v.bun.firstAt ≤ s.clock) && !(sectIssued s (physCore s v.core) v.sect)) = true then { v with bun := { v.bun with counters := addCounts v.bun.counters [(16 * v.bun.loops.length + 1, 1)] } }
  else v

/-- R191: the results that need no longer be remembered in a cycle. -/
def dropLanded (clock : Nat) (v : Wave) : Wave :=
  if v.bun.flights.isEmpty then v else { v with bun := { v.bun with flights := v.bun.flights.filter (fun f => !f.landed || decide (clock < f.due)) } }

/-- R371, R376: a card at the end of a cycle: since when it is ready. -/
def cardSince (s : State) (c : Card) : Card := { c with since := if c.core.any (cardReady s c) then c.since.or (some s.clock) else none }

/-- R34: the end of a cycle (log 83, DESIGN CHOICE). -/
def tick (s : State) : State :=
  let s := tracesOut s
  let s1 := { s with fogs := s.fogs.map (fogBase s), cards := s.cards.map (fun c => (c.1, cardSince s c.2)), waves := s.waves.map (fun e => (e.1, dropLanded (s.clock + 1) (stallCount s e.2))), clock := s.clock + 1 }
  stoppedShift s1 1

/-- R406: the cores that contexts with parked cohorts have left, and the parked cohorts whose last resident wave has ended. -/
def parkAll (s : State) : State := (tblKeys s.parked).foldl parkCohort (leaveCores s)

/-- Whether something may follow a step at once. -/
def untidy (t : State) : Bool := decide (t.net.told < t.out.length) || !(t.parked.isEmpty && t.host.waiting.isNone && t.waves.all (fun e => e.2.accs.isEmpty && !e.2.ended))

/-- What follows a step at once: markers and releases of the queues, places of waves that have drained, records of cohorts that are parked whole, the answer of a command that waits, what goes out to the host (R132, R250, R310, R406, R477, R484). -/
def tidy (t : State) : State := if untidy t then finish t (hostSend (hostSettle (parkAll (settle t)))) else t

/-- The step taken among those that may take place, if any is (log 83, DESIGN CHOICE; log 92, DESIGN CHOICE). -/
def chosen (s : State) (l : List State) : Option State := if l.isEmpty then none else l[pick s 0 (2 * l.length)]?

/-- The issue taken, where a section has a ready sub-wave (log 83, DESIGN CHOICE). -/
def chosenIssue (s : State) (l : List State) : Option State :=
  match l with
  | [] => none
  | [t] => some t
  | l => l[pick s 1 l.length]?

/-- The step of a device whose clocks run: what is due, then freely what may take place, then the sections, then the drains, then the end of the cycle (log 83, DESIGN CHOICE; log 92, DESIGN CHOICE). -/
def runDevice (s : State) : State :=
  match ((inputRuns s true).head?.or (cmdRun s)).or (firstRun s (dueSteps s)) with
  | some t => t
  | none =>
    match chosen s (freeRuns s) with
    | some t => t
    | none =>
      match (chosenIssue s (issues_ s)).or ((firstRun s (drainSteps s)).map (stepEnds s)) with
      | some t => t
      | none => finish s (tick s)

/-- One step of the device: what the agenda names; after a trip only what comes from outside (log 3, DESIGN CHOICE). -/
def nextState (s : State) : State :=
  match s.agenda with
  | i :: r => (runStep { s with agenda := r } i).getD (finish s { s with agenda := r })
  | [] => if s.heat.tripped then (inputRuns s true).headD (finish s s) else runDevice s

/-- R210: a listed byte at a reserved address (log 45, DESIGN CHOICE). -/
def strayByte (s : State) : Option Nat := (s.mem.find? (fun c => !(inDevice c.1))).map (·.1)

end Sys2Proof.Machine
end

