-- ==== Sys2Proof/Machine/Load.lean ====
section
/-! DEFINITION. The state in which the next step fetches and runs a given word: it stands for the load of a kernel by a launch (log 46). -/

namespace Sys2Proof.Machine

/-- The kernel whose first word is the given one: its header would lie at 0x4000, its code region is 16 words from 0x4008 (log 46, DESIGN CHOICE). -/
def loadKernel : Kernel := { h := 0x4000, vregs := 31, conv := true, mtx := true, codeLen := 16 }

/-- The words placed: the word with the one that follows it, or for an instruction that only a bundle holds the header of a bundle with that one word. -/
def loadWords (w0 w1 : Word) : Bool × List Word :=
  match firstAccepted tableEnvs w0 w1 with
  | some (e, _) =>
    match e.slot with
    | none => (false, [w0, w1])
    | some sl =>
      (true, [encodeHeader { lanes := if sl = .ln then BitVec.allOnes 32 else 0, psc := decide (sl = .sc), pmx := decide (sl = .mx), pcp := decide (sl = .cp), pxq := decide (sl = .xq), spread := decide (sl = .ln), latch := 0, len := 2, stamp := 0, ver := 1 }, w0])
  | none => (false, [w0, w1])

/-- The tables that map the first GiB onto itself with every permission (R216, R218): root at 0x1000, level 3 at 0x2000, a level-2 leaf at 0x3000. -/
def loadTables : List Host.Cell := [(0x1000, 0x01), (0x1001, 0x20), (0x2000, 0x01), (0x2001, 0x30), (0x3000, 0x1F)]

/-- The bytes of words from an address on. -/
def wordCells (a : Nat) : List Word → List Host.Cell
  | [] => []
  | w :: r => (leBytes 8 w.toNat).zipIdx.map (fun b => (a + b.2, b.1)) ++ wordCells (a + 8) r

/-- The machine with one wave of context 0 at 0x4008, in SIMT code or as a bundle thread, about to fetch the word numbered `w` (log 46, DESIGN CHOICE). -/
def loadWord (s : State) (nbits w : Nat) : State :=
  let v := w % 2 ^ nbits
  let l := loadWords (BitVec.ofNat 64 v) (BitVec.ofNat 64 (v / 2 ^ 64))
  let s1 := { s with agenda := [], inputs := [], boot := { s.boot with st := .ready }, ctxs := [(0, { t := { root := 0x1000, tvec := 0x4040 } })], mem := memApply s.mem (wordCells 0x4008 l.2 ++ loadTables) }
  let u := startWave s1 0 0 0 0 loadKernel s1.mem (BitVec.allOnes 32) [] 0
  { s1 with waves := [(0, if l.1 then { u with conv := true, phase := .bundle, bun := { claim := true } } else u)], nextWave := 1 }

end Sys2Proof.Machine
end

