-- ==== Sys2Proof/Safety.lean ====
section
/-! DEFINITION. What counts as a safe state, and the terms the statements use: when a sub-wave issues an instruction, the state after it completes, traps or waits, and what a step leaves unchanged. -/

namespace Sys2Proof.Machine

/-- The invariant of every state a run reaches: memory is in its canonical form. -/
def State.Inv (s : State) : Prop := Memory.wf s.mem = true

/-- Where the SIMT decoder stands for a wave: its allocation, and the rules of width-16 code outside a handler (R465, R467). -/
def simtDec (v : Wave) : DecEnv := { alloc := v.kernel.alloc, w16 := v.kernel.w16 && !v.inHandler }

/-- Sub-wave `x` of wave `w`, which is `u` of `v`, is the one that issues. -/
structure Chosen (s : State) (w x : Nat) (v : Wave) (u : Sub) : Prop where
  cur : s.cur = some (w, x)
  wave : waveAt s w = some v
  sub : tblFind v.subs x = some u
  may : mayIssue v u = true

/-- What `u` sees of the instruction when it issues: the queue values its ports pop and the entries its pushes reserve with it. -/
def issueEnv (s : State) (w x : Nat) (v : Wave) (u : Sub) (i : Instr) : Env :=
  { simtEnv s w x v u i with pops := popAll s v (popsOf none i), pushes := pushAll s v (pushesOf none i) }

/-- Nothing outside an instruction's own meaning stops it: the tests of R64 pass (R65), the sequential address, where it goes on to it, does not carry (R42), its ports are bound and ready and its release has effect (R197, R379, R381), no register it names waits for a value (R86), no replay check fails (R431), and, where it pushes, its wave has no failed peer store (R403). -/
structure Unhindered (s : State) (i : Instr) (w x : Nat) (v : Wave) (u : Sub) : Prop where
  legal : check (simtDec v) i = none
  noCarry : (seqCarries u.pc (instrLen i) && goesOn i (issueEnv s w x v u i)) = false
  popBound : (popsOf none i).all (portBound s v false) = true
  pushBound : (pushesOf none i).all (portBound s v true) = true
  open_ : interlocked (simtEnv s w x v u i) i = false
  popReady : (popsOf none i).all (popReady s v) = true
  pushReady : (pushesOf none i).all (pushReady s v) = true
  released : pushReleased s v (pushesOf none i) = true
  noDiverge : replayTrap s v i = none
  noFailed : pushFails v (pushesOf none i) = none

/-- Sub-wave `u` issues instruction `i` and nothing outside the instruction stops it. -/
structure Issuing (s : State) (i : Instr) (w x : Nat) (v : Wave) (u : Sub) : Prop extends Chosen s w x v u, Unhindered s i w x v u

/-- The state after `i` completes with the effect `e` over `s1`: its ports, results, accesses, FLAGS, PC and watchdog, and its replay record. -/
def retire (s : State) (w x : Nat) (v : Wave) (u : Sub) (i : Instr) (s1 : State) (e : Eff) : State :=
  finish s (replayDone (complete s1 (issueEnv s w x v u i) (popsOf none i) (pushesOf none i) e) w v i)

/-- The state after sub-wave `x` takes trap `t` over `s1`. -/
def trapped (s : State) (w x : Nat) (s1 : State) (t : Trap) : State := finish s (enterTrap s1 w x t)

/-- Issued unhindered, `i` completes and leaves the effect `e`, whatever the state and the operands. -/
def Yields (i : Instr) (e : Env → Eff) : Prop :=
  ∀ s w x v u, Issuing s i w x v u → exec i s = .next (retire s w x v u i s (e (issueEnv s w x v u i)))

/-- Issued unhindered where `c` holds of what it sees, `i` completes over `s1` with the effect `e`. -/
def YieldsIf (i : Instr) (c : Env → State → Prop) (s1 : Env → State → State) (e : Env → State → Eff) : Prop :=
  ∀ s w x v u, Issuing s i w x v u → c (issueEnv s w x v u i) s →
    exec i s = .next (retire s w x v u i (s1 (issueEnv s w x v u i) s) (e (issueEnv s w x v u i) s))

/-- Issued unhindered where `c` holds of what it sees, `i` takes the trap `t` and has no other effect. -/
def TrapsIf (i : Instr) (c : Env → State → Prop) (t : Env → State → Trap) : Prop :=
  ∀ s w x v u, Issuing s i w x v u → c (issueEnv s w x v u i) s → exec i s = .next (trapped s w x s (t (issueEnv s w x v u i) s))

/-- Issued unhindered where `c` holds of what it sees, `i` waits: the state is as it was, but for the model's count of steps. -/
def WaitsIf (i : Instr) (c : Env → State → Prop) : Prop :=
  ∀ s w x v u, Issuing s i w x v u → c (issueEnv s w x v u i) s → exec i s = .next (finish s s)

/-- R190: bundle thread `w`, which is `v`, stands at `p` and nothing holds its next bundle back. -/
structure BundleReady (s : State) (w : Nat) (v : Wave) (p : Word) : Prop where
  cur : s.cur = some (w, rootSub)
  wave : waveAt s w = some v
  phase : v.phase = .bundle
  may : mayBundle v = true
  stands : ∃ u, tblFind v.subs rootSub = some u ∧ u.hold = .run ∧ u.pc = p
  noFault : v.bun.faults = []
  noWait : bunWaits s v = false

/-- The header of a bundle of one word, its slot `sl`: a lane word names every cluster, the others name the clusters that execute in the `xq` slot. -/
def aloneHeader (sl : Slot) : BundleHeader :=
  { lanes := if sl = .ln ∨ sl = .xq then BitVec.allOnes 32 else 0, psc := decide (sl = .sc), pmx := decide (sl = .mx), pcp := decide (sl = .cp), pxq := decide (sl = .xq), spread := decide (sl = .ln), latch := 0, len := 2, stamp := 0, ver := 1 }

/-- What the one word of such a bundle at `p` sees. -/
def aloneEnv (s : State) (w : Nat) (v : Wave) (p : Word) (sl : Slot) (i : Instr) : Env :=
  bunEnv s w v (aloneHeader sl) p (p + 16) (popAll s v (nub (popsOf (some sl) i))) (pushAll s v (pushesOf (some sl) i)) { pos := 1, slot := sl, clusters := BitVec.allOnes 32, i := i }

/-- Bundle thread `w` executes `i` as the one word of a bundle, outside every pure region, and nothing outside the word stops it. -/
structure AloneReady (s : State) (w : Nat) (v : Wave) (p : Word) (sl : Slot) (i : Instr) : Prop extends BundleReady s w v p where
  legal : check { slot := some sl, alloc := v.kernel.alloc } i = none
  impure : v.bun.regions = [] ∧ v.bun.pure_ = false
  inBody : pastEnd v p (p + 16) = false
  noCarry : (seqCarries p 16 && goesOn i (aloneEnv s w v p sl i)) = false
  popBound : (popsOf (some sl) i).all (portBound s v false) = true
  pushBound : (pushesOf (some sl) i).all (portBound s v true) = true
  popReady : (popsOf (some sl) i).all (popReady s v) = true
  pushReady : (pushesOf (some sl) i).all (pushReady s v) = true
  single : (pushesOf (some sl) i).length = (nub (pushesOf (some sl) i)).length

/-- A wave after a completed instruction is the wave before but for the places `ds` that results were put in, FLAGS, the PC of the sub-wave and the model's own counts of issue. -/
structure KeepsWave (ds : List Dst) (v v' : Wave) : Prop where
  scalars : ∀ r, Dst.s r ∉ ds → v'.getS r = v.getS r
  lanes : ∀ r l, l < 32 → Dst.v r l ∉ ds → v'.getV r l = v.getV r l
  predicates : ∀ k l, l < 32 → Dst.p k l ∉ ds → (v'.getP k).getLsbD l = (v.getP k).getLsbD l
  formats : ∀ n, Dst.freg n ∉ ds → tblGet 0 v'.fregs n = tblGet 0 v.fregs n
  records : ∀ n, Dst.tensor n ∉ ds → tblFind v'.recs n = tblFind v.recs n
  mode : v'.modeReg = v.modeReg
  ctxbase : v'.ctxbase = v.ctxbase
  wdlimit : v'.wdlimit = v.wdlimit
  tpc : v'.tpc = v.tpc
  tcause : v'.tcause = v.tcause
  taddr : v'.taddr = v.taddr
  tinfo : v'.tinfo = v.tinfo
  tvec : v'.tvec = v.tvec
  hinges : v'.hinge = v.hinge
  root : v'.rootMask = v.rootMask
  masks : v'.subs.map (fun e => (e.1, e.2.mask, e.2.hold)) = v.subs.map (fun e => (e.1, e.2.mask, e.2.hold))
  bundle : v'.phase = v.phase ∧ v'.bun = v.bun
  tokens : v'.toks = v.toks
  ports : v'.ports = v.ports
  gates : v'.wph = v.wph
  accesses : v'.accs = v.accs
  handler : v'.handler = v.handler

/-- What a step of wave `w` leaves unchanged besides the wave: every byte of memory and of scratchpad, the other waves, the contexts, the engines and the dispatchers. -/
structure KeepsRest (w : Nat) (s t : State) : Prop where
  memory : ∀ pa, inDevice pa = true → rdByte t pa = rdByte s pa
  scratchpad : ∀ p, spadByte t p = spadByte s p
  matrices : ∀ p, (coreAt t p).mx = (coreAt s p).mx
  waves : ∀ w', w' ≠ w → waveAt t w' = waveAt s w'
  contexts : t.ctxs = s.ctxs
  cohorts : t.cohorts = s.cohorts
  engines : t.eng = s.eng
  dies : t.dies = s.dies
  clock : t.clock = s.clock
  host : t.out = s.out

/-- The FLAGS bits a step may have raised. -/
def KeepsFlags (e : Nat) (v v' : Wave) : Prop := v'.flags = v.flags ||| e

/-- The places the results of an effect go to. -/
def Eff.dsts (e : Eff) : List Dst := e.wr.map (·.dst)

/-- An effect that writes registers alone: no queue, no scratchpad, no access. -/
def Eff.registersOnly (e : Eff) : Bool :=
  e.accs.isEmpty && e.wr.all (fun y => match y.dst with | .chan _ _ _ => false | .mem _ => false | _ => true)

/-- The requests of each load, store and atomic form, as its rule gives them: flat space or scratchpad, kind, order, scope, and for the wave or each executing lane the address, the width in bytes and what is read or written (R111, R112, R175, R177, R265 to R268, R272 to R274). -/
def memoryForms (f : MEM) (g : ATM) : List (Instr × Bool × Kind × Nat × Nat × (Env → List Req)) :=
  let n := 2 ^ cWid f.c
  let m := 2 ^ cWid g.c
  let o := f.lit.getD f.off
  let perLane := fun (addr : Env → Nat → Nat) (k : Env → Nat → AKind) (e : Env) => e.lanes.map (fun l => ({ lane := l, va := addr e l, n := n, kind := k e l } : Req))
  let scalar := fun e : Env => (e.rdS f.a + e.rdS f.b + o).toNat
  let strided := fun (e : Env) (l : Nat) => (e.rdS f.a + BitVec.ofNat 64 (e.laneNo l) * e.rdS f.b + o).toNat
  let spad := fun (e : Env) (l : Nat) => if f.b = 1 then (BitVec.ofNat 64 (e.rdV f.a l) + o).toNat else (e.rdS f.a + BitVec.ofNat 64 (e.laneNo l * n) + o).toNat
  let flatA := !(cSgn g.c)
  let place := fun (e : Env) (l : Nat) => if cSgn g.c then (BitVec.ofNat 64 (e.rdV g.a l) + g.off).toNat else (BitVec.ofNat 64 (e.rdV g.a l + 2 ^ 32 * e.rdV (g.a + 1) l) + g.off).toNat
  [(.sld f, true, .load, cOrd f.c, cScope f.c, fun e => [{ va := scalar e, n := n, kind := .load (scalarParts (e.dstS f.d) n (cSgn f.c)) }]),
   (.sst f, true, .store, cOrd f.c, cScope f.c, fun e => [{ va := scalar e, n := n, kind := .store (leBytes n (e.rdS f.d).toNat) }]),
   (.vld f, true, .load, cOrd f.c, cScope f.c, perLane strided (fun _ l => .load (laneParts f.d l (cWid f.c) (cSgn f.c)))),
   (.vst f, true, .store, cOrd f.c, cScope f.c, perLane strided (fun e l => .store (laneData e f.d l (cWid f.c)))),
   (.lds f, false, .load, cOrd f.c, cScope f.c, perLane spad (fun _ l => .load (laneParts f.d l (cWid f.c) (cSgn f.c)))),
   (.sts f, false, .store, cOrd f.c, cScope f.c, perLane spad (fun e l => .store (laneData e f.d l (cWid f.c)))),
   (.vunpk f, false, .load, 0, 0, fun e => [{ va := (e.rdS f.a + f.off).toNat, n := if e.w16 then 2 * (f.c + 1) else 4 * (f.c + 1), kind := .load (e.lanes.map (fun l => { dst := .v f.d l, lo := (f.c + 1) * e.laneNo l, n := f.c + 1 })) }]),
   (.vatom g, flatA, .atomic, cOrd g.c, cScope g.c, fun e => e.lanes.map (fun l => { lane := l, va := place e l, n := m, kind := .atomic g.atop (BitVec.ofNat 64 (e.rdVec false (8 * m) g.b l)) (if g.atop = 1 then BitVec.ofNat 64 (e.rdV (g.b + 1) l) else 0) (laneParts g.d l (cWid g.c) false) })),
   (.satom g, flatA, .atomic, cOrd g.c, cScope g.c, fun e => [{ va := (e.rdS g.a + g.off).toNat, n := m, kind := .atomic g.atop (e.rdS g.b) (if g.atop = 1 then e.rdS (g.b + 1) else 0) (scalarParts (e.dstS g.d) m (decide (m = 4 ∧ (g.atop = 6 ∨ g.atop = 7)))) }])]

end Sys2Proof.Machine
end

