-- ==== Sys2Proof/Certificates/Slice0/Obligations.lean ====
section
/-! DEFINITION. The statements for the provers. -/

open Sys2Proof Sys2Proof.Machine

/-- R43 to R60, R64: words written out from the encoding tables decode to the instructions they stand for, one of each format; a code that is assigned to nothing is ILLEGAL with REASON 1, a reserved one with REASON 2. -/
def Obligations.DecodeWords : Prop :=
  decodeWord {} 0x000E060204000000 0 = .ok (.sadd { d := 3, a := 1, b := 2 })
    ∧ decodeWord {} 0x064E0A01FFFFFFFF 0 = .ok (.sli { d := 5, imm := -1 })
    ∧ decodeWord {} 0x638E060360000900 0 = .ok (.vcvt { d := 3, a := 1, stype := .f32, ty := .f16 })
    ∧ decodeWord {} 0x8A0E08020481FFFC 0 = .ok (.vld { d := 4, a := 1, b := 2, c := 64, off := -4 })
    ∧ decodeWord {} 0xA20E060404800800 0 = .ok (.vatom { d := 3, a := 2, b := 2, c := 64, atop := 2 })
    ∧ decodeWord {} 0x200E01FFFFFFFFFF 0 = .ok (.jmp { off := -1 })
    ∧ decodeWord {} 0x228E040000020000 0 = .ok (.sread { d := 2, sel := 1 })
    ∧ decodeWord {} 0xC4CF060200000000 0 = .ok (.mclr { produce := true, kout := 3, a := 1 })
    ∧ decodeWord { slot := some .sc } 0xE20FFE0204000064 0 = .ok (.loop { d := 255, a := 1, b := 2, len := 100 })
    ∧ decodeWord {} 0x068E000000000000 0 = .error (.illegal 1)
    ∧ decodeWord {} 0x180E000000000000 0 = .error (.illegal 2)

/-- R43 to R60, R64: decoding and encoding agree. Wherever an instruction is well-formed, its word with its literal decodes to it and to nothing else, every field at every value the encoding admits; and a word that decodes is the word of the instruction it decodes to. -/
def Obligations.DecodeEncodes : Prop :=
  (∀ env i, i.wfIn env = true → ∃ w, encodeIn env.slot.isSome i = w :: (litOf i).toList ∧ ∀ next, (∀ l, litOf i = some l → next = l) → decodeWord env w next = .ok i)
    ∧ ∀ env w next i, decodeWord env w next = .ok i → i.wfIn env = true ∧ encodeIn env.slot.isSome i = w :: (if wordHasLit w then [next] else [])

/-- R34, R39, R479: right after reset the clock is 0, no wave, cohort, context, launch or card exists, every logical core is its own physical core, no line is poisoned, no keyring entry, pin or watchpoint stands, the boot ROM runs and no session is open. That memory lists no byte is the model's choice (log 1). -/
def Obligations.ResetState : Prop :=
  State.reset.Inv ∧ State.reset.clock = 0 ∧ State.reset.waves = [] ∧ State.reset.cohorts = [] ∧ State.reset.ctxs = [] ∧ State.reset.launches = [] ∧ State.reset.cards = [] ∧ (∀ c, physCore State.reset c = c) ∧ State.reset.poison = []
    ∧ (∀ p i, keyAt State.reset p i = none) ∧ State.reset.pins = [] ∧ (∀ d i, tblGet 0 (dieAt State.reset d).watch.wctl i = 0) ∧ State.reset.boot.st = .root ∧ State.reset.boot.session = none ∧ State.reset.mem = []

/-- R210: every step keeps memory in its canonical form: addresses of device memory only, strictly rising, none listed that reads as an unlisted one does. It holds of every state, not only of those a run from reset reaches. -/
def Obligations.StepKeepsInvariant : Prop := ∀ s t : State, s.Inv → step s = .next t → t.Inv

/-- R41, R134, R135: a step runs the decoded instruction. What a sub-wave attempts is `exec` of the instruction its words at the PC decode to, the core's TLB having served the fetch; and where nothing is due, nothing freely chosen, and one section is open, the step is that attempt of the sub-wave the section picks, with the bookkeeping of the cycle: the section is done, the others age, a step command ends, markers and drained waves go. -/
def Obligations.StepRunsDecoded : Prop :=
  (∀ (s : State) (w x : Nat) (v : Wave) (u : Sub) (w0 w1 : Word) (i : Instr), v.phase ≠ .bundle → fetchWord s v u.pc.toNat u.pc.toNat = .ok w0 → (if wordHasLit w0 then fetchWord s v u.pc.toNat (u.pc.toNat + 8) else .ok 0) = .ok w1 →
      decodeWord { alloc := v.kernel.alloc, w16 := v.kernel.w16 && !v.inHandler } w0 w1 = .ok i → attempt s w x v u = exec i { fetchServed s v u.pc.toNat (fetchLen i) with cur := some (w, x) })
    ∧ (∀ (s : State) (w x : Nat) (v : Wave) (u : Sub) (w0 : Word) (ws : List Word), v.phase = .bundle → fetchWord s v u.pc.toNat u.pc.toNat = .ok w0 → headerOk (headerOf w0) = true → fetchWords s v u.pc.toNat (u.pc.toNat + 8) ((headerOf w0).len - 1) = .ok ws →
      attempt s w x v u = exec (.bundleIssue (w0 :: ws)) { fetchServed s v u.pc.toNat (ws.length + 1) with cur := some (w, x) })
    ∧ (∀ (s : State) (w x : Nat) (t : State), tryIssue s w x = some t → ∃ v u, waveAt s w = some v ∧ tblFind v.subs x = some u ∧ (mayIssue v u || (mayBundle v && decide (u.hold = .run))) = true ∧ attempt s w x v u = .next t)
    ∧ ∀ (s : State) (p k : Nat) (r : Ready), strayByte s = none → s.agenda = [] → s.heat.tripped = false → inputRuns s true = [] → cmdRun s = none → firstRun s (dueSteps s) = none → chosen s (freeRuns s) = none → openSects s = [(p, k)] → pickReady s p k (sectReady s p k) = some r →
      tryIssue s r.w r.x = some r.t ∧ step s = .next (tidy (finish r.t (afterIssue s p k r (sectReady s p k))))

/-- R89, R90: the two-source integer forms compute exactly on the low n bits of both sources and write the result wrapped, or saturated under `.sat`, extended to 64 bits; no FLAGS bit rises. R68, R90: division truncates towards zero, the remainder has the sign of the dividend; a zero divisor gives quotient 0 and remainder x and raises FLAGS.DZ; the most negative number divided by −1 gives itself and remainder 0. -/
def Obligations.ScalarIntegerResults : Prop :=
  (∀ f : RRR,
  Yields (.sadd f) (fun e => { wr := sIntOut f e (fitN f.sat (tySigned f.ty) (sBits f) (sIntA f e + sIntB f e)) })
    ∧ Yields (.ssub f) (fun e => { wr := sIntOut f e (fitN f.sat (tySigned f.ty) (sBits f) (sIntA f e - sIntB f e)) })
    ∧ Yields (.smul f) (fun e => { wr := sIntOut f e (fitN f.sat (tySigned f.ty) (sBits f) (sIntA f e * sIntB f e)) })
    ∧ Yields (.smulh f) (fun e => { wr := sIntOut f e (truncN (sBits f) (sIntA f e * sIntB f e / 2 ^ sBits f)) })
    ∧ Yields (.smin f) (fun e => { wr := sIntOut f e (truncN (sBits f) (min (sIntA f e) (sIntB f e))) })
    ∧ Yields (.smax f) (fun e => { wr := sIntOut f e (truncN (sBits f) (max (sIntA f e) (sIntB f e))) }))
    ∧ (∀ f : RRR,
  Yields (.sdiv f) (fun e => if sIntB f e = 0 then { wr := sIntOut f e 0, flags := flagDZ } else { wr := sIntOut f e (truncN (sBits f) ((sIntA f e).tdiv (sIntB f e))) })
    ∧ Yields (.srem f) (fun e => if sIntB f e = 0 then { wr := sIntOut f e (truncN (sBits f) (sIntA f e)), flags := flagDZ } else { wr := sIntOut f e (truncN (sBits f) ((sIntA f e).tmod (sIntB f e))) }))

/-- R91: the bitwise forms act bit by bit on the low n bits; a shift count is the full source modulo n. R92 to R96: absolute value, counts, moves, extension, bit fields, comparison, selection and load immediate. -/
def Obligations.ScalarMoveResults : Prop :=
  (∀ f : RRR,
  let n := sBits f
  let a := fun e : Env => (e.rdS f.a).toNat % 2 ^ n
  let b := fun e : Env => (e.rdB f).toNat % 2 ^ n
  let k := fun e : Env => (e.rdB f).toNat % n
  Yields (.sand f) (fun e => { wr := sIntOut f e (a e &&& b e) })
    ∧ Yields (.sor f) (fun e => { wr := sIntOut f e (a e ||| b e) })
    ∧ Yields (.sxor f) (fun e => { wr := sIntOut f e (a e ^^^ b e) })
    ∧ Yields (.sandn f) (fun e => { wr := sIntOut f e (a e &&& (2 ^ n - 1 - b e)) })
    ∧ Yields (.sshl f) (fun e => { wr := sIntOut f e (a e * 2 ^ k e % 2 ^ n) })
    ∧ Yields (.sshr f) (fun e => { wr := sIntOut f e (a e / 2 ^ k e) })
    ∧ Yields (.ssar f) (fun e => { wr := sIntOut f e (truncN n (sint n (e.rdS f.a).toNat / 2 ^ k e)) })
    ∧ Yields (.srot f) (fun e => { wr := sIntOut f e (if k e = 0 then a e else (a e * 2 ^ k e % 2 ^ n) ||| a e / 2 ^ (n - k e)) }))
    ∧ (∀ (f : RRR) (r : RI),
  let n := sBits f
  let pos := fun e : Env => (e.rdB f).toNat % 64
  let w := fun e : Env => min (e.rdS f.c).toNat 64
  Yields (.sabs f) (fun e => { wr := sIntOut f e (fitN f.sat true n (sint n (e.rdS f.a).toNat).natAbs) })
    ∧ Yields (.sclz f) (fun e => { wr := e.wrS f.d (BitVec.ofNat 64 (leadZeros n ((e.rdS f.a).toNat % 2 ^ n))) })
    ∧ Yields (.spopc f) (fun e => { wr := e.wrS f.d (BitVec.ofNat 64 (popcount n ((e.rdS f.a).toNat % 2 ^ n))) })
    ∧ Yields (.smov f) (fun e => { wr := sIntOut f e ((e.rdS f.a).toNat % 2 ^ n) })
    ∧ Yields (.sext f) (fun e => { wr := e.wrS f.d (if f.ty = .n64 then zext64 (pos e + 1) (e.rdS f.a).toNat else sext64 (pos e + 1) (e.rdS f.a).toNat) })
    ∧ Yields (.sbfx f) (fun e => { wr := e.wrS f.d (if w e = 0 then 0 else if f.ty = .n64 then zext64 (w e) ((e.rdS f.a).toNat / 2 ^ pos e) else sext64 (w e) ((e.rdS f.a).toNat / 2 ^ pos e)) })
    ∧ (∀ s x y v u, Issuing s (.sbfi f) x y v u → ∃ r : Word, (∀ i < 64, r.getLsbD i = if pos (issueEnv s x y v u (.sbfi f)) ≤ i ∧ i < pos (issueEnv s x y v u (.sbfi f)) + w (issueEnv s x y v u (.sbfi f))
          then ((issueEnv s x y v u (.sbfi f)).rdS f.a).getLsbD (i - pos (issueEnv s x y v u (.sbfi f))) else ((issueEnv s x y v u (.sbfi f)).rdS f.d).getLsbD i)
        ∧ exec (.sbfi f) s = .next (retire s x y v u (.sbfi f) s { wr := (issueEnv s x y v u (.sbfi f)).wrS f.d r }))
    ∧ Yields (.scmp f) (fun e => { wr := e.wrS f.d (if intCond f.fn (sIntA f e) (sIntB f e) then 1 else 0) })
    ∧ Yields (.ssel f) (fun e => { wr := e.wrS f.d (if e.rdS f.c = 0 then e.rdB f else e.rdS f.a) })
    ∧ Yields (.sli r) (fun e => { wr := e.wrS r.d (r.lit.getD r.imm) }))

/-- R97 to R99: the scalar float forms round the exact sum, product or fused product-sum of their operands once, under the form's mode, and write the bits zero-extended; comparison writes 1 or 0. R76, R100: `sfcvt` converts under R80 and R81; a format register that is not valid is ILLEGAL with REASON 10. -/
def Obligations.ScalarFloatResults : Prop :=
  (∀ f : RRR,
  let m := sFmt f
  let a := fun e : Env => sFlt f e (e.rdS f.a)
  let b := fun e : Env => sFlt f e (e.rdB f)
  let c := fun e : Env => sFlt f e (e.rdS f.c)
  let give := fun (e : Env) (r : Nat × Nat) => ({ wr := e.wrS f.d (BitVec.ofNat 64 r.1), flags := r.2 } : Eff)
  Yields (.sfadd f) (fun e => give e (addF m (e.rmode f.rnd) e.v.ftz (a e) (if f.fn = 1 then (b e).negIf true else b e)))
    ∧ Yields (.sfmul f) (fun e => give e (mulF m (e.rmode f.rnd) e.v.ftz (a e) (b e)))
    ∧ Yields (.sffma f) (fun e => give e (fmaF m (e.rmode f.rnd) e.v.ftz (f.fn.testBit 0) (f.fn.testBit 1) (a e) (b e) (c e)))
    ∧ Yields (.sfcmp f) (fun e => { wr := e.wrS f.d (if (condF f.fn (a e) (b e)).1 then 1 else 0), flags := (condF f.fn (a e) (b e)).2 }))
    ∧ (∀ f : CV,
  YieldsIf (.sfcvt f) (fun e _ => cvBadFmt f e = false) (fun _ s => s) (fun e _ =>
      let r := convert f.stype f.ty (e.nfmt f.sfmt) (e.nfmt f.dfmt) (e.rmode f.rnd) e.v.ftz f.sat (e.rdS f.a).toNat
      { wr := e.wrS f.d (if f.ty = .fq ∨ isFloatTy f.ty then BitVec.ofNat 64 r.1 else ext64 (tySigned f.ty) (tyBits 64 f.ty) r.1), flags := r.2 })
    ∧ TrapsIf (.sfcvt f) (fun e _ => (f.stype = .fq ∧ (e.nfmt f.sfmt).valid = false) ∨ (f.ty = .fq ∧ (e.nfmt f.dfmt).valid = false)) (fun e _ => { cause := .illegal, addr := e.p, info := 10 }))

/-- R70: an exact quotient q + r ÷ 2ᵏ with 0 ≤ r < 2ᵏ rounds to q or to q + 1: to nearest with ties to even, towards zero, up, or down. -/
def Obligations.RoundingDirection : Prop := ∀ (neg : Bool) (q r k : Nat), r < 2 ^ k →
  (roundUp 0 neg q r k false = true ↔ 2 ^ k < 2 * r ∨ (2 * r = 2 ^ k ∧ q % 2 = 1))
    ∧ roundUp 1 neg q r k false = false
    ∧ (roundUp 2 neg q r k false = true ↔ neg = false ∧ r ≠ 0)
    ∧ (roundUp 3 neg q r k false = true ↔ neg = true ∧ r ≠ 0)

/-- R102, R103, R105: a format-BR target is p + 8·O exactly. In range, `jmp` goes there, `jc` does where its operand is not zero, `call` first writes p + 8; out of range each raises FETCH_BOUNDS with the truncated target and does nothing else. R104: `jmpx` and `ret` set PC to the value of A; with FN bit 0 `jmpx` first writes the address of the following instruction. -/
def Obligations.BranchResults : Prop :=
  (∀ f : BR,
  let t := fun e : Env => (sint 64 e.p.toNat + 8 * sint 64 f.off.toNat : Int)
  let inRange := fun e : Env => -(2 ^ 56 : Int) ≤ t e ∧ t e < 2 ^ 56
  let out := fun (e : Env) (_ : State) => ({ cause := .fetchBounds, addr := BitVec.ofInt 64 (t e) } : Trap)
  YieldsIf (.jmp f) (fun e _ => inRange e) (fun _ s => s) (fun e _ => { go := .br (t e) })
    ∧ TrapsIf (.jmp f) (fun e _ => ¬ inRange e) out
    ∧ YieldsIf (.jc f) (fun e _ => inRange e) (fun _ s => s) (fun e _ => if e.rdS f.d = 0 then {} else { go := .br (t e) })
    ∧ TrapsIf (.jc f) (fun e _ => ¬ inRange e) out
    ∧ YieldsIf (.call f) (fun e _ => inRange e) (fun _ s => s) (fun e _ => { wr := [⟨.s (e.sreg f.d), (e.p + 8).toNat⟩], go := .br (t e) })
    ∧ TrapsIf (.call f) (fun e _ => ¬ inRange e) out)
    ∧ (∀ f : RRR,
  Yields (.jmpx f) (fun e => { wr := if f.fn = 1 then e.wrS f.d (e.p + 8) else [], go := .abs (e.rdS f.a) })
    ∧ Yields (.ret f) (fun e => { go := .abs (e.rdS f.a) }))

/-- R31, R33, R113: what `sread` writes for each selector; `swrite` of a writable register whose value has no reserved bit set; ILLEGAL with REASON 10 otherwise; `nop` does nothing (R110). -/
def Obligations.SpecialRegisterResults : Prop := ∀ f : SR,
  (∀ val : Env → Word, (f.sel, val) ∈ ([(0, fun e => BitVec.ofNat 64 e.now), (1, fun e => BitVec.ofNat 64 e.v.core), (2, fun e => BitVec.ofNat 64 (e.v.core / 80)), (3, fun e => BitVec.ofNat 64 (e.v.core / 4)),
      (4, fun e => BitVec.ofNat 64 e.v.sect), (8, fun e => e.v.modeReg), (11, fun e => e.v.wdlimit), (12, fun e => e.v.tpc), (13, fun e => e.v.tcause),
      (14, fun e => e.v.taddr), (15, fun e => e.v.tinfo), (16, fun e => e.v.tvec)] : List (Nat × (Env → Word))) → Yields (.sread f) (fun e => { wr := e.wrS f.d (val e) }))
    ∧ (∀ val : Env → Word, (f.sel, val) ∈ ([(5, fun e => BitVec.ofNat 64 (if e.w16 then 2 * e.v.index + e.half else e.v.index)), (6, fun e => BitVec.ofNat 64 e.v.cohortIdx), (7, fun e => BitVec.ofNat 64 (e.v.launchId % 2 ^ 32)), (10, fun e => e.v.ctxbase)] : List (Nat × (Env → Word))) →
        YieldsIf (.sread f) (fun e _ => e.v.isResponder = false) (fun _ s => s) (fun e _ => { wr := e.wrS f.d (val e) }))
    ∧ (f.sel ∈ [5, 7, 10] → YieldsIf (.sread f) (fun e _ => e.v.isResponder = true) (fun _ s => s) (fun e _ => { wr := e.wrS f.d 0 }))
    ∧ (f.sel = 9 → YieldsIf (.sread f) (fun e _ => e.windowed .flags = false) (fun _ s => s) (fun e _ => { wr := e.wrS f.d (BitVec.ofNat 64 e.v.flags) }))
    ∧ (17 ≤ f.sel → TrapsIf (.sread f) (fun _ _ => True) (fun e _ => { cause := .illegal, addr := e.p, info := 10 }))
    ∧ (∀ (ok : Word → Prop) (set : Wave → Word → Wave), (f.sel, ok, set) ∈ ([(8, fun x => x.toNat < 16, fun v x => { v with rm := x.toNat % 4, ftz := x.toNat.testBit 2 }), (9, fun x => x.toNat < 32, fun v x => { v with flags := x.toNat }),
          (10, fun x => x.toNat % 256 = 0, fun v x => { v with ctxbase := x }), (11, fun _ => True, fun v x => { v with wdlimit := x }), (12, fun _ => True, fun v x => { v with tpc := x }),
          (13, fun x => x.toNat < 2048, fun v x => { v with tcause := x }), (14, fun _ => True, fun v x => { v with taddr := x }), (15, fun _ => True, fun v x => { v with tinfo := x }),
          (16, fun x => x.toNat % 8 = 0, fun v x => { v with tvec := x })] : List (Nat × (Word → Prop) × (Wave → Word → Wave))) →
        YieldsIf (.swrite f) (fun e _ => ok (e.rdS f.a)) (fun e s => modWave s e.w (fun v => set v (e.rdS f.a))) (fun _ _ => {})
          ∧ TrapsIf (.swrite f) (fun e _ => ¬ ok (e.rdS f.a)) (fun e _ => { cause := .illegal, addr := e.p, info := 10 }))
    ∧ (f.sel < 8 ∨ 17 ≤ f.sel → TrapsIf (.swrite f) (fun _ _ => True) (fun e _ => { cause := .illegal, addr := e.p, info := 10 }))
    ∧ ∀ g : RRR, Yields (.nop g) (fun _ => {})

/-- The frame of the scalar forms that write only registers: every byte of memory and scratchpad, every other wave, every register but the destination, every special and exception register, token, record and port binding are unchanged; FLAGS only gains bits, and none at all from an integer, bitwise, move or branch form other than a division. A result put in a scalar register is what the register holds after the instruction, whole, and the queue port forms leave the scalar registers alone (R30, R58). -/
def Obligations.ScalarFrame : Prop :=
  (∀ (f : RRR) (g : RI) (i : Instr) (s : State) (w x : Nat) (v : Wave) (u : Sub) (t : State),
  let quiet : List Instr := [.sadd f, .ssub f, .smul f, .smulh f, .smin f, .smax f, .sand f, .sor f, .sxor f, .sandn f, .sshl f, .sshr f, .ssar f, .srot f, .sabs f, .sclz f, .spopc f, .smov f, .sext f, .sbfx f, .sbfi f, .scmp f, .ssel f, .jmpx f, .ret f, .nop f]
  let flagging : List Instr := [.sdiv f, .srem f, .sfadd f, .sfmul f, .sffma f, .sfcmp f]
  i = .sli g ∨ i ∈ quiet ∨ i ∈ flagging → s.Inv → Issuing s i w x v u → exec i s = .next t →
    KeepsRest w s t ∧ ∃ v', waveAt t w = some v' ∧ KeepsWave (if i = .ret f ∨ i = .nop f ∨ (i = .jmpx f ∧ f.fn ≠ 1) then [] else (issueEnv s w x v u i).dstS (fieldsOf i).d) v v'
      ∧ (∀ b, v.flags.testBit b = true → v'.flags.testBit b = true) ∧ (i ∉ flagging → v'.flags = v.flags) ∧ (i = .sdiv f ∨ i = .srem f → v'.flags = v.flags ∨ v'.flags = v.flags ||| flagDZ)
      ∧ (i ≠ .jmpx f → i ≠ .ret f → ∃ u', tblFind v'.subs x = some u' ∧ u'.pc = u.pc + (if (fieldsOf i).lit.isSome then 16 else 8)))
    ∧ (∀ (s : State) (w x : Nat) (v : Wave) (u : Sub) (i : Instr) (d : Nat) (val : Word) (e : Eff), waveAt s w = some v → syncOp i = false →
  e.wr = (issueEnv s w x v u i).wrS d val → ∃ v', waveAt (retire s w x v u i s e) w = some v'
    ∧ (d < 96 → v'.getS ((issueEnv s w x v u i).sreg d) = val ∧ ∀ r, r ≠ (issueEnv s w x v u i).sreg d → v'.getS r = v.getS r)
    ∧ (96 ≤ d → ∀ r, v'.getS r = v.getS r))

/-- The frame of every instruction that only writes registers, whatever its family: where `exec` completes with an effect `e` of register results (the result statements of the scalar, vector, predicate and lane families give each one's), memory, scratchpad, the other waves and every register and lane outside the places of `e` are unchanged, and FLAGS gains the bits of `e` and no other. -/
def Obligations.RegisterFormFrame : Prop := ∀ (s : State) (i : Instr) (w x : Nat) (v : Wave) (u : Sub) (e : Eff) (t : State), s.Inv → waveAt s w = some v → syncOp i = false → e.registersOnly = true →
  (∀ y ∈ e.wr, y.dst ≠ .flags ∧ ∀ r l, y.dst = .v r l → l < 32) → exec i s = .next (retire s w x v u i s e) → exec i s = .next t →
  KeepsRest w s t ∧ ∃ v', waveAt t w = some v' ∧ KeepsWave e.dsts v v' ∧ v'.flags = v.flags ||| e.flags

/-- R29, R138: an instruction that completes and does not branch moves its sub-wave on by 8, or by 16 with a literal, and no other; the watchdog counts it outside a handler unless it resets the count, which it does in a handler too, and raises WATCHDOG at the limit the instruction found (R139). -/
def Obligations.CompletionAdvances : Prop := ∀ (s : State) (w x : Nat) (v : Wave) (u : Sub) (i : Instr) (e : Eff), waveAt s w = some v → tblFind v.subs x = some u → syncOp i = false →
  e.go = .seq → (∀ y ∈ e.wr, y.dst ≠ .flags) → ∃ v', waveAt (retire s w x v u i s e) w = some v'
    ∧ (∃ u', tblFind v'.subs x = some u' ∧ u'.pc = u.pc + BitVec.ofNat 64 (instrLen i) ∧ u'.mask = u.mask ∧ u'.aged = 0) ∧ (∀ y, y ≠ x → tblFind v'.subs y = tblFind v.subs y)
    ∧ v'.flags = v.flags ||| e.flags
    ∧ (e.wdReset = true → v'.wd = 0 ∧ v'.async = v.async)
    ∧ (v.handler.isSome = true → e.wdReset = false → v'.wd = v.wd ∧ v'.async = v.async)
    ∧ (v.handler = none → e.wdReset = false → v'.wd = v.wd + 1 ∧ (v.wdlimit ≠ 0 → v.wdlimit.toNat ≤ v.wd + 1 → v.async = none → v'.async = some (.watchdog, 0, BitVec.ofNat 64 (v.wd + 1), e.last.getD x))
        ∧ ((v.wdlimit = 0 ∨ v.wd + 1 < v.wdlimit.toNat) → v'.async = v.async))

/-- R17, R58: the operand values that stand for no register: 112 to 127 read as 0 to 15, `%zero` as 0 and `%ones` as all ones, `%clk` as CLOCK[31:0], `%core` and `%sect` as the wave's place; and p7 reads as all lanes true and discards what is written to it (R123). -/
def Obligations.HardwiredOperands : Prop := ∀ (e : Env) (v : Wave),
  (∀ k < 16, e.rdS (112 + k) = BitVec.ofNat 64 k) ∧ e.rdS 110 = 0 ∧ e.rdS 111 = BitVec.allOnes 64 ∧ e.rdS 109 = BitVec.ofNat 64 (e.now % 2 ^ 32) ∧ e.rdS 107 = BitVec.ofNat 64 e.v.core ∧ e.rdS 106 = BitVec.ofNat 64 e.v.sect
    ∧ (∀ l, e.rdP 7 l = true) ∧ v.getP 7 = BitVec.allOnes 32 ∧ (∀ x, v.setP 7 x = v) ∧ (∀ l b, v.setPBit 7 l b = v) ∧ ∀ l b, e.wrP 7 l b = []

/-- R42, R65, R86, R197, R381: the order in which an instruction of SIMT code is stopped before it has any effect. A failed test of R64 raises ILLEGAL or MODE with TPC = TADDR = p and its REASON; a port not bound the way the form uses it raises ILLEGAL with REASON 10; a register that waits for a value, an empty popped port, a full pushed port or a push whose release has no effect yet only makes it wait; and an instruction that goes on to its sequential address raises FETCH_BOUNDS with the 58-bit sum where that carries out of 57 bits. That the carry comes last is the model's reading (log 7). -/
def Obligations.ChecksBeforeEffect : Prop := ∀ (s : State) (i : Instr) (w x : Nat) (v : Wave) (u : Sub), (opOf i).isSome = true → (specOf none i).simt = true → Chosen s w x v u →
  (∀ r, check (simtDec v) i = some (.illegal r) → exec i s = .next (trapped s w x s { cause := .illegal, addr := u.pc, info := BitVec.ofNat 64 r }))
    ∧ (∀ r, check (simtDec v) i = some (.mode r) → exec i s = .next (trapped s w x s { cause := .mode, addr := u.pc, info := BitVec.ofNat 64 r }))
    ∧ (check (simtDec v) i = none →
        ((∃ q ∈ popsOf none i, portBound s v false q = false) ∨ (∃ q ∈ pushesOf none i, portBound s v true q = false)) →
        exec i s = .next (trapped s w x s { cause := .illegal, addr := u.pc, info := 10 }))
    ∧ (check (simtDec v) i = none → (popsOf none i).all (portBound s v false) = true → (pushesOf none i).all (portBound s v true) = true →
        (interlocked (simtEnv s w x v u i) i = true ∨ (∃ q ∈ popsOf none i, popReady s v q = false) ∨ (∃ q ∈ pushesOf none i, pushReady s v q = false) ∨ pushReleased s v (pushesOf none i) = false) →
        exec i s = .next (finish s s))
    ∧ (check (simtDec v) i = none → (popsOf none i).all (portBound s v false) = true → (pushesOf none i).all (portBound s v true) = true → interlocked (simtEnv s w x v u i) i = false →
        (popsOf none i).all (popReady s v) = true → (pushesOf none i).all (pushReady s v) = true → pushReleased s v (pushesOf none i) = true →
        goesOn i (issueEnv s w x v u i) = true → 2 ^ 57 ≤ u.pc.toNat % 2 ^ 57 + instrLen i →
        exec i s = .next (trapped s w x s { cause := .fetchBounds, addr := BitVec.ofNat 64 (u.pc.toNat % 2 ^ 57 + instrLen i) }))

/-- R391: a trap of a wave that is in no handler and whose TVEC is not 0 writes TPC, TCAUSE (bits 10:8 zero), TADDR and TINFO, enters the handler state and continues its own sub-wave at TVEC with its own mask; nothing else of the machine changes. -/
def Obligations.TrapEntryWrites : Prop := ∀ (s : State) (w x : Nat) (v : Wave) (u : Sub) (t : Trap), s.Inv → waveAt s w = some v → tblFind v.subs x = some u →
  v.isResponder = false → v.handler = none → v.tvec ≠ 0 →
  ∃ v', waveAt (trapped s w x s t) w = some v' ∧ v'.tpc = t.tpc.getD u.pc ∧ v'.tcause = BitVec.ofNat 64 (causeCode t.cause) ∧ v'.taddr = t.addr ∧ v'.tinfo = t.info
    ∧ (∃ h, v'.handler = some h ∧ h.sub = x ∧ h.mask = u.mask ∧ h.bundle = false)
    ∧ tblFind v'.subs x = some { u with pc := v.tvec, hold := .run } ∧ (∀ y, y ≠ x → tblFind v'.subs y = tblFind v.subs y)
    ∧ v'.s = v.s ∧ v'.v = v.v ∧ v'.p = v.p ∧ v'.modeReg = v.modeReg ∧ v'.flags = v.flags ∧ v'.ctxbase = v.ctxbase ∧ v'.wdlimit = v.wdlimit ∧ v'.tvec = v.tvec
    ∧ v'.toks = v.toks ∧ v'.ports = v.ports ∧ v'.recs = v.recs ∧ v'.fregs = v.fregs ∧ v'.hinge = v.hinge ∧ v'.accs = v.accs ∧ v'.wd = v.wd ∧ KeepsRest w s (trapped s w x s t)

/-- R355, R392, R394: a trap in a handler, or with TVEC 0, faults the context: its first such trap tells the host the frame and the cause and asks every wave of the context other than responders to park with the cause as REASON, and no register of the wave changes; a responder that traps ends faulted. -/
def Obligations.TrapFaultsContext : Prop := ∀ (s : State) (w x : Nat) (v : Wave) (t : Trap), waveAt s w = some v →
  (v.isResponder = false → (v.handler.isSome = true ∨ v.tvec = 0) → (ctxAt s v.ctx).faulted = none → (tblFind s.ctxs v.ctx).isSome = true →
      (ctxAt (trapped s w x s t) v.ctx).faulted = some (v.frame, causeCode t.cause)
        ∧ (trapped s w x s t).out = s.out ++ [.ctxFault v.ctx v.frame (causeCode t.cause)]
        ∧ (∀ y a, waveAt s y = some a → ∃ b, waveAt (trapped s w x s t) y = some b
            ∧ (a.ctx = v.ctx → a.isResponder = false → a.parkReq = none → b = { a with parkReq := some (causeCode t.cause, a.inHandler) })
            ∧ (a.ctx ≠ v.ctx ∨ a.isResponder = true → b = a)))
    ∧ (v.isResponder = true → ∃ v', waveAt (trapped s w x s t) w = some v' ∧ v'.ended = true ∧ v'.respFault = true ∧ v'.subs = [] ∧ v'.tpc = v.tpc ∧ v'.tcause = v.tcause)

/-- R114, R423, R426: `trap` raises SOFTWARE with TPC the address after it, TADDR p and TINFO the immediate; `brk` raises BREAK likewise where the context's BRKSTOP is 0, and otherwise sounds the foghorn and goes on. R425, R428: `mark` gives the trace unit a BLOCK record to write where its context has TRACE set and the core a trace buffer enabled, and is counted as lost where the unit's queue of 64 is full; otherwise it does nothing. -/
def Obligations.SoftwareTrapResults : Prop :=
  (∀ f : RI,
  TrapsIf (.trap f) (fun _ _ => True) (fun e _ => { cause := .software, tpc := some e.next, addr := e.p, info := f.lit.getD f.imm })
    ∧ TrapsIf (.brk f) (fun e s => (ctxAt s e.v.ctx).dbgWord.getLsbD 0 = false) (fun e _ => { cause := .break, tpc := some e.next, addr := e.p, info := f.imm })
    ∧ YieldsIf (.brk f) (fun e s => (ctxAt s e.v.ctx).dbgWord.getLsbD 0 = true)
        (fun e s => { soundFog s { seq := 0, cycle := 0, core := e.v.core, ctx := e.v.ctx, cause := 15, wave := some e.w, brk := f.imm.toNat } with agenda := s.agenda ++ [.foghorn s.fogs.length] }) (fun _ _ => {}))
    ∧ (∀ f : RI,
  let off := fun (e : Env) (s : State) => (ctxAt s e.v.ctx).dbgWord.getLsbD 3 = false ∨ (coreAt s e.core).trace.on = false ∨ (coreAt s e.core).trace.size = 0
  YieldsIf (.mark f) off (fun _ s => s) (fun _ _ => {})
    ∧ YieldsIf (.mark f) (fun e s => ¬ off e s) (fun e s =>
        modCore s e.core (fun c => { c with trace :=
          if c.trace.queue.length < 64 then { c.trace with queue := c.trace.queue ++ [{ imm := f.imm.toNat, place := e.v.place, bundle := false, at_ := s.clock }] } else c.trace.lose })) (fun _ _ => {}))

/-- R395: from a handler entered in SIMT mode `tret` puts the issuing sub-wave at TPC and leaves the handler state, every other sub-wave staying where it is; `tret.park` also asks the wave to park with the code of TCAUSE. No register changes. Outside a handler both raise ILLEGAL, and with another mask or hinge position MODE, each with REASON 10. -/
def Obligations.HandlerReturn : Prop := ∀ (f : RRR) (park : Bool),
  let i : Instr := if park then .tretPark f else .tret f
  (∀ (s : State) (w x : Nat) (v : Wave) (u : Sub) (h : Handler), s.Inv → Issuing s i w x v u → v.handler = some h → h.sub = x → h.mask = u.mask → v.tcause.getLsbD 8 = false →
      ∃ t v', exec i s = .next t ∧ waveAt t w = some v' ∧ v'.handler = none ∧ tblFind v'.subs x = some { u with pc := v.tpc, hold := .run, aged := 0 } ∧ (∀ y, y ≠ x → tblFind v'.subs y = tblFind v.subs y)
        ∧ v'.parkReq = (if park then some (v.tcause.toNat % 256, false) else none) ∧ v'.phase = .simt
        ∧ v'.s = v.s ∧ v'.v = v.v ∧ v'.p = v.p ∧ v'.modeReg = v.modeReg ∧ v'.flags = v.flags ∧ v'.tpc = v.tpc ∧ v'.tcause = v.tcause ∧ v'.taddr = v.taddr ∧ v'.tinfo = v.tinfo ∧ v'.hinge = v.hinge
        ∧ KeepsRest w s t)
    ∧ TrapsIf i (fun e _ => e.v.handler = none) (fun e _ => { cause := .illegal, addr := e.p, info := 10 })
    ∧ TrapsIf i (fun e _ => ∃ h, e.v.handler = some h ∧ (h.sub ≠ e.x ∨ h.mask ≠ e.mask)) (fun e _ => { cause := .mode, addr := e.p, info := 10 })

/-- R142 to R147: the element-wise integer forms compute exactly on the n-bit elements of every executing lane, wrapped or saturated, and write the result extended to 32 bits, or as a pair; under `.x2` both halves. R149 to R152: bit fields, comparison into a predicate, selection by a predicate, and the carry chain, in every executing lane. -/
def Obligations.VectorIntegerResults : Prop :=
  (∀ f : RRR,
  let n := vBits f
  let z := toInt (tySigned f.ty) n
  let fit := fitN f.sat (tySigned f.ty) n
  let each := fun op : Nat → Nat → Nat → Nat => vecMap f n (ext32 (tySigned f.ty) n) (fun a b c => (op a b c, 0))
  Yields (.vadd f) (each (fun a b _ => fit (z a + z b)))
    ∧ Yields (.vsub f) (each (fun a b _ => fit (z a - z b)))
    ∧ Yields (.vmul f) (each (fun a b _ => fit (z a * z b)))
    ∧ Yields (.vmulh f) (each (fun a b _ => fit (z a * z b / 2 ^ n)))
    ∧ Yields (.vmin f) (each (fun a b _ => fit (min (z a) (z b))))
    ∧ Yields (.vmax f) (each (fun a b _ => fit (max (z a) (z b))))
    ∧ Yields (.vmad f) (each (fun a b c => fit (z a * z b + z c)))
    ∧ Yields (.vand f) (each (fun a b _ => a &&& b))
    ∧ Yields (.vor f) (each (fun a b _ => a ||| b))
    ∧ Yields (.vxor f) (each (fun a b _ => a ^^^ b))
    ∧ Yields (.vandn f) (each (fun a b _ => a &&& (2 ^ n - 1 - b)))
    ∧ Yields (.vshl f) (each (fun a b _ => a * 2 ^ (b % n) % 2 ^ n))
    ∧ Yields (.vshr f) (each (fun a b _ => a / 2 ^ (b % n)))
    ∧ Yields (.vsar f) (each (fun a b _ => truncN n (sint n a / 2 ^ (b % n))))
    ∧ Yields (.vabs f) (each (fun a _ _ => fitN f.sat true n (sint n a).natAbs))
    ∧ Yields (.vclz f) (each (fun a _ _ => leadZeros n a))
    ∧ Yields (.vpopc f) (each (fun a _ _ => popcount n a))
    ∧ Yields (.vmov f) (each (fun a _ _ => a)))
    ∧ (∀ f : RRR,
  let n := vBits f
  let z := toInt (tySigned f.ty) n
  let pos := fun (e : Env) (l : Nat) => e.rdVecB f 32 l % n
  let w := fun (e : Env) (l : Nat) => min (e.rdVec f.sc 32 f.c l) n
  Yields (.vbfx f) (fun e => eachLane e (fun l => (e.wrV n f.d l (if w e l = 0 then 0 else
        if tySigned f.ty then truncN n (sint (w e l) (e.rdVec f.sa n f.a l % 2 ^ n / 2 ^ pos e l)) else e.rdVec f.sa n f.a l % 2 ^ n / 2 ^ pos e l % 2 ^ w e l), 0)))
    ∧ Yields (.vbfi f) (fun e => eachLane e (fun l => (if w e l = 0 then [] else e.wrV n f.d l (bitInsert n (e.rdVec false n f.d l) (e.rdVec f.sa n f.a l) (pos e l) (w e l)), 0)))
    ∧ Yields (.vcmp f) (fun e => eachLane e (fun l => (e.wrP f.d l (intCond f.fn (z (e.rdVec f.sa n f.a l)) (z (e.rdVecB f n l))), 0)))
    ∧ Yields (.vsel f) (fun e => eachLane e (fun l => (e.wrV n f.d l (if e.rdP f.c l then e.rdVec f.sa n f.a l else e.rdVecB f n l), 0)))
    ∧ Yields (.vaddc f) (fun e => eachLane e (fun l =>
        let c := if e.rdP f.c l then 1 else 0
        let x : Int := if f.fn = 0 then (e.rdVec f.sa 32 f.a l : Int) + e.rdVecB f 32 l + c else (e.rdVec f.sa 32 f.a l : Int) - e.rdVecB f 32 l - c
        (e.wrV 32 f.d l (truncN 32 x) ++ e.wrP f.c l (decide (if f.fn = 0 then 2 ^ 32 ≤ x else x < 0)), 0))))

/-- R153 to R160: the float forms, element by element: one rounding of the exact result under the form's mode; minima and maxima, comparison, reciprocal, square root, the approximate functions and the class. The candidates of the approximate forms are the implementation's own (R158; log 13). R161: the vector conversion of every executing lane; a format register that is not valid is ILLEGAL with REASON 10 (R76). -/
def Obligations.VectorFloatResults : Prop :=
  (∀ f : RRR,
  let m := vFmt f
  let each := fun op : Env → Nat → Nat → Nat → Nat × Nat => fun e => vecMap f m.width (fun r => r) (op e) e
  let r := fun (e : Env) (x : Nat) => readF m e.v.ftz x
  Yields (.vfadd f) (each (fun e a b _ => addF m (e.rmode f.rnd) e.v.ftz (r e a) ((r e b).negIf false)))
    ∧ Yields (.vfsub f) (each (fun e a b _ => addF m (e.rmode f.rnd) e.v.ftz (r e a) ((r e b).negIf true)))
    ∧ Yields (.vfmul f) (each (fun e a b _ => mulF m (e.rmode f.rnd) e.v.ftz (r e a) (r e b)))
    ∧ Yields (.vffma f) (each (fun e a b c => fmaF m (e.rmode f.rnd) e.v.ftz (f.fn.testBit 0) (f.fn.testBit 1) (r e a) (r e b) (r e c)))
    ∧ Yields (.vfmin f) (each (fun e a b _ => minMaxF m false (decide (f.fn = 1)) e.v.ftz a b))
    ∧ Yields (.vfmax f) (each (fun e a b _ => minMaxF m true (decide (f.fn = 1)) e.v.ftz a b))
    ∧ Yields (.vrcp f) (each (fun e a _ _ => rcpF m (e.rmode f.rnd) e.v.ftz (r e a)))
    ∧ Yields (.vsqrt f) (each (fun e a _ _ => sqrtF m (e.rmode f.rnd) e.v.ftz (r e a)))
    ∧ Yields (.vrsq f) (each (fun e a _ _ => approxF .rsq m e.v.ftz a))
    ∧ Yields (.vexp2 f) (each (fun e a _ _ => approxF .exp2 m e.v.ftz a))
    ∧ Yields (.vlog2 f) (each (fun e a _ _ => approxF .log2 m e.v.ftz a))
    ∧ Yields (.vsin f) (each (fun e a _ _ => approxF .sin m e.v.ftz a))
    ∧ Yields (.vcos f) (each (fun e a _ _ => approxF .cos m e.v.ftz a))
    ∧ Yields (.vfcmp f) (fun e => eachLane e (fun l => (e.wrP f.d l (condF f.fn (r e (e.rdVec f.sa m.width f.a l)) (r e (e.rdVecB f m.width l))).1, (condF f.fn (r e (e.rdVec f.sa m.width f.a l)) (r e (e.rdVecB f m.width l))).2)))
    ∧ Yields (.vfclass f) (fun e => eachLane e (fun l => (e.wrV 32 f.d l (classF m (e.rdVec f.sa m.width f.a l)), 0))))
    ∧ (∀ f : CV,
  let n := if f.ty = .fq then 32 else tyBits 32 f.ty
  let bad := fun e : Env => (f.stype = .fq ∧ (e.nfmt f.sfmt).valid = false) ∨ (f.ty = .fq ∧ (e.nfmt f.dfmt).valid = false)
  YieldsIf (.vcvt f) (fun e _ => ¬ bad e) (fun _ s => s) (fun e _ => eachLane e (fun l =>
      let r := convert f.stype f.ty (e.nfmt f.sfmt) (e.nfmt f.dfmt) (e.rmode f.rnd) e.v.ftz f.sat (e.rdVec f.sa (if f.stype = .fq then 32 else tyBits 32 f.stype) f.a l)
      (e.wrV n f.d l (if f.ty = .fq ∨ isFloatTy f.ty then r.1 else ext32 (tySigned f.ty) n r.1), r.2)))
    ∧ TrapsIf (.vcvt f) (fun e _ => bad e) (fun e _ => { cause := .illegal, addr := e.p, info := 10 }))

/-- R162 to R164, R168: predicate logic, moves between predicates and registers, counting; the lowest executing lane read into a scalar, one lane written from a scalar. -/
def Obligations.PredicateResults : Prop := ∀ f : RRR,
  let on := fun e : Env => e.lanes.filter (fun l => e.rdP f.a l)
  Yields (.plog f) (fun e => eachLane e (fun l => (e.wrP f.d l (match f.fn with
        | 0 => e.rdP f.a l && e.rdP f.b l
        | 1 => e.rdP f.a l || e.rdP f.b l
        | 2 => e.rdP f.a l != e.rdP f.b l
        | 3 => e.rdP f.a l && !(e.rdP f.b l)
        | 4 => !(e.rdP f.a l)
        | 5 => true
        | _ => false), 0)))
    ∧ Yields (.pmov f) (fun e => eachLane e (fun l => (if f.fn = 0 then e.wrV 32 f.d l (if e.rdP f.a l then 1 else 0) else if f.fn = 1 then e.wrP f.d l (decide (e.rdV f.a l ≠ 0)) else e.wrP f.d l ((e.rdS f.a).getLsbD (e.laneNo l)), 0)))
    ∧ Yields (.pcnt f) (fun e => { wr := e.wrS f.d (BitVec.ofNat 64 (if f.fn = 0 then (on e).length else match on e with
        | [] => if e.w16 then 16 else 32
        | l :: _ => e.laneNo l)) })
    ∧ Yields (.vrfl f) (fun e => { wr := e.wrS f.d (if f.ty = .i32 then sext64 32 (e.rdVec f.sa (vBits f) f.a (lowestLane e.act)) else BitVec.ofNat 64 (e.rdVec f.sa (vBits f) f.a (lowestLane e.act))) })
    ∧ Yields (.vwlane f) (fun e =>
        let l := e.native ((e.rdB f).toNat % e.span)
        { wr := if e.act.getLsbD l then e.wrV (vBits f) f.d l ((e.rdS f.a).toNat % 2 ^ vBits f) else [] })

/-- R133, R165 to R171: the lane operations. A lane that executes without its member bit raises MEMBER with the lanes in TINFO and the instruction has no effect; otherwise each receiving lane gets the value of the lane its form names, or its own where that lane takes no part, and the reductions combine the participating lanes in the binary tree over lane numbers (R83). -/
def Obligations.LaneOperationResults : Prop := ∀ (f : RRR) (i : Instr) (eff : Env → Eff),
  let n := vBits f
  let got := fun (e : Env) (l j : Nat) => e.rdVec f.sa n f.a (if e.act.getLsbD (e.native j) then e.native j else l)
  let k := fun e : Env => (e.rdB f).toNat % e.span
  (i, eff) ∈ ([(.vshf f, fun e => eachLane e (fun l => (e.wrV n f.d l (got e l (e.rdVecB f 32 l % e.span)), 0))),
      (.vshfi f, fun e => eachLane e (fun l => (e.wrV n f.d l (got e l (if f.fn = 0 then (if k e ≤ e.laneNo l then e.laneNo l - k e else e.laneNo l) else if f.fn = 1 then (if e.laneNo l + k e ≤ e.span - 1 then e.laneNo l + k e else e.laneNo l) else e.laneNo l ^^^ k e)), 0))),
      (.vbcast f, fun e => eachLane e (fun l => (e.wrV n f.d l (got e l (k e)), 0))),
      (.vballot f, fun e => { wr := e.wrS f.d (BitVec.ofNat 64 (((e.lanes.filter (fun l => e.rdP f.a l)).map (fun l => 2 ^ e.laneNo l)).foldl (· + ·) 0)) }),
      (.vvote f, fun e =>
        let all := e.lanes.all (fun l => e.rdP f.a l)
        let any := e.lanes.any (fun l => e.rdP f.a l)
        eachLane e (fun l => (e.wrP f.d l (if f.fn = 0 then all else if f.fn = 1 then any else all || !any), 0))),
      (.vred f, fun e =>
        let r := (redTree f e e.span).getD (redIdentity f, 0)
        { wr := e.wrS f.d (if isFloatTy f.ty then BitVec.ofNat 64 r.1 else ext64 (tySigned f.ty) n r.1), flags := r.2 }),
      (.vscan f, fun e => eachLane e (fun l =>
        let r := (redTree f e (if f.b = 1 then e.laneNo l else e.laneNo l + 1)).getD (redIdentity f, 0)
        (e.wrV n f.d l (if isFloatTy f.ty then r.1 else ext32 (tySigned f.ty) n r.1), r.2)))] : List (Instr × (Env → Eff))) →
    YieldsIf i (fun e _ => ∀ l ∈ e.lanes, (e.rdS f.c).toNat.testBit (e.laneNo l) = true) (fun _ s => s) (fun e _ => eff e)
      ∧ TrapsIf i (fun e _ => ∃ l ∈ e.lanes, (e.rdS f.c).toNat.testBit (e.laneNo l) = false)
          (fun e _ => { cause := .member, info := BitVec.ofNat 64 (((e.lanes.filter (fun l => !((e.rdS f.c).toNat.testBit (e.laneNo l)))).map (fun l => 2 ^ e.laneNo l)).foldl (· + ·) 0) })

/-- R124: a vector form writes vector registers and predicate bits of its executing lanes alone: every other lane and register, every scalar, memory, scratchpad and every other wave are unchanged, and the integer, predicate and shuffle forms leave FLAGS alone. -/
def Obligations.VectorFrame : Prop := ∀ (f : RRR) (i : Instr) (s : State) (w x : Nat) (v : Wave) (u : Sub) (t : State),
  let quiet : List Instr := [.vadd f, .vsub f, .vmul f, .vmulh f, .vmin f, .vmax f, .vmad f, .vand f, .vor f, .vxor f, .vandn f, .vshl f, .vshr f, .vsar f, .vabs f, .vclz f, .vpopc f, .vmov f, .vbfx f, .vbfi f, .vsel f, .vfclass f]
  let flagging : List Instr := [.vfadd f, .vfsub f, .vfmul f, .vffma f, .vfmin f, .vfmax f, .vrcp f, .vsqrt f, .vrsq f, .vexp2 f, .vlog2 f, .vsin f, .vcos f]
  let lanes := (issueEnv s w x v u i).lanes
  s.Inv → Issuing s i w x v u → exec i s = .next t →
    (i ∈ quiet ∨ i ∈ flagging → KeepsRest w s t ∧ ∃ v', waveAt t w = some v' ∧ KeepsWave (lanes.flatMap (fun l => if f.ty.is64 ∧ i ≠ .vfclass f then [.v f.d l, .v (f.d + 1) l] else [.v f.d l])) v v' ∧ (i ∈ quiet → v'.flags = v.flags))
    ∧ (i ∈ [.vcmp f, .vfcmp f, .plog f] → KeepsRest w s t ∧ ∃ v', waveAt t w = some v' ∧ KeepsWave (if f.d = 7 then [] else lanes.map (fun l => .p f.d l)) v v' ∧ (i ≠ .vfcmp f → v'.flags = v.flags))

/-- R128 to R130, R172: `brv`. A predicate true in every lane branches, one true in none falls through; a mixed one takes the lowest free entry of the hinge stack, whose record is RUN on both branches: the taken lanes go to the target as its sub-wave 1, the others to p + 8 as its sub-wave 0, and no register changes; with no entry free it raises SPLIT_OVERFLOW, and with its target out of range FETCH_BOUNDS. -/
def Obligations.VectorBranchResults : Prop := ∀ f : BR,
  let taken := fun e : Env => e.mask &&& laneMask (fun l => e.rdP f.d l)
  let target := fun e : Env => (sint 64 e.p.toNat + 8 * sint 64 f.off.toNat : Int)
  let inRange := fun e : Env => -(2 ^ 56 : Int) ≤ target e ∧ target e < 2 ^ 56
  let mixed := fun e : Env => taken e ≠ e.mask ∧ taken e ≠ 0
  YieldsIf (.brv f) (fun e _ => taken e = e.mask ∧ inRange e) (fun _ s => s) (fun e _ => { go := .br (target e) })
    ∧ YieldsIf (.brv f) (fun e _ => taken e = 0 ∧ e.mask ≠ 0 ∧ inRange e) (fun _ s => s) (fun _ _ => {})
    ∧ TrapsIf (.brv f) (fun e _ => ¬ inRange e) (fun e _ => { cause := .fetchBounds, addr := BitVec.ofInt 64 (target e) })
    ∧ TrapsIf (.brv f) (fun e _ => mixed e ∧ inRange e ∧ ∀ n ∈ splitEntries e.v.kernel.w16 e.half, (tblFind e.v.hinge n).isSome = true) (fun _ _ => { cause := .splitOverflow })
    ∧ ∀ (s : State) (w x : Nat) (v : Wave) (u : Sub) (n : Nat), s.Inv → Issuing s (.brv f) w x v u → mixed (issueEnv s w x v u (.brv f)) → inRange (issueEnv s w x v u (.brv f)) →
        freeEntry v (halfOf v x) = some n → x / 2 ≠ n →
        ∃ t v', exec (.brv f) s = .next t ∧ waveAt t w = some v'
          ∧ tblFind v'.hinge n = some { mask := u.mask, parent := x / 2, pbranch := decide (x % 2 = 1), tst := .run, fst := .run }
          ∧ tblFind v'.subs (2 * n + 1) = some { pc := BitVec.ofInt 64 (target (issueEnv s w x v u (.brv f))), mask := taken (issueEnv s w x v u (.brv f)) }
          ∧ tblFind v'.subs (2 * n) = some { pc := u.pc + 8, mask := u.mask &&& ~~~ taken (issueEnv s w x v u (.brv f)) }
          ∧ tblFind v'.subs x = none ∧ (∀ h, tblFind v.hinge (x / 2) = some h → ∃ h', tblFind v'.hinge (x / 2) = some h' ∧ (if x % 2 = 1 then h'.tst else h'.fst) = .split ∧ h'.mask = h.mask ∧ h'.parent = h.parent)
          ∧ v'.s = v.s ∧ v'.v = v.v ∧ v'.p = v.p ∧ v'.flags = v.flags ∧ v'.rootMask = v.rootMask ∧ KeepsRest w s t

/-- R128, R173: `join` at address p of a sub-wave under entry h = x ÷ 2. At the root it falls through. A sibling that waits at p fuses with it, and one whose lanes have all exited lets it go on alone: the sub-wave takes the place of h in its parent at p + 8, and h is freed. A sibling that waits elsewhere lets it pass; one that runs or is split makes it wait. Every form resets the watchdog count. R131, R132, R174: `wend` takes the executing lanes out of the sub-wave, the wave and every hinge entry; with lanes left the sub-wave goes on at p + 8; with no executing lane it only resets the watchdog. The last lane of an unsplit wave ends the wave: it issues nothing more and, once drained, leaves its place in a later cycle. -/
def Obligations.JoinResults : Prop :=
  (∀ (f : RRR) (s : State) (w x : Nat) (v : Wave) (u : Sub), s.Inv → Issuing s (.join f) w x v u →
  let sib := if x % 2 = 1 then x - 1 else x + 1
  let place := fun h : Hinge => 2 * h.parent + (if h.pbranch then 1 else 0)
  let go := fun (mask : Lane32) (h : Hinge) => ∃ t v', exec (.join f) s = .next t ∧ waveAt t w = some v' ∧ tblFind v'.hinge (x / 2) = none ∧ tblFind v'.subs (place h) = some { pc := u.pc + 8, mask := mask } ∧ (v.handler = none → v'.wd = 0) ∧ v'.s = v.s ∧ v'.v = v.v ∧ v'.p = v.p ∧ v'.flags = v.flags ∧ KeepsRest w s t
  let pass := ∃ t v', exec (.join f) s = .next t ∧ waveAt t w = some v' ∧ v'.hinge = v.hinge ∧ tblFind v'.subs x = some { u with pc := u.pc + 8, aged := 0 } ∧ (v.handler = none → v'.wd = 0) ∧ v'.s = v.s ∧ v'.v = v.v ∧ v'.p = v.p ∧ KeepsRest w s t
  (tblFind v.hinge (x / 2) = none → pass)
    ∧ ∀ h, tblFind v.hinge (x / 2) = some h →
        let st := if x % 2 = 1 then h.fst else h.tst
        (∀ y, st = .wait → tblFind v.subs sib = some y → (y.pc = u.pc → go (u.mask ||| y.mask) h) ∧ (y.pc ≠ u.pc → pass))
          ∧ (st = .gone → go u.mask h)
          ∧ (st = .run ∨ st = .split → ∃ t v', exec (.join f) s = .next t ∧ waveAt t w = some v' ∧ tblFind v'.subs x = some { u with hold := .atJoin, aged := 0 } ∧ tblFind v'.subs sib = tblFind v.subs sib
              ∧ (∃ h', tblFind v'.hinge (x / 2) = some h' ∧ (if x % 2 = 1 then h'.tst else h'.fst) = .wait ∧ (if x % 2 = 1 then h'.fst else h'.tst) = st) ∧ (v.handler = none → v'.wd = 0) ∧ KeepsRest w s t))
    ∧ (∀ (f : RRR) (s : State) (w x : Nat) (v : Wave) (u : Sub), s.Inv → Issuing s (.wend f) w x v u →
  let out := (issueEnv s w x v u (.wend f)).act
  (out = 0 → exec (.wend f) s = .next (retire s w x v u (.wend f) s { wdReset := true }))
    ∧ (out ≠ 0 → u.mask &&& ~~~ out ≠ 0 → ∃ t v', exec (.wend f) s = .next t ∧ waveAt t w = some v' ∧ tblFind v'.subs x = some { u with pc := u.pc + 8, mask := u.mask &&& ~~~ out, aged := 0 }
        ∧ v'.rootMask = v.rootMask &&& ~~~ out ∧ (∀ n h, tblFind v.hinge n = some h → tblFind v'.hinge n = some { h with mask := h.mask &&& ~~~ out })
        ∧ (∀ y, y ≠ x → tblFind v'.subs y = tblFind v.subs y) ∧ v'.s = v.s ∧ v'.v = v.v ∧ v'.p = v.p ∧ v'.ended = false ∧ KeepsRest w s t)
    ∧ (out ≠ 0 → u.mask &&& ~~~ out = 0 → v.hinge = [] → v.subs = [(x, u)] → ∃ t v', exec (.wend f) s = .next t ∧ waveAt t w = some v' ∧ v'.ended = true ∧ v'.subs = [] ∧ v'.handler = none ∧ v'.rootMask = v.rootMask &&& ~~~ out ∧ v'.s = v.s ∧ v'.v = v.v ∧ v'.p = v.p
        ∧ (v.drained = true → v.isResponder = false → (∀ k o, (k, o) ∈ s.eng → o.wave ≠ w) → waveAt (reapWave { t with clock := t.clock + 1 } w) w = none)))

/-- R109, R127, R132, R310, R469: `end` of an unsplit wave, or of a half whose only sub-wave is unsplit, ends it: with no access queued and every token settled the wave issues nothing more; until then it waits. A split one raises MODE with REASON 10; a sub-wave under a split record is split also when it is the only one left. -/
def Obligations.EndResults : Prop := ∀ (f : RRR) (s : State) (w x : Nat) (v : Wave) (u : Sub), Issuing s (.endThread f) w x v u →
  let sole : Prop := (v.subs.filter (fun e => halfOf v e.1 = halfOf v x)).length = 1 ∧ isRoot v.kernel.w16 (x / 2) = true
  (¬ sole → exec (.endThread f) s = .next (trapped s w x s { cause := .mode, addr := u.pc, info := 10 }))
    ∧ (sole → v.failed = [] → v.subs = [(x, u)] → v.hinge = [] → u.mask ≠ 0 → v.accs = [] → (v.toks.all (fun t => t.2.settled)) = true →
        ∃ t, exec (.endThread f) s = .next t ∧ ∀ v', waveAt t w = some v' → v'.ended = true ∧ v'.subs = [] ∧ v'.s = v.s ∧ v'.v = v.v)
    ∧ (sole → v.failed = [] → tblFind v.hinge (x / 2) = none → tblErase v.subs x ≠ [] →
        ∃ t v', exec (.endThread f) s = .next t ∧ waveAt t w = some v' ∧ v'.subs = tblErase v.subs x ∧ v'.rootMask = v.rootMask &&& ~~~ u.mask ∧ v'.ended = false ∧ v'.s = v.s ∧ v'.v = v.v)
    ∧ (sole → v.failed = [] → v.subs = [(x, u)] → v.hinge = [] → (v.accs ≠ [] ∨ (v.toks.all (fun t => t.2.settled)) = false) → exec (.endThread f) s = .next (finish s s))

/-- R111, R175, R177, R178, R240, R265, R273, R274: a load, store or atomic form whose every request passes its check completes at issue: its accesses stand in the queues of the wave, in lane order, with the form's order and scope, and it has done nothing else but fill the TLB. A flat store that spans two pages stands as two stores. -/
def Obligations.MemoryFormsQueue : Prop := ∀ (f : MEM) (g : ATM) (i : Instr) (flat : Bool) (k : Kind) (ord scope : Nat) (reqs : Env → List Req), (i, flat, k, ord, scope, reqs) ∈ memoryForms f g →
  ∀ (s : State) (w x : Nat) (v : Wave) (u : Sub) (l : List Acc), Issuing s i w x v u → let e := issueEnv s w x v u i
    checkReqs e s flat k (reqs e) = .ok l → (2 ≤ ord → v.failed = []) → (k = .store ∨ ∀ a ∈ l, ∀ b ∈ a.bytes, b.at_.isPeer = false) →
    exec i s = .next (retire s w x v u i (served e s flat (reqs e)) { accs := prepAccs e (served e s flat (reqs e)) ord scope l })

/-- R178, R221, R224, R268, R272, R273: a form one of whose requests fails its check has no effect. The lowest failing lane decides: a misaligned atomic raises ILLEGAL with REASON 10; a translation, permission or reachability fault raises PAGE or PROTECTION with the lane, KIND, reason and level in TINFO, or in a mirrored context, for an unmapped page, waits on a gap that the host is told of. -/
def Obligations.MemoryFormFaults : Prop := ∀ (f : MEM) (g : ATM) (i : Instr) (flat : Bool) (k : Kind) (ord scope : Nat) (reqs : Env → List Req), (i, flat, k, ord, scope, reqs) ∈ memoryForms f g →
  ∀ (s : State) (w x : Nat) (v : Wave) (u : Sub), Issuing s i w x v u → let e := issueEnv s w x v u i
    (2 ≤ ord → v.failed = []) →
    (∀ lane, checkReqs e s flat k (reqs e) = .error (.align lane) → exec i s = .next (trapped s w x s { cause := .illegal, addr := u.pc, info := 10 }))
    ∧ (∀ lane m, checkReqs e s flat k (reqs e) = .error (.mem lane m) → (m.cause = .page ∧ m.reason = 0 ∧ (ctxAt s v.ctx).t.mirrored = true → False) →
        exec i s = .next (trapped s w x s { cause := m.cause, addr := BitVec.ofNat 64 m.addr, info := BitVec.ofNat 64 ((if m.second then 4096 else 0) + m.reason * 1024 + k.code * 256 + (if m.cause = .page ∧ m.reason < 3 then m.level else 0) * 32 + lane) }))
    ∧ (∀ lane m, checkReqs e s flat k (reqs e) = .error (.mem lane m) → m.cause = .page → m.reason = 0 → (ctxAt s v.ctx).t.mirrored = true →
        ∃ t v', exec i s = .next t ∧ waveAt t w = some v' ∧ v'.holdOf x = .gap (ctxAt s v.ctx).gapSeq ∧ v'.s = v.s ∧ v'.v = v.v ∧ v'.p = v.p ∧ v'.accs = v.accs
          ∧ t.out = s.out ++ [.gap (gapRecord v.ctx (ctxAt s v.ctx).gapSeq v.core v.place k.code (BitVec.ofNat 64 m.va))])

/-- R35, R219, R220: what the check of one flat access answers: PROTECTION with reason 1 where a byte is not canonical, SECOND set where that byte lies in the second page, PAGE where the walk finds no leaf, PROTECTION with reason 0 where the leaf's permissions do not allow the kind: R for loads, W for stores, both for atomics, X for fetches. -/
def Obligations.FlatAccessChecks : Prop := ∀ (s : State) (tlb : View) (ctx : Nat) (k : Kind) (va n tag : Nat), 0 < n → va < 2 ^ 64 →
  let last := (va + n - 1) % 2 ^ 64
  (canonical va = false → checkMap s tlb ctx k va n tag = .error { cause := .protection, addr := va, reason := 1 })
    ∧ (canonical va = true → canonical last = false → checkMap s tlb ctx k va n tag = .error { cause := .protection, addr := va, va := last / 4096 * 4096, reason := 1, second := decide (va / 4096 ≠ last / 4096) })
    ∧ (canonical va = true → canonical last = true → ∀ r l, translate s tlb ctx va tag = .page r l → checkMap s tlb ctx k va n tag = .error { cause := .page, addr := va, reason := r, level := l })
    ∧ (canonical va = true → canonical last = true → ∀ l, translate s tlb ctx va tag = .leaf l →
        (match k with | .load => l.r | .store => l.w | .atomic => l.r && l.w | .fetch => l.x) = false → checkMap s tlb ctx k va n tag = .error { cause := .protection, addr := va, reason := 0 })
    ∧ (canonical va = true → canonical last = true → ∀ l, translate s tlb ctx va tag = .leaf l → va % 2 ^ l.size + n ≤ 2 ^ l.size →
        (match k with | .load => l.r | .store => l.w | .atomic => l.r && l.w | .fetch => l.x) = true →
        checkMap s tlb ctx k va n tag = .ok ((List.range n).map (fun i => { at_ := placeOf { l with pa := l.pa + i }, attr := attrOf l })))

/-- R241 to R252: a queued load, store or atomic performs when the order rules let it: a load reads, a store is accepted by its die, by its home on another die, and at package scope, each in a step, an atomic acts at its home; what the markers behind it and the drained waves then do follows. In particular the only queued access of a wave, plain and single-copy atomic, always performs: a load puts into its register what its bytes of scratchpad or device memory hold, where no cache holds the line and no store of the die is on its way; a store writes its bytes of scratchpad, or is accepted for device memory of its own die, and then performed at package scope; an atomic on device memory leaves the new value there and returns the old one. No other byte changes. -/
def Obligations.QueuedAccessesPerform : Prop :=
  (∀ (s : State) (w : Nat) (v : Wave) (a : Acc), waveAt s w = some v → v.accs = [a] → a.gated = false → a.gap = none → a.got = [] → a.unit = 0 → a.ord = 0 → a.bytes ≠ [] → v.inPeer a = false → (∀ d ∈ s.dies, d.2.watch.wctl = []) →
  let die := dieOf v.core
  let n := a.bytes.length
  let spad := ∀ b ∈ a.bytes, ∃ cohort core off co al, b.at_ = .spad cohort core off ∧ tblFind s.cohorts cohort = some co ∧ tblFind co.spad core = some al
  let mem := fun pa : Nat => a.bytes.map (·.at_) = (List.range n).map (fun i => Place.dev (pa + i)) ∧ lineOf pa = lineOf (pa + n - 1) ∧ ∀ i < n, inDevice (pa + i) = true
  let known := fun pa : Nat => lineOf pa ∉ s.poison ∧ ∀ b ∈ a.bytes, (∀ k, tblFind s.lineKey (lineOf pa) = some k → k = b.attr.key) ∧ ∀ i < n, pa + i ∉ s.unspec
  let reads := fun (r : Nat) (p : LdPart) (x : Nat) => ∃ s1 v1, exec (.loadPerformed w a.id) s = .next (finish s (settle s1)) ∧ waveAt s1 w = some v1 ∧ v1.accs = [] ∧ v1.getS r = BitVec.ofNat 64 (p.value x) ∧ (∀ j, j ≠ r → v1.getS j = v.getS j) ∧ (∀ q, rdByte s1 q = rdByte s q) ∧ ∀ q, spadByte s1 q = spadByte s q
  (∀ r p, a.kind = .load [p] → p.dst = .s r → spad → (∀ b ∈ a.bytes, spadPoisoned s b.at_ = false) → reads r p (leNat (a.bytes.map (fun b => spadByte s b.at_))))
    ∧ (∀ r p pa, a.kind = .load [p] → p.dst = .s r → mem pa → known pa → (dieAt s die).pend = [] → tblFind (dieAt s die).remote (lineOf pa) = none → tblFind (coreAt s (physCore s v.core)).l1 (lineOf pa) = none → reads r p (leNat (rdBytes s pa n)))
    ∧ (∀ d, a.kind = .store d → d.length = n → a.stage = 0 → spad → (a.bytes.map (·.at_)).Nodup →
        ∃ s1 v1, exec (.storePerformed w a.id) s = .next (finish s (settle s1)) ∧ waveAt s1 w = some v1 ∧ v1.accs = [] ∧ v1.s = v.s ∧ (∀ y ∈ a.bytes.zip d, spadByte s1 y.1.at_ = y.2) ∧ (∀ q, (∀ b ∈ a.bytes, q ≠ b.at_) → spadByte s1 q = spadByte s q) ∧ ∀ q, rdByte s1 q = rdByte s q)
    ∧ (∀ d pa, a.kind = .store d → d.length = n → a.stage = 0 → mem pa → homeDie pa = die → homeDie (pa + n - 1) = die →
        ∃ s1 v1 a1, exec (.storePerformed w a.id) s = .next (finish s (settle s1)) ∧ waveAt s1 w = some v1 ∧ v1.accs = [a1] ∧ a1.stage = 1 ∧ v1.s = v.s ∧ rdBytes s1 pa n = d ∧ (∀ q, inDevice q = true → ¬ (pa ≤ q ∧ q < pa + n) → rdByte s1 q = rdByte s q) ∧ ∀ q, spadByte s1 q = spadByte s q)
    ∧ (∀ d pa, a.kind = .store d → a.stage = 1 → mem pa → (∀ y ∈ (dieAt s die).pend, y.wave = w → y.acc = a.id → y.home = true) →
        ∃ s1 v1 a1, exec (.storePerformed w a.id) s = .next (finish s (settle s1)) ∧ waveAt s1 w = some v1 ∧ v1.accs = [a1] ∧ a1.stage = 2 ∧ v1.s = v.s ∧ (∀ q, rdByte s1 q = rdByte s q) ∧ ∀ q, spadByte s1 q = spadByte s q)
    ∧ (∀ r p pa op b c, a.kind = .atomic op b c [p] → p.dst = .s r → mem pa → known pa → (dieAt s die).pend = [] → a.scope < 4 →
        let old := leNat (rdBytes s pa n)
        ∃ s1 v1, exec (.atomicPerformed w a.id) s = .next (finish s (settle s1)) ∧ waveAt s1 w = some v1 ∧ v1.accs = [] ∧ v1.getS r = BitVec.ofNat 64 (p.value old) ∧ (∀ j, j ≠ r → v1.getS j = v.getS j)
          ∧ (∀ y, atomicNew op (8 * n) old (b.toNat % 2 ^ (8 * n)) (c.toNat % 2 ^ (8 * n)) = some y → rdBytes s1 pa n = leBytes n y) ∧ (∀ q, inDevice q = true → ¬ (pa ≤ q ∧ q < pa + n) → rdByte s1 q = rdByte s q) ∧ ∀ q, spadByte s1 q = spadByte s q))
    ∧ ∀ (s : State) (w k : Nat) (v : Wave) (pre : List Acc) (a : Acc), accAt s w k = some (v, pre, a) →
  let die := dieOf v.core
  let here := ∀ b ∈ a.bytes, b.at_.isPeer = false ∧ b.at_.isHost = false
  let flat := here ∧ ∀ b ∈ a.bytes, b.at_.isSpad = false
  (∀ ps, a.kind = .load ps → (∀ b ∈ a.bytes, b.at_.isAway = false) → loadReady a pre = true → v.peersOk a = true → ¬ (isAcq a.ord = true ∧ acqWaits s die a = true) →
      exec (.loadPerformed w k) s = .next (finish s (settle (doLoad s w v pre a ps))))
    ∧ ((∃ d, a.kind = .store d) → here → (∃ b ∈ a.bytes, b.at_.isSpad = true) → storeReady a pre 1 = true → released s die a pre = true →
      exec (.storePerformed w k) s = .next (finish s (settle (spadStoreAcc s w v a (storeData a)))))
    ∧ ((∃ d, a.kind = .store d) → flat → a.stage = 0 → storeReady a pre 1 = true → released s die a pre = true →
      exec (.storePerformed w k) s = .next (finish s (settle (acceptStore s w v a (storeData a)))))
    ∧ ((∃ d, a.kind = .store d) → flat → a.stage = 1 → awayStore s die w k = true → dieOrder s die w k = true →
      exec (.storePerformed w k) s = .next (finish s (settle (homeStore s w v a))))
    ∧ ((∃ d, a.kind = .store d) → flat → a.stage = 1 → awayStore s die w k = false → storeReady a pre 2 = true →
      exec (.storePerformed w k) s = .next (finish s (settle (packageStore s w v a))))
    ∧ (∀ op b c ps, a.kind = .atomic op b c ps → flat → atomicReady a pre = true → released s die a pre = true → (isRel a.ord = true → v.landedBefore a.cyc = true) → v.peersOk a = true → atomicWaits s die a = false →
      ∃ r, r = atomicHome s (physCore s v.core) a op b c ∧ exec (.atomicPerformed w k) s = .next (finish s (settle (matchAccess (acqDrop (landAll (dropAcc r.1 w k) w (partWrs ps r.2)) (physCore s v.core) a) (waveSeen w v 2 a.bytes)))))

/-- R243, R245: what one byte of a load returns: the wave's own latest earlier store to the byte while it is queued; else, for a plain load, the core's L1 copy under the page's key, else the die's accepted store, else, on a die that is not the line's home, its remote copy, else the home's byte. -/
def Obligations.LoadedByteSource : Prop := ∀ (s : State) (core die : Nat) (pre : List Acc) (b : AByte) (pa : Nat) (tag : Nat), b.at_ = .dev pa →
  (∀ x, ownByte pre b = some x → readPlace s core die false pre b none tag = x)
    ∧ (ownByte pre b = none → (∀ l, tblFind (coreAt s core).l1 (lineOf pa) = some l → l.key = b.attr.key → readPlace s core die false pre b none tag = l.bytes.getD (pa % 64) 0)
      ∧ (tblFind (coreAt s core).l1 (lineOf pa) = none → ∀ x, pendByte s die pa b.attr.key = some x → readPlace s core die false pre b none tag = x)
      ∧ (tblFind (coreAt s core).l1 (lineOf pa) = none → pendByte s die pa b.attr.key = none → homeDie pa = die → readPlace s core die false pre b none tag = homeByte s b.attr.key pa tag)
      ∧ (tblFind (coreAt s core).l1 (lineOf pa) = none → pendByte s die pa b.attr.key = none → homeDie pa ≠ die → remoteByte s die pa b.attr.key = none → readPlace s core die false pre b none tag = homeByte s b.attr.key pa tag))
    ∧ (ownByte pre b = none → tblFind (coreAt s core).l1 (lineOf pa) = none → pendByte s die pa b.attr.key = none → homeDie pa ≠ die → ∀ x, remoteByte s die pa b.attr.key = some x → readPlace s core die false pre b none tag = x)
    ∧ (pa ∉ s.unspec → (∀ k, tblFind s.lineKey (lineOf pa) = some k → k = b.attr.key) → homeByte s b.attr.key pa tag = rdByte s pa)

/-- R256, R272: what an atomic of n bits leaves, from the old value and its operands. -/
def Obligations.AtomicNewValues : Prop := ∀ (n old b c : Nat), n = 32 ∨ n = 64 → old < 2 ^ n → b < 2 ^ n → c < 2 ^ n →
  atomicNew 0 n old b c = some b ∧ atomicNew 1 n b b c = some c ∧ (old ≠ b → atomicNew 1 n old b c = none) ∧ atomicNew 2 n old b c = some ((old + b) % 2 ^ n)
    ∧ atomicNew 3 n old b c = some (old &&& b) ∧ atomicNew 4 n old b c = some (old ||| b) ∧ atomicNew 5 n old b c = some (old ^^^ b)
    ∧ (∃ y, atomicNew 6 n old b c = some y ∧ sint n y = min (sint n old) (sint n b)) ∧ (∃ y, atomicNew 7 n old b c = some y ∧ sint n y = max (sint n old) (sint n b))
    ∧ atomicNew 8 n old b c = some (min old b) ∧ atomicNew 9 n old b c = some (max old b)
    ∧ (∀ m, m = (if n = 32 then fmtOf .f32 .f32 else fmtOf .f32 .f64) → atomicNew 10 n old b c = some (addF m 0 false (decodeF m old) (decodeF m b)).1)
    ∧ atomicNew 11 n old b c = some (if b ≤ old then 0 else old + 1) ∧ atomicNew 12 n old b c = some (if old = 0 ∨ b < old then b else old - 1)

/-- R244, R256, R276: an atomic on device memory whose line is not poisoned returns the bytes its home held and leaves the new value there; every other byte of memory reads as before. -/
def Obligations.AtomicAtHome : Prop := ∀ (s : State) (core op : Nat) (a : Acc) (b c : Word) (x : AByte) (r : List AByte) (pa : Nat), a.bytes = x :: r → x.at_ = .dev pa → pa / 64 = (pa + a.bytes.length - 1) / 64 → lineOf pa ∉ s.poison →
  (∀ q < a.bytes.length, inDevice (pa + q) = true ∧ pa + q ∉ s.unspec) → (∀ k, tblFind s.lineKey (lineOf pa) = some k → k = x.attr.key) →
  let n := a.bytes.length
  let t := atomicHome s core a op b c
  t.2 = rdBytes s pa n
    ∧ (∀ y, atomicNew op (8 * n) (leNat (rdBytes s pa n)) (b.toNat % 2 ^ (8 * n)) (c.toNat % 2 ^ (8 * n)) = some y → rdBytes t.1 pa n = leBytes n y)
    ∧ (∀ q, inDevice q = true → ¬ (pa ≤ q ∧ q < pa + n) → rdByte t.1 q = rdByte s q)

/-- R213, R244: a scratchpad store writes each of its bytes once and no other byte of scratchpad or memory; where two of its bytes name one place the later one stays. -/
def Obligations.ScratchpadStoreWrites : Prop := ∀ (s : State) (p q : Place) (b : Byte),
  (∀ cohort core off co al, p = .spad cohort core off → tblFind s.cohorts cohort = some co → tblFind co.spad core = some al → spadByte (spadStore s p b) p = b)
    ∧ (∀ core ctx off al, p = .tile core ctx off → tblFind (coreAt s core).tiles ctx = some al → spadByte (spadStore s p b) p = b)
    ∧ (q ≠ p → spadByte (spadStore s p b) q = spadByte s q)
    ∧ (∀ pa, rdByte (spadStore s p b) pa = rdByte s pa)

/-- R175, R176, R269, R277, R281: the other forms that queue: `vpack` queues the rewrite of its fields' bits, `stm` one store for each core of the quad that holds the allocation, `discard` its line, and `align` and `fence` a marker, which at once has its effect where nothing holds it. -/
def Obligations.OtherQueueForms : Prop := ∀ f : MEM,
  (∀ (s : State) (w x : Nat) (v : Wave) (u : Sub) (bs : List AByte), Issuing s (.vpack f) w x v u → let e := issueEnv s w x v u (.vpack f)
      checkSpad s v .store (e.rdS f.a + f.off).toNat (streamSpan e f) = .ok bs →
      exec (.vpack f) s = .next (retire s w x v u (.vpack f) s { accs := [{ kind := .pack (leBytes (streamSpan e f) (packFields e f).1) (leBytes (streamSpan e f) (packFields e f).2) [], va := (e.rdS f.a + f.off).toNat, n := streamSpan e f, unit := 1, flat := false, bytes := withGran false (e.rdS f.a + f.off).toNat bs }] }))
    ∧ (∀ (s : State) (w x : Nat) (v : Wave) (u : Sub) (m : MemFault), Issuing s (.vpack f) w x v u → checkSpad s v .store ((issueEnv s w x v u (.vpack f)).rdS f.a + f.off).toNat (streamSpan (issueEnv s w x v u (.vpack f)) f) = .error m →
      exec (.vpack f) s = .next (trapped s w x s (m.trap .store 0)))
    ∧ YieldsIf (.stm f) (fun e _ => (∀ y ∈ stmElems e f, stmOk e f y = true)) (fun _ s => s) (fun e s => { accs := if (stmElems e f).isEmpty then [] else (stmTargets s e.v).map (fun c => stmAcc e f c.1) })
    ∧ (∀ (s : State) (w x : Nat) (v : Wave) (u : Sub) (l : List Acc), Issuing s (.discard f) w x v u → let e := issueEnv s w x v u (.discard f)
      checkReqs e s true .store [{ va := (e.rdS f.a + e.rdS f.b + f.lit.getD f.off).toNat, kind := .discard }] = .ok l →
      exec (.discard f) s = .next (retire s w x v u (.discard f) (served e s true [{ va := (e.rdS f.a + e.rdS f.b + f.lit.getD f.off).toNat, kind := .discard }]) { accs := l.filter (fun a => a.bytes.all (fun b => b.at_.devAddr.isSome)) }))
    ∧ (∀ (i : Instr) (a0 : Acc), (i, a0) ∈ ([(.align f, { kind := .align }), (.fence f, { kind := .fence, ord := cOrd f.c, scope := cScope f.c })] : List (Instr × Acc)) →
        ∀ (s : State) (w x : Nat) (v : Wave) (u : Sub), Issuing s i w x v u → v.failed = [] ∨ (a0.kind ≠ .align ∧ a0.ord < 2) →
          let e := issueEnv s w x v u i
          let a := beginRelease s (dieOf v.core) v.accs { a0 with issue := v.nextAcc }
          exec i s = .next (if markerDone s (dieOf v.core) a v.accs then retire s w x v u i (if a.kind = .fence then acqDrop s e.core a else s) {} else retire s w x v u i s { accs := [a] }))

/-- R403: an `align`, a release or an `end` of a wave that has a failed peer store raises PEER_FAULT or PEER_TIMEOUT for the earliest one before it takes effect, and the record is cleared. -/
def Obligations.FailedPeerStoreTraps : Prop := ∀ (f : MEM) (g : RRR) (h : EN) (i : Instr) (s : State) (w x : Nat) (v : Wave) (u : Sub) (y : FailedStore) (r : List FailedStore), Issuing s i w x v u → v.failed = y :: r →
  i = .align f ∨ (i = .fence f ∧ 2 ≤ cOrd f.c) ∨ (i = .endThread g ∧ v.subs = [(x, u)] ∧ isRoot v.kernel.w16 (x / 2) = true) ∨ (i = .sst f ∧ 2 ≤ cOrd f.c) ∨ (i = .vst f ∧ 2 ≤ cOrd f.c ∧ (issueEnv s w x v u i).lanes ≠ [])
    ∨ ((i = .garr h ∨ i = .gsync h) ∧ v.isResponder = false ∧ (tblGet ({} : Gate) (tblGet ({} : Cohort) s.cohorts v.cohort).gates h.a).expect ≠ 0) →
  exec i s = .next (trapped s w x (modWave s w (fun a => { a with failed := [] }))
    { cause := if y.timeout then .peerTimeout else .peerFault, addr := y.addr, info := BitVec.ofNat 64 (y.rank * 2 ^ 40 + min r.length 255 * 2 ^ 32 + (if y.timeout then 0 else y.fault)) })

/-- R231, R280, R282: `pin` writes the code of the first row that applies (0 pinned already, 3 by another context, 2 quota, 1 no way, 0 pinned now) and pins in the last case alone; `unpin` writes 0 where the context had pinned the line and 1 otherwise; `prefetch` never traps and writes no register. R278, R279: `waitv` ends at its first read where the word meets the condition (equal under FN bit 0, different otherwise): the word goes to D, zero-extended, and the sub-wave goes on; otherwise it has issued and waits, its PC and registers as they were. A misaligned word is ILLEGAL with REASON 10. -/
def Obligations.PinAndWaitForms : Prop :=
  (∀ (f : MEM) (s : State) (w x : Nat) (v : Wave) (u : Sub),
  let seen := fun i : Instr => served (issueEnv s w x v u i) s true [{ va := ((issueEnv s w x v u i).rdS f.a + (issueEnv s w x v u i).rdS f.b + f.lit.getD f.off).toNat, kind := .poll }]
  let ok := fun (i : Instr) (b : AByte) (pa : Nat) => Issuing s i w x v u ∧ b.at_ = .dev pa ∧
    checkReqs (issueEnv s w x v u i) s true .load [{ va := ((issueEnv s w x v u i).rdS f.a + (issueEnv s w x v u i).rdS f.b + f.lit.getD f.off).toNat, kind := .poll }]
      = .ok [{ kind := .poll, va := ((issueEnv s w x v u i).rdS f.a + (issueEnv s w x v u i).rdS f.b + f.lit.getD f.off).toNat, bytes := [b] }]
  (∀ b pa, ok (.pin f) b pa →
      let line := pa / 64
      let t0 := seen (.pin f)
      let give := fun (c : Word) (t : State) => exec (.pin f) s = .next (retire s w x v u (.pin f) t { wr := (issueEnv s w x v u (.pin f)).wrS f.d c })
      (∀ r, tblFind s.pins line = some r → r.ctx = v.ctx → give 0 t0) ∧ (∀ r, tblFind s.pins line = some r → r.ctx ≠ v.ctx → give 3 t0)
        ∧ (tblFind s.pins line = none → pinCount s v.ctx = (ctxAt s v.ctx).t.pinQuota → give 2 t0)
        ∧ (tblFind s.pins line = none → pinCount s v.ctx ≠ (ctxAt s v.ctx).t.pinQuota → 12 ≤ (pinnedWays s line).length ∨ pinWays s b.attr.part line = [] → give 1 t0)
        ∧ (tblFind s.pins line = none → pinCount s v.ctx ≠ (ctxAt s v.ctx).t.pinQuota → (pinnedWays s line).length < 12 → pinWays s b.attr.part line ≠ [] →
            ∃ t way, give 0 t ∧ tblFind t.pins line = some { ctx := v.ctx, part := b.attr.part, way := way } ∧ way < 16 ∧ way ∉ pinnedWays s line ∧ t.mem = s.mem ∧ t.waves = s.waves ∧ t.cores = t0.cores))
    ∧ (∀ b pa, ok (.unpin f) b pa →
      let line := pa / 64
      let t0 := seen (.unpin f)
      ((∃ r, tblFind s.pins line = some r ∧ r.ctx = v.ctx) → exec (.unpin f) s = .next (retire s w x v u (.unpin f) { t0 with pins := tblErase s.pins line } { wr := (issueEnv s w x v u (.unpin f)).wrS f.d 0 }))
        ∧ ((∀ r, tblFind s.pins line = some r → r.ctx ≠ v.ctx) → exec (.unpin f) s = .next (retire s w x v u (.unpin f) t0 { wr := (issueEnv s w x v u (.unpin f)).wrS f.d 1 })))
    ∧ (Issuing s (.prefetch f) w x v u → ∃ t, exec (.prefetch f) s = .next (retire s w x v u (.prefetch f) t {}) ∧ t.waves = s.waves ∧ t.mem = s.mem ∧ t.wlog = s.wlog ∧ t.pins = s.pins ∧ t.cohorts = s.cohorts))
    ∧ (∀ (f : RRR) (s : State) (w x : Nat) (v : Wave) (u : Sub) (acc : Acc), Issuing s (.waitv f) w x v u →
  let e := issueEnv s w x v u (.waitv f)
  let q := waitvOf f e
  let n := if f.ty = .n32 then 4 else 8
  let s0 := served e s q.flat [q.req]
  let val := waitvValue e s0 acc
  ((e.rdS f.a).toNat % n ≠ 0 → exec (.waitv f) s = .next (trapped s w x s { cause := .illegal, addr := u.pc, info := 10 }))
    ∧ ((e.rdS f.a).toNat % n = 0 → waitvAcc e s q = .ok acc → (∀ b ∈ acc.bytes, b.at_.isAway = false) → waitvReady e s0 acc = true →
        ((f.fn.testBit 0 = true ↔ val = (e.rdS f.b).toNat % 2 ^ (8 * n)) → ∃ s1, exec (.waitv f) s = .next (retire s w x v u (.waitv f) s1 { wr := (e.dstS f.d).map (fun d => ⟨d, val⟩) }))
          ∧ (¬ (f.fn.testBit 0 = true ↔ val = (e.rdS f.b).toNat % 2 ^ (8 * n)) → (∀ d ∈ s.dies, d.2.watch.wctl = []) →
              ∃ t v' q', exec (.waitv f) s = .next t ∧ waveAt t w = some v' ∧ v'.holdOf x = .waitv q' ∧ q'.addr = (e.rdS f.a).toNat ∧ v'.s = v.s ∧ (tblFind v'.subs x).map (·.pc) = some u.pc)))

/-- R107, R108: `callx` through a slot of device memory, one atomic read-and-update: 0 is set to 1 and raises BIND with TADDR the slot; 1 makes the sub-wave wait, its instruction without effect; any other value writes the link, the address after the `callx`, and goes there. A slot that is no multiple of 8 is ILLEGAL with REASON 10. -/
def Obligations.LinkageCall : Prop := ∀ (f : MEM) (s : State) (w x : Nat) (v : Wave) (u : Sub) (pa : Nat) (b : AByte) (rest : List AByte), b.at_ = .dev pa → Issuing s (.callx f) w x v u →
  let e := issueEnv s w x v u (.callx f)
  let a := (e.rdS f.a + e.rdS f.b + f.lit.getD f.off).toNat
  let kind := AKind.slot (e.dstS f.d)
  let acc : Acc := { kind := kind, va := a, n := 8, bytes := b :: rest, ord := 1, scope := 4, issue := v.nextAcc, id := v.nextAcc }
  let old := leNat (homeBytes s b.attr.key pa 0 8)
  (a % 8 ≠ 0 → exec (.callx f) s = .next (trapped s w x s { cause := .illegal, addr := u.pc, info := 10 }))
    ∧ (a % 8 = 0 → checkReqs e s true .atomic [{ va := a, n := 8, kind := kind }] = .ok [{ kind := kind, va := a, n := 8, bytes := b :: rest }] → (∀ b ∈ rest, b.at_.isPeer = false) →
        atomicReady acc v.accs = true → atomicWaits s (dieOf v.core) acc = false →
        (old = 0 → ∃ t s1, exec (.callx f) s = .next t ∧ t = trapped s w x s1 { cause := .bind, addr := BitVec.ofNat 64 a } ∧ ((∀ k, tblFind s.lineKey (lineOf pa) = some k → k = b.attr.key) → (∀ q < 8, inDevice (pa + q) = true) → lineOf (pa + 7) = lineOf pa →
              (∀ d ∈ s.dies, d.2.watch.wctl = []) → rdBytes s1 pa 8 = leBytes 8 1))
          ∧ (old = 1 → (∀ d ∈ s.dies, d.2.watch.wctl = []) → ∃ t v' h, exec (.callx f) s = .next t ∧ waveAt t w = some v' ∧ v'.holdOf x = .callx pa h s.clock false ∧ v'.s = v.s ∧ (tblFind v'.subs x).map (·.pc) = some u.pc)
          ∧ (old ≠ 0 → old ≠ 1 → ∃ s1, exec (.callx f) s = .next (retire s w x v u (.callx f) s1 { wr := e.wrS f.d e.next, go := .abs (BitVec.ofNat 64 old) }) ∧ s1.mem = s.mem ∧ s1.wlog = s.wlog ∧ ((∀ d ∈ s.dies, d.2.watch.wctl = []) → s1.waves = s.waves)))

/-- R297, R299 to R301, R305 to R309: the token forms. `trec` queues one 64-byte load of scratchpad to its record, and raises ILLEGAL with REASON 10 where the address is not a multiple of 64. `tcopy` and `kjoin` issue to the copy engine with their token pending, wait while the section's queue of 64 is full, and `tcopy` first raises ILLEGAL for a record that is not valid and PROTECTION for an element it cannot reach. `kwait` with every token DONE is an acquire; a FAILED one raises ENGINE_FAULT and becomes DONE; otherwise the sub-wave waits at it. -/
def Obligations.TokenForms : Prop := ∀ f : EN,
  let free := fun (e : Env) (s : State) => sectQueue s e.core e.v.sect < 64
  let st := f.a.testBit 4
  let bad := fun (e : Env) (s : State) (r : TRec) => (∃ n < r.total, spadPlaces s e.v (r.saddr (e.rdS f.c).toNat n) r.esz = none)
    ∨ ∃ n < r.total, r.clipped n = false ∧ (canonical (r.gaddr (e.rdS f.b) n) && canonical ((r.gaddr (e.rdS f.b) n + r.esz - 1) % 2 ^ 64)) = false
  TrapsIf (.trec f) (fun e _ => (e.rdS f.a).toNat % 64 ≠ 0) (fun e _ => { cause := .illegal, addr := e.p, info := 10 })
    ∧ (∀ (s : State) (w x : Nat) (v : Wave) (u : Sub) (l : List Acc), Issuing s (.trec f) w x v u → let e := issueEnv s w x v u (.trec f)
        (e.rdS f.a).toNat % 64 = 0 → checkReqs e s false .load [{ va := (e.rdS f.a).toNat, n := 64, kind := .load [{ dst := .tensor (e.recNo f.b), lo := 0, n := 512 }] }] = .ok l → (∀ a ∈ l, ∀ b ∈ a.bytes, b.at_.isPeer = false) →
        exec (.trec f) s = .next (retire s w x v u (.trec f) (served e s false []) { accs := prepAccs e (served e s false []) 0 0 l }))
    ∧ TrapsIf (.tcopy f) (fun e _ => e.tensorRec (e.recNo (f.a % 16)) = none) (fun e _ => { cause := .illegal, addr := e.p, info := 10 })
    ∧ (∀ (s : State) (w x : Nat) (v : Wave) (u : Sub) (r : TRec), Issuing s (.tcopy f) w x v u → let e := issueEnv s w x v u (.tcopy f)
        e.tensorRec (e.recNo (f.a % 16)) = some r →
        (¬ bad e s r → free e s → exec (.tcopy f) s = .next (retire s w x v u (.tcopy f) (engIssue e s f (.tcopy st r (e.rdS f.b) (e.rdS f.c).toNat [] [])) {}))
          ∧ (¬ bad e s r → ¬ free e s → exec (.tcopy f) s = .next (finish s s))
          ∧ (bad e s r → ∃ t, t.cause = .protection ∧ t.tpc = none ∧ exec (.tcopy f) s = .next (trapped s w x s t)))
    ∧ YieldsIf (.kjoin f) free (fun e s => engIssue e s f .kjoin) (fun _ _ => {})
    ∧ WaitsIf (.kjoin f) (fun e s => ¬ free e s)
    ∧ YieldsIf (.kwait f) (fun e _ => ∀ k ∈ consumed e f, e.v.tok k = .done) (fun e s => dropL1 s e.core) (fun _ _ => {})
    ∧ (∀ (s : State) (w x : Nat) (v : Wave) (u : Sub) (k : Nat) (a info : Word), Issuing s (.kwait f) w x v u → let e := issueEnv s w x v u (.kwait f)
        firstFailed v (consumed e f) = some (k, a, info) → (∀ j ∈ consumed e f, (v.tok j).settled = true) →
        exec (.kwait f) s = .next (trapped s w x (modWave s w (fun v => v.setTok k .done)) { cause := .engineFault, addr := a, info := tokenInfo k info }))
    ∧ (∀ (s : State) (w x : Nat) (v : Wave) (u : Sub), Issuing s (.kwait f) w x v u → let e := issueEnv s w x v u (.kwait f)
        (∃ k ∈ consumed e f, (v.tok k).settled = false) → ∃ t v', exec (.kwait f) s = .next t ∧ waveAt t w = some v' ∧ tblFind v'.subs x = some { u with hold := .kwait (consumed e f) (u.pc + 8), aged := 0 } ∧ v'.s = v.s ∧ v'.v = v.v ∧ v'.toks = v.toks ∧ ((ctxAt s v.ctx).dbgWord.getLsbD 4 = false → KeepsRest w s t))

/-- R305, R306: what an engine instruction leaves at its issue: it stands numbered after those before it with its payload, its agent, its produced token and the failures its consumed tokens already carry; the produced token becomes PENDING; no register, no byte of memory or scratchpad and no other wave changes. -/
def Obligations.EngineInstructionIssued : Prop := ∀ (s : State) (w x : Nat) (v : Wave) (u : Sub) (i : Instr) (f : EN) (pay : EPay), s.Inv → waveAt s w = some v → tblFind v.subs x = some u → syncOp i = false →
  let e := issueEnv s w x v u i
  let t := retire s w x v u i (engIssue e s f pay) {}
  (∃ o, tblFind t.eng s.nextEng = some o ∧ o.pay = pay ∧ o.wave = w ∧ o.ctx = v.ctx ∧ o.core = physCore s v.core ∧ o.begun = false ∧ o.gap = none ∧ o.out = (if f.produce then some (e.tokNo f.kout) else none) ∧ o.deps.map (·.tok) = consumed e f)
    ∧ (∀ k, k ≠ s.nextEng → tblFind t.eng k = tblFind s.eng k) ∧ t.nextEng = s.nextEng + 1
    ∧ (∃ v', waveAt t w = some v' ∧ (f.produce = true → (v'.tok (e.tokNo f.kout)).settled = false) ∧ (∀ k, (f.produce = true → k ≠ e.tokNo f.kout) → v'.tok k = v.tok k)
        ∧ v'.s = v.s ∧ v'.v = v.v ∧ v'.p = v.p ∧ v'.flags = v.flags ∧ v'.ports = v.ports ∧ v'.recs = v.recs ∧ v'.hinge = v.hinge)
    ∧ (∀ pa, inDevice pa = true → rdByte t pa = rdByte s pa) ∧ (∀ p, spadByte t p = spadByte s p) ∧ (∀ y, y ≠ w → waveAt t y = waveAt s y) ∧ t.ctxs = s.ctxs ∧ t.cohorts = s.cohorts

/-- R311 to R314: the gate forms. An arrival counts, and the one that makes COUNT equal EXPECT clears it, steps PHASE and takes a NEXT_EXPECT; `gset` sets EXPECT, at once or for the next phase, and ILLEGAL meets a count outside 1 to 32,767; `garr` arrives at issue or behind its tokens; `gwait` and `gsync` wait until the phase they wait for is over, which is an acquire, resets the watchdog count and raises ENGINE_FAULT where the gate has an error. Each is ILLEGAL in a responder, and `garr` and `gsync` at a gate whose EXPECT is 0. R315, R316: `yield` of an unsplit wave gives up its place until its gate, its tokens or its census slot is over and then goes on at C; a split wave raises MODE and a responder's yield on a gate ILLEGAL, each with REASON 10. YIELD_RESUME of a yield on tokens that are all DONE puts every sub-wave at the continuation. -/
def Obligations.GateForms : Prop :=
  (∀ f : EN,
  let gate := fun (e : Env) (s : State) => tblGet ({} : Gate) (tblGet ({} : Cohort) s.cohorts e.v.cohort).gates f.a
  let bad := fun (e : Env) (s : State) => e.v.isResponder = true ∨ (gate e s).expect = 0
  let passed := fun (e : Env) (s : State) => let d := ((gate e s).phase + 65536 - tblGet 0 e.v.wph f.a) % 65536; (gate e s).phase ≠ tblGet 0 e.v.wph f.a ∧ d < 32768
  let ill := fun (e : Env) (_ : State) => ({ cause := .illegal, addr := e.p, info := 10 } : Trap)
  let n := fun e : Env => (e.rdS f.b).toNat
  let goes := fun (e : Env) (s : State) => ¬ bad e s ∧ e.v.failed = []
  (∀ (g : Gate) (b : Bool), (g.count + 1 = g.expect → (g.arrive b).count = 0 ∧ (g.arrive b).phase = (g.phase + 1) % 65536 ∧ (g.arrive b).expect = (if g.nextV then g.nextExp else g.expect) ∧ (g.arrive b).nextV = false)
      ∧ (g.count + 1 ≠ g.expect → (g.arrive b).count = g.count + 1 ∧ (g.arrive b).phase = g.phase ∧ (g.arrive b).expect = g.expect) ∧ (g.arrive b).err = (g.err || b))
    ∧ (∀ (g : Gate) (k : Nat), (g.count = 0 → (g.set k).expect = k ∧ (g.set k).nextV = false) ∧ (g.count ≠ 0 → (g.set k).expect = g.expect ∧ (g.set k).nextV = true ∧ (g.set k).nextExp = k) ∧ (g.set k).err = false ∧ (g.set k).count = g.count ∧ (g.set k).phase = g.phase)
    ∧ YieldsIf (.gset f) (fun e _ => e.v.isResponder = false ∧ 1 ≤ n e ∧ n e ≤ 32767) (fun e s => modGate s e.v.cohort f.a (·.set (n e))) (fun _ _ => {})
    ∧ TrapsIf (.gset f) (fun e _ => e.v.isResponder = true ∨ n e < 1 ∨ 32767 < n e) ill
    ∧ TrapsIf (.garr f) bad ill
    ∧ YieldsIf (.garr f) (fun e s => goes e s ∧ f.ncons = 0 ∧ relCohort e.v.accs = true) (fun e s => gateArrive s e.v.cohort f.a false) (fun _ _ => {})
    ∧ WaitsIf (.garr f) (fun e s => goes e s ∧ f.ncons = 0 ∧ relCohort e.v.accs = false)
    ∧ YieldsIf (.garr f) (fun e s => goes e s ∧ f.ncons ≠ 0 ∧ sectQueue s e.core e.v.sect < 64) (fun e s => engIssue e s f (.garr f.a)) (fun _ _ => {})
    ∧ TrapsIf (.gwait f) (fun e _ => e.v.isResponder = true) ill
    ∧ YieldsIf (.gwait f) (fun e s => e.v.isResponder = false ∧ passed e s ∧ (gate e s).err = false) (fun e s => gateEnd s e.w e.core f.a) (fun _ _ => { wdReset := true })
    ∧ (∀ (s : State) (w x : Nat) (v : Wave) (u : Sub), Issuing s (.gwait f) w x v u → let e := issueEnv s w x v u (.gwait f)
        v.isResponder = false → passed e s → (gate e s).err = true →
        exec (.gwait f) s = .next (trapped s w x (gateEnd s w e.core f.a) { cause := .engineFault, tpc := some (u.pc + 8), info := BitVec.ofNat 64 (2 ^ 33 + f.a * 2 ^ 28) }))
    ∧ (∀ (s : State) (w x : Nat) (v : Wave) (u : Sub), Issuing s (.gwait f) w x v u → let e := issueEnv s w x v u (.gwait f)
        v.isResponder = false → ¬ passed e s → ∃ t v', exec (.gwait f) s = .next t ∧ waveAt t w = some v' ∧ tblFind v'.subs x = some { u with hold := .gate f.a (u.pc + 8) false, aged := 0 } ∧ v'.s = v.s ∧ v'.v = v.v ∧ v'.wph = v.wph ∧ ((ctxAt s v.ctx).dbgWord.getLsbD 4 = false → KeepsRest w s t))
    ∧ TrapsIf (.gsync f) bad ill
    ∧ WaitsIf (.gsync f) (fun e s => goes e s ∧ relCohort e.v.accs = false)
    ∧ YieldsIf (.gsync f) (fun e s => goes e s ∧ relCohort e.v.accs = true ∧ passed e (gateArrive s e.v.cohort f.a false) ∧ (gate e (gateArrive s e.v.cohort f.a false)).err = false)
        (fun e s => gateEnd (gateArrive s e.v.cohort f.a false) e.w e.core f.a) (fun _ _ => { wdReset := true })
    ∧ YieldsIf (.gsync f) (fun e s => goes e s ∧ relCohort e.v.accs = true ∧ ¬ passed e (gateArrive s e.v.cohort f.a false))
        (fun e s => modWave (gateArrive s e.v.cohort f.a false) e.w (fun v => v.modSub e.x (fun u => { u with hold := .gate f.a e.next true }))) (fun _ _ => { go := .kept }))
    ∧ ((∀ (f : EN) (s : State) (w x : Nat) (v : Wave) (u : Sub), Issuing s (.yield f) w x v u → let e := issueEnv s w x v u (.yield f)
      (v.unsplit = false → exec (.yield f) s = .next (trapped s w x s { cause := .mode, addr := u.pc, info := 10 }))
        ∧ (v.unsplit = true → f.a % 4 = 0 → v.isResponder = true → exec (.yield f) s = .next (trapped s w x s { cause := .illegal, addr := u.pc, info := 10 }))
        ∧ (v.unsplit = true → (f.a % 4 ≠ 0 ∨ v.isResponder = false) → ∃ t v', exec (.yield f) s = .next t ∧ waveAt t w = some v'
            ∧ v'.yield_ = some { kind := f.a % 4, idx := f.b, toks := consumed e f, cont := e.rdS f.c, since := s.clock } ∧ (∀ u', mayIssue v' u' = false) ∧ v'.s = v.s ∧ v'.v = v.v ∧ v'.p = v.p ∧ v'.toks = v.toks ∧ KeepsRest w s t))
    ∧ ∀ (s : State) (w : Nat) (v : Wave) (y : YieldSt), waveAt s w = some v → v.yield_ = some y → v.stopped = false → y.since < s.clock → yieldOver s v y = true → yieldTrap s v y = none →
        (ctxAt s v.ctx).dbgWord.getLsbD 4 = false → (ctxAt s v.ctx).dbgWord.getLsbD 5 = false →
        ∃ t v', exec (.yieldResume w) s = .next t ∧ waveAt t w = some v' ∧ v'.yield_ = none ∧ (∀ x u, tblFind v'.subs x = some u → u.pc = y.cont ∧ u.hold = .run) ∧ v'.s = v.s ∧ v'.v = v.v ∧ v'.toks = v.toks
          ∧ (y.kind = 0 → tblGet 0 v'.wph y.idx = (tblGet 0 v.wph y.idx + 1) % 65536 ∧ v'.wd = 0))

/-- R75, R319, R326 to R332: the matrix forms. `fset` writes a format register below 2²⁴; the others raise MODE with REASON 10 in a kernel without MTX, wait while another thread holds the claim or the section's queue is full, raise ILLEGAL with REASON 10 where their record, type or rank is refused, and otherwise, every address they will read or write reached, issue to the matrix engine. -/
def Obligations.MatrixForms : Prop := ∀ f : EN,
  let ill := fun (e : Env) (_ : State) => ({ cause := .illegal, addr := e.p, info := 10 } : Trap)
  let rec_ := fun e : Env => (e.tensorRec (e.recNo f.b)).getD {}
  let room := fun (e : Env) (s : State) => claimed s e.core e.w = false ∧ mxQueue s e.core e.v.sect < 64
  let goes := fun (i : Instr) (c : Env → State → Prop) (m : Env → MxOp) =>
    YieldsIf i (fun e s => e.v.kernel.mtx = true ∧ c e s ∧ room e s) (fun e s => mxRank (engIssue e s f (.mx (m e))) e.core e.v.work (m e)) (fun _ _ => {})
  let reach := fun (e : Env) (s : State) (l : List (Nat × Nat)) => ∀ y ∈ l, (spadPlaces s e.v y.1 y.2).isSome = true
  let loads := fun (e : Env) (s : State) (m : MxOp) (n : Nat) (l : List Nat) => if m.ctl.testBit 2 then (∀ a ∈ l, canonical a = true ∧ canonical ((a + n - 1) % 2 ^ 64) = true) else reach e s (l.map (fun a => (a, n)))
  let mb := fun e : Env => ({ k := 0, ctl := f.a, r := rec_ e, c := e.rdS f.c } : MxOp)
  let mj := fun e : Env => ({ k := 5, ctl := f.a, r := rec_ e, c := e.rdS f.c, rank := (e.rdS f.c).toNat, f16 := f.a.testBit 3 } : MxOp)
  let ms := fun e : Env => ({ k := 3, ctl := f.a, r := rec_ e, c := e.rdS f.c, fa := e.fmtReg (bits (e.rdS f.c).toNat 4 3) } : MxOp)
  YieldsIf (.fset f) (fun e _ => (e.rdS f.b).toNat < 2 ^ 24) (fun _ s => s) (fun e _ => { wr := [⟨.freg f.a, (e.rdS f.b).toNat⟩] })
    ∧ TrapsIf (.fset f) (fun e _ => 2 ^ 24 ≤ (e.rdS f.b).toNat) ill
    ∧ (∀ i ∈ ([.mbld f, .mma f, .mclr f, .mst f, .mlat f, .jld f] : List Instr), TrapsIf i (fun e _ => e.v.kernel.mtx = false) (fun e _ => { cause := .mode, addr := e.p, info := 10 })
      ∧ WaitsIf i (fun e s => e.v.kernel.mtx = true ∧ ¬ room e s))
    ∧ (∀ i ∈ ([.mbld f, .mst f, .mlat f, .jld f] : List Instr), TrapsIf i (fun e s => e.v.kernel.mtx = true ∧ room e s ∧ e.tensorRec (e.recNo f.b) = none) ill)
    ∧ goes (.mclr f) (fun _ _ => True) (fun _ => { k := 2, ctl := f.a })
    ∧ goes (.mbld f) (fun e s => (e.tensorRec (e.recNo f.b)).isSome = true ∧ loads e s (mb e) 32 ((List.range 128).map (mbldAddr (mb e)))) mb
    ∧ goes (.jld f) (fun e s => (e.tensorRec (e.recNo f.b)).isSome = true ∧ 16 ≤ (mj e).rank ∧ (mj e).rank ≤ 512 ∧ (mj e).rank % 16 = 0 ∧ loads e s (mj e) 256 ((List.range (mj e).rank).map (jldAddr (mj e)))) mj
    ∧ TrapsIf (.jld f) (fun e s => e.v.kernel.mtx = true ∧ room e s ∧ ((e.rdS f.c).toNat < 16 ∨ 512 < (e.rdS f.c).toNat ∨ (e.rdS f.c).toNat % 16 ≠ 0)) ill
    ∧ (∀ ty : Ty, goes (.mst f) (fun e s => (e.tensorRec (e.recNo f.b)).isSome = true ∧ mstTy (e.rdS f.c).toNat (ms e).fa = some ty ∧ reach e s (mstSpans (ms e) (mstWidth ty (nfmtOf (ms e).fa)))) ms)
    ∧ (∀ (s : State) (w x : Nat) (v : Wave) (u : Sub) (r : TRec), Issuing s (.mlat f) w x v u → let e := issueEnv s w x v u (.mlat f)
        let b := mxRankOf s e.core v.work (fun k => e.free k) (bits f.a 2 2)
        let m : MxOp := { k := 4, ctl := f.a, r := r, c := e.rdS f.c, fa := e.fmtReg (bits (e.rdS f.c).toNat 9 3), rank := b.1, f16 := b.2 }
        v.kernel.mtx = true → room e s → e.tensorRec (e.recNo f.b) = some r →
        (mlatOk f.a (e.rdS f.c).toNat b.1 m.fa = false → exec (.mlat f) s = .next (trapped s w x s { cause := .illegal, addr := u.pc, info := 10 }))
          ∧ (mlatOk f.a (e.rdS f.c).toNat b.1 m.fa = true → reach e s (mlatSpans m) → exec (.mlat f) s = .next (retire s w x v u (.mlat f) (engIssue e s f (.mx m)) {})))
    ∧ (∀ (s : State) (w x : Nat) (v : Wave) (u : Sub) (r : TRec), Issuing s (.mma f) w x v u → let e := issueEnv s w x v u (.mma f)
        let src := bits f.a 6 2
        let b := fmtBlock (e.rdS f.c).toNat
        let m : MxOp := { k := 1, ctl := f.a, r := r, c := e.rdS f.c, fa := e.fmtReg b.afmt, fb := e.fmtReg b.bfmt, reg := if src = 1 then (List.range 64).map (regRow e f.b) else [] }
        v.kernel.mtx = true → room e s → (if src = 0 then e.tensorRec (e.recNo f.b) = some r else r = { spbase := if src = 2 then f.b else 0 }) →
        (blockOk b m.fa m.fb src = false → exec (.mma f) s = .next (trapped s w x s { cause := .illegal, addr := u.pc, info := 10 }))
          ∧ (blockOk b m.fa m.fb src = true → reach e s (mmaSpans m) → exec (.mma f) s = .next (retire s w x v u (.mma f) (engIssue e s f (.mx m)) {})))

/-- R340, R343 to R346: the tile forms. `treg` registers a tile in the lowest FREE entry of the core's keyring and writes its index, or writes 256 where the keyring has no room and 257 where the range meets a live one; it waits for the wave's stores. `tdrop` frees, pins or unpins an entry of the context and writes 0, or the code of what refuses it. `tfind` writes the lowest entry that matches and its descriptor, or 256 and 0. `tmove` issues to the copy engine with its result owed. -/
def Obligations.TileForms : Prop := ∀ f : EN,
  let ill := fun (e : Env) (_ : State) => ({ cause := .illegal, addr := e.p, info := 10 } : Trap)
  let d := fun e : Env => (e.rdS f.c).toNat
  let rg := fun (e : Env) (s : State) => regTile s e.core e.v.ctx (ownerOf e.v) (e.rdS f.b) (bits (d e) 8 11) (bits (d e) 32 16 - 1)
  let inside := fun (e : Env) (s : State) => inArea s e.core e.v.ctx (bits (d e) 0 19, 256 * bits (d e) 32 16) = true
  TrapsIf (.treg f) (fun e _ => tregOk e.v.core (d e) = false) ill
    ∧ TrapsIf (.treg f) (fun e s => tregOk e.v.core (d e) = true ∧ ¬ inside e s) (fun e _ => { cause := .protection, addr := BitVec.ofNat 64 (bits (d e) 0 22), info := BitVec.ofNat 64 2048 })
    ∧ YieldsIf (.treg f) (fun e s => tregOk e.v.core (d e) = true ∧ inside e s ∧ e.v.relPackage e.v.nextAcc e.now = true) (fun e s => (rg e s).1) (fun e s => { wr := e.wrS f.a (BitVec.ofNat 64 (rg e s).2) })
    ∧ WaitsIf (.treg f) (fun e s => tregOk e.v.core (d e) = true ∧ inside e s ∧ e.v.relPackage e.v.nextAcc e.now = false)
    ∧ (∀ (s : State) (p ctx owner : Nat) (key : Word) (off len : Nat),
        (keyFull s p ctx = true → regTile s p ctx owner key off len = (s, 256))
          ∧ (keyFull s p ctx = false → keyOverlap s p ctx (256 * off, 256 * (len + 1)) = true → regTile s p ctx owner key off len = (s, 257))
          ∧ (keyFull s p ctx = false → keyOverlap s p ctx (256 * off, 256 * (len + 1)) = false → ∃ i < 256, (regTile s p ctx owner key off len).2 = i ∧ keyAt s p i = none ∧ (∀ j < i, (keyAt s p j).isSome = true)
              ∧ keyAt (regTile s p ctx owner key off len).1 p i = some { key := key, st := .resident, len := len, off := off, owner := owner, ctx := ctx } ∧ (∀ j, j ≠ i → keyAt (regTile s p ctx owner key off len).1 p j = keyAt s p j)))
    ∧ TrapsIf (.tdrop f) (fun e _ => 255 < (e.rdS f.b).toNat) ill
    ∧ (∀ (s : State) (w x : Nat) (v : Wave) (u : Sub), Issuing s (.tdrop f) w x v u → let e := issueEnv s w x v u (.tdrop f)
        let i := (e.rdS f.b).toNat
        i ≤ 255 → ((∀ y, keyAt s e.core i = some y → y.ctx ≠ v.ctx) → exec (.tdrop f) s = .next (retire s w x v u (.tdrop f) s { wr := e.wrS f.a 1 }))
          ∧ (∀ y, keyAt s e.core i = some y → y.ctx = v.ctx → ∃ s1, exec (.tdrop f) s = .next (retire s w x v u (.tdrop f) s1 { wr := e.wrS f.a (BitVec.ofNat 64 (dropKey f.c (keyBusy s e.core i) (some y)).1) })
              ∧ s1.waves = s.waves ∧ s1.mem = s.mem ∧ keyAt s1 e.core i = (dropKey f.c (keyBusy s e.core i) (some y)).2 ∧ ∀ j, j ≠ i → keyAt s1 e.core j = keyAt s e.core j))
    ∧ (∀ (form : Nat) (busy : Bool) (y : KeyEntry), y.mig = none →
        (y.st = .lent ∨ y.st = .arriving → dropKey form busy (some y) = (2, some y)) ∧ (y.st = .pinned → dropKey 0 busy (some y) = (4, some y)) ∧ (y.st = .resident → dropKey 0 true (some y) = (3, some y) ∧ dropKey 0 false (some y) = (0, none))
          ∧ (y.st = .resident ∨ y.st = .pinned → dropKey 1 busy (some y) = (0, some { y with st := .pinned }) ∧ dropKey 2 busy (some y) = (0, some { y with st := .resident })))
    ∧ (∀ (s : State) (w x : Nat) (v : Wave) (u : Sub), Issuing s (.tfind f) w x v u → let e := issueEnv s w x v u (.tfind f)
        let fits := fun y : Nat × KeyEntry => y.2.held && y.2.matchesKey (e.rdS f.b) (e.rdS f.c)
        ((∀ y ∈ liveKeys s e.core v.ctx, fits y = false) → exec (.tfind f) s = .next (retire s w x v u (.tfind f) s { wr := e.wrS f.a 256 ++ e.wrS (f.a + 1) 0 }))
          ∧ ∀ y, (liveKeys s e.core v.ctx).find? fits = some y → exec (.tfind f) s = .next (retire s w x v u (.tfind f) s { wr := e.wrS f.a (BitVec.ofNat 64 y.1) ++ e.wrS (f.a + 1) (y.2.desc v.core) }))
    ∧ (∀ (s : State) (w x : Nat) (v : Wave) (u : Sub), Issuing s (.tmove f) w x v u → let e := issueEnv s w x v u (.tmove f)
        let bad := bits (d e) 19 1 ≠ 0 ∨ bits (d e) 29 35 ≠ 0 ∨ bits (d e) 0 8 ≠ 0 ∨ 255 < (e.rdS f.b).toNat ∨ 319 < bits (d e) 20 9 ∨ bits (d e) 20 9 = v.core
        (bad → exec (.tmove f) s = .next (trapped s w x s { cause := .illegal, addr := u.pc, info := 10 }))
          ∧ (¬ bad → 64 ≤ sectQueue s e.core v.sect → exec (.tmove f) s = .next (finish s s))
          ∧ (¬ bad → sectQueue s e.core v.sect < 64 → exec (.tmove f) s = .next (retire s w x v u (.tmove f)
              (modWave (engIssue e s f (.move { entry := (e.rdS f.b).toNat, dst := bits (d e) 20 9, off := bits (d e) 0 19, res := e.dstS f.a })) w (fun v => { v with owed := v.owed ++ e.dstS f.a })) {})))

/-- R349, R350, R356 to R359, R378, R452: the census and range forms. `solicit` opens its census slot and leaves a census behind; `answer` of a responder ends it with the value, and outside one raises MODE with REASON 10; `cwait` on a DONE slot is an acquire that writes value and status and frees the slot, on an OPEN one it waits, on an IDLE one it raises ILLEGAL; `rnext` takes the next grain of the wave's range slot; `qbind` binds or ends a port. R270, R271, R377, R446, R452: the forms of the copy engine and the dispatcher with a result of their own. `post` writes 2 for an image that is no card, 1 where the context's queue is full, else 0 with the card posted, once the wave's earlier accesses are performed. `creduce` reads its descriptor at issue and issues to the copy engine, or raises ILLEGAL where the descriptor is refused. `vlds` issues with every lane's source and destination found. `remap` writes 1, 2 or 3 where the cohort may not move and 0 with the two cores' numbers exchanged. -/
def Obligations.CensusAndCardForms : Prop :=
  (∀ f : EN,
  let ill := fun (e : Env) (_ : State) => ({ cause := .illegal, addr := e.p, info := 10 } : Trap)
  let hdr := fun e : Env => e.rdS (f.b + 3)
  let bad := fun (e : Env) (s : State) => (hdr e).toNat % 8 ≠ 0 ∨ canonical (hdr e).toNat = false ∨ (∃ c, slotOf s e.core e.v.ctx f.a = some c ∧ c.done = false) ∨ (bits f.c 4 2 = 3 ∧ (ctxAt s e.v.ctx).t.inDomain = false)
  TrapsIf (.solicit f) bad ill
    ∧ (∀ (s : State) (w x : Nat) (v : Wave) (u : Sub), Issuing s (.solicit f) w x v u → let e := issueEnv s w x v u (.solicit f)
        ¬ bad e s → v.failed = [] → ∃ t c, exec (.solicit f) s = .next t ∧ t.censuses = s.censuses ++ [c] ∧ c.stamped = false ∧ c.slot = f.a ∧ c.comb = bits f.c 0 4 ∧ c.opener = some w
          ∧ c.so = { ctx := v.ctx, core := v.core, scope := bits f.c 4 2, key := e.rdS f.b, mask := e.rdS (f.b + 1), arg := e.rdS (f.b + 2), hdr := hdr e } ∧ (∃ y, slotOf t e.core v.ctx f.a = some y ∧ y.done = false))
    ∧ TrapsIf (.answer f) (fun e _ => e.v.isResponder = false ∨ e.v.unsplit = false) (fun e _ => { cause := .mode, addr := e.p, info := 10 })
    ∧ (∀ (s : State) (w x : Nat) (v : Wave) (u : Sub), Issuing s (.answer f) w x v u → v.isResponder = true → v.unsplit = true → v.failed = [] →
        ∃ t v', exec (.answer f) s = .next t ∧ waveAt t w = some v' ∧ v'.answer = some ((issueEnv s w x v u (.answer f)).rdS f.a) ∧ v'.ended = true ∧ v'.subs = [] ∧ v'.handler = none ∧ v'.s = v.s ∧ v'.v = v.v ∧ KeepsRest w s t)
    ∧ TrapsIf (.cwait f) (fun e s => slotOf s e.core e.v.ctx f.b = none) ill
    ∧ (∀ (s : State) (w x : Nat) (v : Wave) (u : Sub) (c : CSlot), Issuing s (.cwait f) w x v u → let e := issueEnv s w x v u (.cwait f)
        slotOf s e.core v.ctx f.b = some c →
        (c.done = true → (exec (.cwait f) s = .next (retire s w x v u (.cwait f) (dropL1 (modCore s e.core (fun y => { y with slots := tblErase y.slots (16 * v.ctx + f.b) })) e.core) { wr := e.wrS f.a c.value ++ e.wrS (f.a + 1) c.status, wdReset := true })))
          ∧ (c.done = false → ∃ t v', exec (.cwait f) s = .next t ∧ waveAt t w = some v' ∧ tblFind v'.subs x = some { u with hold := .cwait f.b } ∧ v'.s = v.s ∧ v'.v = v.v ∧ KeepsRest w s t))
    ∧ (∀ (s : State) (w x : Nat) (v : Wave) (u : Sub), Issuing s (.rnext f) w x v u → let e := issueEnv s w x v u (.rnext f)
        ((∀ k n c r, v.origin = .card k n → tblFind s.cards k = some c → c.range = some r → False) → exec (.rnext f) s = .next (trapped s w x s { cause := .illegal, addr := u.pc, info := 10 }))
          ∧ ∀ (k n lo hi g : Nat) (c : Card), v.origin = .card k n → tblFind s.cards k = some c → c.range = some (lo, hi, g) →
              let m := min g (hi - lo)
              exec (.rnext f) s = .next (if lo < hi then retire s w x v u (.rnext f) { s with cards := tblPut s.cards k { c with range := some (lo + m, hi, g) } } { wr := e.wrS f.a (BitVec.ofNat 64 lo) ++ e.wrS (f.a + 1) (BitVec.ofNat 64 m) }
                else retire s w x v u (.rnext f) { s with cards := tblPut s.cards k c } { wr := e.wrS f.a (BitVec.ofNat 64 hi) ++ e.wrS (f.a + 1) 0 }))
    ∧ (∀ (s : State) (w x : Nat) (v : Wave) (u : Sub), Issuing s (.qbind f) w x v u → let e := issueEnv s w x v u (.qbind f)
        let y := (e.rdS f.b).toNat
        let p := physCore s (bits y 8 9)
        let no := bits y 3 5 ≠ 0 ∨ bits y 17 47 ≠ 0 ∨ 319 < bits y 8 9 ∨ (∃ c ∈ chanHolders s p (bits y 0 3), c ≠ v.ctx) ∨ (f.c = 0 ∧ (p ≠ e.core ∨ chanRead s p (bits y 0 3) w = true))
        (f.c ≠ 2 → no → exec (.qbind f) s = .next (trapped s w x s { cause := .illegal, addr := u.pc, info := 10 }))
          ∧ (f.c ≠ 2 → ¬ no → ∃ t v', exec (.qbind f) s = .next t ∧ waveAt t w = some v' ∧ tblFind v'.ports f.a = some { core := bits y 8 9, chan := bits y 0 3, write := decide (f.c = 1) } ∧ (∀ q, q ≠ f.a → tblFind v'.ports q = tblFind v.ports q) ∧ v'.s = v.s ∧ v'.v = v.v)
          ∧ (f.c = 2 → ∃ t v', exec (.qbind f) s = .next t ∧ waveAt t w = some v' ∧ tblFind v'.ports f.a = none ∧ (∀ q, q ≠ f.a → tblFind v'.ports q = tblFind v.ports q) ∧ v'.s = v.s ∧ v'.v = v.v)))
    ∧ (∀ (f : EN) (m : MEM) (r : RRR),
  let ill := fun (e : Env) (_ : State) => ({ cause := .illegal, addr := e.p, info := 10 } : Trap)
  let pa := fun e : Env => (e.rdS f.b).toNat
  TrapsIf (.post f) (fun e _ => pa e % 128 ≠ 0) ill
    ∧ (∀ (s : State) (w x : Nat) (v : Wave) (u : Sub) (l : List Acc), Issuing s (.post f) w x v u → let e := issueEnv s w x v u (.post f)
        pa e % 128 = 0 → v.failed = [] → checkReqs e s true .load [{ va := pa e, n := 128, kind := .load [] }] = .ok l →
        (postReady s v v.nextAcc s.clock = false → exec (.post f) s = .next (finish s s))
          ∧ (∀ s1, postReady s v v.nextAcc s.clock = true → winWait e s (pa e) (l.map (·.bytes)).flatten = some (.hold s1) → exec (.post f) s = .next (finish s s1))
          ∧ (∀ s1 t, postReady s v v.nextAcc s.clock = true → winWait e s (pa e) (l.map (·.bytes)).flatten = some (.trap s1 t) → exec (.post f) s = .next (trapped s w x s1 t))
          ∧ (postReady s v v.nextAcc s.clock = true → winWait e s (pa e) (l.map (·.bytes)).flatten = none → ∃ y, y = postDo (postRead e s (pa e) (l.map (·.bytes)).flatten).1 v.ctx (postRead e s (pa e) (l.map (·.bytes)).flatten).2 ∧ exec (.post f) s = .next (retire s w x v u (.post f) y.1 { wr := e.wrS f.a (BitVec.ofNat 64 y.2) })))
    ∧ (∀ (s : State) (ctx : Nat) (img : List Byte), let kind := leNat img % 256
        (kind ≠ 2 → kind ≠ 3 → postDo s ctx img = (s, 2)) ∧ (kind = 2 ∨ kind = 3 → (ctxAt s ctx).t.postQueue ≤ (ctxAt s ctx).posts.length → postDo s ctx img = (s, 1))
          ∧ (kind = 2 ∨ kind = 3 → (ctxAt s ctx).posts.length < (ctxAt s ctx).t.postQueue → (tblFind s.ctxs ctx).isSome = true → (postDo s ctx img).2 = 0 ∧ (ctxAt (postDo s ctx img).1 ctx).posts = (ctxAt s ctx).posts ++ [(s.order, img)] ∧ (postDo s ctx img).1.order = s.order + 1 ∧ (postDo s ctx img).1.waves = s.waves))
    ∧ TrapsIf (.creduce f) (fun e _ => (e.rdS f.a).toNat % 8 ≠ 0) ill
    ∧ (∀ (s : State) (w x : Nat) (v : Wave) (u : Sub) (l : List Acc), Issuing s (.creduce f) w x v u → let e := issueEnv s w x v u (.creduce f)
        let at_ := e.rdS f.a
        let a := { l.headD { kind := .load [] } with issue := v.nextAcc, id := v.nextAcc }
        let y := collRead e (served e s true [{ va := at_.toNat, n := 64 }]) a
        let reads := collReads e s a
        at_.toNat % 8 = 0 → checkReqs e s true .load [{ va := at_.toNat, n := 64, kind := .load [] }] = .ok l →
        let there := reads && (winWait e s at_.toNat a.bytes).isNone
        (reads = false → exec (.creduce f) s = .next (finish s s))
          ∧ (∀ s1, reads = true → winWait e s at_.toNat a.bytes = some (.hold s1) → exec (.creduce f) s = .next (finish s s1))
          ∧ (∀ s1 t, reads = true → winWait e s at_.toNat a.bytes = some (.trap s1 t) → exec (.creduce f) s = .next (trapped s w x s1 t))
          ∧ (there = true → collBad (leNat y.2) (collOf at_ (leNat y.2)) s.net.rank = true → exec (.creduce f) s = .next (trapped s w x (winDrop s (.sub w x)) { cause := .illegal, addr := u.pc, info := 10 }))
          ∧ (there = true → collBad (leNat y.2) (collOf at_ (leNat y.2)) s.net.rank = false → 64 ≤ sectQueue y.1 e.core v.sect → exec (.creduce f) s = .next (finish s s))
          ∧ (there = true → collBad (leNat y.2) (collOf at_ (leNat y.2)) s.net.rank = false → sectQueue y.1 e.core v.sect < 64 →
              exec (.creduce f) s = .next (retire s w x v u (.creduce f) (engIssue e y.1 f (.coll (collOf at_ (leNat y.2)))) {})))
    ∧ TrapsIf (.vlds m) (fun e s => e.v.isResponder = true ∨ (tblGet ({} : Gate) (tblGet ({} : Cohort) s.cohorts e.v.cohort).gates m.d).expect = 0) ill
    ∧ (∀ (s : State) (w x : Nat) (v : Wave) (u : Sub), Issuing s (.vlds m) w x v u → let e := issueEnv s w x v u (.vlds m)
        v.isResponder = false → (tblGet ({} : Gate) (tblGet ({} : Cohort) s.cohorts v.cohort).gates m.d).expect ≠ 0 →
        (∀ l, vldsCheck m e s (maskLanes u.mask) = .ok l → exec (.vlds m) s = .next (retire s w x v u (.vlds m) (engIssue e s {} (.vlds m.d l [] [])) {}))
          ∧ ∀ k lane b, vldsCheck m e s (maskLanes u.mask) = .error (k, .mem lane b) → (ctxAt s v.ctx).t.mirrored = false → exec (.vlds m) s = .next (trapped s w x s (b.trap k lane)))
    ∧ TrapsIf (.remap r) (fun e _ => (∀ h, e.v.handler = some h → h.migrate = false)) (fun e _ => { cause := .mode, addr := e.p, info := 10 })
    ∧ (∀ (s : State) (w x : Nat) (v : Wave) (u : Sub) (h : Handler), Issuing s (.remap r) w x v u → let e := issueEnv s w x v u (.remap r)
        let a := (e.rdS r.a).toNat
        let b := (e.rdB r).toNat
        let done := fun (s1 : State) (k : Nat) => exec (.remap r) s = .next (retire s w x v u (.remap r) s1 { wr := e.wrS r.d (BitVec.ofNat 64 k) })
        v.handler = some h → h.migrate = true →
        (a ≠ v.core ∨ 319 < b ∨ b = a ∨ b / 80 ≠ v.core / 80 → exec (.remap r) s = .next (trapped s w x s { cause := .illegal, addr := u.pc, info := 10 }))
          ∧ (a = v.core → b ≤ 319 → b ≠ a → b / 80 = v.core / 80 → ∀ c, tblFind s.cohorts v.cohort = some c →
              let here := (tblVals s.waves).filter (fun y => decide (y.cohort = v.cohort) && !y.isResponder && decide (y.core = a))
              (remapBound s c here = true → done s 3)
                ∧ (remapBound s c here = false → piecesMoved s v.cohort a b = false → done s 1)
                ∧ (remapBound s c here = false → piecesMoved s v.cohort a b = true → remapFree s v.cohort v.ctx a b = false → done s 2)
                ∧ (remapBound s c here = false → piecesMoved s v.cohort a b = true → remapFree s v.cohort v.ctx a b = true → (∀ y ∈ s.waves, y.1 = w ∨ y.2.cohort ≠ v.cohort ∨ y.2.isResponder = true ∨ y.2.core ≠ a ∨ y.2.phase ≠ .simt ∨ atBoundary s y.2 = true) →
                    done (remapDo s v.cohort c a b) 0 ∧ physCore (remapDo s v.cohort c a b) a = physCore s b ∧ physCore (remapDo s v.cohort c a b) b = physCore s a ∧ ∀ k, k ≠ a → k ≠ b → physCore (remapDo s v.cohort c a b) k = physCore s k))))

/-- R184 to R186: `xmode.b` of a convertible kernel's only sub-wave, its wave alone in its section, with no register write pending begins the conversion, which lasts 16 cycles; XMODE_CONVERT then makes it a bundle thread at p + 8. A write pending makes it wait; anything else raises MODE with REASON 10. The `.mx` form also claims the matrix engine. R60, R64, R187, R195, R196, R199 to R203: the instructions that only a bundle holds. In SIMT code each raises MODE with REASON 9. As the one word of a bundle: `xmode.s` with no level open begins the return at the address after the bundle; `loop` with a count opens a level whose body is the following words, and with none skips it; `lexit` of a value other than 0 leaves the innermost level; `xmov` and `xbcast` send one cluster's register to the executing clusters within the bound of R193. -/
def Obligations.BundleForms : Prop :=
  (∀ f : RRR,
  let bad := fun (mx : Bool) (e : Env) (s : State) => e.v.kernel.conv = false ∨ e.v.conv = false ∨ (∃ y ∈ s.waves, y.1 ≠ e.w ∧ physCore s y.2.core = e.core ∧ y.2.sect = e.v.sect) ∨ e.v.subs.length ≠ 1 ∨ (mx = true ∧ (e.v.kernel.mtx = false ∨ claimed s e.core e.w = true))
  (∀ (i : Instr) (mx : Bool), (i, mx) ∈ ([(.xmodeB f, false), (.xmodeBMx f, true)] : List (Instr × Bool)) →
      WaitsIf i (fun e _ => writesPending e.v = true)
        ∧ TrapsIf i (fun e s => writesPending e.v = false ∧ bad mx e s) (fun e _ => { cause := .mode, addr := e.p, info := 10 })
        ∧ ∀ (s : State) (w x : Nat) (v : Wave) (u : Sub), Issuing s i w x v u → writesPending v = false → ¬ bad mx (issueEnv s w x v u i) s →
            ∃ t v', exec i s = .next t ∧ waveAt t w = some v' ∧ v'.phase = .converting (s.clock + 16) ∧ v'.bun.claim = (mx || v.handler.any (·.claim)) ∧ v'.bun.loops = [] ∧ v'.bun.regions = [] ∧ (∃ u', tblFind v'.subs x = some u' ∧ u'.pc = u.pc + 8) ∧ v'.wd = 0
              ∧ v'.s = v.s ∧ v'.v = v.v ∧ v'.p = v.p ∧ v'.flags = v.flags ∧ KeepsRest w s t)
    ∧ (∀ (s : State) (w : Nat) (v : Wave) (t0 : Nat), waveAt s w = some v → v.phase = .converting t0 → ∃ t v', exec (.xmodeConvert w) s = .next t ∧ waveAt t w = some v' ∧ v'.phase = .bundle ∧ (∀ x u, v.subs = [(x, u)] → v'.subs = [(rootSub, { u with mask := v.rootMask })]) ∧ v'.hinge = [] ∧ v'.s = v.s ∧ v'.flags = v.flags
        ∧ (∀ r l, v.rootMask.getLsbD l = true → v'.getV r l = v.getV r l) ∧ (∀ k l, l < 32 → v.rootMask.getLsbD l = true → (v'.getP k).getLsbD l = (v.getP k).getLsbD l) ∧ KeepsRest w s t))
    ∧ (∀ (f : RRR) (g : LP) (s : State) (v : Wave) (p : Word) (w : Nat),
  let plain := fun (sl : Slot) (i : Instr) => AloneReady s w v p sl i
  let e := fun (sl : Slot) (i : Instr) => aloneEnv s w v p sl i
  let after := fun (i : Instr) (q : Word) (v' : Wave) => ∃ t, exec i s = .next t ∧ waveAt t w = some v' ∧ (∃ u', tblFind v'.subs rootSub = some u' ∧ u'.pc = q) ∧ v'.s = v.s ∧ v'.v = v.v ∧ v'.p = v.p
  (∀ i ∈ ([.xmodeS f, .xmov f, .xbcast f, .loop g, .lexit f] : List Instr), ∀ (x : Nat) (u : Sub), Chosen s w x v u → (v.kernel.w16 = false ∨ v.inHandler = true) → exec i s = .next (trapped s w x s { cause := .mode, addr := u.pc, info := 9 }))
    ∧ (plain .sc (.xmodeS f) → v.bun.loops = [] → ∃ v', after (.xmodeS f) (p + 16) v' ∧ v'.phase = .ret (p + 16))
    ∧ (plain .sc (.xmodeS f) → v.bun.loops ≠ [] → issues v.bun.loops (.xmodeS f) = true → ∃ t v', exec (.xmodeS f) s = .next t ∧ waveAt t w = some v' ∧ v'.phase = .drain { cause := .mode, tpc := some p, addr := p, info := BitVec.ofNat 64 (10 + 65536) } false)
    ∧ (plain .sc (.loop g) → g.len ≤ 2048 → v.bun.loops.length < 6 → (∀ l, v.bun.loops.head? = some l → (p + 16 + BitVec.ofNat 64 (8 * g.len)).toNat ≤ l.stop.toNat) →
        let n := ((e .sc (.loop g)).rdS g.a).toNat % 2 ^ 32
        (n = 0 → ∃ v', after (.loop g) (p + 16 + BitVec.ofNat 64 (8 * g.len)) v' ∧ v'.bun.loops = v.bun.loops)
          ∧ (n ≠ 0 → ∃ v', after (.loop g) (p + 16) v' ∧ v'.bun.loops = { firstit := true, start := p + 16, remain := n, len := g.len, dreg := g.d, breg := g.b } :: v.bun.loops))
    ∧ (plain .sc (.lexit f) → ∀ l r, v.bun.loops = l :: r → issues v.bun.loops (.lexit f) = true → (e .sc (.lexit f)).rdS f.a ≠ 0 → ∃ v', after (.lexit f) l.stop v' ∧ v'.bun.loops = r)
    ∧ (∀ (sl : Slot) (i : Instr), (sl, i) ∈ ([(.ln, .xmov f), (.xq, .xbcast f)] : List (Slot × Instr)) → plain sl i → v.bun.loops = [] →
        ∃ v', after i (p + 16) v' ∧ v'.bun.flights = v.bun.flights ++ wrFlights s.clock i { wr := (e sl i).lanes.flatMap (fun l => (e sl i).wrV (if f.ty.is64 then 64 else 32) f.d l ((e sl i).rdVec false (if f.ty.is64 then 64 else 32) f.a f.b)) }))

/-- R61 to R65, R190, R198, R204: a bundle at the head of its thread. Words that decode and pass every test at issue leave the effect of their operations, each read before any writes; a word or header that fails a test of R64 has no effect and drains the thread for its trap, with TPC the header and the word's position in TINFO; a hazard does the same with HAZARD; an empty popped or a full pushed port only holds the bundle back. -/
def Obligations.BundleIssues : Prop := ∀ (s : State) (w : Nat) (v : Wave) (p : Word) (words : List Word), BundleReady s w v p →
  let got := decodeBundle v.kernel.alloc (words ++ List.replicate (headerOf (words.headD 0)).len 0)
  let drains := fun t : Trap => ∃ t1 v', exec (.bundleIssue words) s = .next t1 ∧ waveAt t1 w = some v' ∧ v'.phase = .drain { t with tpc := some p } false ∧ v'.s = v.s ∧ v'.v = v.v ∧ v'.p = v.p ∧ v'.subs = v.subs
  (∀ r pos, got = .error (.illegal r, pos) → drains { cause := .illegal, addr := p, info := BitVec.ofNat 64 (r + 65536 * pos) })
    ∧ (∀ r pos, got = .error (.mode r, pos) → drains { cause := .mode, addr := p, info := BitVec.ofNat 64 (r + 65536 * pos) })
    ∧ ∀ (h : BundleHeader) (ops : List BundleOp), got = .ok (h, ops) → h.latch = 0 → v.bun.regions = [] → v.bun.pure_ = false →
        let next := p + BitVec.ofNat 64 (8 * h.len)
        let ws := (ops.zipIdx.map (fun o => ({ pos := o.2 + 1, slot := o.1.slot, clusters := o.1.clusters, i := o.1.i } : BWord))).filter (fun o => issues v.bun.loops o.i)
        let env := bunEnv s w v h p next (popAll s v (bunPops ws)) (pushAll s v (bunPushes ws))
        pastEnd v p next = false → claimBad v h p = none → (∀ o ∈ ws, wordBad s v p o = none) → (seqCarries p (8 * h.len) && ws.all (fun o => goesOn o.i (env o))) = false →
        (((bunPops ws).all (popReady s v) = false ∨ (bunPushes ws).all (pushReady s v) = false) → exec (.bundleIssue words) s = .next (finish s s))
          ∧ ((bunPops ws).all (popReady s v) = true → (bunPushes ws).all (pushReady s v) = true →
              (∀ k, hazardOf s v ws = some k → drains { cause := .hazard, addr := p, info := BitVec.ofNat 64 k })
                ∧ ∀ b, hazardOf s v ws = none → replayTraps s v ws = none → runWords s env { s := s } ws = .done b → (∀ t, b.go = .br t → -(2 ^ 56 : Int) ≤ t ∧ t < 2 ^ 56) →
                    exec (.bundleIssue words) s = .next (finish s (settle (bunDone s w v h p next ws (env { pos := 0, slot := .sc, clusters := 0, i := .nop {} }) b))))

/-- R187, R188, R191, R395, R398, R400: the steps of a bundle thread. A result on its way lands in its place and nowhere else; the oldest region commits; the drain of a return ends with the wave back in SIMT code at its address, that of an end with the wave ended, that of a trap with the handler entered, TCAUSE.BUNDLE set and the claim kept. -/
def Obligations.BundleThreadSteps : Prop := ∀ (s : State) (w : Nat) (v : Wave), waveAt s w = some v → v.ended = false →
  (∀ (k : Nat) (f : Flight), v.bun.flights[k]? = some f → landOk s v k f = true → f.src = none → f.st = [] → f.exact = false →
      (∀ r x, f.wr = [⟨.s r, x⟩] → ∃ t v', exec (.operationLands w k) s = .next t ∧ waveAt t w = some v' ∧ v'.getS r = BitVec.ofNat 64 x ∧ (∀ q, q ≠ r → v'.getS q = v.getS q) ∧ v'.v = v.v ∧ v'.p = v.p)
        ∧ (∀ r l x, r < 248 → l < 32 → f.wr = [⟨.v r l, x⟩] → ∃ t v', exec (.operationLands w k) s = .next t ∧ waveAt t w = some v' ∧ v'.getV r l = BitVec.ofNat 32 x ∧ (∀ q j, j < 32 → (q ≠ r ∨ j ≠ l) → v'.getV q j = v.getV q j) ∧ v'.s = v.s ∧ v'.p = v.p))
    ∧ (∀ (r : Region) (rest : List Region), v.bun.regions = r :: rest → mayCommit s v = true → regionPeers v r = [] →
        ∃ t v', exec (.regionCommit w) s = .next t ∧ waveAt t w = some v' ∧ v'.bun.regions = rest ∧ v'.s = v.s ∧ v'.v = v.v ∧ v'.p = v.p ∧ v'.subs = v.subs)
    ∧ (∀ pc, v.phase = .ret pc → drainClear s w v = true → ∃ t v', exec (.returnDrainEnd w) s = .next t ∧ waveAt t w = some v' ∧ v'.phase = .simt ∧ v'.subs = [(rootSub, { pc := pc, mask := v.rootMask })] ∧ v'.hinge = [] ∧ v'.bun.claim = v.handler.any (·.claim) ∧ v'.s = v.s ∧ v'.v = v.v ∧ v'.p = v.p ∧ v'.flags = v.flags)
    ∧ (v.phase = .ending → drainClear s w v = true → ∃ t v', exec (.endingDrainEnd w) s = .next t ∧ waveAt t w = some v' ∧ v'.ended = true ∧ v'.subs = [] ∧ v'.bun.claim = false ∧ v'.s = v.s ∧ v'.v = v.v ∧ v'.p = v.p)
    ∧ (∀ (t : Trap) (a : Bool) (u : Sub), v.phase = .drain t a → threadDrained s w v = true → v.stopped = false → v.bun.regions = [] → v.bun.faults = [] → v.isResponder = false → v.handler = none → v.tvec ≠ 0 → tblFind v.subs rootSub = some u →
        ∃ t1 v', exec (.bundleTrapDrainEnd w) s = .next t1 ∧ waveAt t1 w = some v' ∧ v'.phase = .simt ∧ v'.tpc = t.tpc.getD u.pc ∧ v'.tcause = BitVec.ofNat 64 (causeCode t.cause + 256) ∧ v'.taddr = (asTaken s v t).addr ∧ v'.tinfo = (asTaken s v t).info
          ∧ (∃ h, v'.handler = some h ∧ h.bundle = true) ∧ v'.subs = [(rootSub, { pc := v.tvec, mask := v.rootMask })] ∧ v'.bun.claim = v.bun.claim ∧ v'.s = v.s ∧ v'.v = v.v ∧ v'.p = v.p)

/-- R136, R139, R391, R392, R405: the steps between instructions. A cause held for a wave that may take one enters its handler at the sub-wave of its boundary, with the cause, TADDR and TINFO it was held with, but for MIGRATE, whose words name what its core proposes then (R443); WATCHDOG does the same at the sub-wave whose issue reached the limit, once that instruction has completed; a ready sub-wave passed over for the 1,024th cycle is aged; a wave not parked within the pre-emption limit is asked to park with REASON 16 and INH 1. R108, R224, R278, R309, R314: the steps that end a wait. A woken or timed `callx` reads its slot again; a `waitv` that reads a word its condition accepts goes on; a `kwait` with every token DONE and a gate wait whose phase is over go on behind it, or trap with ENGINE_FAULT; a gap not answered in time raises the trap of its access. A sub-wave that a handler has stopped ends no wait, and a trap waits for the instructions of the other sub-waves and for a stopped wave to resume (log 105). -/
def Obligations.BoundarySteps : Prop :=
  (∀ (s : State) (w : Nat) (v : Wave), waveAt s w = some v →
  let enters := fun (i : Instr) (x : Nat) (c : Cause) (a b : Word) => ∀ u, tblFind v.subs x = some u → ∃ t v', exec i s = .next t ∧ waveAt t w = some v' ∧ v'.tcause = BitVec.ofNat 64 (causeCode c) ∧ v'.taddr = a ∧ v'.tinfo = b ∧ v'.tpc = u.pc
    ∧ (∃ h, v'.handler = some h ∧ h.sub = x ∧ h.mask = u.mask) ∧ (tblFind v'.subs x).map (·.pc) = some v.tvec ∧ (∀ y, y ≠ x → (tblFind v'.subs y).map (·.pc) = (tblFind v.subs y).map (·.pc)) ∧ v'.s = v.s ∧ v'.v = v.v ∧ v'.p = v.p ∧ v'.toks = v.toks
  (mayTake s v = true → v.phase = .simt → v.tvec ≠ 0 → v.isResponder = false →
      (∀ c a b r, v.held = (c, a, b) :: r → let x := asTaken s v { cause := c, addr := a, info := b }; enters (.trapEntry w) (asyncSub v) c x.addr x.info) ∧ (∀ c a b x, v.async = some (c, a, b, x) → v.waitOpen x = false → enters (.watchdog w) x c a b))
    ∧ (∀ x u, tblFind v.subs x = some u → u.aged = 1023 → (tblGet {} (coreAt s (physCore s v.core)).sects v.sect).issuedAt = some s.clock → (tblGet {} (coreAt s (physCore s v.core)).sects v.sect).last ≠ some (w, x) →
        ∃ t v', exec (.subwaveAged w x) s = .next t ∧ waveAt t w = some v' ∧ tblFind v'.subs x = some { u with aged := 1024 } ∧ v'.s = v.s)
    ∧ (∀ t0, v.preemptAt = some t0 → t0 + (ctxAt s v.ctx).t.preemptLimit ≤ s.clock → v.parkReq = none → v.stopped = false → v.ended = false → (v.inHandler = true ∨ ∀ h ∈ v.held, h.1 ≠ .preempt) →
        ∃ t v', exec (.preemptLimit w) s = .next t ∧ waveAt t w = some v' ∧ v'.parkReq = some (16, true) ∧ v'.s = v.s ∧ v'.v = v.v))
    ∧ (∀ (s : State) (w x : Nat) (v : Wave) (u : Sub), waveAt s w = some v → tblFind v.subs x = some u →
  let goesOn := fun (i : Instr) (pc : Word) => ∃ t v', exec i s = .next t ∧ waveAt t w = some v' ∧ (∃ u', tblFind v'.subs x = some u' ∧ u'.pc = pc ∧ u'.hold = .run ∧ u'.mask = u.mask) ∧ (∀ y, y ≠ x → tblFind v'.subs y = tblFind v.subs y) ∧ v'.v = v.v ∧ v'.p = v.p ∧ v'.toks = v.toks
  let traps := fun (i : Instr) (t0 : Trap) => v.tvec ≠ 0 → v.handler = none → v.isResponder = false → v.ended = false → v.trapLater x = false → ∃ t v', exec i s = .next t ∧ waveAt t w = some v' ∧ v'.tcause = BitVec.ofNat 64 (causeCode t0.cause) ∧ v'.taddr = t0.addr ∧ v'.tinfo = t0.info ∧ v'.tpc = t0.tpc.getD u.pc ∧ v'.handler.isSome = true
  (∀ a t0, u.hold = .callx a true t0 true → goesOn (.callxWake w x) u.pc)
    ∧ (∀ a t0 b, u.hold = .callx a false t0 b → t0 + 1024 ≤ s.clock → goesOn (.callxReread w x) u.pc)
    ∧ (∀ q acc, u.hold = .waitv q → v.awake x = true → (∀ d ∈ q.dst, ∃ r, d = .s r) → (∀ a ∈ v.accs, ¬ (a.kind = .poll ∧ a.sub = x)) → (q.woken = true ∨ q.since + 1024 ≤ s.clock) → (∀ d ∈ s.dies, d.2.watch.wctl = []) → waitvAcc (waitEnv s w x v u) s q = .ok acc → (∀ b ∈ acc.bytes, b.at_.isAway = false) →
        let s1 := served (waitEnv s w x v u) s q.flat [q.req]
        waitvReady (waitEnv s w x v u) s1 acc = true → (q.eq = true ↔ waitvValue (waitEnv s w x v u) s1 acc = q.cmp) → goesOn (.waitvWake w x) q.next)
    ∧ (∀ ks next, u.hold = .kwait ks next → v.awake x = true → (∀ k ∈ ks, v.tok k = .done) → goesOn (.kwaitComplete w x) next)
    ∧ (∀ ks next k a i, u.hold = .kwait ks next → (∀ j ∈ ks, (v.tok j).settled = true) → firstFailed v ks = some (k, a, i) → traps (.kwaitComplete w x) { cause := .engineFault, addr := a, info := tokenInfo k i })
    ∧ (∀ g next b, u.hold = .gate g next b → v.awake x = true → gateOver s v g = true → (gateOf s v.cohort g).err = false → goesOn (.gateWaitComplete w x) next)
    ∧ (∀ g next b, u.hold = .gate g next b → gateOver s v g = true → (gateOf s v.cohort g).err = true → traps (.gateWaitComplete w x) { cause := .engineFault, tpc := some next, info := BitVec.ofNat 64 (2 ^ 33 + g * 2 ^ 28) })
    ∧ (∀ ctx n g, tblFind (ctxAt s ctx).gaps n = some g → g.since + (ctxAt s ctx).t.gapLimit ≤ s.clock → g.eng = none → g.wave = some (w, x) → v.stopped = false → u.hold = .gap n → v.phase = .simt → traps (.gapLimit ctx n) g.trap))

/-- R258, R302, R305, R306, R308, R329, R335, R381: the steps of the engines. An instruction whose tokens are settled and whose turn it is begins; a `kjoin` completes there, its token DONE, or FAILED with the failure it inherits; a chunk whose addresses are reached is moved and counted once; a `vlds` and a matrix instruction that has had its effect complete; a channel entry that has its value arrives. -/
def Obligations.EngineSteps : Prop := ∀ (s : State) (k : Nat) (o : EngOp) (v : Wave), tblFind s.eng k = some o → waveAt s o.wave = some v →
  let ready := o.begun = false ∧ o.gap = none ∧ mayBegin s o = true ∧ o.depsDone = true ∧ inOrder s k o = true ∧ stalled s k o = false
  (∀ tk, ready → o.pay = .kjoin → o.out = some tk → v.tok tk = .pending none → v.ended = false → (∀ e ∈ s.eng, e.1 ≠ k → ¬ (e.2.wave = o.wave ∧ e.2.out = some tk)) →
      ∃ t v', exec (.engineBegin k) s = .next t ∧ tblFind t.eng k = none ∧ waveAt t o.wave = some v'
        ∧ v'.tok tk = (match o.badDep with | none => .done | some f => .failed f.1 (f.2 ||| BitVec.ofNat 64 (2 ^ 32))) ∧ ∀ j, j ≠ tk → v'.tok j = v.tok j)
    ∧ (∀ (st : Bool) (r : TRec) (goff : Word) (soff : Nat) (moved wait : List Nat) (c : Nat), o.pay = .tcopy st r goff soff moved wait → o.begun = true → o.gap = none → o.fault = none → stalled s k o = false → chunkOk st r goff c = true → c ∉ moved → c ∉ wait →
        let n := c / 8
        let sp := chunkSpan (r.gaddr goff n) r.esz (c % 8)
        let done := fun t : State => tblFind t.eng k = none ∨ ∃ o', tblFind t.eng k = some o' ∧ o'.pay = .tcopy st r goff soff (c :: moved) wait
        let look := chunkLook s (physCore s v.core) o st r goff c
        (r.clipped n = true → ∃ t, exec (.tcopyChunk k c) s = .next t ∧ done t)
          ∧ (∀ fb, r.clipped n = false → (spadPlaces s v (r.saddr soff n + sp.1) sp.2).isSome = true → look = .ok fb → (∀ b ∈ fb, b.at_.isAway = false) → engWaits s (dieOf v.core) st fb = false → ∃ t, exec (.tcopyChunk k c) s = .next t ∧ done t)
          ∧ (∀ m : MemFault, r.clipped n = false → (spadPlaces s v (r.saddr soff n + sp.1) sp.2).isSome = true → look = .error m → m.isGap = false → wait = [] → ∃ t, exec (.tcopyChunk k c) s = .next t ∧ tblFind t.eng k = none)
          ∧ (∀ m : MemFault, r.clipped n = false → (spadPlaces s v (r.saddr soff n + sp.1) sp.2).isSome = true → look = .error m → m.isGap = true →
              ∃ t o', exec (.tcopyChunk k c) s = .next t ∧ tblFind t.eng k = some o' ∧ o'.gap = some (ctxAt s o.ctx).gapSeq ∧ o'.pay = o.pay ∧ HostMsg.gap (gapRecord o.ctx (ctxAt s o.ctx).gapSeq v.core 64 (if st then 1 else 0) (BitVec.ofNat 64 m.va)) ∈ t.out))
    ∧ (∀ g l moved wait, o.pay = .vlds g l moved wait → o.begun = true ∨ mayBegin s o = true → stalled s k o = false →
        ((∃ i ∈ vldsUnits l, i ∉ moved ∧ engWaits s (dieOf v.core) false (vldsUnit l i).1 = false) →
            ∃ t o' moved' wait', exec (.vldsComplete k) s = .next t ∧ tblFind t.eng k = some o' ∧ o'.pay = .vlds g l moved' wait' ∧ (∀ i ∈ moved, i ∈ vldsUnits l → i ∈ moved') ∧ ∃ i ∈ moved', i ∈ vldsUnits l ∧ i ∉ moved)
          ∧ ((∀ i ∈ vldsUnits l, i ∈ moved) → wait = [] → arriveReady s o = true → ∃ t, exec (.vldsComplete k) s = .next t ∧ tblFind t.eng k = none))
    ∧ (∀ m, o.pay = .mx m → m.landed = false → m.inp = none → o.begun = true → o.gap = none → o.fault = none → stalled s k o = false → mxTurn s k o m = true →
        let core := physCore s v.core
        let i := mxInputs s core v.work m
        let found := mxFound s core v.work (free s)
        (m.k = 2 → ∃ t, exec (.matrixComplete k) s = .next t ∧ tblFind t.eng k = none ∧ ∀ row, ((coreAt t core).mx.piece (bits m.ctl 0 3)).getD row 0 = 0)
          ∧ (m.k = 1 → ∃ t, exec (.matrixComplete k) s = .next t ∧ tblFind t.eng k = none ∧ ((coreAt t core).mx.piece (bits m.ctl 0 3)).take 64 = mmaResult s v m (found (bits m.ctl 0 3)) i.station i.stage)
          ∧ (m.k = 4 → ∃ t, exec (.matrixComplete k) s = .next t ∧ tblFind t.eng k = none ∧ ((coreAt t core).mx.piece (mlatTarget m.ctl)).take (mlatSpans m).length = mlatResult s v m i.proj)
          ∧ (m.k = 3 → ∃ t, exec (.matrixComplete k) s = .next t ∧ tblFind t.eng k = none ∧ (coreAt t core).mx = (coreAt s core).mx)
          ∧ (m.k = 0 ∨ m.k = 5 → bitAt m.ctl 2 = false → m.wait = [] → ∃ t, exec (.matrixComplete k) s = .next t ∧ tblFind t.eng k = none ∧ ((coreAt t core).mx.piece m.target).take (loadAddrs m).1.length = loadRows s v m (loadAddrs m).2 (loadAddrs m).1))
    ∧ (∀ m, o.pay = .mx m → m.landed = true → ∃ t, exec (.matrixComplete k) s = .next t ∧ tblFind t.eng k = none ∧ ∀ l, m.res = some l → ((coreAt t (physCore s v.core)).mx.piece m.target).take l.length = l)
    ∧ ∀ core ch n x, (chanEntries s core ch).find? (fun e => decide (e.id = n)) = some x → x.val.isSome = true → x.arrived = false →
        ∃ t, exec (.channelEntryArrive core ch n) s = .next t ∧ chanEntries t core ch = (chanEntries s core ch).map (fun e => if e.id = n then { e with arrived := true } else e) ∧ (∀ c', c' ≠ ch → chanEntries t core c' = chanEntries s core c') ∧ t.waves = s.waves

/-- R270, R302, R303, R306, R313, R335, R340, R343 to R346, R381: what completes under conditions on the state and the operands alone. Each tile form, its operands in range and nothing holding it, retires: its sub-wave goes on behind it. An engine instruction whose turn it is and whose own condition holds begins; a chunk that a copy still has to move is moved, asked for, or ends or stalls the copy; a `vlds` moves an element or ends; a matrix instruction whose turn it is has its effect; a channel entry that has its value arrives; a tile area granted is withdrawn. -/
def Obligations.EngineStepsAndTileFormsComplete : Prop :=
  (∀ (f : EN) (s : State) (w x : Nat) (v : Wave) (u : Sub),
  let d := fun e : Env => (e.rdS f.c).toNat
  let retires := fun i : Instr => ∃ t v', exec i s = .next t ∧ waveAt t w = some v' ∧ v'.retired = v.retired + 1 ∧ (tblFind v'.subs x).map (·.pc) = some (u.pc + 8)
  (Issuing s (.treg f) w x v u → let e := issueEnv s w x v u (.treg f)
      tregOk v.core (d e) = true → inArea s e.core v.ctx (bits (d e) 0 19, 256 * bits (d e) 32 16) = true → v.relPackage v.nextAcc s.clock = true → retires (.treg f))
    ∧ (Issuing s (.tdrop f) w x v u → ((issueEnv s w x v u (.tdrop f)).rdS f.b).toNat ≤ 255 → retires (.tdrop f))
    ∧ (Issuing s (.tfind f) w x v u → retires (.tfind f))
    ∧ (Issuing s (.tmove f) w x v u → let e := issueEnv s w x v u (.tmove f)
        bits (d e) 19 1 = 0 → bits (d e) 29 35 = 0 → bits (d e) 0 8 = 0 → (e.rdS f.b).toNat ≤ 255 → bits (d e) 20 9 ≤ 319 → bits (d e) 20 9 ≠ v.core → sectQueue s e.core v.sect < 64 → retires (.tmove f)))
    ∧ (∀ (s : State) (k : Nat) (o : EngOp) (v : Wave), tblFind s.eng k = some o → waveAt s o.wave = some v →
  let left := fun (t : State) (P : EngOp → Prop) => tblFind t.eng k = none ∨ ∃ o', tblFind t.eng k = some o' ∧ P o'
  let own := match o.pay with
    | .garr _ | .arr _ _ => arriveReady s o = true
    | .mx m => o.badDep = none → mxMayBegin s k o m = true
    | .reg _ _ _ _ => v.relPackage o.mark o.issue = true
    | .post bs _ => postReady s v o.mark o.issue = true ∧ winOpen s (.eng k) bs = false
    | .coll d => engWaits s (dieOf (logicalOf s o.core)) false (bytesOf (collMaps s o d).1) = false
    | .vlds _ _ _ _ => o.badDep.isSome = true
    | _ => True
  (o.begun = false → o.gap = none → mayBegin s o = true → o.depsDone = true → inOrder s k o = true → stalled s k o = false → own →
      ∃ t, exec (.engineBegin k) s = .next t ∧ left t (fun o' => o'.begun = true ∨ o'.fault.isSome = true))
    ∧ (∀ (st : Bool) (r : TRec) (goff : Word) (soff : Nat) (moved wait : List Nat) (c : Nat), o.pay = .tcopy st r goff soff moved wait → o.begun = true → o.gap = none → o.fault = none → stalled s k o = false → chunkOk st r goff c = true → c ∉ moved → c ∉ wait →
        (r.clipped (c / 8) = true ∨ ∀ fb, chunkLook s (physCore s v.core) o st r goff c = .ok fb → engWaits s (dieOf v.core) st fb = false) →
        ∃ t, exec (.tcopyChunk k c) s = .next t ∧ left t (fun o' => ∃ m' w', o'.pay = .tcopy st r goff soff m' w' ∧ (c ∈ m' ∨ c ∈ w' ∨ o'.fault.isSome = true)))
    ∧ (∀ g l moved wait, o.pay = .vlds g l moved wait → o.begun = true ∨ mayBegin s o = true → stalled s k o = false →
        ((∃ i ∈ vldsUnits l, i ∉ moved ∧ engWaits s (dieOf v.core) false (vldsUnit l i).1 = false) ∨ ((∀ i ∈ vldsUnits l, i ∈ moved) ∧ wait = [] ∧ arriveReady s o = true)) →
        ∃ t, exec (.vldsComplete k) s = .next t ∧ left t (fun o' => ∃ m' w', o'.pay = .vlds g l m' w' ∧ ∃ i ∈ m', i ∉ moved))
    ∧ (∀ m, o.pay = .mx m → m.landed = true ∨ (o.begun = true ∧ o.gap = none ∧ o.fault = none ∧ mxStalled s k o m = false ∧ mxTurn s k o m = true ∧ loadWaits s o v m = false) →
        ∃ t, exec (.matrixComplete k) s = .next t ∧ left t (fun o' => o'.fault.isSome = true ∨ ∃ m', o'.pay = .mx m' ∧ (m'.landed = true ∨ m'.asked = true))))
    ∧ (∀ (s : State) (core ch n : Nat) (y : ChanEntry), (chanEntries s core ch).find? (fun e => decide (e.id = n)) = some y → y.val.isSome = true → y.arrived = false →
        ∃ t, exec (.channelEntryArrive core ch n) s = .next t ∧ ∀ e ∈ chanEntries t core ch, e.id = n → e.arrived = true)
    ∧ (∀ (s : State) (ctx core : Nat), (areaSize s (physCore s core) ctx).isSome = true → ∃ t, exec (.tileAreaWithdraw ctx core) s = .next t ∧ areaSize t (physCore s core) ctx = none)

/-- R347, R348, R444: the steps of a tile move. The destination answers a reservation with a code or takes an ARRIVING entry; the source either ends the move with the code, its entry RESIDENT again, or hands off at its stamp; a chunk is copied whole; arrival makes the destination's entry RESIDENT, completion frees the source's with result 0, and a poisoned chunk or the withdrawal of the destination's tile area leaves the source RESIDENT with the destination's entry gone. -/
def Obligations.TileMoveSteps : Prop := ∀ (s : State) (k : Nat) (o : EngOp) (m : MoveSt) (e : KeyEntry), keyAt s o.core m.entry = some e → o.core ≠ physCore s m.dst →
  let p := physCore s m.dst
  let step := fun (n : Nat) (t : State) => ∃ o' m', tblFind t.eng k = some o' ∧ o'.pay = .move m' ∧ m'.step = n ∧ m'.entry = m.entry ∧ m'.dst = m.dst
  (moveAt s k 1 = some (o, m) →
      (reserveCode s o m e ≠ 0 → ∃ t, exec (.tmoveReservation k) s = .next t ∧ step 2 t ∧ (coreAt t p).keyring = (coreAt s p).keyring)
        ∧ (reserveCode s o m e = 0 → ∃ t i ne, exec (.tmoveReservation k) s = .next t ∧ step 2 t ∧ i < 256 ∧ keyAt s p i = none ∧ (∀ j < i, (keyAt s p j).isSome = true) ∧ keyAt t p i = some ne ∧ ne.st = .arriving ∧ ne.key = e.key ∧ ne.len = e.len ∧ ne.ctx = e.ctx ∧ keyAt t o.core m.entry = some e))
    ∧ (moveAt s k 2 = some (o, m) → (m.refuse ≠ 0 → ∃ t, exec (.tmoveReply k) s = .next t ∧ tblFind t.eng k = none ∧ keyAt t o.core m.entry = some { e with st := .resident, peer := 0, stamp := 0, handed := false })
        ∧ (m.refuse = 0 → stampGe (coreAt s o.core).hiStamp m.d = true → ∃ t, exec (.tmoveReply k) s = .next t ∧ step 3 t ∧ keyAt t o.core m.entry = some { e with stamp := (coreAt s o.core).hiStamp, handed := true }))
    ∧ (moveAt s k 3 = some (o, m) → ∀ d, keyAt s p m.dentry = some d → ∃ t, exec (.tmoveHandoff k) s = .next t ∧ step 4 t ∧ ∃ x, keyAt t p m.dentry = some { d with stamp := m.stamp, upTo := x } ∧ (stampGe (coreAt s p).hiStamp m.stamp = true → x = none) ∧ (stampGe (coreAt s p).hiStamp m.stamp = false → x = some m.stamp))
    ∧ (moveAt s k 4 = some (o, m) → keyBusy s o.core m.entry = false → (m.left = [] → ∃ t, exec (.tmoveCopy k) s = .next t ∧ step 5 t)
        ∧ (m.left ≠ [] → badChunks s o m e = [] → e.mig = none → (tblFind (coreAt s p).tiles o.ctx).isSome = true → ∃ t c, exec (.tmoveCopy k) s = .next t ∧ c ∈ m.left ∧ (∀ b < 64, spadByte t (tilePlace p o.ctx m.off (64 * c + b)) = spadByte s (tilePlace o.core o.ctx (256 * e.off) (64 * c + b)))
            ∧ ∃ o' m', tblFind t.eng k = some o' ∧ o'.pay = .move m' ∧ m'.left = m.left.filter (· ≠ c))
        ∧ (∀ co al c core, m.left ≠ [] → badChunks s o m e = [] → e.mig = some (c, core) → tblFind s.cohorts c = some co → tblFind co.spad core = some al → ∃ t x co' al', exec (.tmoveCopy k) s = .next t ∧ x ∈ m.left ∧ tblFind t.cohorts c = some co' ∧ tblFind co'.spad core = some al'
            ∧ al'.bytes = al.bytes ∧ al'.away = tblPut al.away ((256 * e.off + 64 * x - al.base) / 64) p))
    ∧ (moveAt s k 5 = some (o, m) → ∀ d, keyAt s p m.dentry = some d → ∃ t, exec (.tmoveArrival k) s = .next t ∧ step 6 t ∧ keyAt t p m.dentry = some { d with st := .resident, peer := 0, stamp := 0, handed := false } ∧ ∀ x ∈ (coreAt t p).defers, x.entry ≠ m.dentry)
    ∧ (moveAt s k 6 = some (o, m) → ∃ t, exec (.tmoveComplete k) s = .next t ∧ tblFind t.eng k = none ∧ keyAt t o.core m.entry = none)
    ∧ (moveAt s k 4 = some (o, m) → keyBusy s o.core m.entry = false → badChunks s o m e ≠ [] → ∃ t, exec (.tmoveAbort k) s = .next t ∧ tblFind t.eng k = none ∧ keyAt t o.core m.entry = some { e with st := .resident, peer := 0, stamp := 0, handed := false } ∧ keyAt t p m.dentry = none)
    ∧ (∀ n core, 2 ≤ n → n ≤ 5 → s.eng = [(k, o)] → moveAt s k n = some (o, m) → m.refuse = 0 → physCore s core = p → (areaSize s p o.ctx).isSome = true → ∃ t, exec (.tileAreaWithdraw o.ctx core) s = .next t ∧ tblFind t.eng k = none ∧ keyAt t o.core m.entry = some { e with st := .resident, peer := 0, stamp := 0, handed := false } ∧ keyAt t p m.dentry = none)

/-- R340, R350 to R359: the steps of a census. The root stamps a census whose release has had effect with the next number and delivers it; a core accepts it, a match starts its responder or faults, a responder past its limit ends faulted, a core that has resolved all it holds answers, peers that do not answer in time count as answered, and the slot of a census that is over becomes DONE with value and status. A tile area is withdrawn with its entries. -/
def Obligations.CensusSteps : Prop := ∀ s : State,
  (∀ k c, s.censuses[k]? = some c → c.stamped = false → c.gated = false → c.so.scope < 2 → solicitClear s c = true → ∃ t, exec (.censusStamp k) s = .next t ∧ t.lastStamp = (s.lastStamp + 1) % 2 ^ 32 ∧ t.solicits = s.solicits ++ [{ c.so with stamp := (s.lastStamp + 1) % 2 ^ 32 }] ∧ t.waves = s.waves)
    ∧ (∀ core so, s.solicits[(coreAt s core).seen]? = some so → core < 320 → ((coreAt s core).matches_.filter (fun m => decide (m.so.ctx = so.ctx))).length < 64 →
        ∃ t, exec (.solicitAccept core) s = .next t ∧ (coreAt t core).seen = (coreAt s core).seen + 1 ∧ (coreAt t core).hiStamp = so.stamp ∧ (∀ m ∈ (coreAt s core).matches_, m ∈ (coreAt t core).matches_) ∧ (coreAt t core).keyring = (coreAt s core).keyring.map (fun e => (e.1, e.2.accepts so.stamp)))
    ∧ (∀ core i m, (coreAt s core).matches_.findIdx? (respNext s (logicalOf s core)) = some i → (coreAt s core).matches_[i]? = some m → respReserve s m.so.ctx (logicalOf s core) = none → ∃ t, exec (.responderSpawn core) s = .next t ∧ t.nextWave = s.nextWave)
    ∧ (∀ core i m n regs hw sect q, (coreAt s core).matches_.findIdx? (respNext s (logicalOf s core)) = some i → (coreAt s core).matches_[i]? = some m → respReserve s m.so.ctx (logicalOf s core) = some (n, regs) → headerOpen s m.so.ctx m.so.hdr.toNat = false → readHeader s (cardCode s m.so.ctx (dieOf (logicalOf s core))) m.so.ctx m.so.hdr.toNat = .ok hw →
        respPlace s m.so.ctx (logicalOf s core) n regs = some (sect, q) → respHeaderBad (kernelOf m.so.hdr hw) regs = false → ∃ t, exec (.responderSpawn core) s = .next t ∧ t.nextWave = s.nextWave + 1)
    ∧ (∀ w v, waveAt s w = some v → v.isResponder = true → v.ended = false → v.stopped = false → v.started + v.still + respLimit s v.ctx v.core ≤ s.clock → ∃ t v', exec (.responderLimit w) s = .next t ∧ waveAt t w = some v' ∧ v'.ended = true ∧ v'.respFault = true ∧ v'.answer = none)
    ∧ (∀ core stamp c, s.censuses.find? (fun c => c.stamped && decide (c.so.stamp = stamp)) = some c → core ∈ c.accepted → core ∉ c.answered → (∀ e ∈ s.cores, ∀ m ∈ e.2.matches_, ¬ (m.so.stamp = stamp ∧ m.ansCore = core)) → (∀ d ∈ (coreAt s core).defers, d.so.stamp ≠ stamp) →
        ∃ t c', exec (.coreAnswer core stamp) s = .next t ∧ c' ∈ t.censuses ∧ c'.so = c.so ∧ core ∈ c'.answered ∧ t.waves = s.waves)
    ∧ (∀ stamp c y, s.censuses.find? (fun c => c.stamped && decide (c.so.stamp = stamp)) = some c → censusOver s c = true → c.fromPeer = none → slotOf s (physCore s c.so.core) c.so.ctx c.slot = some y →
        ∃ t y', exec (.censusComplete stamp) s = .next t ∧ slotOf t (physCore s c.so.core) c.so.ctx c.slot = some y' ∧ y'.done = true ∧ y'.value = BitVec.ofNat 64 (censusValue s c) ∧ y'.status = BitVec.ofNat 64 (censusStatus s c) ∧ ∀ c' ∈ t.censuses, ¬ (c'.stamped = true ∧ c'.so.stamp = stamp))
    ∧ (∀ stamp c, s.censuses.find? (fun c => c.stamped && decide (c.so.stamp = stamp)) = some c → c.peers ≠ [] → c.since + (ctxAt s c.so.ctx).t.peerTimeout ≤ s.clock → ∃ t, exec (.peerTimeout stamp) s = .next t ∧ ∀ c' ∈ t.censuses, c'.stamped = true → c'.so.stamp = stamp → c'.peers = [] ∧ c'.pto = true)
    ∧ (∀ ctx core, (areaSize s (physCore s core) ctx).isSome = true → ∃ t, exec (.tileAreaWithdraw ctx core) s = .next t ∧ areaSize t (physCore s core) ctx = none ∧ ∀ e ∈ (coreAt t (physCore s core)).keyring, e.2.ctx ≠ ctx)

/-- R361 to R378, R394, R406, R407: the steps of the dispatchers. A record advances the read index; a launch, job or range card admitted is queued and one refused is reported with its code; a launch whose cohorts have ended completes with status 0x01, one of a faulted context with 0x86, one whose dependence failed with 0x85; a cohort, a card or an ask that finds room is placed; a wave asked to park leaves its place with its registers kept; a parked cohort that some quad takes is placed again. -/
def Obligations.DispatchSteps : Prop := ∀ s : State,
  let ahead := fun (t : State) (ctx : Nat) => (ctxAt t ctx).readIdx = (if ringSize (ctxAt s ctx).t ≤ (ctxAt s ctx).readIdx + 1 then 0 else (ctxAt s ctx).readIdx + 1)
  (∀ ctx b, nextRecord s ctx = some b → let x := leNat b
      (x % 256 = 0 → ∃ t, exec (.emptyRecord ctx) s = .next t ∧ ahead t ctx ∧ t.out = s.out ∧ t.launches = s.launches ∧ t.cards = s.cards)
        ∧ (3 < x % 256 → ∃ t, exec (.unknownRecord ctx) s = .next t ∧ ahead t ctx ∧ t.out = s.out ++ [.badRecord ctx (ctxAt s ctx).readIdx] ∧ t.launches = s.launches ∧ t.cards = s.cards)
        ∧ (∀ l, x % 256 = 1 → headerOpen s ctx (recField x 8 8) = false → admitLaunch s x (launchOf x ctx s.order s.clock) = .ok l → ∃ t, exec (.launchRecord ctx) s = .next t ∧ ahead t ctx ∧ tblFind t.launches s.order = some l ∧ t.order = s.order + 1)
        ∧ (∀ st info, x % 256 = 1 → launchMalformed x (launchOf x ctx s.order s.clock) = true ∨ headerOpen s ctx (recField x 8 8) = false → admitLaunch s x (launchOf x ctx s.order s.clock) = .error (st, info) → ∃ t, exec (.launchRecord ctx) s = .next t ∧ ahead t ctx
            ∧ (launchStores s (launchOf x ctx s.order s.clock) = [] → t.launches = s.launches ∧ (ctxAt t ctx).hist.head? = some ((launchOf x ctx s.order s.clock).id, st, s.order))
            ∧ (launchStores s (launchOf x ctx s.order s.clock) ≠ [] → ∃ l, tblFind t.launches s.order = some l ∧ l.id = (launchOf x ctx s.order s.clock).id ∧ l.status = some st ∧ (ctxAt t ctx).hist = (ctxAt s ctx).hist)))
    ∧ (∀ ctx posted i range x ord s1, (i, range) ∈ ([(.jobCard ctx posted, false), (.rangeCard ctx posted, true)] : List (Instr × Bool)) → takeCard s ctx posted = some (x, ord, s1) → x % 256 = (if range then 3 else 2) →
        (∀ c, headerOpen s ctx (recField x 8 8) = false → admitCard s (if range then rangeMalformed x else jobMalformed x) (cardOf x ctx ord range) = .ok c →
            ∃ t k, exec i s = .next t ∧ t.ctxs = s1.ctxs ∧ tblFind t.cards s.order = some k ∧ k.ctx = ctx ∧ k.cls = c.cls ∧ k.tiles = c.tiles ∧ k.range = c.range ∧ k.order = ord ∧ k.wave = none ∧ t.order = s.order + 1)
        ∧ ((if range then rangeMalformed x else jobMalformed x) = true → ∃ t, exec i s = .next t ∧ t.ctxs = s1.ctxs ∧ t.cards = s.cards ∧ t.out = s.out ++ [.card (recField x 4 4) 1 0]))
    ∧ (∀ k l, tblFind s.launches k = some l →
        let ends := fun (t : State) (st : Nat) => tblFind t.launches k = none ∧ ((tblFind s.ctxs l.ctx).isSome = true → l.id ∈ (ctxAt s l.ctx).recent → (ctxAt t l.ctx).hist.head? = some (l.id, st, l.order))
        let decided := fun (t : State) (st : Nat) => (launchStores s l = [] → ends t st) ∧ (launchStores s l ≠ [] → tblFind t.launches k = some { l with status := some st, held := launchStores s l } ∧ t.ctxs = s.ctxs)
        (∀ st, l.status = some st → (∀ i ∈ launchStores s l, i ∉ l.held) → ∃ t, exec (.launchComplete k) s = .next t ∧ ends t st)
        ∧ (l.status = none → l.left = 0 → ∃ t, exec (.launchComplete k) s = .next t ∧ decided t 1)
        ∧ (l.status = none → l.left ≠ 0 → (ctxAt s l.ctx).faulted.isSome = true → launchGone s k = true → ∃ t, exec (.launchComplete k) s = .next t ∧ decided t 0x86)
        ∧ (l.status = none → l.left ≠ 0 → ¬ ((ctxAt s l.ctx).faulted.isSome = true ∧ launchGone s k = true) → depsFailed s l = true → ∃ t, exec (.launchComplete k) s = .next t ∧ decided t 0x85))
    ∧ (∀ k l d, tblFind s.launches k = some l → l.status = none → depsReady s l = true → depsFailed s l = false → l.gang = false → d ∈ diesOf l → (nextOn l d).isSome = true → openQuads s l d ≠ [] → launchAhead s l.ctx l.rank d = false → cardAhead s l.ctx l.rank d = false →
        ∃ t, exec (.cohortPlace k) s = .next t ∧ t.nextCohort = s.nextCohort + 1 ∧ s.nextWave ≤ t.nextWave ∧ (∀ w, w < s.nextWave → waveAt t w = waveAt s w))
    ∧ (∀ k c core r, tblFind s.cards k = some c → c.wave = none → c.core = none → (∀ y ∈ c.tiles, tileGone s c y.1 = false ∧ tileMoving s c y.1 = false) → chooseCore s c = some core → freeCardRecord s c.ctx = some r → launchAhead s c.ctx c.rank (dieOf core) = false → cardAhead s c.ctx c.rank (dieOf core) = false →
        ∃ t c', exec (.cardStart k) s = .next t ∧ tblFind t.cards k = some c' ∧ c'.core = some core ∧ c'.recNo = r)
    ∧ (∀ k c, tblFind s.cards k = some c → c.wave = none → c.core = none → (∃ y ∈ c.tiles, tileGone s c y.1 = true) → ∃ t, exec (.cardStart k) s = .next t ∧ tblFind t.cards k = none ∧ t.out = s.out ++ [.card c.stream 2 0])
    ∧ (∀ k c core, tblFind s.cards k = some c → c.wave = none → c.core = some core → tilesAway s c core = [] → c.moving = [] → mayPlace s c.ctx core = true → mtxFree s c.kernel c.ctx core = true → quadHeld s (quadOf core) = false → ∃ t c', exec (.cardStart k) s = .next t ∧ tblFind t.cards k = some c' ∧ c'.wave = some s.nextWave ∧ t.nextWave = s.nextWave + 1)
    ∧ (∀ core ctx own k n r c lo hi g, (∀ e ∈ s.cards, cardReady s e.2 core = false) → askPick s core ctx = some (own, k, n) → freeCardRecord s ctx = some r → tblFind s.cards k = some c → c.range = some (lo, hi, g) → k ≠ s.order →
        cardSects s { c with range := some (halve (lo, hi, g)).2, order := s.order, core := none, wave := none, pins := [], moving := [] } core ≠ [] →
        ∃ t c' c2, exec (.ask core ctx) s = .next t ∧ tblFind t.cards k = some c' ∧ tblFind t.cards s.order = some c2 ∧ c'.range = some (halve (lo, hi, g)).1 ∧ c2.range = some (halve (lo, hi, g)).2 ∧ c2.wave = some s.nextWave)
    ∧ (∀ w v reason inh, waveAt s w = some v → v.parkReq = some (reason, inh) → mayPark s w v = true → ∃ t, exec (.park w) s = .next t ∧ waveAt t w = none ∧ ∃ p, tblFind t.parked v.cohort = some p ∧ ∃ y ∈ p.waves, y.s = v.s ∧ y.v = v.v ∧ y.p = v.p ∧ y.tpc = v.tpc ∧ y.flags = v.flags)
    ∧ (∀ co p q, tblFind s.parked co = some p → (tblFind s.cohorts co) = none → q < 80 → quadAgain s p.co q = true → (planAgain s p.co (recordSlots s p.co.ctx (recordAt s p.co)) ((List.range 4).map (4 * q + ·)) 0 (parkedAt p)).isSome = true → ∃ t, exec (.placeParked co) s = .next t ∧ tblFind t.parked co = none)

/-- R442, R443, R485: heat. A quad at 95 °C has a migration request that names its cohorts, at 105 °C it issues at half rate as well; at 115 °C the host is told and every clock stops, device memory keeping its contents; below 100 °C the quad issues at full rate again and below 90 °C its request is withdrawn. The power limit goes on and off. -/
def Obligations.ThermalSteps : Prop := ∀ (s : State) (q : Nat), q < 80 → s.heat.tripped = false →
  (quadTemp s q < 95 → ∃ t, exec (.migrationRequest q) s = .next t ∧ quadTemp t q = 95 ∧ q ∈ t.heat.hot ∧ t.heat.half = s.heat.half ∧ t.waves = s.waves ∧ (q ∉ s.heat.hot → ∀ e ∈ s.cohorts, migrNames s q e.2 = true → ∃ e' ∈ t.cohorts, e'.1 = e.1 ∧ q ∈ e'.2.migReq))
    ∧ (quadTemp s q < 105 → ∃ t, exec (.throttle105 q) s = .next t ∧ quadTemp t q = 105 ∧ q ∈ t.heat.hot ∧ q ∈ t.heat.half ∧ t.waves = s.waves)
    ∧ (quadTemp s q < 115 → ∃ t, exec (.trip115 q) s = .next t ∧ quadTemp t q = 115 ∧ t.heat.tripped = true ∧ t.out = s.out ++ [.trip] ∧ t.mem = s.mem ∧ t.waves = [] ∧ t.cores = [] ∧ t.dies = [] ∧ t.clock = s.clock)
    ∧ (∀ c, c < quadTemp s q → ∃ t, exec (.thermalClear q c) s = .next t ∧ quadTemp t q = c ∧ t.waves = s.waves ∧ (c < 100 → q ∉ t.heat.half) ∧ (100 ≤ c → t.heat.half = s.heat.half)
        ∧ (c < 90 → q ∉ t.heat.hot ∧ ∀ e ∈ t.cohorts, q ∉ e.2.migReq) ∧ (90 ≤ c → t.heat.hot = s.heat.hot ∧ t.cohorts = s.cohorts))
    ∧ ∀ on, s.heat.power ≠ on → ∃ t, exec (.powerLimit on) s = .next t ∧ t.heat.power = on ∧ t.waves = s.waves ∧ t.heat.half = s.heat.half

/-- R351, R358, R402, R447 to R454, R476: frames. One the device does not take is dropped; one performed before is answered again and not performed; one ahead of its pair's order is held; the one next in order is performed: a load answers the bytes at home, a store within a grant writes them and is acknowledged, one outside every grant is refused with the fault, an answer ends what waited for it, a solicit is stamped in this root's series, a contribution is acknowledged. A frame unanswered is sent again; a peer access without an answer, or a collective without its contributions, ends at its limit. -/
def Obligations.PeerFrames : Prop := ∀ s : State, s.heat.tripped = false →
  (∀ (i : Instr) (ty : Nat) (fr : Frame) (op : FrameOp), (i, ty, op) ∈ ([(.pyzanLoad fr op, 1, op), (.pyzanStore fr, 2, {}), (.pyzanAtomic fr op, 3, op), (.pyzanResponse fr, 4, {}), (.pyzanAcknowledgement fr, 5, {}), (.pyzanSolicit fr, 6, {}), (.pyzanCensusAnswer fr, 7, {}), (.pyzanCollective fr, 8, {})] : List (Instr × Nat × FrameOp)) → fr.port ∈ s.boot.links →
      (frameOk s ty fr = false → exec i s = .next (finish s s))
        ∧ (frameOk s ty fr = true → fr.seq < rxNext s fr.src → ∃ t : State, exec i s = .next t ∧ t.net = s.net ∧ t.waves = s.waves ∧ t.cores = s.cores ∧ ∀ r, s.net.replies.find? (fun r => decide (r.1 = fr.src) && decide (r.2.1 = fr.seq)) = some r → t.out = s.out ++ [.frame r.2.2.2])
        ∧ (frameOk s ty fr = true → rxNext s fr.src < fr.seq → ∃ t : State, exec i s = .next t ∧ (∃ h ∈ t.net.held, h.ty = ty ∧ h.fr = fr) ∧ rxNext t fr.src = rxNext s fr.src ∧ t.waves = s.waves ∧ t.cores = s.cores ∧ t.out = s.out)
        ∧ (frameOk s ty fr = true → fr.seq = rxNext s fr.src → ∃ t : State, exec i s = .next t ∧ fr.seq < rxNext t fr.src))
    ∧ (∀ (fr : Frame) (op : FrameOp), fr.port ∈ s.boot.links → fr.seq = rxNext s fr.src → s.net.held = [] →
        (∀ g, frameOk s 1 fr = true → grantCheck s fr op.size .load = .ok g → (∀ d, (dieAt s d).watch.wctl = []) → ∃ (t : State) (a : Frame), exec (.pyzanLoad fr op) s = .next t ∧ t.out = s.out ++ [.frame a] ∧ a.dst = fr.src ∧ a.addr = fr.addr ∧ a.status = 0 ∧ a.bytes = homeBytes s g.key fr.addr 0 op.size)
        ∧ (∀ g, frameOk s 2 fr = true → grantCheck s fr fr.bytes.length .store = .ok g → (∀ d, (dieAt s d).watch.wctl = []) →
            ∃ (t : State) (a : Frame), exec (.pyzanStore fr) s = .next t ∧ t.out = s.out ++ [.frame a] ∧ a.dst = fr.src ∧ a.status = 0 ∧ (∀ n < fr.bytes.length, rdByte t (fr.addr + n) = fr.bytes.getD n 0) ∧ ∀ pa, inDevice pa = true → ¬ (fr.addr ≤ pa ∧ pa < fr.addr + fr.bytes.length) → s.wlog = [] → rdByte t pa = rdByte s pa)
        ∧ (∀ (f : Nat), frameOk s 1 fr = true → grantCheck s fr op.size .load = .error f → ∃ (t : State) (a : Frame), exec (.pyzanLoad fr op) s = .next t ∧ t.out = s.out ++ [.frame a] ∧ a.status = f ∧ a.bytes = [])
        ∧ (∀ (f : Nat), frameOk s 2 fr = true → grantCheck s fr fr.bytes.length .store = .error f → ∃ (t : State) (a : Frame), exec (.pyzanStore fr) s = .next t ∧ t.out = s.out ++ [.frame a] ∧ a.status = f ∧ a.bytes = [])
        ∧ (∀ (f : Nat), frameOk s 3 fr = true → grantCheck s fr op.size .atomic = .error f → ∃ (t : State) (a : Frame), exec (.pyzanAtomic fr op) s = .next t ∧ t.out = s.out ++ [.frame a] ∧ a.status = f ∧ a.bytes = [])
        ∧ (∀ (x : TxFrame), frameOk s 4 fr = true → txFor s fr [1, 2, 3] = some x → x.fr.seq < tblGet 0 s.net.txSeq x.fr.dst → ∃ t : State, exec (.pyzanResponse fr) s = .next t ∧ ∀ y ∈ t.net.tx, ¬ (y.fr.dst = x.fr.dst ∧ y.fr.seq = x.fr.seq))
        ∧ (∀ (x : TxFrame), frameOk s 5 fr = true → txFor s fr [2, 7, 8, 17, 18] = some x → x.fr.seq < tblGet 0 s.net.txSeq x.fr.dst → ∃ t : State, exec (.pyzanAcknowledgement fr) s = .next t ∧ ∀ y ∈ t.net.tx, ¬ (y.fr.dst = x.fr.dst ∧ y.fr.seq = x.fr.seq))
        ∧ (∀ (ctx : Nat), frameOk s 6 fr = true → tagCtx s fr.tag = some ctx → ∃ (t : State) (so : Solicit), exec (.pyzanSolicit fr) s = .next t ∧ t.lastStamp = (s.lastStamp + 1) % 2 ^ 32 ∧ t.solicits = s.solicits ++ [so] ∧ so.ctx = ctx ∧ so.stamp = t.lastStamp)
        ∧ (∀ c ∈ s.censuses, frameOk s 7 fr = true → c.stamped = true → c.so.stamp = fr.addr → fr.src ∈ c.peers → ∃ (t : State) (c' : Census), exec (.pyzanCensusAnswer fr) s = .next t ∧ c' ∈ t.censuses ∧ c'.so = c.so ∧ fr.src ∉ c'.peers ∧ peerAnsOf fr ∈ c'.peerAns)
        ∧ (frameOk s 8 fr = true → ∃ (t : State) (a : Frame), exec (.pyzanCollective fr) s = .next t ∧ HostMsg.frame a ∈ t.out ∧ a.dst = fr.src ∧ a.addr = fr.addr ∧ a.status = 0))
    ∧ (∀ (dst seq : Nat) (x : TxFrame), s.net.tx.find? (fun t => decide (t.fr.dst = dst) && decide (t.fr.seq = seq)) = some x → x.sent + Config.resendCycles ≤ s.clock → ∃ t : State, exec (.pyzanResend dst seq) s = .next t ∧ t.net.tx.length = s.net.tx.length ∧ t.waves = s.waves
        ∧ ((∀ i, x.tx ≠ .msg i) → t.out = s.out ++ [.frame x.fr]) ∧ (∀ i m, x.tx = .msg i → s.out[i]? = some m → t.out = s.out ∧ t.net.wire = (if ((lastMs s).map (·.2)).sum + m.size ≤ Config.msBytes ∧ hostPort ∈ s.boot.links then s.net.wire ++ [i] else s.net.wire)))
    ∧ (∀ port : Nat, port ∈ s.boot.links → ∃ t : State, exec (.nonPyzanFrame port) s = .next t ∧ t.host.dropped = s.host.dropped + 1 ∧ t.waves = s.waves ∧ t.net = s.net)
    ∧ (∀ (w k : Nat) (v : Wave) (pre : List Acc) (a : Acc), accAt s w k = some (v, pre, a) → 0 < a.need → a.bad = none → a.sent + (ctxAt s v.ctx).t.peerLimit ≤ s.clock → a.bytes.any (fun b => b.at_.isPeer) = true → ∃ t : State, exec (.peerAccessLimit w k) s = .next t ∧ ∀ y ∈ t.net.tx, ∀ p n, y.tx ≠ .acc w k p n)
    ∧ ∀ (k : Nat) (o : EngOp) (d : CollDesc), tblFind s.eng k = some o → o.pay = .coll d → collGoes s k o d = true → collDue s o d = true ∨ o.issue + (ctxAt s o.ctx).t.collectiveLimit ≤ s.clock → ∃ t : State, exec (.collectiveLimit k) s = .next t ∧ (tblFind t.eng k = none ∨ ∃ o', tblFind t.eng k = some o' ∧ (o'.fault.isSome = true ∨ ∃ d', o'.pay = .coll d' ∧ (d'.given = true ∨ d'.closing = true)))

/-- R479 to R482, R419: bring-up, reset and the foghorn. Reset leaves no wave, context, session or link, and goes to TRAIN where the boot ROM accepts the image; training and links follow in the order of the states; the foghorn in the last cycle of its bound stops every wave of its context that it had not reached. -/
def Obligations.BringUpSteps : Prop := ∀ s : State,
  (∀ image, ∃ t, exec (.packageReset image) s = .next t ∧ t.waves = [] ∧ t.ctxs = [] ∧ t.cores = [] ∧ t.clock = 0 ∧ t.boot.st = (if imageOk (fuseCount s) image then .train else .failRoot) ∧ t.boot.fuses = s.boot.fuses ∧ t.boot.links = [] ∧ t.boot.session = none ∧ t.heat.tripped = false ∧ t.unspec = tblKeys s.mem ++ ((tblKeys s.lineKey).map lineBytes).flatten ++ s.unspec)
    ∧ (∀ ok, s.boot.st = .train → s.heat.tripped = false → ∃ t, exec (.memoryTraining ok) s = .next t ∧ t.boot.st = (if ok then .link else .failMem) ∧ fuseCount s ≤ fuseCount t ∧ t.waves = s.waves)
    ∧ (∀ port, mayTrain s port = true → (∃ t, exec (.linkTraining port true) s = .next t ∧ port ∈ t.boot.links ∧ t.boot.st = (if port = hostPort ∧ s.boot.st = .link then .session else s.boot.st))
        ∧ ∃ t, exec (.linkTraining port false) s = .next t ∧ t.boot.links = s.boot.links ∧ (port = hostPort → t.boot.retry = some (s.clock + retryCycles)) ∧ (port ≠ hostPort → port ∈ t.boot.down))
    ∧ (∀ c, s.boot.retry = some c → c ≤ s.clock → s.heat.tripped = false → ∃ t, exec .linkRetry s = .next t ∧ t.boot.retry = none)
    ∧ (∀ (k : Nat) (f : Fog), s.fogs[k]? = some f → f.cycle + 64 ≤ s.clock → ∃ t, exec (.foghorn k) s = .next t ∧ t.stops.length = s.stops.length + 1 ∧ (f.ask = true → t.out = s.out ++ [.reply 0x32 0 []])
        ∧ ∀ w v, waveAt s w = some v → v.ctx = f.ctx → v.core ∈ f.left → v.ended = false → ∃ v', waveAt t w = some v' ∧ v'.stopped = true ∧ (v.stopped = false → ∃ r, v'.stopRec = some r ∧ r.seq = f.seq ∧ r.cause = f.cause))
    ∧ (∀ line, inDevice (64 * line) = true → ∃ t, exec (.uncorrectableError (.memLine line)) s = .next t ∧ line ∈ t.poison ∧ t.waves = s.waves)
    ∧ ∀ core off p, core < 320 → off < 524288 → arrayPlace s core off = some p → ∃ t, exec (.uncorrectableError (.spadByte core off)) s = .next t ∧ t.waves = s.waves ∧ (spadPoisoned t p = true ∨ ∃ c l o, p = .spad c l o ∧ tblFind (tblGet {} s.cohorts c).spad l = none)

/-- R449, R477, R482 to R484: a command frame that was performed before changes nothing, one behind a gap of the host's series is held, one that comes while a command waits or others are held is held behind them, but for those that are performed on arrival. A command whose turn has come: a payload that breaks its layout is answered 2, one that the state of bring-up does not accept is answered 3, an opcode that is no command's is answered 2, and nothing else changes. -/
def Obligations.CommandRefused : Prop := ∀ (s : State) (p : Payload), hostUp s = true →
  (∀ i c during, (i, c, during) ∈ ([(.openSession p, .openSession p, true), (.status p, .status p, true), (.attest p, .attest p, false), (.streamWrite p, .streamWrite p, false), (.invalidate p, .invalidate p, false), (.preempt p, .preempt p, false), (.coreSave p, .coreSave p, false),
        (.coreRestore p, .coreRestore p, false), (.gapAnswer p, .gapAnswer p, true), (.keyLoad p, .keyLoad p, false), (.keyRetire p, .keyRetire p, false), (.partitionSet p, .partitionSet p, false), (.stop p, .stop p, true), (.step p, .step p, true), (.resume p, .resume p, true)] : List (Instr × HostCmd × Bool)) →
      s.host.queue.head? ≠ some c →
      (p.seq < cmdNext s → exec i s = .next (finish s s))
        ∧ (cmdNext s < p.seq → ∃ t, exec i s = .next t ∧ t.net.early = s.net.early ++ [(p.seq, c)] ∧ t.out = s.out ∧ t.host = s.host ∧ t.waves = s.waves ∧ t.ctxs = s.ctxs)
        ∧ (p.seq = cmdNext s → during = false → s.host.queue ≠ [] ∨ cmdBusy s = true → ∃ t, exec i s = .next t ∧ t.host.queue = s.host.queue ++ [c] ∧ cmdNext t = cmdNext s + 1 ∧ t.out = s.out ∧ t.waves = s.waves ∧ t.ctxs = s.ctxs))
    ∧ (p.seq = cmdNext s → s.host.queue = [] → cmdBusy s = false →
  (∀ i op len zeros always, (i, op, len, zeros, always) ∈ ([(.status p, 0x02, 0, [], true), (.attest p, 0x03, 64, [], true), (.streamWrite p, 0x11, 8, [], false), (.invalidate p, 0x12, 64, [(4, 4)], false), (.preempt p, 0x13, 48, [(4, 4)], false), (.coreSave p, 0x14, 8, [(6, 2)], false),
        (.coreRestore p, 0x15, 8, [(6, 2)], false), (.gapAnswer p, 0x16, 16, [(5, 3)], false), (.keyLoad p, 0x20, 520, [(2, 6)], false), (.keyRetire p, 0x21, 8, [(2, 6)], false), (.partitionSet p, 0x22, 8, [(4, 4)], false), (.stop p, 0x32, 16, [], false), (.step p, 0x33, 16, [], false),
        (.resume p, 0x34, 16, [], false)] : List (Instr × Nat × Nat × List (Nat × Nat) × Bool)) →
      (headOk p len zeros = false → ∃ t, exec i s = .next t ∧ t.out = s.out ++ [.reply op 2 []] ∧ t.ctxs = s.ctxs ∧ t.waves = s.waves ∧ t.host = s.host ∧ t.boot = s.boot)
        ∧ (headOk p len zeros = true → stateOk s always = false → ∃ t, exec i s = .next t ∧ t.out = s.out ++ [.reply op 3 []] ∧ t.ctxs = s.ctxs ∧ t.waves = s.waves ∧ t.host = s.host ∧ t.boot = s.boot))
    ∧ (headOk p 8 [(4, 4)] = false → ∃ t, exec (.openSession p) s = .next t ∧ t.out = s.out ++ [.reply 0x01 2 []] ∧ t.boot = s.boot)
    ∧ ∀ opcode, opcode ∉ commandCodes → ∃ t, exec (.unknownCommand opcode p) s = .next t ∧ t.out = s.out ++ [.reply opcode 2 []] ∧ t.ctxs = s.ctxs ∧ t.waves = s.waves ∧ t.host = s.host ∧ t.boot = s.boot)

/-- R216, R223, R224, R235, R236, R361, R405, R412 to R422, R447, R448, R478, R481 to R484: the commands of a session. Each has its effect and is answered 0; PREEMPT, CORE_SAVE and CORE_RESTORE answer once their effect is complete, STOP once the event has reached its group, STEP once the wave has stopped again. -/
def Obligations.HostCommands : Prop := ∀ (s : State) (p : Payload), hostUp s = true → p.seq = cmdNext s → s.host.queue = [] → cmdBusy s = false →
  let ctx := opNat p 0 4
  let done := fun (i : Instr) (op : Nat) (res : List Byte) (P : State → Prop) => ∃ t, exec i s = .next t ∧ t.out.getLast? = some (.reply op 0 res) ∧ P t
  let later := fun (i : Instr) (op : Nat) (P : State → Prop) => ∃ t, exec i s = .next t ∧ P t ∧ ((t.host.waiting = none ∧ t.out.getLast? = some (.reply op 0 [])) ∨ (t.host.waiting.isSome = true ∧ t.out = s.out))
  (headOk p 8 [(4, 4)] = true → done (.openSession p) 0x01 [] (fun t => t.boot.session = some (opNat p 0 4) ∧ t.host.waiting = none ∧ t.boot.st = openState s.boot.st))
    ∧ (s.boot.session.isSome = true → headOk p 0 [] = true → done (.status p) 0x02 (statusBytes s) (fun t => t.boot = s.boot))
    ∧ (s.boot.session.isSome = true → headOk p 64 [] = true → done (.attest p) 0x03 (report s p.ops) (fun t => t.boot.st = attestState s.boot.st))
    ∧ (s.boot.session.isSome = true → s.boot.st = .ready →
      (∀ tb : CtxTable, headOk p 16 [(4, 4)] = true → opNat p 8 8 ≠ 0 → tb.root % 4096 = 0 → inDevice tb.root = true → class0Taken s ctx tb = false → done (.ctxSet p tb) 0x10 [] (fun t => (ctxAt t ctx).t = tb))
        ∧ (∀ tb : CtxTable, headOk p 16 [(4, 4)] = true → opNat p 8 8 = 0 → done (.ctxSet p tb) 0x10 [] (fun t => tblFind t.ctxs ctx = none ∧ ∀ e ∈ t.waves, e.2.ctx ≠ ctx))
        ∧ (headOk p 8 [] = true → installed s ctx = true → opNat p 4 4 < ringSize (ctxAt s ctx).t → done (.streamWrite p) 0x11 [] (fun t => (ctxAt t ctx).writeIdx = opNat p 4 4))
        ∧ (headOk p 64 [(4, 4)] = true → installed s ctx = true → done (.invalidate p) 0x12 [] (fun t => ∀ c ∈ maskCores p 24, ∀ e ∈ (coreAt t (physCore s c)).tlb ++ (coreAt t (physCore s c)).walk, ¬ (e.ctx = ctx ∧ e.base < opNat p 8 8 + opNat p 16 8 ∧ opNat p 8 8 < e.base + 2 ^ e.leaf.size)))
        ∧ (headOk p 48 [(4, 4)] = true → installed s ctx = true → later (.preempt p) 0x13 (fun t => ∀ w v, waveAt s w = some v → v.ctx = ctx → v.cohort ∈ preempted s ctx (maskCores p 8) → v.isResponder = false → v.ended = false → ∃ v', waveAt t w = some v' ∧ v'.preemptAt.isSome = true))
        ∧ (headOk p 8 [(6, 2)] = true → installed s ctx = true → opNat p 4 2 < 320 → later (.coreSave p) 0x14 (fun t => t.ctxs = s.ctxs) ∧ later (.coreRestore p) 0x15 (fun t => t.ctxs = s.ctxs))
        ∧ (∀ x, headOk p 16 [(5, 3)] = true → opNat p 4 1 ≤ 1 → installed s ctx = true → tblFind (ctxAt s ctx).gaps (opNat p 8 8) = some x → done (.gapAnswer p) 0x16 [] (fun t => t.boot = s.boot))
        ∧ (∀ key, headOk p 520 [(2, 6)] = true → 0 < opNat p 0 2 → opNat p 0 2 < 4096 → Config.unwrapKey (p.ops.drop 8) = some key → done (.keyLoad p) 0x20 [] (fun t => tblFind t.host.keys (opNat p 0 2) = some key))
        ∧ (headOk p 8 [(2, 6)] = true → 0 < opNat p 0 2 → opNat p 0 2 < 4096 → done (.keyRetire p) 0x21 [] (fun t => tblFind t.host.keys (opNat p 0 2) = none ∧ ∀ e ∈ t.cores, ∀ l ∈ e.2.l1, l.2.key ≠ opNat p 0 2))
        ∧ (headOk p 8 [(4, 4)] = true → opNat p 0 1 ≤ 3 → opNat p 1 1 ≤ 15 → done (.partitionSet p) 0x22 [] (fun t => tblGet 0xFFFF (dieAt t (opNat p 0 1)).partition (opNat p 1 1) = opNat p 2 2))
        ∧ (headOk p 40 [(1, 1), (4, 4)] = true →
            (opNat p 0 1 = 0 → opNat p 2 2 ≤ 15 → grantOk (opNat p 8 32) = true → done (.grantSetHost p) 0x23 [] (fun t => tblGet {} t.host.hostGrants (opNat p 2 2) = grantOf (opNat p 8 32)))
              ∧ (opNat p 0 1 = 1 → opNat p 2 2 ≤ 255 → grantOk (opNat p 8 32) = true → done (.grantSetInbound p) 0x23 [] (fun t => tblGet {} t.host.inbound (opNat p 2 2) = grantOf (opNat p 8 32)))
              ∧ (opNat p 0 1 = 2 → opNat p 2 2 ≤ 63 → opNat p 8 32 ≤ 15 → done (.grantSetRoute p) 0x23 [] (fun t => tblFind t.net.routes (opNat p 2 2) = some (opNat p 8 32)))
              ∧ (opNat p 0 1 = 3 → opNat p 2 2 = 0 → opNat p 8 32 ≤ 63 → done (.grantSetRank p) 0x23 [] (fun t => t.net.rank = some (opNat p 8 32))))
        ∧ (∀ c, headOk p 16 [] = true → installed s c = true → controlOk (opNat p 8 8) = true → done (.debugWrite p (.control c)) 0x30 [] (fun t => (ctxAt t c).dbgWord = BitVec.ofNat 64 (opNat p 8 8)))
        ∧ (∀ w r, headOk p 8 [] = true → (waveAt s w).bind (·.stopRec) = some r → done (.debugRead p (.stopRecord w)) 0x31 r.bytes (fun t => t.boot = s.boot))
        ∧ (headOk p 16 [] = true → installed s ctx = true → targetOk (opNat p 4 4) = true → opNat p 8 8 = 0 → bitAt (opNat p 4 4) 15 = false → ∃ t f, exec (.stop p) s = .next t ∧ t.out = s.out ∧ t.fogs = s.fogs ++ [f] ∧ f.ctx = ctx ∧ f.core = bits (opNat p 4 4) 0 9 ∧ f.ask = true ∧ f.cause = 0 ∧ f.wave = none)
        ∧ (∀ w v, headOk p 16 [] = true → installed s ctx = true → targetOk (opNat p 4 4) = true → opNat p 8 8 ≤ 1 → bitAt (opNat p 4 4) 15 = true → targetWave s ctx (opNat p 4 4) = some (w, v) → v.stopped = true → v.stepping = false →
            ∃ t, exec (.step p) s = .next t ∧ t.out = s.out ∧ ∀ v', waveAt t w = some v' → v'.stepping = true ∧ v'.stepAsk = true ∧ v'.stepDeliver = bitAt (opNat p 8 8) 0)
        ∧ (headOk p 16 [] = true → installed s ctx = true → targetOk (opNat p 4 4) = true → opNat p 8 8 = 0 → resumed s ctx (opNat p 4 4) ≠ [] →
            done (.resume p) 0x34 [] (fun t => ∀ w v, waveAt t w = some v → v.stopped = true → ∀ r, v.stopRec = some r → r.seq ∉ resumed s ctx (opNat p 4 4))))
end

