-- ==== Sys2Proof/Laws/Check.lean ====
section
/-! SUPPORT. What the tests of R64 having passed says of an instruction. -/

namespace Sys2Proof.Machine

/-- R64: no test fails exactly where each one passes. -/
theorem check_none_iff (env : DecEnv) (i : Instr) : check env i = none ↔
    (env.w16 = true → w16Op i = true) ∧ modeOk env i = true ∧ (∀ k, env.slot = some k → k ∈ (specOf env.slot i).slots) ∧ litBad env i = false ∧ guardBad env i = false
      ∧ modBad env i = false ∧ opndBad env i = false ∧ entryBad env i = false := by
  have hs : env.slot.any (fun k => !(decide (k ∈ (specOf env.slot i).slots))) = false ↔ (∀ k, env.slot = some k → k ∈ (specOf env.slot i).slots) := by
    cases env.slot <;> simp
  unfold check
  cases h1 : (env.w16 && !(w16Op i)) <;> cases h2 : modeOk env i <;> cases h3 : env.slot.any (fun k => !(decide (k ∈ (specOf env.slot i).slots))) <;> cases h4 : litBad env i <;>
    cases h5 : guardBad env i <;> cases h6 : modBad env i <;> cases h7 : opndBad env i <;> cases h8 : entryBad env i <;> simp_all

end Sys2Proof.Machine
end

