-- ==== Sys2Proof/Laws/Ends.lean ====
section
/-! SUPPORT. Every meaning that answers a next state ends its step with `finish`: what it wrote is performed on the memory it began with, fresh values are drawn, nobody is named as issuing. -/

namespace Sys2Proof.Machine

set_option linter.all false

/-- A next state, where there is one, is the end of a step that began in `s`. -/
def Ends (s : State) (o : Out) : Prop := ∀ t, o = .next t → ∃ u, t = finish s u

theorem ends_nextOf (s u : State) : Ends s (nextOf s u) := fun _ h => ⟨u, by cases h; rfl⟩
theorem ends_refused (s : State) (r : Refusal) : Ends s (.refused r) := fun _ h => by cases h
theorem ends_notEnabled (s : State) : Ends s notEnabled := ends_refused s .notEnabled

theorem ends_issueAt (i : Instr) (body : Env → State → Res) (s : State) (w x : Nat) (v : Wave) (u : Sub) : Ends s (issueAt i body s w x v u) := by
  unfold issueAt
  repeat' (first | split | (dsimp only; split))
  all_goals first | exact ends_nextOf _ _ | exact ends_notEnabled _ | exact ends_refused _ _

theorem ends_issue (i : Instr) (body : Env → State → Res) (s : State) : Ends s (issue i body s) := by
  unfold issue
  repeat' (first | split | (dsimp only; split))
  all_goals first | exact ends_nextOf _ _ | exact ends_notEnabled _ | exact ends_refused _ _ | exact ends_issueAt _ _ _ _ _ _ _

theorem ends_bunIssue (s : State) (w : Nat) (v : Wave) (h : BundleHeader) (p : Word) (ops : List BundleOp) : Ends s (bunIssue s w v h p ops) := by
  unfold bunIssue bunHold
  repeat' (first | split | (dsimp only; split))
  all_goals first | exact ends_nextOf _ _ | exact ends_notEnabled _ | exact ends_refused _ _

theorem ends_bundleCur (s : State) (run : Nat → Wave → Word → Out) (hr : ∀ w v p, Ends s (run w v p)) : Ends s (bundleCur s run) := by
  unfold bundleCur bunHold
  repeat' (first | split | (dsimp only; split))
  all_goals first | exact ends_nextOf _ _ | exact ends_notEnabled _ | exact ends_refused _ _ | exact hr _ _ _

theorem ends_issueAlone (sl : Slot) (i : Instr) (s : State) : Ends s (issueAlone sl i s) := by
  unfold issueAlone
  repeat' (first | split | (dsimp only; split))
  all_goals first
    | exact ends_refused _ _
    | exact ends_nextOf _ _
    | refine ends_bundleCur _ _ (fun w v p => ?_)
      split
      · exact ends_nextOf _ _
      · exact ends_bunIssue _ _ _ _ _ _
    | exact ends_issue _ _ _

theorem ends_drainFault (s : State) (w : Nat) (v : Wave) : Ends s (drainFault s w v) := by
  unfold drainFault
  repeat' (first | split | (dsimp only; split))
  all_goals first | exact ends_nextOf _ _ | exact ends_notEnabled _ | exact ends_refused _ _

theorem ends_headerAsk (s : State) (ctx va : Nat) : Ends s (headerAsk s ctx va) := by
  unfold headerAsk
  repeat' (first | split | (dsimp only; split))
  all_goals first | exact ends_nextOf _ _ | exact ends_notEnabled _ | exact ends_refused _ _

theorem ends_cardRead (ctx : Nat) (posted range : Bool) (s : State) : Ends s (cardRead ctx posted range s) := by
  unfold cardRead
  repeat' (first | split | (dsimp only; split))
  all_goals first | exact ends_nextOf _ _ | exact ends_notEnabled _ | exact ends_refused _ _ | exact ends_headerAsk _ _ _

theorem ends_cardNext (s : State) (k : Nat) (c : Card) (core : Nat) : Ends s (cardNext s k c core) := by
  unfold cardNext
  repeat' (first | split | (dsimp only; split))
  all_goals first | exact ends_nextOf _ _ | exact ends_notEnabled _ | exact ends_refused _ _

theorem ends_cmdGate (i : HostCmd) (during : Bool) (p : Payload) (s : State) (act : State → Out) (h : ∀ s1, Ends s1 (act s1)) : Ends s (cmdGate i during p s act) := by
  have back : ∀ (s1 : State) (o : Out), s1.mem = s.mem → s1.fresh = s.fresh → Ends s1 o → Ends s o := fun s1 o hm hf ho t ht => by
    obtain ⟨u, rfl⟩ := ho t ht
    exact ⟨u, by simp only [finish, hm, hf]⟩
  unfold cmdGate
  repeat' (first | split | (dsimp only; split))
  all_goals first | exact ends_nextOf _ _ | exact ends_notEnabled _ | exact back _ _ rfl rfl (h _)

theorem ends_command (i : HostCmd) (op len : Nat) (zeros : List (Nat × Nat)) (always during : Bool) (p : Payload) (s : State) (act : State → Ans) : Ends s (command i op len zeros always during p s act) := by
  refine ends_cmdGate _ _ _ _ _ (fun s1 => ?_)
  unfold commandDo
  repeat' (first | split | (dsimp only; split))
  all_goals exact ends_nextOf _ _

theorem ends_waitCommand (i : HostCmd) (op len : Nat) (zeros : List (Nat × Nat)) (p : Payload) (s : State) (bad : State → Bool) (begin : State → State) : Ends s (waitCommand i op len zeros p s bad begin) := by
  refine ends_cmdGate _ _ _ _ _ (fun s1 => ?_)
  repeat' (first | split | (dsimp only; split))
  all_goals exact ends_nextOf _ _

theorem ends_grantSet (i : HostCmd) (table : Nat) (p : Payload) (s : State) (act : State → Nat → Nat → Ans) : Ends s (grantSet i table p s act) := by
  unfold grantSet
  split
  · exact ends_notEnabled _
  · exact ends_command _ _ _ _ _ _ _ _ _

theorem ends_rxFrame (ty : Nat) (fr : Frame) (op : FrameOp) (s : State) : Ends s (rxFrame ty fr op s) := by
  unfold rxFrame
  repeat' (first | split | (dsimp only; split))
  all_goals first | exact ends_nextOf _ _ | exact ends_notEnabled _ | exact ends_refused _ _

theorem ends_execBundleIssue (words : List Word) (s : State) : Ends s (execBundleIssue words s) := by
  unfold execBundleIssue
  refine ends_bundleCur _ _ (fun w v p => ?_)
  dsimp only
  split
  · exact ends_nextOf _ _
  · exact ends_bunIssue _ _ _ _ _ _

theorem ends_execOperationLands (w k : Nat) (s : State) : Ends s (execOperationLands w k s) := by
  unfold execOperationLands
  repeat' (first | split | (dsimp only; split))
  all_goals first | exact ends_nextOf _ _ | exact ends_notEnabled _ | exact ends_refused _ _

theorem ends_execRegionCommit (w : Nat) (s : State) : Ends s (execRegionCommit w s) := by
  unfold execRegionCommit
  repeat' (first | split | (dsimp only; split))
  all_goals first | exact ends_nextOf _ _ | exact ends_notEnabled _ | exact ends_refused _ _

theorem ends_execSubwaveAged (w x : Nat) (s : State) : Ends s (execSubwaveAged w x s) := by
  unfold execSubwaveAged
  repeat' (first | split | (dsimp only; split))
  all_goals first | exact ends_nextOf _ _ | exact ends_notEnabled _ | exact ends_refused _ _

theorem ends_execWatchdog (w : Nat) (s : State) : Ends s (execWatchdog w s) := by
  unfold execWatchdog
  repeat' (first | split | (dsimp only; split))
  all_goals first | exact ends_nextOf _ _ | exact ends_notEnabled _ | exact ends_refused _ _

theorem ends_execXmodeConvert (w : Nat) (s : State) : Ends s (execXmodeConvert w s) := by
  unfold execXmodeConvert
  repeat' (first | split | (dsimp only; split))
  all_goals first | exact ends_nextOf _ _ | exact ends_notEnabled _ | exact ends_refused _ _

theorem ends_execReturnDrainEnd (w : Nat) (s : State) : Ends s (execReturnDrainEnd w s) := by
  unfold execReturnDrainEnd
  repeat' (first | split | (dsimp only; split))
  all_goals first | exact ends_nextOf _ _ | exact ends_notEnabled _ | exact ends_refused _ _ | exact ends_drainFault _ _ _

theorem ends_execEndingDrainEnd (w : Nat) (s : State) : Ends s (execEndingDrainEnd w s) := by
  unfold execEndingDrainEnd
  repeat' (first | split | (dsimp only; split))
  all_goals first | exact ends_nextOf _ _ | exact ends_notEnabled _ | exact ends_refused _ _ | exact ends_drainFault _ _ _

theorem ends_execTrapEntry (w : Nat) (s : State) : Ends s (execTrapEntry w s) := by
  unfold execTrapEntry
  repeat' (first | split | (dsimp only; split))
  all_goals first | exact ends_nextOf _ _ | exact ends_notEnabled _ | exact ends_refused _ _

theorem ends_execBundleTrapDrainEnd (w : Nat) (s : State) : Ends s (execBundleTrapDrainEnd w s) := by
  unfold execBundleTrapDrainEnd
  repeat' (first | split | (dsimp only; split))
  all_goals first | exact ends_nextOf _ _ | exact ends_notEnabled _ | exact ends_refused _ _

theorem ends_execCallxWake (w x : Nat) (s : State) : Ends s (execCallxWake w x s) := by
  unfold execCallxWake
  repeat' (first | split | (dsimp only; split))
  all_goals first | exact ends_nextOf _ _ | exact ends_notEnabled _ | exact ends_refused _ _

theorem ends_execCallxReread (w x : Nat) (s : State) : Ends s (execCallxReread w x s) := by
  unfold execCallxReread
  repeat' (first | split | (dsimp only; split))
  all_goals first | exact ends_nextOf _ _ | exact ends_notEnabled _ | exact ends_refused _ _

theorem ends_execWaitvWake (w x : Nat) (s : State) : Ends s (execWaitvWake w x s) := by
  unfold execWaitvWake
  repeat' (first | split | (dsimp only; split))
  all_goals first | exact ends_nextOf _ _ | exact ends_notEnabled _ | exact ends_refused _ _

theorem ends_execLoadPerformed (w k : Nat) (s : State) : Ends s (execLoadPerformed w k s) := by
  unfold execLoadPerformed
  repeat' (first | split | (dsimp only; split))
  all_goals first | exact ends_nextOf _ _ | exact ends_notEnabled _ | exact ends_refused _ _

theorem ends_execStorePerformed (w k : Nat) (s : State) : Ends s (execStorePerformed w k s) := by
  unfold execStorePerformed
  repeat' (first | split | (dsimp only; split))
  all_goals first | exact ends_nextOf _ _ | exact ends_notEnabled _ | exact ends_refused _ _

theorem ends_execAtomicPerformed (w k : Nat) (s : State) : Ends s (execAtomicPerformed w k s) := by
  unfold execAtomicPerformed
  repeat' (first | split | (dsimp only; split))
  all_goals first | exact ends_nextOf _ _ | exact ends_notEnabled _ | exact ends_refused _ _

theorem ends_execGapLimit (ctx gap : Nat) (s : State) : Ends s (execGapLimit ctx gap s) := by
  unfold execGapLimit
  repeat' (first | split | (dsimp only; split))
  all_goals first | exact ends_nextOf _ _ | exact ends_notEnabled _ | exact ends_refused _ _

theorem ends_execEngineBegin (k : Nat) (s : State) : Ends s (execEngineBegin k s) := by
  unfold execEngineBegin
  repeat' (first | split | (dsimp only; split))
  all_goals first | exact ends_nextOf _ _ | exact ends_notEnabled _ | exact ends_refused _ _

theorem ends_execTcopyChunk (k c : Nat) (s : State) : Ends s (execTcopyChunk k c s) := by
  unfold execTcopyChunk
  repeat' (first | split | (dsimp only; split))
  all_goals first | exact ends_nextOf _ _ | exact ends_notEnabled _ | exact ends_refused _ _

theorem ends_execVldsComplete (k : Nat) (s : State) : Ends s (execVldsComplete k s) := by
  unfold execVldsComplete
  repeat' (first | split | (dsimp only; split))
  all_goals first | exact ends_nextOf _ _ | exact ends_notEnabled _ | exact ends_refused _ _

theorem ends_execMatrixComplete (k : Nat) (s : State) : Ends s (execMatrixComplete k s) := by
  unfold execMatrixComplete
  repeat' (first | split | (dsimp only; split))
  all_goals first | exact ends_nextOf _ _ | exact ends_notEnabled _ | exact ends_refused _ _

theorem ends_execKwaitComplete (w x : Nat) (s : State) : Ends s (execKwaitComplete w x s) := by
  unfold execKwaitComplete
  repeat' (first | split | (dsimp only; split))
  all_goals first | exact ends_nextOf _ _ | exact ends_notEnabled _ | exact ends_refused _ _

theorem ends_execGateWaitComplete (w x : Nat) (s : State) : Ends s (execGateWaitComplete w x s) := by
  unfold execGateWaitComplete
  repeat' (first | split | (dsimp only; split))
  all_goals first | exact ends_nextOf _ _ | exact ends_notEnabled _ | exact ends_refused _ _

theorem ends_execYieldResume (w : Nat) (s : State) : Ends s (execYieldResume w s) := by
  unfold execYieldResume
  repeat' (first | split | (dsimp only; split))
  all_goals first | exact ends_nextOf _ _ | exact ends_notEnabled _ | exact ends_refused _ _

theorem ends_execChannelEntryArrive (core ch entry : Nat) (s : State) : Ends s (execChannelEntryArrive core ch entry s) := by
  unfold execChannelEntryArrive
  repeat' (first | split | (dsimp only; split))
  all_goals first | exact ends_nextOf _ _ | exact ends_notEnabled _ | exact ends_refused _ _

theorem ends_execTmoveReservation (k : Nat) (s : State) : Ends s (execTmoveReservation k s) := by
  unfold execTmoveReservation
  repeat' (first | split | (dsimp only; split))
  all_goals first | exact ends_nextOf _ _ | exact ends_notEnabled _ | exact ends_refused _ _

theorem ends_execTmoveReply (k : Nat) (s : State) : Ends s (execTmoveReply k s) := by
  unfold execTmoveReply
  repeat' (first | split | (dsimp only; split))
  all_goals first | exact ends_nextOf _ _ | exact ends_notEnabled _ | exact ends_refused _ _

theorem ends_execTmoveHandoff (k : Nat) (s : State) : Ends s (execTmoveHandoff k s) := by
  unfold execTmoveHandoff
  repeat' (first | split | (dsimp only; split))
  all_goals first | exact ends_nextOf _ _ | exact ends_notEnabled _ | exact ends_refused _ _

theorem ends_execTmoveCopy (k : Nat) (s : State) : Ends s (execTmoveCopy k s) := by
  unfold execTmoveCopy
  repeat' (first | split | (dsimp only; split))
  all_goals first | exact ends_nextOf _ _ | exact ends_notEnabled _ | exact ends_refused _ _

theorem ends_execTmoveArrival (k : Nat) (s : State) : Ends s (execTmoveArrival k s) := by
  unfold execTmoveArrival
  repeat' (first | split | (dsimp only; split))
  all_goals first | exact ends_nextOf _ _ | exact ends_notEnabled _ | exact ends_refused _ _

theorem ends_execTmoveComplete (k : Nat) (s : State) : Ends s (execTmoveComplete k s) := by
  unfold execTmoveComplete
  repeat' (first | split | (dsimp only; split))
  all_goals first | exact ends_nextOf _ _ | exact ends_notEnabled _ | exact ends_refused _ _

theorem ends_execTmoveAbort (k : Nat) (s : State) : Ends s (execTmoveAbort k s) := by
  unfold execTmoveAbort
  repeat' (first | split | (dsimp only; split))
  all_goals first | exact ends_nextOf _ _ | exact ends_notEnabled _ | exact ends_refused _ _

theorem ends_execTileAreaWithdraw (ctx core : Nat) (s : State) : Ends s (execTileAreaWithdraw ctx core s) := by
  unfold execTileAreaWithdraw
  repeat' (first | split | (dsimp only; split))
  all_goals first | exact ends_nextOf _ _ | exact ends_notEnabled _ | exact ends_refused _ _

theorem ends_execCensusStamp (k : Nat) (s : State) : Ends s (execCensusStamp k s) := by
  unfold execCensusStamp
  repeat' (first | split | (dsimp only; split))
  all_goals first | exact ends_nextOf _ _ | exact ends_notEnabled _ | exact ends_refused _ _

theorem ends_execSolicitAccept (core : Nat) (s : State) : Ends s (execSolicitAccept core s) := by
  unfold execSolicitAccept
  repeat' (first | split | (dsimp only; split))
  all_goals first | exact ends_nextOf _ _ | exact ends_notEnabled _ | exact ends_refused _ _

theorem ends_execResponderSpawn (core : Nat) (s : State) : Ends s (execResponderSpawn core s) := by
  unfold execResponderSpawn
  repeat' (first | split | (dsimp only; split))
  all_goals first | exact ends_nextOf _ _ | exact ends_notEnabled _ | exact ends_refused _ _ | exact ends_headerAsk _ _ _

theorem ends_execResponderLimit (w : Nat) (s : State) : Ends s (execResponderLimit w s) := by
  unfold execResponderLimit
  repeat' (first | split | (dsimp only; split))
  all_goals first | exact ends_nextOf _ _ | exact ends_notEnabled _ | exact ends_refused _ _

theorem ends_execCoreAnswer (core stamp : Nat) (s : State) : Ends s (execCoreAnswer core stamp s) := by
  unfold execCoreAnswer
  repeat' (first | split | (dsimp only; split))
  all_goals first | exact ends_nextOf _ _ | exact ends_notEnabled _ | exact ends_refused _ _

theorem ends_execCensusComplete (stamp : Nat) (s : State) : Ends s (execCensusComplete stamp s) := by
  unfold execCensusComplete
  repeat' (first | split | (dsimp only; split))
  all_goals first | exact ends_nextOf _ _ | exact ends_notEnabled _ | exact ends_refused _ _

theorem ends_execPeerTimeout (stamp : Nat) (s : State) : Ends s (execPeerTimeout stamp s) := by
  unfold execPeerTimeout
  repeat' (first | split | (dsimp only; split))
  all_goals first | exact ends_nextOf _ _ | exact ends_notEnabled _ | exact ends_refused _ _

theorem ends_execEmptyRecord (ctx : Nat) (s : State) : Ends s (execEmptyRecord ctx s) := by
  unfold execEmptyRecord
  repeat' (first | split | (dsimp only; split))
  all_goals first | exact ends_nextOf _ _ | exact ends_notEnabled _ | exact ends_refused _ _

theorem ends_execUnknownRecord (ctx : Nat) (s : State) : Ends s (execUnknownRecord ctx s) := by
  unfold execUnknownRecord
  repeat' (first | split | (dsimp only; split))
  all_goals first | exact ends_nextOf _ _ | exact ends_notEnabled _ | exact ends_refused _ _

theorem ends_execLaunchRecord (ctx : Nat) (s : State) : Ends s (execLaunchRecord ctx s) := by
  unfold execLaunchRecord
  repeat' (first | split | (dsimp only; split))
  all_goals first | exact ends_nextOf _ _ | exact ends_notEnabled _ | exact ends_refused _ _ | exact ends_headerAsk _ _ _

theorem ends_execCohortPlace (launch : Nat) (s : State) : Ends s (execCohortPlace launch s) := by
  unfold execCohortPlace
  repeat' (first | split | (dsimp only; split))
  all_goals first | exact ends_nextOf _ _ | exact ends_notEnabled _ | exact ends_refused _ _

theorem ends_execLaunchComplete (launch : Nat) (s : State) : Ends s (execLaunchComplete launch s) := by
  unfold execLaunchComplete
  repeat' (first | split | (dsimp only; split))
  all_goals first | exact ends_nextOf _ _ | exact ends_notEnabled _ | exact ends_refused _ _

theorem ends_execJobCard (ctx : Nat) (posted : Bool) (s : State) : Ends s (execJobCard ctx posted s) := by
  unfold execJobCard
  repeat' (first | split | (dsimp only; split))
  all_goals first | exact ends_nextOf _ _ | exact ends_notEnabled _ | exact ends_refused _ _ | exact ends_cardRead _ _ _ _

theorem ends_execCardStart (card : Nat) (s : State) : Ends s (execCardStart card s) := by
  unfold execCardStart
  repeat' (first | split | (dsimp only; split))
  all_goals first | exact ends_nextOf _ _ | exact ends_notEnabled _ | exact ends_refused _ _ | exact ends_cardNext _ _ _ _

theorem ends_execRangeCard (ctx : Nat) (posted : Bool) (s : State) : Ends s (execRangeCard ctx posted s) := by
  unfold execRangeCard
  repeat' (first | split | (dsimp only; split))
  all_goals first | exact ends_nextOf _ _ | exact ends_notEnabled _ | exact ends_refused _ _ | exact ends_cardRead _ _ _ _

theorem ends_execAsk (core ctx : Nat) (s : State) : Ends s (execAsk core ctx s) := by
  unfold execAsk
  repeat' (first | split | (dsimp only; split))
  all_goals first | exact ends_nextOf _ _ | exact ends_notEnabled _ | exact ends_refused _ _

theorem ends_execPreemptLimit (w : Nat) (s : State) : Ends s (execPreemptLimit w s) := by
  unfold execPreemptLimit
  repeat' (first | split | (dsimp only; split))
  all_goals first | exact ends_nextOf _ _ | exact ends_notEnabled _ | exact ends_refused _ _

theorem ends_execPark (w : Nat) (s : State) : Ends s (execPark w s) := by
  unfold execPark
  repeat' (first | split | (dsimp only; split))
  all_goals first | exact ends_nextOf _ _ | exact ends_notEnabled _ | exact ends_refused _ _

theorem ends_execPlaceParked (cohort : Nat) (s : State) : Ends s (execPlaceParked cohort s) := by
  unfold execPlaceParked
  repeat' (first | split | (dsimp only; split))
  all_goals first | exact ends_nextOf _ _ | exact ends_notEnabled _ | exact ends_refused _ _

theorem ends_execMigrationRequest (quad : Nat) (s : State) : Ends s (execMigrationRequest quad s) := by
  unfold execMigrationRequest
  repeat' (first | split | (dsimp only; split))
  all_goals first | exact ends_nextOf _ _ | exact ends_notEnabled _ | exact ends_refused _ _

theorem ends_execThrottle105 (quad : Nat) (s : State) : Ends s (execThrottle105 quad s) := by
  unfold execThrottle105
  repeat' (first | split | (dsimp only; split))
  all_goals first | exact ends_nextOf _ _ | exact ends_notEnabled _ | exact ends_refused _ _

theorem ends_execTrip115 (quad : Nat) (s : State) : Ends s (execTrip115 quad s) := by
  unfold execTrip115
  repeat' (first | split | (dsimp only; split))
  all_goals first | exact ends_nextOf _ _ | exact ends_notEnabled _ | exact ends_refused _ _

theorem ends_execThermalClear (quad celsius : Nat) (s : State) : Ends s (execThermalClear quad celsius s) := by
  unfold execThermalClear
  repeat' (first | split | (dsimp only; split))
  all_goals first | exact ends_nextOf _ _ | exact ends_notEnabled _ | exact ends_refused _ _

theorem ends_execPowerLimit (on : Bool) (s : State) : Ends s (execPowerLimit on s) := by
  unfold execPowerLimit
  repeat' (first | split | (dsimp only; split))
  all_goals first | exact ends_nextOf _ _ | exact ends_notEnabled _ | exact ends_refused _ _

theorem ends_execPeerAccessLimit (w k : Nat) (s : State) : Ends s (execPeerAccessLimit w k s) := by
  unfold execPeerAccessLimit
  repeat' (first | split | (dsimp only; split))
  all_goals first | exact ends_nextOf _ _ | exact ends_notEnabled _ | exact ends_refused _ _

theorem ends_execPyzanLoad (fr : Frame) (op : FrameOp) (s : State) : Ends s (execPyzanLoad fr op s) := by
  unfold execPyzanLoad
  repeat' (first | split | (dsimp only; split))
  all_goals first | exact ends_nextOf _ _ | exact ends_notEnabled _ | exact ends_refused _ _ | exact ends_rxFrame _ _ _ _

theorem ends_execPyzanStore (fr : Frame) (s : State) : Ends s (execPyzanStore fr s) := by
  unfold execPyzanStore
  repeat' (first | split | (dsimp only; split))
  all_goals first | exact ends_nextOf _ _ | exact ends_notEnabled _ | exact ends_refused _ _ | exact ends_rxFrame _ _ _ _

theorem ends_execPyzanAtomic (fr : Frame) (op : FrameOp) (s : State) : Ends s (execPyzanAtomic fr op s) := by
  unfold execPyzanAtomic
  repeat' (first | split | (dsimp only; split))
  all_goals first | exact ends_nextOf _ _ | exact ends_notEnabled _ | exact ends_refused _ _ | exact ends_rxFrame _ _ _ _

theorem ends_execPyzanResponse (fr : Frame) (s : State) : Ends s (execPyzanResponse fr s) := by
  unfold execPyzanResponse
  repeat' (first | split | (dsimp only; split))
  all_goals first | exact ends_nextOf _ _ | exact ends_notEnabled _ | exact ends_refused _ _ | exact ends_rxFrame _ _ _ _

theorem ends_execPyzanAcknowledgement (fr : Frame) (s : State) : Ends s (execPyzanAcknowledgement fr s) := by
  unfold execPyzanAcknowledgement
  repeat' (first | split | (dsimp only; split))
  all_goals first | exact ends_nextOf _ _ | exact ends_notEnabled _ | exact ends_refused _ _ | exact ends_rxFrame _ _ _ _

theorem ends_execPyzanSolicit (fr : Frame) (s : State) : Ends s (execPyzanSolicit fr s) := by
  unfold execPyzanSolicit
  repeat' (first | split | (dsimp only; split))
  all_goals first | exact ends_nextOf _ _ | exact ends_notEnabled _ | exact ends_refused _ _ | exact ends_rxFrame _ _ _ _

theorem ends_execPyzanCensusAnswer (fr : Frame) (s : State) : Ends s (execPyzanCensusAnswer fr s) := by
  unfold execPyzanCensusAnswer
  repeat' (first | split | (dsimp only; split))
  all_goals first | exact ends_nextOf _ _ | exact ends_notEnabled _ | exact ends_refused _ _ | exact ends_rxFrame _ _ _ _

theorem ends_execPyzanCollective (fr : Frame) (s : State) : Ends s (execPyzanCollective fr s) := by
  unfold execPyzanCollective
  repeat' (first | split | (dsimp only; split))
  all_goals first | exact ends_nextOf _ _ | exact ends_notEnabled _ | exact ends_refused _ _ | exact ends_rxFrame _ _ _ _

theorem ends_execPyzanResend (dst seq : Nat) (s : State) : Ends s (execPyzanResend dst seq s) := by
  unfold execPyzanResend
  repeat' (first | split | (dsimp only; split))
  all_goals first | exact ends_nextOf _ _ | exact ends_notEnabled _ | exact ends_refused _ _

theorem ends_execNonPyzanFrame (port : Nat) (s : State) : Ends s (execNonPyzanFrame port s) := by
  unfold execNonPyzanFrame
  repeat' (first | split | (dsimp only; split))
  all_goals first | exact ends_nextOf _ _ | exact ends_notEnabled _ | exact ends_refused _ _

theorem ends_execCollectiveLimit (k : Nat) (s : State) : Ends s (execCollectiveLimit k s) := by
  unfold execCollectiveLimit
  repeat' (first | split | (dsimp only; split))
  all_goals first | exact ends_nextOf _ _ | exact ends_notEnabled _ | exact ends_refused _ _

theorem ends_execFoghorn (k : Nat) (s : State) : Ends s (execFoghorn k s) := by
  unfold execFoghorn
  repeat' (first | split | (dsimp only; split))
  all_goals first | exact ends_nextOf _ _ | exact ends_notEnabled _ | exact ends_refused _ _

theorem ends_execPackageReset (image : List Byte) (s : State) : Ends s (execPackageReset image s) := by
  unfold execPackageReset
  repeat' (first | split | (dsimp only; split))
  all_goals first | exact ends_nextOf _ _ | exact ends_notEnabled _ | exact ends_refused _ _

theorem ends_execMemoryTraining (ok : Bool) (s : State) : Ends s (execMemoryTraining ok s) := by
  unfold execMemoryTraining
  repeat' (first | split | (dsimp only; split))
  all_goals first | exact ends_nextOf _ _ | exact ends_notEnabled _ | exact ends_refused _ _

theorem ends_execLinkTraining (port : Nat) (ok : Bool) (s : State) : Ends s (execLinkTraining port ok s) := by
  unfold execLinkTraining
  repeat' (first | split | (dsimp only; split))
  all_goals first | exact ends_nextOf _ _ | exact ends_notEnabled _ | exact ends_refused _ _

theorem ends_execLinkRetry (s : State) : Ends s (execLinkRetry s) := by
  unfold execLinkRetry
  repeat' (first | split | (dsimp only; split))
  all_goals first | exact ends_nextOf _ _ | exact ends_notEnabled _ | exact ends_refused _ _

theorem ends_execOpenSession (p : Payload) (s : State) : Ends s (execOpenSession p s) := by
  refine ends_cmdGate _ _ _ _ _ (fun s1 => ?_)
  repeat' (first | split | (dsimp only; split))
  all_goals exact ends_nextOf _ _


theorem ends_execStatus (p : Payload) (s : State) : Ends s (execStatus p s) := ends_command _ _ _ _ _ _ _ _ _


theorem ends_execAttest (p : Payload) (s : State) : Ends s (execAttest p s) := ends_command _ _ _ _ _ _ _ _ _


theorem ends_execCtxSet (p : Payload) (t : CtxTable) (s : State) : Ends s (execCtxSet p t s) := ends_command _ _ _ _ _ _ _ _ _


theorem ends_execStreamWrite (p : Payload) (s : State) : Ends s (execStreamWrite p s) := ends_command _ _ _ _ _ _ _ _ _


theorem ends_execInvalidate (p : Payload) (s : State) : Ends s (execInvalidate p s) := ends_command _ _ _ _ _ _ _ _ _


theorem ends_execPreempt (p : Payload) (s : State) : Ends s (execPreempt p s) := ends_waitCommand _ _ _ _ _ _ _ _


theorem ends_execCoreSave (p : Payload) (s : State) : Ends s (execCoreSave p s) := ends_waitCommand _ _ _ _ _ _ _ _


theorem ends_execCoreRestore (p : Payload) (s : State) : Ends s (execCoreRestore p s) := ends_waitCommand _ _ _ _ _ _ _ _


theorem ends_execGapAnswer (p : Payload) (s : State) : Ends s (execGapAnswer p s) := ends_command _ _ _ _ _ _ _ _ _


theorem ends_execKeyLoad (p : Payload) (s : State) : Ends s (execKeyLoad p s) := ends_command _ _ _ _ _ _ _ _ _


theorem ends_execKeyRetire (p : Payload) (s : State) : Ends s (execKeyRetire p s) := ends_command _ _ _ _ _ _ _ _ _


theorem ends_execPartitionSet (p : Payload) (s : State) : Ends s (execPartitionSet p s) := ends_command _ _ _ _ _ _ _ _ _


theorem ends_execGrantSetHost (p : Payload) (s : State) : Ends s (execGrantSetHost p s) := ends_grantSet _ _ _ _ _


theorem ends_execGrantSetInbound (p : Payload) (s : State) : Ends s (execGrantSetInbound p s) := ends_grantSet _ _ _ _ _


theorem ends_execGrantSetRoute (p : Payload) (s : State) : Ends s (execGrantSetRoute p s) := ends_grantSet _ _ _ _ _


theorem ends_execGrantSetRank (p : Payload) (s : State) : Ends s (execGrantSetRank p s) := ends_grantSet _ _ _ _ _


theorem ends_execDebugWrite (p : Payload) (r : DebugReg) (s : State) : Ends s (execDebugWrite p r s) := ends_command _ _ _ _ _ _ _ _ _


theorem ends_execDebugRead (p : Payload) (r : DebugSrc) (s : State) : Ends s (execDebugRead p r s) := ends_command _ _ _ _ _ _ _ _ _


theorem ends_execStop (p : Payload) (s : State) : Ends s (execStop p s) := by
  unfold execStop
  refine ends_cmdGate _ _ _ _ _ (fun s1 => ?_)
  repeat' (first | split | (dsimp only; split))
  all_goals exact ends_nextOf _ _


theorem ends_execStep (p : Payload) (s : State) : Ends s (execStep p s) := by
  unfold execStep
  refine ends_cmdGate _ _ _ _ _ (fun s1 => ?_)
  repeat' (first | split | (dsimp only; split))
  all_goals exact ends_nextOf _ _


theorem ends_execResume (p : Payload) (s : State) : Ends s (execResume p s) := ends_command _ _ _ _ _ _ _ _ _


theorem ends_execUnknownCommand (opcode : Nat) (_p : Payload) (s : State) : Ends s (execUnknownCommand opcode _p s) := by
  unfold execUnknownCommand
  split
  · exact ends_notEnabled _
  · exact ends_cmdGate _ _ _ _ _ (fun s1 => ends_nextOf _ _)


theorem ends_execUncorrectableError (e : ErrorSite) (s : State) : Ends s (execUncorrectableError e s) := by
  unfold execUncorrectableError
  repeat' (first | split | (dsimp only; split))
  all_goals first | exact ends_nextOf _ _ | exact ends_notEnabled _ | exact ends_refused _ _

/-- The next state of any meaning is the end of a step that began in `s`. -/
theorem ends_exec (i : Instr) (s : State) : Ends s (exec i s) := by
  cases i with
  | sadd _ | ssub _ | smul _ | smulh _ | sdiv _ | srem _ | smin _ | smax _ | sand _ | sor _ | sxor _ | sandn _
  | sshl _ | sshr _ | ssar _ | srot _ | sabs _ | sclz _ | spopc _ | smov _ | sext _ | sbfx _ | sbfi _ | scmp _
  | ssel _ | sli _ | sfadd _ | sfmul _ | sffma _ | sfcmp _ | sfcvt _ | jmp _ | jc _ | jmpx _ | call _ | callx _
  | ret _ | endThread _ | nop _ | sld _ | sst _ | sread _ | swrite _ | trap _ | tret _ | tretPark _ | mark _ | brk _
  | remap _ | vadd _ | vsub _ | vmul _ | vmulh _ | vmin _ | vmax _ | vmad _ | vand _ | vor _ | vxor _ | vandn _
  | vshl _ | vshr _ | vsar _ | vabs _ | vclz _ | vpopc _ | vmov _ | vbfx _ | vbfi _ | vcmp _ | vsel _ | vaddc _
  | vfadd _ | vfsub _ | vfmul _ | vffma _ | vfmin _ | vfmax _ | vfcmp _ | vrcp _ | vsqrt _ | vrsq _ | vexp2 _ | vlog2 _
  | vsin _ | vcos _ | vfclass _ | vcvt _ | plog _ | pmov _ | pcnt _ | vshf _ | vshfi _ | vbcast _ | vrfl _ | vwlane _
  | vballot _ | vvote _ | vred _ | vscan _ | brv _ | join _ | wend _ | vunpk _ | vpack _ | vld _ | vst _ | lds _
  | sts _ | stm _ | vlds _ | vatom _ | satom _ | fence _ | align _ | prefetch _ | discard _ | pin _ | unpin _ | waitv _
  | trec _ | tcopy _ | kwait _ | kjoin _ | gset _ | garr _ | gwait _ | gsync _ | yield _ | fset _ | mbld _ | mma _
  | mclr _ | mst _ | mlat _ | jld _ | treg _ | tdrop _ | tfind _ | tmove _ | solicit _ | answer _ | cwait _ | post _
  | rnext _ | qbind _ | creduce _ | xmodeB _ | xmodeBMx _ => exact ends_issue _ _ _
  | xmodeS _ | xmov _ | xbcast _ | loop _ | lexit _ => exact ends_issueAlone _ _ _
  | bundleIssue _ => exact ends_execBundleIssue _ _
  | operationLands _ _ => exact ends_execOperationLands _ _ _
  | regionCommit _ => exact ends_execRegionCommit _ _
  | subwaveAged _ _ => exact ends_execSubwaveAged _ _ _
  | watchdog _ => exact ends_execWatchdog _ _
  | xmodeConvert _ => exact ends_execXmodeConvert _ _
  | returnDrainEnd _ => exact ends_execReturnDrainEnd _ _
  | endingDrainEnd _ => exact ends_execEndingDrainEnd _ _
  | trapEntry _ => exact ends_execTrapEntry _ _
  | bundleTrapDrainEnd _ => exact ends_execBundleTrapDrainEnd _ _
  | callxWake _ _ => exact ends_execCallxWake _ _ _
  | callxReread _ _ => exact ends_execCallxReread _ _ _
  | waitvWake _ _ => exact ends_execWaitvWake _ _ _
  | loadPerformed _ _ => exact ends_execLoadPerformed _ _ _
  | storePerformed _ _ => exact ends_execStorePerformed _ _ _
  | atomicPerformed _ _ => exact ends_execAtomicPerformed _ _ _
  | gapLimit _ _ => exact ends_execGapLimit _ _ _
  | engineBegin _ => exact ends_execEngineBegin _ _
  | tcopyChunk _ _ => exact ends_execTcopyChunk _ _ _
  | vldsComplete _ => exact ends_execVldsComplete _ _
  | matrixComplete _ => exact ends_execMatrixComplete _ _
  | kwaitComplete _ _ => exact ends_execKwaitComplete _ _ _
  | gateWaitComplete _ _ => exact ends_execGateWaitComplete _ _ _
  | yieldResume _ => exact ends_execYieldResume _ _
  | channelEntryArrive _ _ _ => exact ends_execChannelEntryArrive _ _ _ _
  | tmoveReservation _ => exact ends_execTmoveReservation _ _
  | tmoveReply _ => exact ends_execTmoveReply _ _
  | tmoveHandoff _ => exact ends_execTmoveHandoff _ _
  | tmoveCopy _ => exact ends_execTmoveCopy _ _
  | tmoveArrival _ => exact ends_execTmoveArrival _ _
  | tmoveComplete _ => exact ends_execTmoveComplete _ _
  | tmoveAbort _ => exact ends_execTmoveAbort _ _
  | tileAreaWithdraw _ _ => exact ends_execTileAreaWithdraw _ _ _
  | censusStamp _ => exact ends_execCensusStamp _ _
  | solicitAccept _ => exact ends_execSolicitAccept _ _
  | responderSpawn _ => exact ends_execResponderSpawn _ _
  | responderLimit _ => exact ends_execResponderLimit _ _
  | coreAnswer _ _ => exact ends_execCoreAnswer _ _ _
  | censusComplete _ => exact ends_execCensusComplete _ _
  | peerTimeout _ => exact ends_execPeerTimeout _ _
  | emptyRecord _ => exact ends_execEmptyRecord _ _
  | unknownRecord _ => exact ends_execUnknownRecord _ _
  | launchRecord _ => exact ends_execLaunchRecord _ _
  | cohortPlace _ => exact ends_execCohortPlace _ _
  | launchComplete _ => exact ends_execLaunchComplete _ _
  | jobCard _ _ => exact ends_execJobCard _ _ _
  | cardStart _ => exact ends_execCardStart _ _
  | rangeCard _ _ => exact ends_execRangeCard _ _ _
  | ask _ _ => exact ends_execAsk _ _ _
  | preemptLimit _ => exact ends_execPreemptLimit _ _
  | park _ => exact ends_execPark _ _
  | placeParked _ => exact ends_execPlaceParked _ _
  | migrationRequest _ => exact ends_execMigrationRequest _ _
  | throttle105 _ => exact ends_execThrottle105 _ _
  | trip115 _ => exact ends_execTrip115 _ _
  | thermalClear _ _ => exact ends_execThermalClear _ _ _
  | powerLimit _ => exact ends_execPowerLimit _ _
  | peerAccessLimit _ _ => exact ends_execPeerAccessLimit _ _ _
  | pyzanLoad _ _ => exact ends_execPyzanLoad _ _ _
  | pyzanStore _ => exact ends_execPyzanStore _ _
  | pyzanAtomic _ _ => exact ends_execPyzanAtomic _ _ _
  | pyzanResponse _ => exact ends_execPyzanResponse _ _
  | pyzanAcknowledgement _ => exact ends_execPyzanAcknowledgement _ _
  | pyzanSolicit _ => exact ends_execPyzanSolicit _ _
  | pyzanCensusAnswer _ => exact ends_execPyzanCensusAnswer _ _
  | pyzanCollective _ => exact ends_execPyzanCollective _ _
  | pyzanResend _ _ => exact ends_execPyzanResend _ _ _
  | nonPyzanFrame _ => exact ends_execNonPyzanFrame _ _
  | collectiveLimit _ => exact ends_execCollectiveLimit _ _
  | foghorn _ => exact ends_execFoghorn _ _
  | packageReset _ => exact ends_execPackageReset _ _
  | memoryTraining _ => exact ends_execMemoryTraining _ _
  | linkTraining _ _ => exact ends_execLinkTraining _ _ _
  | linkRetry => exact ends_execLinkRetry _
  | openSession _ => exact ends_execOpenSession _ _
  | status _ => exact ends_execStatus _ _
  | attest _ => exact ends_execAttest _ _
  | ctxSet _ _ => exact ends_execCtxSet _ _ _
  | streamWrite _ => exact ends_execStreamWrite _ _
  | invalidate _ => exact ends_execInvalidate _ _
  | preempt _ => exact ends_execPreempt _ _
  | coreSave _ => exact ends_execCoreSave _ _
  | coreRestore _ => exact ends_execCoreRestore _ _
  | gapAnswer _ => exact ends_execGapAnswer _ _
  | keyLoad _ => exact ends_execKeyLoad _ _
  | keyRetire _ => exact ends_execKeyRetire _ _
  | partitionSet _ => exact ends_execPartitionSet _ _
  | grantSetHost _ => exact ends_execGrantSetHost _ _
  | grantSetInbound _ => exact ends_execGrantSetInbound _ _
  | grantSetRoute _ => exact ends_execGrantSetRoute _ _
  | grantSetRank _ => exact ends_execGrantSetRank _ _
  | debugWrite _ _ => exact ends_execDebugWrite _ _ _
  | debugRead _ _ => exact ends_execDebugRead _ _ _
  | stop _ => exact ends_execStop _ _
  | step _ => exact ends_execStep _ _
  | resume _ => exact ends_execResume _ _
  | unknownCommand o p => exact ends_execUnknownCommand o p _
  | uncorrectableError _ => exact ends_execUncorrectableError _ _

end Sys2Proof.Machine
end

