-- ==== Sys2Proof/Laws/Table.lean ====
section
/-! SUPPORT. Laws of sparse tables: reading after writing, the keys listed, and the canonical form that every operation keeps. -/

namespace Sys2Proof.Machine

variable {α : Type}

@[simp] theorem tblFind_nil (k : Nat) : tblFind ([] : Tbl α) k = none := rfl

theorem tblFind_erase_self (t : Tbl α) (k : Nat) : tblFind (tblErase t k) k = none := by
  induction t with
  | nil => rfl
  | cons e r ih =>
    obtain ⟨j, v⟩ := e
    by_cases h : k = j
    · simp [tblErase, h]; rw [← h]; exact ih
    · simp [tblErase, tblFind, h, ih]

theorem tblFind_erase_ne (t : Tbl α) {k j : Nat} (h : j ≠ k) : tblFind (tblErase t k) j = tblFind t j := by
  induction t with
  | nil => rfl
  | cons e r ih =>
    obtain ⟨i, v⟩ := e
    by_cases hk : k = i
    · subst hk; simp [tblErase, tblFind, h, ih]
    · simp [tblErase, tblFind, hk, ih]

theorem tblFind_ins_self (t : Tbl α) (k : Nat) (v : α) (h : tblFind t k = none) : tblFind (tblIns t k v) k = some v := by
  induction t with
  | nil => simp [tblIns, tblFind]
  | cons e r ih =>
    obtain ⟨j, u⟩ := e
    by_cases hj : k = j
    · subst hj; simp [tblFind] at h
    · rw [tblFind, if_neg hj] at h
      unfold tblIns
      split
      · simp [tblFind]
      · simp [tblFind, hj, ih h]

theorem tblFind_ins_ne (t : Tbl α) {k j : Nat} (v : α) (h : j ≠ k) : tblFind (tblIns t k v) j = tblFind t j := by
  induction t with
  | nil => simp [tblIns, tblFind, h]
  | cons e r ih =>
    obtain ⟨i, u⟩ := e
    unfold tblIns
    split
    · simp [tblFind, h]
    · simp [tblFind, ih]

@[simp] theorem tblFind_put_self (t : Tbl α) (k : Nat) (v : α) : tblFind (tblPut t k v) k = some v :=
  tblFind_ins_self _ _ _ (tblFind_erase_self t k)

theorem tblFind_put_ne (t : Tbl α) {k j : Nat} (v : α) (h : j ≠ k) : tblFind (tblPut t k v) j = tblFind t j := by
  rw [tblPut, tblFind_ins_ne _ _ h, tblFind_erase_ne _ h]

@[simp] theorem tblGet_put_self (d : α) (t : Tbl α) (k : Nat) (v : α) : tblGet d (tblPut t k v) k = v := by simp [tblGet]

theorem tblGet_put_ne (d : α) (t : Tbl α) {k j : Nat} (v : α) (h : j ≠ k) : tblGet d (tblPut t k v) j = tblGet d t j := by
  simp [tblGet, tblFind_put_ne _ _ h]

@[simp] theorem tblGet_set_self [DecidableEq α] (d : α) (t : Tbl α) (k : Nat) (v : α) : tblGet d (tblSet d t k v) k = v := by
  unfold tblSet
  split
  · next h => simp [tblGet, tblFind_erase_self, h]
  · simp

theorem tblGet_set_ne [DecidableEq α] (d : α) (t : Tbl α) {k j : Nat} (v : α) (h : j ≠ k) : tblGet d (tblSet d t k v) j = tblGet d t j := by
  unfold tblSet
  split
  · simp [tblGet, tblFind_erase_ne _ h]
  · exact tblGet_put_ne d t v h

theorem tblFind_mod (t : Tbl α) (k : Nat) (f : α → α) (j : Nat) : tblFind (tblMod t k f) j = if j = k then (tblFind t j).map f else tblFind t j := by
  induction t with
  | nil => simp [tblMod]
  | cons e r ih =>
    obtain ⟨i, v⟩ := e
    by_cases hk : k = i
    · subst hk
      by_cases hj : j = k <;> simp [tblMod, tblFind, hj, ih]
    · by_cases hj : j = i
      · subst hj; simp [tblMod, tblFind, hk, Ne.symm hk]
      · simp [tblMod, tblFind, hk, hj, ih]

theorem tblFind_mod_self (t : Tbl α) (k : Nat) (f : α → α) : tblFind (tblMod t k f) k = (tblFind t k).map f := by simp [tblFind_mod]

theorem tblFind_mod_ne (t : Tbl α) {k j : Nat} (f : α → α) (h : j ≠ k) : tblFind (tblMod t k f) j = tblFind t j := by simp [tblFind_mod, h]

theorem tblRising_mono (t : Tbl α) {a b : Nat} (h : a ≤ b) (ht : tblRising t b = true) : tblRising t a = true := by
  cases t with
  | nil => rfl
  | cons e r => simp [tblRising] at ht ⊢; exact ⟨by omega, ht.2⟩

theorem tblRising_erase (t : Tbl α) (k lo : Nat) (h : tblRising t lo = true) : tblRising (tblErase t k) lo = true := by
  induction t generalizing lo with
  | nil => rfl
  | cons e r ih =>
    obtain ⟨j, v⟩ := e
    simp [tblRising] at h
    unfold tblErase
    split
    · exact tblRising_mono _ (by omega) (ih _ h.2)
    · simp [tblRising, h.1, ih _ h.2]

theorem tblErase_lacks (t : Tbl α) (k : Nat) : ∀ e ∈ tblErase t k, e.1 ≠ k := by
  induction t with
  | nil => simp [tblErase]
  | cons e r ih =>
    obtain ⟨j, v⟩ := e
    unfold tblErase
    split
    · exact ih
    · next h => intro e he; rcases List.mem_cons.1 he with rfl | he
                · exact Ne.symm h
                · exact ih e he

theorem tblRising_ins (t : Tbl α) (k : Nat) (v : α) (lo : Nat) (hk : lo ≤ k) (hn : ∀ e ∈ t, e.1 ≠ k) (h : tblRising t lo = true) : tblRising (tblIns t k v) lo = true := by
  induction t generalizing lo with
  | nil => simp [tblIns, tblRising, hk]
  | cons e r ih =>
    obtain ⟨j, u⟩ := e
    simp [tblRising] at h
    have hj : j ≠ k := hn (j, u) (by simp)
    unfold tblIns
    split
    · next hlt => simp [tblRising, hk, h.2]; omega
    · simp [tblRising, h.1]
      exact ih (j + 1) (by omega) (fun e he => hn e (by simp [he])) h.2

theorem tblRising_put (t : Tbl α) (k : Nat) (v : α) (h : tblRising t 0 = true) : tblRising (tblPut t k v) 0 = true :=
  tblRising_ins _ k v 0 (Nat.zero_le k) (tblErase_lacks t k) (tblRising_erase t k 0 h)

theorem all_tblErase (p : Nat × α → Bool) (t : Tbl α) (k : Nat) (h : t.all p = true) : (tblErase t k).all p = true := by
  induction t with
  | nil => rfl
  | cons e r ih =>
    simp only [List.all_cons, Bool.and_eq_true] at h
    unfold tblErase
    split
    · exact ih h.2
    · simp [h.1]; simpa using ih h.2

theorem all_tblIns (p : Nat × α → Bool) (t : Tbl α) (k : Nat) (v : α) (hv : p (k, v) = true) (h : t.all p = true) : (tblIns t k v).all p = true := by
  induction t with
  | nil => simp [tblIns, hv]
  | cons e r ih =>
    simp only [List.all_cons, Bool.and_eq_true] at h
    unfold tblIns
    split
    · simp only [List.all_cons, Bool.and_eq_true]; exact ⟨hv, h⟩
    · simp only [List.all_cons, Bool.and_eq_true]; exact ⟨h.1, ih h.2⟩

theorem all_tblPut (p : Nat × α → Bool) (t : Tbl α) (k : Nat) (v : α) (hv : p (k, v) = true) (h : t.all p = true) : (tblPut t k v).all p = true :=
  all_tblIns p _ k v hv (all_tblErase p t k h)

/-- Writing keeps the canonical form. -/
theorem tblWf_set [DecidableEq α] (d : α) (t : Tbl α) (k : Nat) (v : α) (h : tblWf d t = true) : tblWf d (tblSet d t k v) = true := by
  simp only [tblWf, Bool.and_eq_true] at h ⊢
  unfold tblSet
  split
  · exact ⟨tblRising_erase t k 0 h.1, all_tblErase _ t k h.2⟩
  · next hv => exact ⟨tblRising_put t k v h.1, all_tblPut _ t k v (by simpa using hv) h.2⟩

end Sys2Proof.Machine
end

