-- ==== Sys2Proof/Laws/Memory.lean ====
section
/-! SUPPORT. Laws of memory: every operation keeps its canonical form; what a byte reads as after a write; the end of a step. -/

namespace Sys2Proof.Machine

/-- A byte put into memory keeps the canonical form. -/
theorem Memory.wf_put (m : List Host.Cell) (a : Nat) (b : Byte) (h : Memory.wf m = true) : Memory.wf (memPut m a b) = true := by
  unfold memPut
  split
  · next hd =>
    simp only [Memory.wf, Bool.and_eq_true] at h ⊢
    refine ⟨tblWf_set 0 m a b h.1, ?_⟩
    unfold tblSet
    split
    · exact all_tblErase _ m a h.2
    · exact all_tblPut _ m a b hd h.2
  · exact h

/-- The writes of a step keep the canonical form. -/
theorem Memory.wf_apply (m : List Host.Cell) (l : List Host.Cell) (h : Memory.wf m = true) : Memory.wf (memApply m l) = true := by
  induction l with
  | nil => exact h
  | cons e r ih => exact Memory.wf_put _ _ _ ih

/-- The end of a step keeps the canonical form, whatever the step wrote. -/
theorem Memory.wf_finish (s t : State) (h : Memory.wf s.mem = true) : Memory.wf (finish s t).mem = true := Memory.wf_apply _ _ h

theorem memPut_self (m : List Host.Cell) (a : Nat) (b : Byte) (h : inDevice a = true) : tblGet 0 (memPut m a b) a = b := by simp [memPut, h]

theorem memPut_ne (m : List Host.Cell) {a c : Nat} (b : Byte) (h : c ≠ a) : tblGet 0 (memPut m a b) c = tblGet 0 m c := by
  unfold memPut
  split
  · exact tblGet_set_ne 0 m b h
  · rfl

/-- A byte that a step did not write reads after it as before. -/
theorem memApply_other (m l : List Host.Cell) (c : Nat) (h : ∀ e ∈ l, e.1 ≠ c) : tblGet 0 (memApply m l) c = tblGet 0 m c := by
  induction l with
  | nil => rfl
  | cons e r ih =>
    rw [memApply, memPut_ne _ _ (Ne.symm (h e (by simp)))]
    exact ih (fun e he => h e (by simp [he]))

/-- A byte that a step wrote reads after it as the newest write of it. -/
theorem memApply_lookup (m l : List Host.Cell) (c : Nat) (h : inDevice c = true) : tblGet 0 (memApply m l) c = (l.lookup c).getD (tblGet 0 m c) := by
  induction l with
  | nil => rfl
  | cons e r ih =>
    obtain ⟨a, b⟩ := e
    by_cases hc : c = a
    · subst hc; rw [memApply, memPut_self _ _ _ h]; simp
    · have hb : (c == a) = false := by simp [hc]
      rw [memApply, memPut_ne _ _ hc, ih, List.lookup_cons, hb]

/-- What a step's reads see of its own writes is what memory holds after it. -/
theorem rdByte_finish (s t : State) (pa : Nat) (hm : t.mem = s.mem) (hd : inDevice pa = true) : rdByte (finish s t) pa = rdByte t pa := by
  simp only [rdByte, hd, if_true, finish]
  rw [memApply_lookup _ _ _ hd, hm]; simp

theorem rdByte_wrByte_self (s : State) (pa : Nat) (b : Byte) (hd : inDevice pa = true) : rdByte (wrByte s pa b) pa = b := by
  simp [rdByte, wrByte, hd]

theorem rdByte_wrByte_ne (s : State) {pa qa : Nat} (b : Byte) (h : qa ≠ pa) : rdByte (wrByte s pa b) qa = rdByte s qa := by
  have hb : (qa == pa) = false := by simp [h]
  simp [rdByte, wrByte, hb, List.lookup_cons, free]


@[simp] theorem finish_mem (s t : State) : (finish s t).mem = memApply s.mem t.wlog := rfl
@[simp] theorem finish_wlog (s t : State) : (finish s t).wlog = [] := rfl
@[simp] theorem finish_fresh (s t : State) : (finish s t).fresh = s.fresh + 1 := rfl
@[simp] theorem finish_cur (s t : State) : (finish s t).cur = none := rfl

end Sys2Proof.Machine
end

