-- ==== Sys2Proof/Laws/State.lean ====
section
/-! SUPPORT. What each named update of the state leaves as it was, field by field, and what reading after it gives. -/

namespace Sys2Proof.Machine

@[simp] theorem modWave_clock (s : State) (w : Nat) (f : Wave → Wave) : (modWave s w f).clock = s.clock := rfl
@[simp] theorem modWave_fresh (s : State) (w : Nat) (f : Wave → Wave) : (modWave s w f).fresh = s.fresh := rfl
@[simp] theorem modWave_agenda (s : State) (w : Nat) (f : Wave → Wave) : (modWave s w f).agenda = s.agenda := rfl
@[simp] theorem modWave_inputs (s : State) (w : Nat) (f : Wave → Wave) : (modWave s w f).inputs = s.inputs := rfl
@[simp] theorem modWave_cur (s : State) (w : Nat) (f : Wave → Wave) : (modWave s w f).cur = s.cur := rfl
@[simp] theorem modWave_nextWave (s : State) (w : Nat) (f : Wave → Wave) : (modWave s w f).nextWave = s.nextWave := rfl
@[simp] theorem modWave_cohorts (s : State) (w : Nat) (f : Wave → Wave) : (modWave s w f).cohorts = s.cohorts := rfl
@[simp] theorem modWave_ctxs (s : State) (w : Nat) (f : Wave → Wave) : (modWave s w f).ctxs = s.ctxs := rfl
@[simp] theorem modWave_cores (s : State) (w : Nat) (f : Wave → Wave) : (modWave s w f).cores = s.cores := rfl
@[simp] theorem modWave_dies (s : State) (w : Nat) (f : Wave → Wave) : (modWave s w f).dies = s.dies := rfl
@[simp] theorem modWave_remap (s : State) (w : Nat) (f : Wave → Wave) : (modWave s w f).remap = s.remap := rfl
@[simp] theorem modWave_mem (s : State) (w : Nat) (f : Wave → Wave) : (modWave s w f).mem = s.mem := rfl
@[simp] theorem modWave_wlog (s : State) (w : Nat) (f : Wave → Wave) : (modWave s w f).wlog = s.wlog := rfl
@[simp] theorem modWave_unspec (s : State) (w : Nat) (f : Wave → Wave) : (modWave s w f).unspec = s.unspec := rfl
@[simp] theorem modWave_lineKey (s : State) (w : Nat) (f : Wave → Wave) : (modWave s w f).lineKey = s.lineKey := rfl
@[simp] theorem modWave_poison (s : State) (w : Nat) (f : Wave → Wave) : (modWave s w f).poison = s.poison := rfl
@[simp] theorem modWave_pins (s : State) (w : Nat) (f : Wave → Wave) : (modWave s w f).pins = s.pins := rfl
@[simp] theorem modWave_eng (s : State) (w : Nat) (f : Wave → Wave) : (modWave s w f).eng = s.eng := rfl
@[simp] theorem modWave_nextEng (s : State) (w : Nat) (f : Wave → Wave) : (modWave s w f).nextEng = s.nextEng := rfl
@[simp] theorem modWave_nextDs (s : State) (w : Nat) (f : Wave → Wave) : (modWave s w f).nextDs = s.nextDs := rfl
@[simp] theorem modWave_censuses (s : State) (w : Nat) (f : Wave → Wave) : (modWave s w f).censuses = s.censuses := rfl
@[simp] theorem modWave_lastStamp (s : State) (w : Nat) (f : Wave → Wave) : (modWave s w f).lastStamp = s.lastStamp := rfl
@[simp] theorem modWave_solicits (s : State) (w : Nat) (f : Wave → Wave) : (modWave s w f).solicits = s.solicits := rfl
@[simp] theorem modWave_launches (s : State) (w : Nat) (f : Wave → Wave) : (modWave s w f).launches = s.launches := rfl
@[simp] theorem modWave_cards (s : State) (w : Nat) (f : Wave → Wave) : (modWave s w f).cards = s.cards := rfl
@[simp] theorem modWave_parked (s : State) (w : Nat) (f : Wave → Wave) : (modWave s w f).parked = s.parked := rfl
@[simp] theorem modWave_taken (s : State) (w : Nat) (f : Wave → Wave) : (modWave s w f).taken = s.taken := rfl
@[simp] theorem modWave_nextCohort (s : State) (w : Nat) (f : Wave → Wave) : (modWave s w f).nextCohort = s.nextCohort := rfl
@[simp] theorem modWave_order (s : State) (w : Nat) (f : Wave → Wave) : (modWave s w f).order = s.order := rfl
@[simp] theorem modWave_temps (s : State) (w : Nat) (f : Wave → Wave) : (modWave s w f).temps = s.temps := rfl
@[simp] theorem modWave_heat (s : State) (w : Nat) (f : Wave → Wave) : (modWave s w f).heat = s.heat := rfl
@[simp] theorem modWave_boot (s : State) (w : Nat) (f : Wave → Wave) : (modWave s w f).boot = s.boot := rfl
@[simp] theorem modWave_host (s : State) (w : Nat) (f : Wave → Wave) : (modWave s w f).host = s.host := rfl
@[simp] theorem modWave_fogs (s : State) (w : Nat) (f : Wave → Wave) : (modWave s w f).fogs = s.fogs := rfl
@[simp] theorem modWave_stops (s : State) (w : Nat) (f : Wave → Wave) : (modWave s w f).stops = s.stops := rfl
@[simp] theorem modWave_fogSeq (s : State) (w : Nat) (f : Wave → Wave) : (modWave s w f).fogSeq = s.fogSeq := rfl
@[simp] theorem modWave_net (s : State) (w : Nat) (f : Wave → Wave) : (modWave s w f).net = s.net := rfl
@[simp] theorem modWave_out (s : State) (w : Nat) (f : Wave → Wave) : (modWave s w f).out = s.out := rfl

@[simp] theorem modCtx_clock (s : State) (c : Nat) (f : Ctx → Ctx) : (modCtx s c f).clock = s.clock := rfl
@[simp] theorem modCtx_fresh (s : State) (c : Nat) (f : Ctx → Ctx) : (modCtx s c f).fresh = s.fresh := rfl
@[simp] theorem modCtx_agenda (s : State) (c : Nat) (f : Ctx → Ctx) : (modCtx s c f).agenda = s.agenda := rfl
@[simp] theorem modCtx_inputs (s : State) (c : Nat) (f : Ctx → Ctx) : (modCtx s c f).inputs = s.inputs := rfl
@[simp] theorem modCtx_cur (s : State) (c : Nat) (f : Ctx → Ctx) : (modCtx s c f).cur = s.cur := rfl
@[simp] theorem modCtx_waves (s : State) (c : Nat) (f : Ctx → Ctx) : (modCtx s c f).waves = s.waves := rfl
@[simp] theorem modCtx_nextWave (s : State) (c : Nat) (f : Ctx → Ctx) : (modCtx s c f).nextWave = s.nextWave := rfl
@[simp] theorem modCtx_cohorts (s : State) (c : Nat) (f : Ctx → Ctx) : (modCtx s c f).cohorts = s.cohorts := rfl
@[simp] theorem modCtx_cores (s : State) (c : Nat) (f : Ctx → Ctx) : (modCtx s c f).cores = s.cores := rfl
@[simp] theorem modCtx_dies (s : State) (c : Nat) (f : Ctx → Ctx) : (modCtx s c f).dies = s.dies := rfl
@[simp] theorem modCtx_remap (s : State) (c : Nat) (f : Ctx → Ctx) : (modCtx s c f).remap = s.remap := rfl
@[simp] theorem modCtx_mem (s : State) (c : Nat) (f : Ctx → Ctx) : (modCtx s c f).mem = s.mem := rfl
@[simp] theorem modCtx_wlog (s : State) (c : Nat) (f : Ctx → Ctx) : (modCtx s c f).wlog = s.wlog := rfl
@[simp] theorem modCtx_unspec (s : State) (c : Nat) (f : Ctx → Ctx) : (modCtx s c f).unspec = s.unspec := rfl
@[simp] theorem modCtx_lineKey (s : State) (c : Nat) (f : Ctx → Ctx) : (modCtx s c f).lineKey = s.lineKey := rfl
@[simp] theorem modCtx_poison (s : State) (c : Nat) (f : Ctx → Ctx) : (modCtx s c f).poison = s.poison := rfl
@[simp] theorem modCtx_pins (s : State) (c : Nat) (f : Ctx → Ctx) : (modCtx s c f).pins = s.pins := rfl
@[simp] theorem modCtx_eng (s : State) (c : Nat) (f : Ctx → Ctx) : (modCtx s c f).eng = s.eng := rfl
@[simp] theorem modCtx_nextEng (s : State) (c : Nat) (f : Ctx → Ctx) : (modCtx s c f).nextEng = s.nextEng := rfl
@[simp] theorem modCtx_nextDs (s : State) (c : Nat) (f : Ctx → Ctx) : (modCtx s c f).nextDs = s.nextDs := rfl
@[simp] theorem modCtx_censuses (s : State) (c : Nat) (f : Ctx → Ctx) : (modCtx s c f).censuses = s.censuses := rfl
@[simp] theorem modCtx_lastStamp (s : State) (c : Nat) (f : Ctx → Ctx) : (modCtx s c f).lastStamp = s.lastStamp := rfl
@[simp] theorem modCtx_solicits (s : State) (c : Nat) (f : Ctx → Ctx) : (modCtx s c f).solicits = s.solicits := rfl
@[simp] theorem modCtx_launches (s : State) (c : Nat) (f : Ctx → Ctx) : (modCtx s c f).launches = s.launches := rfl
@[simp] theorem modCtx_cards (s : State) (c : Nat) (f : Ctx → Ctx) : (modCtx s c f).cards = s.cards := rfl
@[simp] theorem modCtx_parked (s : State) (c : Nat) (f : Ctx → Ctx) : (modCtx s c f).parked = s.parked := rfl
@[simp] theorem modCtx_taken (s : State) (c : Nat) (f : Ctx → Ctx) : (modCtx s c f).taken = s.taken := rfl
@[simp] theorem modCtx_nextCohort (s : State) (c : Nat) (f : Ctx → Ctx) : (modCtx s c f).nextCohort = s.nextCohort := rfl
@[simp] theorem modCtx_order (s : State) (c : Nat) (f : Ctx → Ctx) : (modCtx s c f).order = s.order := rfl
@[simp] theorem modCtx_temps (s : State) (c : Nat) (f : Ctx → Ctx) : (modCtx s c f).temps = s.temps := rfl
@[simp] theorem modCtx_heat (s : State) (c : Nat) (f : Ctx → Ctx) : (modCtx s c f).heat = s.heat := rfl
@[simp] theorem modCtx_boot (s : State) (c : Nat) (f : Ctx → Ctx) : (modCtx s c f).boot = s.boot := rfl
@[simp] theorem modCtx_host (s : State) (c : Nat) (f : Ctx → Ctx) : (modCtx s c f).host = s.host := rfl
@[simp] theorem modCtx_fogs (s : State) (c : Nat) (f : Ctx → Ctx) : (modCtx s c f).fogs = s.fogs := rfl
@[simp] theorem modCtx_stops (s : State) (c : Nat) (f : Ctx → Ctx) : (modCtx s c f).stops = s.stops := rfl
@[simp] theorem modCtx_fogSeq (s : State) (c : Nat) (f : Ctx → Ctx) : (modCtx s c f).fogSeq = s.fogSeq := rfl
@[simp] theorem modCtx_net (s : State) (c : Nat) (f : Ctx → Ctx) : (modCtx s c f).net = s.net := rfl
@[simp] theorem modCtx_out (s : State) (c : Nat) (f : Ctx → Ctx) : (modCtx s c f).out = s.out := rfl

@[simp] theorem modCohort_clock (s : State) (c : Nat) (f : Cohort → Cohort) : (modCohort s c f).clock = s.clock := rfl
@[simp] theorem modCohort_fresh (s : State) (c : Nat) (f : Cohort → Cohort) : (modCohort s c f).fresh = s.fresh := rfl
@[simp] theorem modCohort_agenda (s : State) (c : Nat) (f : Cohort → Cohort) : (modCohort s c f).agenda = s.agenda := rfl
@[simp] theorem modCohort_inputs (s : State) (c : Nat) (f : Cohort → Cohort) : (modCohort s c f).inputs = s.inputs := rfl
@[simp] theorem modCohort_cur (s : State) (c : Nat) (f : Cohort → Cohort) : (modCohort s c f).cur = s.cur := rfl
@[simp] theorem modCohort_waves (s : State) (c : Nat) (f : Cohort → Cohort) : (modCohort s c f).waves = s.waves := rfl
@[simp] theorem modCohort_nextWave (s : State) (c : Nat) (f : Cohort → Cohort) : (modCohort s c f).nextWave = s.nextWave := rfl
@[simp] theorem modCohort_ctxs (s : State) (c : Nat) (f : Cohort → Cohort) : (modCohort s c f).ctxs = s.ctxs := rfl
@[simp] theorem modCohort_cores (s : State) (c : Nat) (f : Cohort → Cohort) : (modCohort s c f).cores = s.cores := rfl
@[simp] theorem modCohort_dies (s : State) (c : Nat) (f : Cohort → Cohort) : (modCohort s c f).dies = s.dies := rfl
@[simp] theorem modCohort_remap (s : State) (c : Nat) (f : Cohort → Cohort) : (modCohort s c f).remap = s.remap := rfl
@[simp] theorem modCohort_mem (s : State) (c : Nat) (f : Cohort → Cohort) : (modCohort s c f).mem = s.mem := rfl
@[simp] theorem modCohort_wlog (s : State) (c : Nat) (f : Cohort → Cohort) : (modCohort s c f).wlog = s.wlog := rfl
@[simp] theorem modCohort_unspec (s : State) (c : Nat) (f : Cohort → Cohort) : (modCohort s c f).unspec = s.unspec := rfl
@[simp] theorem modCohort_lineKey (s : State) (c : Nat) (f : Cohort → Cohort) : (modCohort s c f).lineKey = s.lineKey := rfl
@[simp] theorem modCohort_poison (s : State) (c : Nat) (f : Cohort → Cohort) : (modCohort s c f).poison = s.poison := rfl
@[simp] theorem modCohort_pins (s : State) (c : Nat) (f : Cohort → Cohort) : (modCohort s c f).pins = s.pins := rfl
@[simp] theorem modCohort_eng (s : State) (c : Nat) (f : Cohort → Cohort) : (modCohort s c f).eng = s.eng := rfl
@[simp] theorem modCohort_nextEng (s : State) (c : Nat) (f : Cohort → Cohort) : (modCohort s c f).nextEng = s.nextEng := rfl
@[simp] theorem modCohort_nextDs (s : State) (c : Nat) (f : Cohort → Cohort) : (modCohort s c f).nextDs = s.nextDs := rfl
@[simp] theorem modCohort_censuses (s : State) (c : Nat) (f : Cohort → Cohort) : (modCohort s c f).censuses = s.censuses := rfl
@[simp] theorem modCohort_lastStamp (s : State) (c : Nat) (f : Cohort → Cohort) : (modCohort s c f).lastStamp = s.lastStamp := rfl
@[simp] theorem modCohort_solicits (s : State) (c : Nat) (f : Cohort → Cohort) : (modCohort s c f).solicits = s.solicits := rfl
@[simp] theorem modCohort_launches (s : State) (c : Nat) (f : Cohort → Cohort) : (modCohort s c f).launches = s.launches := rfl
@[simp] theorem modCohort_cards (s : State) (c : Nat) (f : Cohort → Cohort) : (modCohort s c f).cards = s.cards := rfl
@[simp] theorem modCohort_parked (s : State) (c : Nat) (f : Cohort → Cohort) : (modCohort s c f).parked = s.parked := rfl
@[simp] theorem modCohort_taken (s : State) (c : Nat) (f : Cohort → Cohort) : (modCohort s c f).taken = s.taken := rfl
@[simp] theorem modCohort_nextCohort (s : State) (c : Nat) (f : Cohort → Cohort) : (modCohort s c f).nextCohort = s.nextCohort := rfl
@[simp] theorem modCohort_order (s : State) (c : Nat) (f : Cohort → Cohort) : (modCohort s c f).order = s.order := rfl
@[simp] theorem modCohort_temps (s : State) (c : Nat) (f : Cohort → Cohort) : (modCohort s c f).temps = s.temps := rfl
@[simp] theorem modCohort_heat (s : State) (c : Nat) (f : Cohort → Cohort) : (modCohort s c f).heat = s.heat := rfl
@[simp] theorem modCohort_boot (s : State) (c : Nat) (f : Cohort → Cohort) : (modCohort s c f).boot = s.boot := rfl
@[simp] theorem modCohort_host (s : State) (c : Nat) (f : Cohort → Cohort) : (modCohort s c f).host = s.host := rfl
@[simp] theorem modCohort_fogs (s : State) (c : Nat) (f : Cohort → Cohort) : (modCohort s c f).fogs = s.fogs := rfl
@[simp] theorem modCohort_stops (s : State) (c : Nat) (f : Cohort → Cohort) : (modCohort s c f).stops = s.stops := rfl
@[simp] theorem modCohort_fogSeq (s : State) (c : Nat) (f : Cohort → Cohort) : (modCohort s c f).fogSeq = s.fogSeq := rfl
@[simp] theorem modCohort_net (s : State) (c : Nat) (f : Cohort → Cohort) : (modCohort s c f).net = s.net := rfl
@[simp] theorem modCohort_out (s : State) (c : Nat) (f : Cohort → Cohort) : (modCohort s c f).out = s.out := rfl

@[simp] theorem modCore_clock (s : State) (p : Nat) (f : Core → Core) : (modCore s p f).clock = s.clock := rfl
@[simp] theorem modCore_fresh (s : State) (p : Nat) (f : Core → Core) : (modCore s p f).fresh = s.fresh := rfl
@[simp] theorem modCore_agenda (s : State) (p : Nat) (f : Core → Core) : (modCore s p f).agenda = s.agenda := rfl
@[simp] theorem modCore_inputs (s : State) (p : Nat) (f : Core → Core) : (modCore s p f).inputs = s.inputs := rfl
@[simp] theorem modCore_cur (s : State) (p : Nat) (f : Core → Core) : (modCore s p f).cur = s.cur := rfl
@[simp] theorem modCore_waves (s : State) (p : Nat) (f : Core → Core) : (modCore s p f).waves = s.waves := rfl
@[simp] theorem modCore_nextWave (s : State) (p : Nat) (f : Core → Core) : (modCore s p f).nextWave = s.nextWave := rfl
@[simp] theorem modCore_cohorts (s : State) (p : Nat) (f : Core → Core) : (modCore s p f).cohorts = s.cohorts := rfl
@[simp] theorem modCore_ctxs (s : State) (p : Nat) (f : Core → Core) : (modCore s p f).ctxs = s.ctxs := rfl
@[simp] theorem modCore_dies (s : State) (p : Nat) (f : Core → Core) : (modCore s p f).dies = s.dies := rfl
@[simp] theorem modCore_remap (s : State) (p : Nat) (f : Core → Core) : (modCore s p f).remap = s.remap := rfl
@[simp] theorem modCore_mem (s : State) (p : Nat) (f : Core → Core) : (modCore s p f).mem = s.mem := rfl
@[simp] theorem modCore_wlog (s : State) (p : Nat) (f : Core → Core) : (modCore s p f).wlog = s.wlog := rfl
@[simp] theorem modCore_unspec (s : State) (p : Nat) (f : Core → Core) : (modCore s p f).unspec = s.unspec := rfl
@[simp] theorem modCore_lineKey (s : State) (p : Nat) (f : Core → Core) : (modCore s p f).lineKey = s.lineKey := rfl
@[simp] theorem modCore_poison (s : State) (p : Nat) (f : Core → Core) : (modCore s p f).poison = s.poison := rfl
@[simp] theorem modCore_pins (s : State) (p : Nat) (f : Core → Core) : (modCore s p f).pins = s.pins := rfl
@[simp] theorem modCore_eng (s : State) (p : Nat) (f : Core → Core) : (modCore s p f).eng = s.eng := rfl
@[simp] theorem modCore_nextEng (s : State) (p : Nat) (f : Core → Core) : (modCore s p f).nextEng = s.nextEng := rfl
@[simp] theorem modCore_nextDs (s : State) (p : Nat) (f : Core → Core) : (modCore s p f).nextDs = s.nextDs := rfl
@[simp] theorem modCore_censuses (s : State) (p : Nat) (f : Core → Core) : (modCore s p f).censuses = s.censuses := rfl
@[simp] theorem modCore_lastStamp (s : State) (p : Nat) (f : Core → Core) : (modCore s p f).lastStamp = s.lastStamp := rfl
@[simp] theorem modCore_solicits (s : State) (p : Nat) (f : Core → Core) : (modCore s p f).solicits = s.solicits := rfl
@[simp] theorem modCore_launches (s : State) (p : Nat) (f : Core → Core) : (modCore s p f).launches = s.launches := rfl
@[simp] theorem modCore_cards (s : State) (p : Nat) (f : Core → Core) : (modCore s p f).cards = s.cards := rfl
@[simp] theorem modCore_parked (s : State) (p : Nat) (f : Core → Core) : (modCore s p f).parked = s.parked := rfl
@[simp] theorem modCore_taken (s : State) (p : Nat) (f : Core → Core) : (modCore s p f).taken = s.taken := rfl
@[simp] theorem modCore_nextCohort (s : State) (p : Nat) (f : Core → Core) : (modCore s p f).nextCohort = s.nextCohort := rfl
@[simp] theorem modCore_order (s : State) (p : Nat) (f : Core → Core) : (modCore s p f).order = s.order := rfl
@[simp] theorem modCore_temps (s : State) (p : Nat) (f : Core → Core) : (modCore s p f).temps = s.temps := rfl
@[simp] theorem modCore_heat (s : State) (p : Nat) (f : Core → Core) : (modCore s p f).heat = s.heat := rfl
@[simp] theorem modCore_boot (s : State) (p : Nat) (f : Core → Core) : (modCore s p f).boot = s.boot := rfl
@[simp] theorem modCore_host (s : State) (p : Nat) (f : Core → Core) : (modCore s p f).host = s.host := rfl
@[simp] theorem modCore_fogs (s : State) (p : Nat) (f : Core → Core) : (modCore s p f).fogs = s.fogs := rfl
@[simp] theorem modCore_stops (s : State) (p : Nat) (f : Core → Core) : (modCore s p f).stops = s.stops := rfl
@[simp] theorem modCore_fogSeq (s : State) (p : Nat) (f : Core → Core) : (modCore s p f).fogSeq = s.fogSeq := rfl
@[simp] theorem modCore_net (s : State) (p : Nat) (f : Core → Core) : (modCore s p f).net = s.net := rfl
@[simp] theorem modCore_out (s : State) (p : Nat) (f : Core → Core) : (modCore s p f).out = s.out := rfl

@[simp] theorem modSect_clock (s : State) (p k : Nat) (f : Sect → Sect) : (modSect s p k f).clock = s.clock := rfl
@[simp] theorem modSect_fresh (s : State) (p k : Nat) (f : Sect → Sect) : (modSect s p k f).fresh = s.fresh := rfl
@[simp] theorem modSect_agenda (s : State) (p k : Nat) (f : Sect → Sect) : (modSect s p k f).agenda = s.agenda := rfl
@[simp] theorem modSect_inputs (s : State) (p k : Nat) (f : Sect → Sect) : (modSect s p k f).inputs = s.inputs := rfl
@[simp] theorem modSect_cur (s : State) (p k : Nat) (f : Sect → Sect) : (modSect s p k f).cur = s.cur := rfl
@[simp] theorem modSect_waves (s : State) (p k : Nat) (f : Sect → Sect) : (modSect s p k f).waves = s.waves := rfl
@[simp] theorem modSect_nextWave (s : State) (p k : Nat) (f : Sect → Sect) : (modSect s p k f).nextWave = s.nextWave := rfl
@[simp] theorem modSect_cohorts (s : State) (p k : Nat) (f : Sect → Sect) : (modSect s p k f).cohorts = s.cohorts := rfl
@[simp] theorem modSect_ctxs (s : State) (p k : Nat) (f : Sect → Sect) : (modSect s p k f).ctxs = s.ctxs := rfl
@[simp] theorem modSect_dies (s : State) (p k : Nat) (f : Sect → Sect) : (modSect s p k f).dies = s.dies := rfl
@[simp] theorem modSect_remap (s : State) (p k : Nat) (f : Sect → Sect) : (modSect s p k f).remap = s.remap := rfl
@[simp] theorem modSect_mem (s : State) (p k : Nat) (f : Sect → Sect) : (modSect s p k f).mem = s.mem := rfl
@[simp] theorem modSect_wlog (s : State) (p k : Nat) (f : Sect → Sect) : (modSect s p k f).wlog = s.wlog := rfl
@[simp] theorem modSect_unspec (s : State) (p k : Nat) (f : Sect → Sect) : (modSect s p k f).unspec = s.unspec := rfl
@[simp] theorem modSect_lineKey (s : State) (p k : Nat) (f : Sect → Sect) : (modSect s p k f).lineKey = s.lineKey := rfl
@[simp] theorem modSect_poison (s : State) (p k : Nat) (f : Sect → Sect) : (modSect s p k f).poison = s.poison := rfl
@[simp] theorem modSect_pins (s : State) (p k : Nat) (f : Sect → Sect) : (modSect s p k f).pins = s.pins := rfl
@[simp] theorem modSect_eng (s : State) (p k : Nat) (f : Sect → Sect) : (modSect s p k f).eng = s.eng := rfl
@[simp] theorem modSect_nextEng (s : State) (p k : Nat) (f : Sect → Sect) : (modSect s p k f).nextEng = s.nextEng := rfl
@[simp] theorem modSect_nextDs (s : State) (p k : Nat) (f : Sect → Sect) : (modSect s p k f).nextDs = s.nextDs := rfl
@[simp] theorem modSect_censuses (s : State) (p k : Nat) (f : Sect → Sect) : (modSect s p k f).censuses = s.censuses := rfl
@[simp] theorem modSect_lastStamp (s : State) (p k : Nat) (f : Sect → Sect) : (modSect s p k f).lastStamp = s.lastStamp := rfl
@[simp] theorem modSect_solicits (s : State) (p k : Nat) (f : Sect → Sect) : (modSect s p k f).solicits = s.solicits := rfl
@[simp] theorem modSect_launches (s : State) (p k : Nat) (f : Sect → Sect) : (modSect s p k f).launches = s.launches := rfl
@[simp] theorem modSect_cards (s : State) (p k : Nat) (f : Sect → Sect) : (modSect s p k f).cards = s.cards := rfl
@[simp] theorem modSect_parked (s : State) (p k : Nat) (f : Sect → Sect) : (modSect s p k f).parked = s.parked := rfl
@[simp] theorem modSect_taken (s : State) (p k : Nat) (f : Sect → Sect) : (modSect s p k f).taken = s.taken := rfl
@[simp] theorem modSect_nextCohort (s : State) (p k : Nat) (f : Sect → Sect) : (modSect s p k f).nextCohort = s.nextCohort := rfl
@[simp] theorem modSect_order (s : State) (p k : Nat) (f : Sect → Sect) : (modSect s p k f).order = s.order := rfl
@[simp] theorem modSect_temps (s : State) (p k : Nat) (f : Sect → Sect) : (modSect s p k f).temps = s.temps := rfl
@[simp] theorem modSect_heat (s : State) (p k : Nat) (f : Sect → Sect) : (modSect s p k f).heat = s.heat := rfl
@[simp] theorem modSect_boot (s : State) (p k : Nat) (f : Sect → Sect) : (modSect s p k f).boot = s.boot := rfl
@[simp] theorem modSect_host (s : State) (p k : Nat) (f : Sect → Sect) : (modSect s p k f).host = s.host := rfl
@[simp] theorem modSect_fogs (s : State) (p k : Nat) (f : Sect → Sect) : (modSect s p k f).fogs = s.fogs := rfl
@[simp] theorem modSect_stops (s : State) (p k : Nat) (f : Sect → Sect) : (modSect s p k f).stops = s.stops := rfl
@[simp] theorem modSect_fogSeq (s : State) (p k : Nat) (f : Sect → Sect) : (modSect s p k f).fogSeq = s.fogSeq := rfl
@[simp] theorem modSect_net (s : State) (p k : Nat) (f : Sect → Sect) : (modSect s p k f).net = s.net := rfl
@[simp] theorem modSect_out (s : State) (p k : Nat) (f : Sect → Sect) : (modSect s p k f).out = s.out := rfl

@[simp] theorem modDie_clock (s : State) (d : Nat) (f : Die → Die) : (modDie s d f).clock = s.clock := rfl
@[simp] theorem modDie_fresh (s : State) (d : Nat) (f : Die → Die) : (modDie s d f).fresh = s.fresh := rfl
@[simp] theorem modDie_agenda (s : State) (d : Nat) (f : Die → Die) : (modDie s d f).agenda = s.agenda := rfl
@[simp] theorem modDie_inputs (s : State) (d : Nat) (f : Die → Die) : (modDie s d f).inputs = s.inputs := rfl
@[simp] theorem modDie_cur (s : State) (d : Nat) (f : Die → Die) : (modDie s d f).cur = s.cur := rfl
@[simp] theorem modDie_waves (s : State) (d : Nat) (f : Die → Die) : (modDie s d f).waves = s.waves := rfl
@[simp] theorem modDie_nextWave (s : State) (d : Nat) (f : Die → Die) : (modDie s d f).nextWave = s.nextWave := rfl
@[simp] theorem modDie_cohorts (s : State) (d : Nat) (f : Die → Die) : (modDie s d f).cohorts = s.cohorts := rfl
@[simp] theorem modDie_ctxs (s : State) (d : Nat) (f : Die → Die) : (modDie s d f).ctxs = s.ctxs := rfl
@[simp] theorem modDie_cores (s : State) (d : Nat) (f : Die → Die) : (modDie s d f).cores = s.cores := rfl
@[simp] theorem modDie_remap (s : State) (d : Nat) (f : Die → Die) : (modDie s d f).remap = s.remap := rfl
@[simp] theorem modDie_mem (s : State) (d : Nat) (f : Die → Die) : (modDie s d f).mem = s.mem := rfl
@[simp] theorem modDie_wlog (s : State) (d : Nat) (f : Die → Die) : (modDie s d f).wlog = s.wlog := rfl
@[simp] theorem modDie_unspec (s : State) (d : Nat) (f : Die → Die) : (modDie s d f).unspec = s.unspec := rfl
@[simp] theorem modDie_lineKey (s : State) (d : Nat) (f : Die → Die) : (modDie s d f).lineKey = s.lineKey := rfl
@[simp] theorem modDie_poison (s : State) (d : Nat) (f : Die → Die) : (modDie s d f).poison = s.poison := rfl
@[simp] theorem modDie_pins (s : State) (d : Nat) (f : Die → Die) : (modDie s d f).pins = s.pins := rfl
@[simp] theorem modDie_eng (s : State) (d : Nat) (f : Die → Die) : (modDie s d f).eng = s.eng := rfl
@[simp] theorem modDie_nextEng (s : State) (d : Nat) (f : Die → Die) : (modDie s d f).nextEng = s.nextEng := rfl
@[simp] theorem modDie_nextDs (s : State) (d : Nat) (f : Die → Die) : (modDie s d f).nextDs = s.nextDs := rfl
@[simp] theorem modDie_censuses (s : State) (d : Nat) (f : Die → Die) : (modDie s d f).censuses = s.censuses := rfl
@[simp] theorem modDie_lastStamp (s : State) (d : Nat) (f : Die → Die) : (modDie s d f).lastStamp = s.lastStamp := rfl
@[simp] theorem modDie_solicits (s : State) (d : Nat) (f : Die → Die) : (modDie s d f).solicits = s.solicits := rfl
@[simp] theorem modDie_launches (s : State) (d : Nat) (f : Die → Die) : (modDie s d f).launches = s.launches := rfl
@[simp] theorem modDie_cards (s : State) (d : Nat) (f : Die → Die) : (modDie s d f).cards = s.cards := rfl
@[simp] theorem modDie_parked (s : State) (d : Nat) (f : Die → Die) : (modDie s d f).parked = s.parked := rfl
@[simp] theorem modDie_taken (s : State) (d : Nat) (f : Die → Die) : (modDie s d f).taken = s.taken := rfl
@[simp] theorem modDie_nextCohort (s : State) (d : Nat) (f : Die → Die) : (modDie s d f).nextCohort = s.nextCohort := rfl
@[simp] theorem modDie_order (s : State) (d : Nat) (f : Die → Die) : (modDie s d f).order = s.order := rfl
@[simp] theorem modDie_temps (s : State) (d : Nat) (f : Die → Die) : (modDie s d f).temps = s.temps := rfl
@[simp] theorem modDie_heat (s : State) (d : Nat) (f : Die → Die) : (modDie s d f).heat = s.heat := rfl
@[simp] theorem modDie_boot (s : State) (d : Nat) (f : Die → Die) : (modDie s d f).boot = s.boot := rfl
@[simp] theorem modDie_host (s : State) (d : Nat) (f : Die → Die) : (modDie s d f).host = s.host := rfl
@[simp] theorem modDie_fogs (s : State) (d : Nat) (f : Die → Die) : (modDie s d f).fogs = s.fogs := rfl
@[simp] theorem modDie_stops (s : State) (d : Nat) (f : Die → Die) : (modDie s d f).stops = s.stops := rfl
@[simp] theorem modDie_fogSeq (s : State) (d : Nat) (f : Die → Die) : (modDie s d f).fogSeq = s.fogSeq := rfl
@[simp] theorem modDie_net (s : State) (d : Nat) (f : Die → Die) : (modDie s d f).net = s.net := rfl
@[simp] theorem modDie_out (s : State) (d : Nat) (f : Die → Die) : (modDie s d f).out = s.out := rfl

@[simp] theorem tellHost_clock (s : State) (m : HostMsg) : (tellHost s m).clock = s.clock := rfl
@[simp] theorem tellHost_fresh (s : State) (m : HostMsg) : (tellHost s m).fresh = s.fresh := rfl
@[simp] theorem tellHost_agenda (s : State) (m : HostMsg) : (tellHost s m).agenda = s.agenda := rfl
@[simp] theorem tellHost_inputs (s : State) (m : HostMsg) : (tellHost s m).inputs = s.inputs := rfl
@[simp] theorem tellHost_cur (s : State) (m : HostMsg) : (tellHost s m).cur = s.cur := rfl
@[simp] theorem tellHost_waves (s : State) (m : HostMsg) : (tellHost s m).waves = s.waves := rfl
@[simp] theorem tellHost_nextWave (s : State) (m : HostMsg) : (tellHost s m).nextWave = s.nextWave := rfl
@[simp] theorem tellHost_cohorts (s : State) (m : HostMsg) : (tellHost s m).cohorts = s.cohorts := rfl
@[simp] theorem tellHost_ctxs (s : State) (m : HostMsg) : (tellHost s m).ctxs = s.ctxs := rfl
@[simp] theorem tellHost_cores (s : State) (m : HostMsg) : (tellHost s m).cores = s.cores := rfl
@[simp] theorem tellHost_dies (s : State) (m : HostMsg) : (tellHost s m).dies = s.dies := rfl
@[simp] theorem tellHost_remap (s : State) (m : HostMsg) : (tellHost s m).remap = s.remap := rfl
@[simp] theorem tellHost_mem (s : State) (m : HostMsg) : (tellHost s m).mem = s.mem := rfl
@[simp] theorem tellHost_wlog (s : State) (m : HostMsg) : (tellHost s m).wlog = s.wlog := rfl
@[simp] theorem tellHost_unspec (s : State) (m : HostMsg) : (tellHost s m).unspec = s.unspec := rfl
@[simp] theorem tellHost_lineKey (s : State) (m : HostMsg) : (tellHost s m).lineKey = s.lineKey := rfl
@[simp] theorem tellHost_poison (s : State) (m : HostMsg) : (tellHost s m).poison = s.poison := rfl
@[simp] theorem tellHost_pins (s : State) (m : HostMsg) : (tellHost s m).pins = s.pins := rfl
@[simp] theorem tellHost_eng (s : State) (m : HostMsg) : (tellHost s m).eng = s.eng := rfl
@[simp] theorem tellHost_nextEng (s : State) (m : HostMsg) : (tellHost s m).nextEng = s.nextEng := rfl
@[simp] theorem tellHost_nextDs (s : State) (m : HostMsg) : (tellHost s m).nextDs = s.nextDs := rfl
@[simp] theorem tellHost_censuses (s : State) (m : HostMsg) : (tellHost s m).censuses = s.censuses := rfl
@[simp] theorem tellHost_lastStamp (s : State) (m : HostMsg) : (tellHost s m).lastStamp = s.lastStamp := rfl
@[simp] theorem tellHost_solicits (s : State) (m : HostMsg) : (tellHost s m).solicits = s.solicits := rfl
@[simp] theorem tellHost_launches (s : State) (m : HostMsg) : (tellHost s m).launches = s.launches := rfl
@[simp] theorem tellHost_cards (s : State) (m : HostMsg) : (tellHost s m).cards = s.cards := rfl
@[simp] theorem tellHost_parked (s : State) (m : HostMsg) : (tellHost s m).parked = s.parked := rfl
@[simp] theorem tellHost_taken (s : State) (m : HostMsg) : (tellHost s m).taken = s.taken := rfl
@[simp] theorem tellHost_nextCohort (s : State) (m : HostMsg) : (tellHost s m).nextCohort = s.nextCohort := rfl
@[simp] theorem tellHost_order (s : State) (m : HostMsg) : (tellHost s m).order = s.order := rfl
@[simp] theorem tellHost_temps (s : State) (m : HostMsg) : (tellHost s m).temps = s.temps := rfl
@[simp] theorem tellHost_heat (s : State) (m : HostMsg) : (tellHost s m).heat = s.heat := rfl
@[simp] theorem tellHost_boot (s : State) (m : HostMsg) : (tellHost s m).boot = s.boot := rfl
@[simp] theorem tellHost_host (s : State) (m : HostMsg) : (tellHost s m).host = s.host := rfl
@[simp] theorem tellHost_fogs (s : State) (m : HostMsg) : (tellHost s m).fogs = s.fogs := rfl
@[simp] theorem tellHost_stops (s : State) (m : HostMsg) : (tellHost s m).stops = s.stops := rfl
@[simp] theorem tellHost_fogSeq (s : State) (m : HostMsg) : (tellHost s m).fogSeq = s.fogSeq := rfl
@[simp] theorem tellHost_net (s : State) (m : HostMsg) : (tellHost s m).net = s.net := rfl

@[simp] theorem wrByte_clock (s : State) (pa : Nat) (b : Byte) : (wrByte s pa b).clock = s.clock := rfl
@[simp] theorem wrByte_fresh (s : State) (pa : Nat) (b : Byte) : (wrByte s pa b).fresh = s.fresh := rfl
@[simp] theorem wrByte_agenda (s : State) (pa : Nat) (b : Byte) : (wrByte s pa b).agenda = s.agenda := rfl
@[simp] theorem wrByte_inputs (s : State) (pa : Nat) (b : Byte) : (wrByte s pa b).inputs = s.inputs := rfl
@[simp] theorem wrByte_cur (s : State) (pa : Nat) (b : Byte) : (wrByte s pa b).cur = s.cur := rfl
@[simp] theorem wrByte_waves (s : State) (pa : Nat) (b : Byte) : (wrByte s pa b).waves = s.waves := rfl
@[simp] theorem wrByte_nextWave (s : State) (pa : Nat) (b : Byte) : (wrByte s pa b).nextWave = s.nextWave := rfl
@[simp] theorem wrByte_cohorts (s : State) (pa : Nat) (b : Byte) : (wrByte s pa b).cohorts = s.cohorts := rfl
@[simp] theorem wrByte_ctxs (s : State) (pa : Nat) (b : Byte) : (wrByte s pa b).ctxs = s.ctxs := rfl
@[simp] theorem wrByte_cores (s : State) (pa : Nat) (b : Byte) : (wrByte s pa b).cores = s.cores := rfl
@[simp] theorem wrByte_dies (s : State) (pa : Nat) (b : Byte) : (wrByte s pa b).dies = s.dies := rfl
@[simp] theorem wrByte_remap (s : State) (pa : Nat) (b : Byte) : (wrByte s pa b).remap = s.remap := rfl
@[simp] theorem wrByte_mem (s : State) (pa : Nat) (b : Byte) : (wrByte s pa b).mem = s.mem := rfl
@[simp] theorem wrByte_lineKey (s : State) (pa : Nat) (b : Byte) : (wrByte s pa b).lineKey = s.lineKey := rfl
@[simp] theorem wrByte_poison (s : State) (pa : Nat) (b : Byte) : (wrByte s pa b).poison = s.poison := rfl
@[simp] theorem wrByte_pins (s : State) (pa : Nat) (b : Byte) : (wrByte s pa b).pins = s.pins := rfl
@[simp] theorem wrByte_eng (s : State) (pa : Nat) (b : Byte) : (wrByte s pa b).eng = s.eng := rfl
@[simp] theorem wrByte_nextEng (s : State) (pa : Nat) (b : Byte) : (wrByte s pa b).nextEng = s.nextEng := rfl
@[simp] theorem wrByte_nextDs (s : State) (pa : Nat) (b : Byte) : (wrByte s pa b).nextDs = s.nextDs := rfl
@[simp] theorem wrByte_censuses (s : State) (pa : Nat) (b : Byte) : (wrByte s pa b).censuses = s.censuses := rfl
@[simp] theorem wrByte_lastStamp (s : State) (pa : Nat) (b : Byte) : (wrByte s pa b).lastStamp = s.lastStamp := rfl
@[simp] theorem wrByte_solicits (s : State) (pa : Nat) (b : Byte) : (wrByte s pa b).solicits = s.solicits := rfl
@[simp] theorem wrByte_launches (s : State) (pa : Nat) (b : Byte) : (wrByte s pa b).launches = s.launches := rfl
@[simp] theorem wrByte_cards (s : State) (pa : Nat) (b : Byte) : (wrByte s pa b).cards = s.cards := rfl
@[simp] theorem wrByte_parked (s : State) (pa : Nat) (b : Byte) : (wrByte s pa b).parked = s.parked := rfl
@[simp] theorem wrByte_taken (s : State) (pa : Nat) (b : Byte) : (wrByte s pa b).taken = s.taken := rfl
@[simp] theorem wrByte_nextCohort (s : State) (pa : Nat) (b : Byte) : (wrByte s pa b).nextCohort = s.nextCohort := rfl
@[simp] theorem wrByte_order (s : State) (pa : Nat) (b : Byte) : (wrByte s pa b).order = s.order := rfl
@[simp] theorem wrByte_temps (s : State) (pa : Nat) (b : Byte) : (wrByte s pa b).temps = s.temps := rfl
@[simp] theorem wrByte_heat (s : State) (pa : Nat) (b : Byte) : (wrByte s pa b).heat = s.heat := rfl
@[simp] theorem wrByte_boot (s : State) (pa : Nat) (b : Byte) : (wrByte s pa b).boot = s.boot := rfl
@[simp] theorem wrByte_host (s : State) (pa : Nat) (b : Byte) : (wrByte s pa b).host = s.host := rfl
@[simp] theorem wrByte_fogs (s : State) (pa : Nat) (b : Byte) : (wrByte s pa b).fogs = s.fogs := rfl
@[simp] theorem wrByte_stops (s : State) (pa : Nat) (b : Byte) : (wrByte s pa b).stops = s.stops := rfl
@[simp] theorem wrByte_fogSeq (s : State) (pa : Nat) (b : Byte) : (wrByte s pa b).fogSeq = s.fogSeq := rfl
@[simp] theorem wrByte_net (s : State) (pa : Nat) (b : Byte) : (wrByte s pa b).net = s.net := rfl
@[simp] theorem wrByte_out (s : State) (pa : Nat) (b : Byte) : (wrByte s pa b).out = s.out := rfl

@[simp] theorem finish_clock (s t : State) : (finish s t).clock = t.clock := rfl
@[simp] theorem finish_agenda (s t : State) : (finish s t).agenda = t.agenda := rfl
@[simp] theorem finish_inputs (s t : State) : (finish s t).inputs = t.inputs := rfl
@[simp] theorem finish_waves (s t : State) : (finish s t).waves = t.waves := rfl
@[simp] theorem finish_nextWave (s t : State) : (finish s t).nextWave = t.nextWave := rfl
@[simp] theorem finish_cohorts (s t : State) : (finish s t).cohorts = t.cohorts := rfl
@[simp] theorem finish_ctxs (s t : State) : (finish s t).ctxs = t.ctxs := rfl
@[simp] theorem finish_cores (s t : State) : (finish s t).cores = t.cores := rfl
@[simp] theorem finish_dies (s t : State) : (finish s t).dies = t.dies := rfl
@[simp] theorem finish_remap (s t : State) : (finish s t).remap = t.remap := rfl
@[simp] theorem finish_unspec (s t : State) : (finish s t).unspec = t.unspec := rfl
@[simp] theorem finish_lineKey (s t : State) : (finish s t).lineKey = t.lineKey := rfl
@[simp] theorem finish_poison (s t : State) : (finish s t).poison = t.poison := rfl
@[simp] theorem finish_pins (s t : State) : (finish s t).pins = t.pins := rfl
@[simp] theorem finish_eng (s t : State) : (finish s t).eng = t.eng := rfl
@[simp] theorem finish_nextEng (s t : State) : (finish s t).nextEng = t.nextEng := rfl
@[simp] theorem finish_nextDs (s t : State) : (finish s t).nextDs = t.nextDs := rfl
@[simp] theorem finish_censuses (s t : State) : (finish s t).censuses = t.censuses := rfl
@[simp] theorem finish_lastStamp (s t : State) : (finish s t).lastStamp = t.lastStamp := rfl
@[simp] theorem finish_solicits (s t : State) : (finish s t).solicits = t.solicits := rfl
@[simp] theorem finish_launches (s t : State) : (finish s t).launches = t.launches := rfl
@[simp] theorem finish_cards (s t : State) : (finish s t).cards = t.cards := rfl
@[simp] theorem finish_parked (s t : State) : (finish s t).parked = t.parked := rfl
@[simp] theorem finish_taken (s t : State) : (finish s t).taken = t.taken := rfl
@[simp] theorem finish_nextCohort (s t : State) : (finish s t).nextCohort = t.nextCohort := rfl
@[simp] theorem finish_order (s t : State) : (finish s t).order = t.order := rfl
@[simp] theorem finish_temps (s t : State) : (finish s t).temps = t.temps := rfl
@[simp] theorem finish_heat (s t : State) : (finish s t).heat = t.heat := rfl
@[simp] theorem finish_boot (s t : State) : (finish s t).boot = t.boot := rfl
@[simp] theorem finish_host (s t : State) : (finish s t).host = t.host := rfl
@[simp] theorem finish_fogs (s t : State) : (finish s t).fogs = t.fogs := rfl
@[simp] theorem finish_stops (s t : State) : (finish s t).stops = t.stops := rfl
@[simp] theorem finish_fogSeq (s t : State) : (finish s t).fogSeq = t.fogSeq := rfl
@[simp] theorem finish_net (s t : State) : (finish s t).net = t.net := rfl
@[simp] theorem finish_out (s t : State) : (finish s t).out = t.out := rfl

@[simp] theorem modWave_waves (s : State) (w : Nat) (f : Wave → Wave) : (modWave s w f).waves = tblMod s.waves w f := rfl
@[simp] theorem modCtx_ctxs (s : State) (c : Nat) (f : Ctx → Ctx) : (modCtx s c f).ctxs = tblMod s.ctxs c f := rfl
@[simp] theorem modCore_cores (s : State) (p : Nat) (f : Core → Core) : (modCore s p f).cores = tblPut s.cores p (f (coreAt s p)) := rfl
@[simp] theorem modDie_dies (s : State) (d : Nat) (f : Die → Die) : (modDie s d f).dies = tblPut s.dies d (f (dieAt s d)) := rfl
@[simp] theorem tellHost_out (s : State) (m : HostMsg) : (tellHost s m).out = s.out ++ [m] := rfl

@[simp] theorem waveAt_modWave_self (s : State) (w : Nat) (f : Wave → Wave) : waveAt (modWave s w f) w = (waveAt s w).map f := tblFind_mod_self _ _ _
theorem waveAt_modWave_ne (s : State) {w x : Nat} (f : Wave → Wave) (h : x ≠ w) : waveAt (modWave s w f) x = waveAt s x := tblFind_mod_ne _ _ h
@[simp] theorem waveAt_modCore (s : State) (p : Nat) (f : Core → Core) (w : Nat) : waveAt (modCore s p f) w = waveAt s w := rfl
@[simp] theorem waveAt_modSect (s : State) (p k : Nat) (f : Sect → Sect) (w : Nat) : waveAt (modSect s p k f) w = waveAt s w := rfl
@[simp] theorem waveAt_modCtx (s : State) (c : Nat) (f : Ctx → Ctx) (w : Nat) : waveAt (modCtx s c f) w = waveAt s w := rfl
@[simp] theorem waveAt_modCohort (s : State) (c : Nat) (f : Cohort → Cohort) (w : Nat) : waveAt (modCohort s c f) w = waveAt s w := rfl
@[simp] theorem waveAt_modDie (s : State) (d : Nat) (f : Die → Die) (w : Nat) : waveAt (modDie s d f) w = waveAt s w := rfl
@[simp] theorem waveAt_tellHost (s : State) (m : HostMsg) (w : Nat) : waveAt (tellHost s m) w = waveAt s w := rfl
@[simp] theorem waveAt_wrByte (s : State) (pa : Nat) (b : Byte) (w : Nat) : waveAt (wrByte s pa b) w = waveAt s w := rfl
@[simp] theorem waveAt_finish (s t : State) (w : Nat) : waveAt (finish s t) w = waveAt t w := rfl

@[simp] theorem coreAt_modCore_self (s : State) (p : Nat) (f : Core → Core) : coreAt (modCore s p f) p = f (coreAt s p) := tblGet_put_self _ _ _ _
theorem coreAt_modCore_ne (s : State) {p q : Nat} (f : Core → Core) (h : q ≠ p) : coreAt (modCore s p f) q = coreAt s q := tblGet_put_ne _ _ _ h
@[simp] theorem coreAt_modWave (s : State) (w : Nat) (f : Wave → Wave) (p : Nat) : coreAt (modWave s w f) p = coreAt s p := rfl
@[simp] theorem coreAt_finish (s t : State) (p : Nat) : coreAt (finish s t) p = coreAt t p := rfl

theorem getS_setS_self (v : Wave) (r : Nat) (x : Word) : (v.setS r x).getS r = x := tblGet_set_self _ _ _ _
theorem getS_setS_ne (v : Wave) {r q : Nat} (x : Word) (h : q ≠ r) : (v.setS r x).getS q = v.getS q := tblGet_set_ne _ _ _ h
theorem getV_setV_self (v : Wave) (r l : Nat) (x : Lane32) : (v.setV r l x).getV r l = x := tblGet_set_self _ _ _ _
theorem getV_setV_ne (v : Wave) {r l q m : Nat} (x : Lane32) (hl : l < 32) (hm : m < 32) (h : (q, m) ≠ (r, l)) : (v.setV r l x).getV q m = v.getV q m := by
  refine tblGet_set_ne _ _ _ (fun he => h ?_)
  have : q = r ∧ m = l := by omega
  simp [this.1, this.2]
theorem getP_setP_self (v : Wave) (k : Nat) (x : Lane32) (h : k ≠ 7) : (v.setP k x).getP k = x := by
  simp only [Wave.setP, Wave.getP, if_neg h]; exact tblGet_set_self _ _ _ _
/-- R123: p7 reads as ones whatever is written. -/
@[simp] theorem getP_seven (v : Wave) : v.getP 7 = BitVec.allOnes 32 := rfl
/-- R123: a write to p7 is discarded. -/
@[simp] theorem setP_seven (v : Wave) (x : Lane32) : v.setP 7 x = v := rfl

end Sys2Proof.Machine
end

