-- ==== Sys2Proof/Laws/Issue.lean ====
section
/-! SUPPORT. What issuing can come to: the one law of `issue` for each way its body ends, and for each test that stops it first. -/

namespace Sys2Proof.Machine

theorem issue_chosen {s : State} {i : Instr} {w x : Nat} {v : Wave} {u : Sub} (h : Chosen s w x v u) (body : Env → State → Res) :
    issue i body s = issueAt i body s w x v u := by
  simp [issue, h.cur, h.wave, h.sub, h.may]

/-- Past the tests, what an instruction comes to is what its body says. -/
theorem issueAt_body {s : State} {i : Instr} {w x : Nat} {v : Wave} {u : Sub} (h : Unhindered s i w x v u) (body : Env → State → Res) :
    issueAt i body s w x v u = match body (issueEnv s w x v u i) s with
      | .trap s1 t => nextOf s (enterTrap s1 w x t)
      | .hold s1 => nextOf s s1
      | .issued s1 => .next (finish s (replayDone (awaitsAt s1 w x (physCore s v.core) v) w v i))
      | .done s1 e => match e.go with
        | .br t => if brOut t then nextOf s (enterTrap s w x (brTrap t)) else .next (retire s w x v u i s1 e)
        | _ => .next (retire s w x v u i s1 e) := by
  have hl : check { alloc := v.kernel.alloc, w16 := (simtEnv s w x v u i).w16 } i = none := h.legal
  have hn : (seqCarries u.pc (instrLen i) && goesOn i { simtEnv s w x v u i with pops := popAll s v (popsOf none i), pushes := pushAll s v (pushesOf none i) }) = false := h.noCarry
  unfold issueAt
  simp only [hl, hn, h.popBound, h.pushBound, h.open_, h.popReady, h.pushReady, h.released, h.noDiverge, h.noFailed, Bool.and_self, Bool.not_true, Bool.or_self, Bool.false_eq_true, if_false]
  rfl

theorem issue_done {s s1 : State} {i : Instr} {w x : Nat} {v : Wave} {u : Sub} {body : Env → State → Res} {e : Eff} (h : Issuing s i w x v u)
    (hb : body (issueEnv s w x v u i) s = .done s1 e) (hg : ∀ t, e.go = .br t → brOut t = false) : issue i body s = .next (retire s w x v u i s1 e) := by
  rw [issue_chosen h.toChosen, issueAt_body h.toUnhindered, hb]
  cases hgo : e.go <;> simp_all

theorem issue_trap {s s1 : State} {i : Instr} {w x : Nat} {v : Wave} {u : Sub} {body : Env → State → Res} {t : Trap} (h : Issuing s i w x v u)
    (hb : body (issueEnv s w x v u i) s = .trap s1 t) : issue i body s = .next (trapped s w x s1 t) := by
  rw [issue_chosen h.toChosen, issueAt_body h.toUnhindered, hb]
  rfl

theorem issue_hold {s s1 : State} {i : Instr} {w x : Nat} {v : Wave} {u : Sub} {body : Env → State → Res} (h : Issuing s i w x v u)
    (hb : body (issueEnv s w x v u i) s = .hold s1) : issue i body s = nextOf s s1 := by
  rw [issue_chosen h.toChosen, issueAt_body h.toUnhindered, hb]

/-- R102: a branch out of range traps and does nothing else. -/
theorem issue_brOut {s s1 : State} {i : Instr} {w x : Nat} {v : Wave} {u : Sub} {body : Env → State → Res} {e : Eff} {t : Int} (h : Issuing s i w x v u)
    (hb : body (issueEnv s w x v u i) s = .done s1 e) (hg : e.go = .br t) (ho : brOut t = true) : issue i body s = .next (trapped s w x s (brTrap t)) := by
  rw [issue_chosen h.toChosen, issueAt_body h.toUnhindered, hb]
  simp [hg, ho, trapped, nextOf]

/-- A body that only writes registers, and does not branch by an offset, yields its effect. -/
theorem yields_pure {i : Instr} {f : Env → Eff} (hx : ∀ s, exec i s = issue i (pureBody f) s) (hg : ∀ e t, (f e).go = .br t → brOut t = false) : Yields i f := by
  intro s w x v u h
  rw [hx s]
  exact issue_done h rfl (hg _)

end Sys2Proof.Machine
end

