-- ==== Sys2Proof/Laws/PerInstr.lean ====
section
/-! SUPPORT. Laws stated for each instruction: the family `Opcode`. -/

open Sys2Proof

/-- R59, R60: the opcode of an instruction fits the ten bits of OP, is assigned to a row of the opcode map, and is none of the reserved codes. -/
def Sys2Proof.Laws.Opcode.Statement (i : Instr) : Prop := ∀ op, opOf i = some op → op < 1024 ∧ (opRow op).isSome = true ∧ opReserved op = false

/-- What the opcode map says of one assigned code. -/
theorem Sys2Proof.Laws.Opcode.of_code (i : Instr) (n : Nat) (h : opOf i = some n) (k : (decide (n < 1024) && (opRow n).isSome && !(opReserved n)) = true) : Statement i := by
  intro op e
  rw [h] at e
  cases e
  simpa [and_assoc] using k

/-- A step that is no instruction has no opcode. -/
theorem Sys2Proof.Laws.Opcode.of_none (i : Instr) (h : opOf i = none) : Statement i := fun op e => by simp [h] at e

theorem Sys2Proof.Laws.Opcode.sadd a : Statement (.sadd a) := of_code _ 0x000 rfl rfl
theorem Sys2Proof.Laws.Opcode.ssub a : Statement (.ssub a) := of_code _ 0x001 rfl rfl
theorem Sys2Proof.Laws.Opcode.smul a : Statement (.smul a) := of_code _ 0x002 rfl rfl
theorem Sys2Proof.Laws.Opcode.smulh a : Statement (.smulh a) := of_code _ 0x003 rfl rfl
theorem Sys2Proof.Laws.Opcode.sdiv a : Statement (.sdiv a) := of_code _ 0x004 rfl rfl
theorem Sys2Proof.Laws.Opcode.srem a : Statement (.srem a) := of_code _ 0x005 rfl rfl
theorem Sys2Proof.Laws.Opcode.smin a : Statement (.smin a) := of_code _ 0x00E rfl rfl
theorem Sys2Proof.Laws.Opcode.smax a : Statement (.smax a) := of_code _ 0x00F rfl rfl
theorem Sys2Proof.Laws.Opcode.sand a : Statement (.sand a) := of_code _ 0x006 rfl rfl
theorem Sys2Proof.Laws.Opcode.sor a : Statement (.sor a) := of_code _ 0x007 rfl rfl
theorem Sys2Proof.Laws.Opcode.sxor a : Statement (.sxor a) := of_code _ 0x008 rfl rfl
theorem Sys2Proof.Laws.Opcode.sandn a : Statement (.sandn a) := of_code _ 0x009 rfl rfl
theorem Sys2Proof.Laws.Opcode.sshl a : Statement (.sshl a) := of_code _ 0x00A rfl rfl
theorem Sys2Proof.Laws.Opcode.sshr a : Statement (.sshr a) := of_code _ 0x00B rfl rfl
theorem Sys2Proof.Laws.Opcode.ssar a : Statement (.ssar a) := of_code _ 0x00C rfl rfl
theorem Sys2Proof.Laws.Opcode.srot a : Statement (.srot a) := of_code _ 0x00D rfl rfl
theorem Sys2Proof.Laws.Opcode.sabs a : Statement (.sabs a) := of_code _ 0x010 rfl rfl
theorem Sys2Proof.Laws.Opcode.sclz a : Statement (.sclz a) := of_code _ 0x011 rfl rfl
theorem Sys2Proof.Laws.Opcode.spopc a : Statement (.spopc a) := of_code _ 0x012 rfl rfl
theorem Sys2Proof.Laws.Opcode.smov a : Statement (.smov a) := of_code _ 0x018 rfl rfl
theorem Sys2Proof.Laws.Opcode.sext a : Statement (.sext a) := of_code _ 0x015 rfl rfl
theorem Sys2Proof.Laws.Opcode.sbfx a : Statement (.sbfx a) := of_code _ 0x013 rfl rfl
theorem Sys2Proof.Laws.Opcode.sbfi a : Statement (.sbfi a) := of_code _ 0x014 rfl rfl
theorem Sys2Proof.Laws.Opcode.scmp a : Statement (.scmp a) := of_code _ 0x016 rfl rfl
theorem Sys2Proof.Laws.Opcode.ssel a : Statement (.ssel a) := of_code _ 0x017 rfl rfl
theorem Sys2Proof.Laws.Opcode.sli a : Statement (.sli a) := of_code _ 0x019 rfl rfl
theorem Sys2Proof.Laws.Opcode.sfadd a : Statement (.sfadd a) := of_code _ 0x020 rfl rfl
theorem Sys2Proof.Laws.Opcode.sfmul a : Statement (.sfmul a) := of_code _ 0x021 rfl rfl
theorem Sys2Proof.Laws.Opcode.sffma a : Statement (.sffma a) := of_code _ 0x022 rfl rfl
theorem Sys2Proof.Laws.Opcode.sfcmp a : Statement (.sfcmp a) := of_code _ 0x023 rfl rfl
theorem Sys2Proof.Laws.Opcode.sfcvt a : Statement (.sfcvt a) := of_code _ 0x024 rfl rfl
theorem Sys2Proof.Laws.Opcode.jmp a : Statement (.jmp a) := of_code _ 0x080 rfl rfl
theorem Sys2Proof.Laws.Opcode.jc a : Statement (.jc a) := of_code _ 0x081 rfl rfl
theorem Sys2Proof.Laws.Opcode.jmpx a : Statement (.jmpx a) := of_code _ 0x082 rfl rfl
theorem Sys2Proof.Laws.Opcode.call a : Statement (.call a) := of_code _ 0x083 rfl rfl
theorem Sys2Proof.Laws.Opcode.callx a : Statement (.callx a) := of_code _ 0x084 rfl rfl
theorem Sys2Proof.Laws.Opcode.ret a : Statement (.ret a) := of_code _ 0x085 rfl rfl
theorem Sys2Proof.Laws.Opcode.endThread a : Statement (.endThread a) := of_code _ 0x086 rfl rfl
theorem Sys2Proof.Laws.Opcode.nop a : Statement (.nop a) := of_code _ 0x087 rfl rfl
theorem Sys2Proof.Laws.Opcode.sld a : Statement (.sld a) := of_code _ 0x088 rfl rfl
theorem Sys2Proof.Laws.Opcode.sst a : Statement (.sst a) := of_code _ 0x089 rfl rfl
theorem Sys2Proof.Laws.Opcode.sread a : Statement (.sread a) := of_code _ 0x08A rfl rfl
theorem Sys2Proof.Laws.Opcode.swrite a : Statement (.swrite a) := of_code _ 0x08B rfl rfl
theorem Sys2Proof.Laws.Opcode.trap a : Statement (.trap a) := of_code _ 0x08C rfl rfl
theorem Sys2Proof.Laws.Opcode.tret a : Statement (.tret a) := of_code _ 0x090 rfl rfl
theorem Sys2Proof.Laws.Opcode.tretPark a : Statement (.tretPark a) := of_code _ 0x090 rfl rfl
theorem Sys2Proof.Laws.Opcode.mark a : Statement (.mark a) := of_code _ 0x091 rfl rfl
theorem Sys2Proof.Laws.Opcode.brk a : Statement (.brk a) := of_code _ 0x092 rfl rfl
theorem Sys2Proof.Laws.Opcode.remap a : Statement (.remap a) := of_code _ 0x098 rfl rfl
theorem Sys2Proof.Laws.Opcode.vadd a : Statement (.vadd a) := of_code _ 0x100 rfl rfl
theorem Sys2Proof.Laws.Opcode.vsub a : Statement (.vsub a) := of_code _ 0x101 rfl rfl
theorem Sys2Proof.Laws.Opcode.vmul a : Statement (.vmul a) := of_code _ 0x102 rfl rfl
theorem Sys2Proof.Laws.Opcode.vmulh a : Statement (.vmulh a) := of_code _ 0x103 rfl rfl
theorem Sys2Proof.Laws.Opcode.vmin a : Statement (.vmin a) := of_code _ 0x10C rfl rfl
theorem Sys2Proof.Laws.Opcode.vmax a : Statement (.vmax a) := of_code _ 0x10D rfl rfl
theorem Sys2Proof.Laws.Opcode.vmad a : Statement (.vmad a) := of_code _ 0x104 rfl rfl
theorem Sys2Proof.Laws.Opcode.vand a : Statement (.vand a) := of_code _ 0x105 rfl rfl
theorem Sys2Proof.Laws.Opcode.vor a : Statement (.vor a) := of_code _ 0x106 rfl rfl
theorem Sys2Proof.Laws.Opcode.vxor a : Statement (.vxor a) := of_code _ 0x107 rfl rfl
theorem Sys2Proof.Laws.Opcode.vandn a : Statement (.vandn a) := of_code _ 0x108 rfl rfl
theorem Sys2Proof.Laws.Opcode.vshl a : Statement (.vshl a) := of_code _ 0x109 rfl rfl
theorem Sys2Proof.Laws.Opcode.vshr a : Statement (.vshr a) := of_code _ 0x10A rfl rfl
theorem Sys2Proof.Laws.Opcode.vsar a : Statement (.vsar a) := of_code _ 0x10B rfl rfl
theorem Sys2Proof.Laws.Opcode.vabs a : Statement (.vabs a) := of_code _ 0x10E rfl rfl
theorem Sys2Proof.Laws.Opcode.vclz a : Statement (.vclz a) := of_code _ 0x10F rfl rfl
theorem Sys2Proof.Laws.Opcode.vpopc a : Statement (.vpopc a) := of_code _ 0x110 rfl rfl
theorem Sys2Proof.Laws.Opcode.vmov a : Statement (.vmov a) := of_code _ 0x115 rfl rfl
theorem Sys2Proof.Laws.Opcode.vbfx a : Statement (.vbfx a) := of_code _ 0x111 rfl rfl
theorem Sys2Proof.Laws.Opcode.vbfi a : Statement (.vbfi a) := of_code _ 0x112 rfl rfl
theorem Sys2Proof.Laws.Opcode.vcmp a : Statement (.vcmp a) := of_code _ 0x113 rfl rfl
theorem Sys2Proof.Laws.Opcode.vsel a : Statement (.vsel a) := of_code _ 0x114 rfl rfl
theorem Sys2Proof.Laws.Opcode.vaddc a : Statement (.vaddc a) := of_code _ 0x116 rfl rfl
theorem Sys2Proof.Laws.Opcode.vfadd a : Statement (.vfadd a) := of_code _ 0x180 rfl rfl
theorem Sys2Proof.Laws.Opcode.vfsub a : Statement (.vfsub a) := of_code _ 0x181 rfl rfl
theorem Sys2Proof.Laws.Opcode.vfmul a : Statement (.vfmul a) := of_code _ 0x182 rfl rfl
theorem Sys2Proof.Laws.Opcode.vffma a : Statement (.vffma a) := of_code _ 0x183 rfl rfl
theorem Sys2Proof.Laws.Opcode.vfmin a : Statement (.vfmin a) := of_code _ 0x184 rfl rfl
theorem Sys2Proof.Laws.Opcode.vfmax a : Statement (.vfmax a) := of_code _ 0x185 rfl rfl
theorem Sys2Proof.Laws.Opcode.vfcmp a : Statement (.vfcmp a) := of_code _ 0x186 rfl rfl
theorem Sys2Proof.Laws.Opcode.vrcp a : Statement (.vrcp a) := of_code _ 0x187 rfl rfl
theorem Sys2Proof.Laws.Opcode.vsqrt a : Statement (.vsqrt a) := of_code _ 0x189 rfl rfl
theorem Sys2Proof.Laws.Opcode.vrsq a : Statement (.vrsq a) := of_code _ 0x188 rfl rfl
theorem Sys2Proof.Laws.Opcode.vexp2 a : Statement (.vexp2 a) := of_code _ 0x18A rfl rfl
theorem Sys2Proof.Laws.Opcode.vlog2 a : Statement (.vlog2 a) := of_code _ 0x18B rfl rfl
theorem Sys2Proof.Laws.Opcode.vsin a : Statement (.vsin a) := of_code _ 0x18C rfl rfl
theorem Sys2Proof.Laws.Opcode.vcos a : Statement (.vcos a) := of_code _ 0x18D rfl rfl
theorem Sys2Proof.Laws.Opcode.vfclass a : Statement (.vfclass a) := of_code _ 0x18F rfl rfl
theorem Sys2Proof.Laws.Opcode.vcvt a : Statement (.vcvt a) := of_code _ 0x18E rfl rfl
theorem Sys2Proof.Laws.Opcode.plog a : Statement (.plog a) := of_code _ 0x210 rfl rfl
theorem Sys2Proof.Laws.Opcode.pmov a : Statement (.pmov a) := of_code _ 0x211 rfl rfl
theorem Sys2Proof.Laws.Opcode.pcnt a : Statement (.pcnt a) := of_code _ 0x212 rfl rfl
theorem Sys2Proof.Laws.Opcode.vshf a : Statement (.vshf a) := of_code _ 0x200 rfl rfl
theorem Sys2Proof.Laws.Opcode.vshfi a : Statement (.vshfi a) := of_code _ 0x201 rfl rfl
theorem Sys2Proof.Laws.Opcode.vbcast a : Statement (.vbcast a) := of_code _ 0x202 rfl rfl
theorem Sys2Proof.Laws.Opcode.vrfl a : Statement (.vrfl a) := of_code _ 0x203 rfl rfl
theorem Sys2Proof.Laws.Opcode.vwlane a : Statement (.vwlane a) := of_code _ 0x204 rfl rfl
theorem Sys2Proof.Laws.Opcode.vballot a : Statement (.vballot a) := of_code _ 0x205 rfl rfl
theorem Sys2Proof.Laws.Opcode.vvote a : Statement (.vvote a) := of_code _ 0x206 rfl rfl
theorem Sys2Proof.Laws.Opcode.vred a : Statement (.vred a) := of_code _ 0x207 rfl rfl
theorem Sys2Proof.Laws.Opcode.vscan a : Statement (.vscan a) := of_code _ 0x208 rfl rfl
theorem Sys2Proof.Laws.Opcode.brv a : Statement (.brv a) := of_code _ 0x218 rfl rfl
theorem Sys2Proof.Laws.Opcode.join a : Statement (.join a) := of_code _ 0x219 rfl rfl
theorem Sys2Proof.Laws.Opcode.wend a : Statement (.wend a) := of_code _ 0x21A rfl rfl
theorem Sys2Proof.Laws.Opcode.vunpk a : Statement (.vunpk a) := of_code _ 0x220 rfl rfl
theorem Sys2Proof.Laws.Opcode.vpack a : Statement (.vpack a) := of_code _ 0x221 rfl rfl
theorem Sys2Proof.Laws.Opcode.vld a : Statement (.vld a) := of_code _ 0x228 rfl rfl
theorem Sys2Proof.Laws.Opcode.vst a : Statement (.vst a) := of_code _ 0x229 rfl rfl
theorem Sys2Proof.Laws.Opcode.lds a : Statement (.lds a) := of_code _ 0x280 rfl rfl
theorem Sys2Proof.Laws.Opcode.sts a : Statement (.sts a) := of_code _ 0x281 rfl rfl
theorem Sys2Proof.Laws.Opcode.stm a : Statement (.stm a) := of_code _ 0x282 rfl rfl
theorem Sys2Proof.Laws.Opcode.vlds a : Statement (.vlds a) := of_code _ 0x283 rfl rfl
theorem Sys2Proof.Laws.Opcode.vatom a : Statement (.vatom a) := of_code _ 0x288 rfl rfl
theorem Sys2Proof.Laws.Opcode.satom a : Statement (.satom a) := of_code _ 0x289 rfl rfl
theorem Sys2Proof.Laws.Opcode.fence a : Statement (.fence a) := of_code _ 0x290 rfl rfl
theorem Sys2Proof.Laws.Opcode.align a : Statement (.align a) := of_code _ 0x291 rfl rfl
theorem Sys2Proof.Laws.Opcode.prefetch a : Statement (.prefetch a) := of_code _ 0x298 rfl rfl
theorem Sys2Proof.Laws.Opcode.discard a : Statement (.discard a) := of_code _ 0x299 rfl rfl
theorem Sys2Proof.Laws.Opcode.pin a : Statement (.pin a) := of_code _ 0x29A rfl rfl
theorem Sys2Proof.Laws.Opcode.unpin a : Statement (.unpin a) := of_code _ 0x29B rfl rfl
theorem Sys2Proof.Laws.Opcode.waitv a : Statement (.waitv a) := of_code _ 0x29C rfl rfl
theorem Sys2Proof.Laws.Opcode.trec a : Statement (.trec a) := of_code _ 0x300 rfl rfl
theorem Sys2Proof.Laws.Opcode.tcopy a : Statement (.tcopy a) := of_code _ 0x301 rfl rfl
theorem Sys2Proof.Laws.Opcode.kwait a : Statement (.kwait a) := of_code _ 0x302 rfl rfl
theorem Sys2Proof.Laws.Opcode.kjoin a : Statement (.kjoin a) := of_code _ 0x303 rfl rfl
theorem Sys2Proof.Laws.Opcode.gset a : Statement (.gset a) := of_code _ 0x304 rfl rfl
theorem Sys2Proof.Laws.Opcode.garr a : Statement (.garr a) := of_code _ 0x305 rfl rfl
theorem Sys2Proof.Laws.Opcode.gwait a : Statement (.gwait a) := of_code _ 0x306 rfl rfl
theorem Sys2Proof.Laws.Opcode.gsync a : Statement (.gsync a) := of_code _ 0x307 rfl rfl
theorem Sys2Proof.Laws.Opcode.yield a : Statement (.yield a) := of_code _ 0x308 rfl rfl
theorem Sys2Proof.Laws.Opcode.fset a : Statement (.fset a) := of_code _ 0x310 rfl rfl
theorem Sys2Proof.Laws.Opcode.mbld a : Statement (.mbld a) := of_code _ 0x311 rfl rfl
theorem Sys2Proof.Laws.Opcode.mma a : Statement (.mma a) := of_code _ 0x312 rfl rfl
theorem Sys2Proof.Laws.Opcode.mclr a : Statement (.mclr a) := of_code _ 0x313 rfl rfl
theorem Sys2Proof.Laws.Opcode.mst a : Statement (.mst a) := of_code _ 0x314 rfl rfl
theorem Sys2Proof.Laws.Opcode.mlat a : Statement (.mlat a) := of_code _ 0x315 rfl rfl
theorem Sys2Proof.Laws.Opcode.jld a : Statement (.jld a) := of_code _ 0x316 rfl rfl
theorem Sys2Proof.Laws.Opcode.treg a : Statement (.treg a) := of_code _ 0x320 rfl rfl
theorem Sys2Proof.Laws.Opcode.tdrop a : Statement (.tdrop a) := of_code _ 0x321 rfl rfl
theorem Sys2Proof.Laws.Opcode.tfind a : Statement (.tfind a) := of_code _ 0x322 rfl rfl
theorem Sys2Proof.Laws.Opcode.tmove a : Statement (.tmove a) := of_code _ 0x323 rfl rfl
theorem Sys2Proof.Laws.Opcode.solicit a : Statement (.solicit a) := of_code _ 0x324 rfl rfl
theorem Sys2Proof.Laws.Opcode.answer a : Statement (.answer a) := of_code _ 0x325 rfl rfl
theorem Sys2Proof.Laws.Opcode.cwait a : Statement (.cwait a) := of_code _ 0x326 rfl rfl
theorem Sys2Proof.Laws.Opcode.post a : Statement (.post a) := of_code _ 0x330 rfl rfl
theorem Sys2Proof.Laws.Opcode.rnext a : Statement (.rnext a) := of_code _ 0x331 rfl rfl
theorem Sys2Proof.Laws.Opcode.qbind a : Statement (.qbind a) := of_code _ 0x332 rfl rfl
theorem Sys2Proof.Laws.Opcode.creduce a : Statement (.creduce a) := of_code _ 0x338 rfl rfl
theorem Sys2Proof.Laws.Opcode.xmodeB a : Statement (.xmodeB a) := of_code _ 0x380 rfl rfl
theorem Sys2Proof.Laws.Opcode.xmodeBMx a : Statement (.xmodeBMx a) := of_code _ 0x380 rfl rfl
theorem Sys2Proof.Laws.Opcode.xmodeS a : Statement (.xmodeS a) := of_code _ 0x380 rfl rfl
theorem Sys2Proof.Laws.Opcode.xmov a : Statement (.xmov a) := of_code _ 0x381 rfl rfl
theorem Sys2Proof.Laws.Opcode.xbcast a : Statement (.xbcast a) := of_code _ 0x382 rfl rfl
theorem Sys2Proof.Laws.Opcode.loop a : Statement (.loop a) := of_code _ 0x388 rfl rfl
theorem Sys2Proof.Laws.Opcode.lexit a : Statement (.lexit a) := of_code _ 0x389 rfl rfl
theorem Sys2Proof.Laws.Opcode.bundleIssue a : Statement (.bundleIssue a) := of_none _ rfl
theorem Sys2Proof.Laws.Opcode.operationLands a b : Statement (.operationLands a b) := of_none _ rfl
theorem Sys2Proof.Laws.Opcode.regionCommit a : Statement (.regionCommit a) := of_none _ rfl
theorem Sys2Proof.Laws.Opcode.subwaveAged a b : Statement (.subwaveAged a b) := of_none _ rfl
theorem Sys2Proof.Laws.Opcode.watchdog a : Statement (.watchdog a) := of_none _ rfl
theorem Sys2Proof.Laws.Opcode.xmodeConvert a : Statement (.xmodeConvert a) := of_none _ rfl
theorem Sys2Proof.Laws.Opcode.returnDrainEnd a : Statement (.returnDrainEnd a) := of_none _ rfl
theorem Sys2Proof.Laws.Opcode.endingDrainEnd a : Statement (.endingDrainEnd a) := of_none _ rfl
theorem Sys2Proof.Laws.Opcode.trapEntry a : Statement (.trapEntry a) := of_none _ rfl
theorem Sys2Proof.Laws.Opcode.bundleTrapDrainEnd a : Statement (.bundleTrapDrainEnd a) := of_none _ rfl
theorem Sys2Proof.Laws.Opcode.callxWake a b : Statement (.callxWake a b) := of_none _ rfl
theorem Sys2Proof.Laws.Opcode.callxReread a b : Statement (.callxReread a b) := of_none _ rfl
theorem Sys2Proof.Laws.Opcode.waitvWake a b : Statement (.waitvWake a b) := of_none _ rfl
theorem Sys2Proof.Laws.Opcode.loadPerformed a b : Statement (.loadPerformed a b) := of_none _ rfl
theorem Sys2Proof.Laws.Opcode.storePerformed a b : Statement (.storePerformed a b) := of_none _ rfl
theorem Sys2Proof.Laws.Opcode.atomicPerformed a b : Statement (.atomicPerformed a b) := of_none _ rfl
theorem Sys2Proof.Laws.Opcode.gapLimit a b : Statement (.gapLimit a b) := of_none _ rfl
theorem Sys2Proof.Laws.Opcode.engineBegin a : Statement (.engineBegin a) := of_none _ rfl
theorem Sys2Proof.Laws.Opcode.tcopyChunk a b : Statement (.tcopyChunk a b) := of_none _ rfl
theorem Sys2Proof.Laws.Opcode.vldsComplete a : Statement (.vldsComplete a) := of_none _ rfl
theorem Sys2Proof.Laws.Opcode.matrixComplete a : Statement (.matrixComplete a) := of_none _ rfl
theorem Sys2Proof.Laws.Opcode.kwaitComplete a b : Statement (.kwaitComplete a b) := of_none _ rfl
theorem Sys2Proof.Laws.Opcode.gateWaitComplete a b : Statement (.gateWaitComplete a b) := of_none _ rfl
theorem Sys2Proof.Laws.Opcode.yieldResume a : Statement (.yieldResume a) := of_none _ rfl
theorem Sys2Proof.Laws.Opcode.channelEntryArrive a b c : Statement (.channelEntryArrive a b c) := of_none _ rfl
theorem Sys2Proof.Laws.Opcode.tmoveReservation a : Statement (.tmoveReservation a) := of_none _ rfl
theorem Sys2Proof.Laws.Opcode.tmoveReply a : Statement (.tmoveReply a) := of_none _ rfl
theorem Sys2Proof.Laws.Opcode.tmoveHandoff a : Statement (.tmoveHandoff a) := of_none _ rfl
theorem Sys2Proof.Laws.Opcode.tmoveCopy a : Statement (.tmoveCopy a) := of_none _ rfl
theorem Sys2Proof.Laws.Opcode.tmoveArrival a : Statement (.tmoveArrival a) := of_none _ rfl
theorem Sys2Proof.Laws.Opcode.tmoveComplete a : Statement (.tmoveComplete a) := of_none _ rfl
theorem Sys2Proof.Laws.Opcode.tmoveAbort a : Statement (.tmoveAbort a) := of_none _ rfl
theorem Sys2Proof.Laws.Opcode.tileAreaWithdraw a b : Statement (.tileAreaWithdraw a b) := of_none _ rfl
theorem Sys2Proof.Laws.Opcode.censusStamp a : Statement (.censusStamp a) := of_none _ rfl
theorem Sys2Proof.Laws.Opcode.solicitAccept a : Statement (.solicitAccept a) := of_none _ rfl
theorem Sys2Proof.Laws.Opcode.responderSpawn a : Statement (.responderSpawn a) := of_none _ rfl
theorem Sys2Proof.Laws.Opcode.responderLimit a : Statement (.responderLimit a) := of_none _ rfl
theorem Sys2Proof.Laws.Opcode.coreAnswer a b : Statement (.coreAnswer a b) := of_none _ rfl
theorem Sys2Proof.Laws.Opcode.censusComplete a : Statement (.censusComplete a) := of_none _ rfl
theorem Sys2Proof.Laws.Opcode.peerTimeout a : Statement (.peerTimeout a) := of_none _ rfl
theorem Sys2Proof.Laws.Opcode.emptyRecord a : Statement (.emptyRecord a) := of_none _ rfl
theorem Sys2Proof.Laws.Opcode.unknownRecord a : Statement (.unknownRecord a) := of_none _ rfl
theorem Sys2Proof.Laws.Opcode.launchRecord a : Statement (.launchRecord a) := of_none _ rfl
theorem Sys2Proof.Laws.Opcode.cohortPlace a : Statement (.cohortPlace a) := of_none _ rfl
theorem Sys2Proof.Laws.Opcode.launchComplete a : Statement (.launchComplete a) := of_none _ rfl
theorem Sys2Proof.Laws.Opcode.jobCard a b : Statement (.jobCard a b) := of_none _ rfl
theorem Sys2Proof.Laws.Opcode.cardStart a : Statement (.cardStart a) := of_none _ rfl
theorem Sys2Proof.Laws.Opcode.rangeCard a b : Statement (.rangeCard a b) := of_none _ rfl
theorem Sys2Proof.Laws.Opcode.ask a b : Statement (.ask a b) := of_none _ rfl
theorem Sys2Proof.Laws.Opcode.preemptLimit a : Statement (.preemptLimit a) := of_none _ rfl
theorem Sys2Proof.Laws.Opcode.park a : Statement (.park a) := of_none _ rfl
theorem Sys2Proof.Laws.Opcode.placeParked a : Statement (.placeParked a) := of_none _ rfl
theorem Sys2Proof.Laws.Opcode.migrationRequest a : Statement (.migrationRequest a) := of_none _ rfl
theorem Sys2Proof.Laws.Opcode.throttle105 a : Statement (.throttle105 a) := of_none _ rfl
theorem Sys2Proof.Laws.Opcode.trip115 a : Statement (.trip115 a) := of_none _ rfl
theorem Sys2Proof.Laws.Opcode.thermalClear a b : Statement (.thermalClear a b) := of_none _ rfl
theorem Sys2Proof.Laws.Opcode.powerLimit a : Statement (.powerLimit a) := of_none _ rfl
theorem Sys2Proof.Laws.Opcode.peerAccessLimit a b : Statement (.peerAccessLimit a b) := of_none _ rfl
theorem Sys2Proof.Laws.Opcode.pyzanLoad a b : Statement (.pyzanLoad a b) := of_none _ rfl
theorem Sys2Proof.Laws.Opcode.pyzanStore a : Statement (.pyzanStore a) := of_none _ rfl
theorem Sys2Proof.Laws.Opcode.pyzanAtomic a b : Statement (.pyzanAtomic a b) := of_none _ rfl
theorem Sys2Proof.Laws.Opcode.pyzanResponse a : Statement (.pyzanResponse a) := of_none _ rfl
theorem Sys2Proof.Laws.Opcode.pyzanAcknowledgement a : Statement (.pyzanAcknowledgement a) := of_none _ rfl
theorem Sys2Proof.Laws.Opcode.pyzanSolicit a : Statement (.pyzanSolicit a) := of_none _ rfl
theorem Sys2Proof.Laws.Opcode.pyzanCensusAnswer a : Statement (.pyzanCensusAnswer a) := of_none _ rfl
theorem Sys2Proof.Laws.Opcode.pyzanCollective a : Statement (.pyzanCollective a) := of_none _ rfl
theorem Sys2Proof.Laws.Opcode.pyzanResend a b : Statement (.pyzanResend a b) := of_none _ rfl
theorem Sys2Proof.Laws.Opcode.nonPyzanFrame a : Statement (.nonPyzanFrame a) := of_none _ rfl
theorem Sys2Proof.Laws.Opcode.collectiveLimit a : Statement (.collectiveLimit a) := of_none _ rfl
theorem Sys2Proof.Laws.Opcode.foghorn a : Statement (.foghorn a) := of_none _ rfl
theorem Sys2Proof.Laws.Opcode.packageReset a : Statement (.packageReset a) := of_none _ rfl
theorem Sys2Proof.Laws.Opcode.memoryTraining a : Statement (.memoryTraining a) := of_none _ rfl
theorem Sys2Proof.Laws.Opcode.linkTraining a b : Statement (.linkTraining a b) := of_none _ rfl
theorem Sys2Proof.Laws.Opcode.linkRetry : Statement (.linkRetry) := of_none _ rfl
theorem Sys2Proof.Laws.Opcode.openSession a : Statement (.openSession a) := of_none _ rfl
theorem Sys2Proof.Laws.Opcode.status a : Statement (.status a) := of_none _ rfl
theorem Sys2Proof.Laws.Opcode.attest a : Statement (.attest a) := of_none _ rfl
theorem Sys2Proof.Laws.Opcode.ctxSet a b : Statement (.ctxSet a b) := of_none _ rfl
theorem Sys2Proof.Laws.Opcode.streamWrite a : Statement (.streamWrite a) := of_none _ rfl
theorem Sys2Proof.Laws.Opcode.invalidate a : Statement (.invalidate a) := of_none _ rfl
theorem Sys2Proof.Laws.Opcode.preempt a : Statement (.preempt a) := of_none _ rfl
theorem Sys2Proof.Laws.Opcode.coreSave a : Statement (.coreSave a) := of_none _ rfl
theorem Sys2Proof.Laws.Opcode.coreRestore a : Statement (.coreRestore a) := of_none _ rfl
theorem Sys2Proof.Laws.Opcode.gapAnswer a : Statement (.gapAnswer a) := of_none _ rfl
theorem Sys2Proof.Laws.Opcode.keyLoad a : Statement (.keyLoad a) := of_none _ rfl
theorem Sys2Proof.Laws.Opcode.keyRetire a : Statement (.keyRetire a) := of_none _ rfl
theorem Sys2Proof.Laws.Opcode.partitionSet a : Statement (.partitionSet a) := of_none _ rfl
theorem Sys2Proof.Laws.Opcode.grantSetHost a : Statement (.grantSetHost a) := of_none _ rfl
theorem Sys2Proof.Laws.Opcode.grantSetInbound a : Statement (.grantSetInbound a) := of_none _ rfl
theorem Sys2Proof.Laws.Opcode.grantSetRoute a : Statement (.grantSetRoute a) := of_none _ rfl
theorem Sys2Proof.Laws.Opcode.grantSetRank a : Statement (.grantSetRank a) := of_none _ rfl
theorem Sys2Proof.Laws.Opcode.debugWrite a b : Statement (.debugWrite a b) := of_none _ rfl
theorem Sys2Proof.Laws.Opcode.debugRead a b : Statement (.debugRead a b) := of_none _ rfl
theorem Sys2Proof.Laws.Opcode.stop a : Statement (.stop a) := of_none _ rfl
theorem Sys2Proof.Laws.Opcode.step a : Statement (.step a) := of_none _ rfl
theorem Sys2Proof.Laws.Opcode.resume a : Statement (.resume a) := of_none _ rfl
theorem Sys2Proof.Laws.Opcode.unknownCommand a b : Statement (.unknownCommand a b) := of_none _ rfl
theorem Sys2Proof.Laws.Opcode.uncorrectableError a : Statement (.uncorrectableError a) := of_none _ rfl
end

