-- ==== Sys2Proof/Laws/Retire.lean ====
section
/-! SUPPORT. What completing an instruction, and taking a trap, leaves unchanged: the frame of every shared operation of issue. -/

namespace Sys2Proof.Machine

variable {w : Nat} {s t r : State}

theorem KeepsRest.refl (w : Nat) (s : State) : KeepsRest w s s := ⟨fun _ _ => rfl, fun _ => rfl, fun _ => rfl, fun _ _ => rfl, rfl, rfl, rfl, rfl, rfl, rfl⟩

theorem KeepsRest.trans (h : KeepsRest w s t) (k : KeepsRest w t r) : KeepsRest w s r :=
  ⟨fun a ha => (k.memory a ha).trans (h.memory a ha), fun p => (k.scratchpad p).trans (h.scratchpad p), fun p => (k.matrices p).trans (h.matrices p), fun a ha => (k.waves a ha).trans (h.waves a ha),
   k.contexts.trans h.contexts, k.cohorts.trans h.cohorts, k.engines.trans h.engines, k.dies.trans h.dies, k.clock.trans h.clock, k.host.trans h.host⟩

theorem keeps_modWave (w : Nat) (s : State) (f : Wave → Wave) : KeepsRest w s (modWave s w f) :=
  ⟨fun _ _ => rfl, fun p => by cases p <;> rfl, fun _ => rfl, fun _ h => waveAt_modWave_ne s f h, rfl, rfl, rfl, rfl, rfl, rfl⟩

/-- A change of a core that leaves its tile areas and matrix state alone. -/
theorem keeps_modCore (w : Nat) (s : State) (p : Nat) (f : Core → Core) (ht : (f (coreAt s p)).tiles = (coreAt s p).tiles) (hm : (f (coreAt s p)).mx = (coreAt s p).mx) : KeepsRest w s (modCore s p f) := by
  have hc : ∀ q, (coreAt (modCore s p f) q).tiles = (coreAt s q).tiles ∧ (coreAt (modCore s p f) q).mx = (coreAt s q).mx := by
    intro q
    by_cases h : q = p
    · subst h; simp [ht, hm]
    · rw [coreAt_modCore_ne _ _ h]; exact ⟨rfl, rfl⟩
  refine ⟨fun _ _ => rfl, fun q => ?_, fun q => (hc q).2, fun _ _ => rfl, rfl, rfl, rfl, rfl, rfl, rfl⟩
  cases q with
  | tile core ctx off => simp [spadByte, (hc core).1]
  | _ => rfl

theorem keeps_modSect (w : Nat) (s : State) (p k : Nat) (f : Sect → Sect) : KeepsRest w s (modSect s p k f) := keeps_modCore w s p _ rfl rfl

theorem keeps_takePops (w : Nat) (v : Wave) (l : List Nat) (s : State) : KeepsRest w s (takePops s v l) := by
  induction l generalizing s with
  | nil => exact KeepsRest.refl w s
  | cons q r ih => exact (keeps_modCore w s _ _ rfl rfl).trans (ih _)

theorem keeps_takePushes (w : Nat) (v : Wave) (l : List Nat) (s : State) : KeepsRest w s (takePushes s v l) := by
  induction l generalizing s with
  | nil => exact KeepsRest.refl w s
  | cons q r ih => exact (keeps_modCore w s _ _ rfl rfl).trans (ih _)

theorem keeps_dropL1 (w : Nat) (s : State) (p : Nat) : KeepsRest w s (dropL1 s p) := keeps_modCore w s p _ rfl rfl

/-- A result that goes to no scratchpad byte. -/
theorem keeps_landWr (w : Nat) (s : State) (y : Wr) (h : ∀ p, y.dst ≠ .mem p) : KeepsRest w s (landWr s w y) := by
  obtain ⟨d, x⟩ := y
  cases d with
  | chan core ch entry => unfold landWr chanPut; apply keeps_modCore <;> rfl
  | mem p => exact absurd rfl (h p)
  | _ => exact keeps_modWave w s _

theorem keeps_landAll (w : Nat) (l : List Wr) (s : State) (h : ∀ y ∈ l, ∀ p, y.dst ≠ .mem p) : KeepsRest w s (landAll s w l) := by
  induction l generalizing s with
  | nil => exact KeepsRest.refl w s
  | cons y r ih => exact (keeps_landWr w s y (h y (by simp))).trans (ih _ (fun z hz => h z (by simp [hz])))

theorem keeps_complete (s : State) (e : Env) (pops pushes : List Nat) (f : Eff) (h : ∀ y ∈ f.wr, ∀ p, y.dst ≠ .mem p) : KeepsRest e.w s (complete s e pops pushes f) := by
  have h0 : KeepsRest e.w s (if f.waits then s else takePops s e.v pops) := by
    split
    · exact KeepsRest.refl e.w s
    · exact keeps_takePops e.w e.v pops s
  have h1 := h0.trans (keeps_takePushes e.w e.v pushes _)
  have h2 := h1.trans (keeps_landAll e.w f.wr _ h)
  have h3 := h2.trans (keeps_modWave e.w _ (fun v => (v.queue e.x f.accs).advance e.x e.next f e.v.wdlimit))
  have h4 := h3.trans (keeps_modSect e.w _ e.core e.v.sect (fun k => { k with last := some (e.w, f.last.getD e.x), issuedAt := some s.clock }))
  unfold complete
  dsimp only
  split
  · exact h4
  · exact h4.trans (keeps_dropL1 e.w _ e.core)

theorem mem_takePops (v : Wave) (l : List Nat) (s : State) : (takePops s v l).mem = s.mem := by
  induction l generalizing s with
  | nil => rfl
  | cons q r ih => exact ih _

theorem mem_takePushes (v : Wave) (l : List Nat) (s : State) : (takePushes s v l).mem = s.mem := by
  induction l generalizing s with
  | nil => rfl
  | cons q r ih => exact ih _

theorem mem_landWr (s : State) (w : Nat) (y : Wr) : (landWr s w y).mem = s.mem := by
  obtain ⟨d, x⟩ := y
  cases d with
  | mem p => cases p <;> rfl
  | _ => rfl

theorem mem_landAll (w : Nat) (l : List Wr) (s : State) : (landAll s w l).mem = s.mem := by
  induction l generalizing s with
  | nil => rfl
  | cons y r ih => exact (ih _).trans (mem_landWr s w y)

/-- Completing an instruction writes no memory. -/
theorem mem_complete (s : State) (e : Env) (pops pushes : List Nat) (f : Eff) : (complete s e pops pushes f).mem = s.mem := by
  have h : ∀ a : State, (modSect (modWave a e.w (fun v => (v.queue e.x f.accs).advance e.x e.next f e.v.wdlimit)) e.core e.v.sect (fun k => { k with last := some (e.w, f.last.getD e.x), issuedAt := some s.clock })).mem = a.mem := fun _ => rfl
  have h2 : (landAll (takePushes (if f.waits then s else takePops s e.v pops) e.v pushes) e.w f.wr).mem = s.mem := by
    rw [mem_landAll, mem_takePushes]
    split
    · rfl
    · exact mem_takePops e.v pops s
  unfold complete
  dsimp only
  split
  · rw [h, h2]
  · exact (h _).trans h2

/-- The end of a step over a state with the memory the step began with. -/
theorem keeps_finish (h : KeepsRest w s t) (hm : t.mem = s.mem) : KeepsRest w s (finish s t) :=
  ⟨fun a ha => (rdByte_finish s t a hm ha).trans (h.memory a ha), fun p => by rw [← h.scratchpad p]; cases p <;> rfl, h.matrices, h.waves, h.contexts, h.cohorts, h.engines, h.dies, h.clock, h.host⟩

/-- An instruction that completes over a state that keeps the rest keeps the rest, but for scratchpad bytes it lands in and a replay record. -/
theorem keeps_retire {x : Nat} {v : Wave} {u : Sub} {i : Instr} {s1 : State} {f : Eff} (h1 : KeepsRest w s s1) (hm : s1.mem = s.mem) (hs : syncOp i = false) (h : ∀ y ∈ f.wr, ∀ p, y.dst ≠ .mem p) :
    KeepsRest w s (retire s w x v u i s1 f) := by
  unfold retire replayDone
  simp only [hs, Bool.false_eq_true, if_false]
  exact keeps_finish (h1.trans (keeps_complete s1 (issueEnv s w x v u i) _ _ f h)) ((mem_complete _ _ _ _ _).trans hm)

/-- A trap taken by a wave outside a handler changes only that wave. -/
theorem keeps_trapped {x : Nat} {v : Wave} {t : Trap} (hv : waveAt s w = some v) (hr : v.isResponder = false) (hh : v.handler = none) (ht : v.tvec ≠ 0) : KeepsRest w s (trapped s w x s t) := by
  have he : enterTrap s w x t = modWave s w (fun u => u.enterHandler x t (t.tpc.getD (((tblFind v.subs x).map (·.pc)).getD 0)) (tcauseOf t.cause false false false) { migrate := decide (t.cause = .migrate) }) := by
    simp [enterTrap, hv, hr, Wave.inHandler, hh]
    intro h; exact absurd h ht
  unfold trapped
  rw [he]
  exact keeps_finish (keeps_modWave w s _) rfl

theorem waveAt_modWave_self' (s : State) (w : Nat) (f : Wave → Wave) : waveAt (modWave s w f) w = (waveAt s w).map f := tblFind_mod_self _ _ _

theorem waves_takePops (v : Wave) (l : List Nat) (s : State) : (takePops s v l).waves = s.waves := by
  induction l generalizing s with
  | nil => rfl
  | cons q r ih => exact ih _

theorem waves_takePushes (v : Wave) (l : List Nat) (s : State) : (takePushes s v l).waves = s.waves := by
  induction l generalizing s with
  | nil => rfl
  | cons q r ih => exact ih _

/-- The results of an effect put in a wave's own places, in order. -/
def Wave.putAll (v : Wave) (l : List Wr) : Wave := l.foldl Wave.put v

theorem waveAt_landAll (w : Nat) (l : List Wr) (s : State) : waveAt (landAll s w l) w = (waveAt s w).map (fun v => v.putAll l) := by
  induction l generalizing s with
  | nil => cases h : waveAt s w <;> simp [landAll, Wave.putAll, h]
  | cons y r ih =>
    have hy : waveAt (landWr s w y) w = (waveAt s w).map (·.put y) := by
      obtain ⟨d, x⟩ := y
      cases d with
      | chan core ch entry => cases h : waveAt s w <;> simp [landWr, chanPut, Wave.put, h]
      | mem p => cases p <;> cases h : waveAt s w <;> simp_all [landWr, Wave.put, spadPut, modAlloc]
      | _ => exact waveAt_modWave_self' _ _ _
    rw [landAll, ih, hy]
    cases waveAt s w <;> rfl

/-- The wave that issued, after its instruction completes. -/
theorem waveAt_complete (s : State) (e : Env) (pops pushes : List Nat) (f : Eff) :
    waveAt (complete s e pops pushes f) e.w = (waveAt s e.w).map (fun v => ((v.putAll f.wr).queue e.x f.accs).advance e.x e.next f e.v.wdlimit) := by
  have h2 : waveAt (landAll (takePushes (if f.waits then s else takePops s e.v pops) e.v pushes) e.w f.wr) e.w = (waveAt s e.w).map (fun v => v.putAll f.wr) := by
    rw [waveAt_landAll]; unfold waveAt; rw [waves_takePushes]
    split
    · rfl
    · rw [waves_takePops]
  have h3 : ∀ g : Sect → Sect, waveAt (modSect (modWave (landAll (takePushes (if f.waits then s else takePops s e.v pops) e.v pushes) e.w f.wr) e.w (fun v => (v.queue e.x f.accs).advance e.x e.next f e.v.wdlimit)) e.core e.v.sect g) e.w
      = (waveAt s e.w).map (fun v => ((v.putAll f.wr).queue e.x f.accs).advance e.x e.next f e.v.wdlimit) := by
    intro g
    rw [waveAt_modSect, waveAt_modWave_self', h2]
    cases waveAt s e.w <;> rfl
  unfold complete
  dsimp only
  split
  · exact h3 (fun k => { k with last := some (e.w, f.last.getD e.x), issuedAt := some s.clock })
  · exact h3 (fun k => { k with last := some (e.w, f.last.getD e.x), issuedAt := some s.clock })

theorem waveAt_retire {x : Nat} {v : Wave} {u : Sub} {i : Instr} {s1 : State} {f : Eff} (hs : syncOp i = false) :
    waveAt (retire s w x v u i s1 f) w = (waveAt s1 w).map (fun a => ((a.putAll f.wr).queue x f.accs).advance x (u.pc + BitVec.ofNat 64 (instrLen i)) f v.wdlimit) := by
  unfold retire replayDone
  simp only [hs, Bool.false_eq_true, if_false, waveAt_finish]
  exact waveAt_complete s1 (issueEnv s w x v u i) _ _ f

theorem KeepsWave.refl (ds : List Dst) (v : Wave) : KeepsWave ds v v :=
  ⟨fun _ _ => rfl, fun _ _ _ _ => rfl, fun _ _ _ _ => rfl, fun _ _ => rfl, fun _ _ => rfl, rfl, rfl, rfl, rfl, rfl, rfl, rfl, rfl, rfl, rfl, rfl, ⟨rfl, rfl⟩, rfl, rfl, rfl, rfl, rfl⟩

theorem KeepsWave.trans {ds es : List Dst} {a b c : Wave} (h : KeepsWave ds a b) (k : KeepsWave es b c) : KeepsWave (ds ++ es) a c :=
  ⟨fun r hr => (k.scalars r (by simp_all)).trans (h.scalars r (by simp_all)), fun r l hl hr => (k.lanes r l hl (by simp_all)).trans (h.lanes r l hl (by simp_all)),
   fun r l hl hr => (k.predicates r l hl (by simp_all)).trans (h.predicates r l hl (by simp_all)), fun n hn => (k.formats n (by simp_all)).trans (h.formats n (by simp_all)),
   fun n hn => (k.records n (by simp_all)).trans (h.records n (by simp_all)), k.mode.trans h.mode, k.ctxbase.trans h.ctxbase, k.wdlimit.trans h.wdlimit, k.tpc.trans h.tpc, k.tcause.trans h.tcause,
   k.taddr.trans h.taddr, k.tinfo.trans h.tinfo, k.tvec.trans h.tvec, k.hinges.trans h.hinges, k.root.trans h.root, k.masks.trans h.masks, ⟨k.bundle.1.trans h.bundle.1, k.bundle.2.trans h.bundle.2⟩,
   k.tokens.trans h.tokens, k.ports.trans h.ports, k.gates.trans h.gates, k.accesses.trans h.accesses, k.handler.trans h.handler⟩

/-- A result in a lane that exists. -/
def Wr.inLanes (y : Wr) : Bool :=
  match y.dst with
  | .v _ l | .p _ l => decide (l < 32)
  | _ => true

theorem getP_setPBit_ne (v : Wave) {k j l m : Nat} (b : Bool) (hm : m < 32) (h : (j, m) ≠ (k, l)) : ((v.setPBit k l b).getP j).getLsbD m = (v.getP j).getLsbD m := by
  by_cases h7 : k = 7
  · subst h7; simp [Wave.setPBit]
  · by_cases hj : j = k
    · subst hj
      have hml : m ≠ l := by intro e; exact h (by simp [e])
      have hbit : (BitVec.ofNat 32 (2 ^ l)).getLsbD m = false := by
        rw [BitVec.getLsbD_ofNat]; simp [hm, Nat.testBit_two_pow]; omega
      unfold Wave.setPBit
      rw [getP_setP_self _ _ _ h7]
      cases b <;> simp only [if_true, if_false, Bool.false_eq_true, BitVec.getLsbD_or, BitVec.getLsbD_and, BitVec.getLsbD_not, hbit, decide_eq_true hm, Bool.not_false, Bool.and_true, Bool.or_false]
    · unfold Wave.setPBit Wave.setP Wave.getP
      simp only [h7, if_false]
      split
      · rfl
      · rw [tblGet_set_ne _ _ _ hj]

theorem keepsWave_put (v : Wave) (y : Wr) (h : y.inLanes = true) : KeepsWave [y.dst] v (v.put y) := by
  obtain ⟨d, x⟩ := y
  have hr := KeepsWave.refl [d] v
  cases d with
  | s r => exact { hr with scalars := fun q hq => getS_setS_ne v _ (by simpa using hq) }
  | v r l =>
    have hl : l < 32 := by simpa [Wr.inLanes] using h
    exact { hr with lanes := fun q m hm hq => getV_setV_ne v _ hl hm (by simpa using hq) }
  | p k l =>
    have hl : l < 32 := by simpa [Wr.inLanes] using h
    have hp : KeepsWave [Dst.p k l] v (v.setPBit k l (x % 2 = 1)) := by
      have e : ∃ t, v.setPBit k l (decide (x % 2 = 1)) = { v with p := t } := by
        unfold Wave.setPBit Wave.setP; split
        · exact ⟨v.p, rfl⟩
        · exact ⟨_, rfl⟩
      have hq : ∀ j m, m < 32 → Dst.p j m ∉ [Dst.p k l] → ((v.setPBit k l (decide (x % 2 = 1))).getP j).getLsbD m = (v.getP j).getLsbD m :=
        fun j m hm hq => getP_setPBit_ne v _ hm (by simpa using hq)
      obtain ⟨t, ht⟩ := e
      rw [ht] at hq ⊢
      exact { hr with predicates := hq }
    exact hp
  | freg n => exact { hr with formats := fun q hq => tblGet_set_ne _ _ _ (by simpa using hq) }
  | tensor n =>
    refine { hr with records := fun q hq => ?_ }
    have hn : q ≠ n := by simpa using hq
    simp only [Wave.put]
    split
    · exact tblFind_put_ne _ _ hn
    · exact tblFind_erase_ne _ hn
  | flags => exact { hr with scalars := hr.scalars }
  | chan a b c => exact hr
  | mem p => exact hr

theorem keepsWave_putAll (l : List Wr) (v : Wave) (h : ∀ y ∈ l, y.inLanes = true) : KeepsWave (l.map (·.dst)) v (v.putAll l) := by
  induction l generalizing v with
  | nil => exact KeepsWave.refl [] v
  | cons y r ih => exact (keepsWave_put v y (h y (by simp))).trans (ih (v.put y) (fun z hz => h z (by simp [hz])))

theorem keepsWave_countIssue (ds : List Dst) (v : Wave) (x : Nat) (b : Bool) (n : Word) : KeepsWave ds v (v.countIssue x b n) := by
  unfold Wave.countIssue
  split
  · exact { KeepsWave.refl ds v with scalars := fun _ _ => rfl }
  · split
    · exact KeepsWave.refl ds v
    · exact { KeepsWave.refl ds v with scalars := fun _ _ => rfl }

theorem masks_modSub (t : Tbl Sub) (x : Nat) (f : Sub → Sub) (hm : ∀ u, (f u).mask = u.mask) (hh : ∀ u, (f u).hold = u.hold) :
    (tblMod t x f).map (fun e => (e.1, e.2.mask, e.2.hold)) = t.map (fun e => (e.1, e.2.mask, e.2.hold)) := by
  induction t with
  | nil => rfl
  | cons e r ih =>
    obtain ⟨j, u⟩ := e
    unfold tblMod
    split <;> simp [ih, hm, hh]

/-- What the issuing wave of a completed instruction that queues no access keeps. -/
theorem keepsWave_retired (v : Wave) (x : Nat) (next : Word) (f : Eff) (n : Word) (ha : f.accs = []) (h : ∀ y ∈ f.wr, y.inLanes = true) :
    KeepsWave f.dsts v (((v.putAll f.wr).queue x f.accs).advance x next f n) := by
  have h1 : KeepsWave (f.wr.map (·.dst)) v (v.putAll f.wr) := keepsWave_putAll f.wr v h
  have h2 : ∀ a : Wave, KeepsWave [] a ((a.queue x f.accs).advance x next f n) := by
    intro a
    unfold Wave.advance
    have hq : KeepsWave [] a (a.queue x f.accs) := by
      rw [ha]; exact { KeepsWave.refl [] a with accesses := by simp [Wave.queue] }
    dsimp only
    refine (hq.trans (es := []) ?_).trans (es := []) (keepsWave_countIssue [] _ _ f.wdReset n)
    exact { KeepsWave.refl [] (a.queue x f.accs) with masks := masks_modSub _ _ _ (fun _ => rfl) (fun _ => rfl) }
  have h3 := h1.trans (h2 (v.putAll f.wr))
  simpa [Eff.dsts] using h3

end Sys2Proof.Machine
end

