-- ==== Sys2Proof/Tests/Slice0.lean ====
section
/-! SUPPORT. The author's own tests: words of the manual's encodings, ill-formed terms, one step of some instructions with results worked by hand from the manual, and for every statement with hypotheses states and operands that meet them. -/

namespace Sys2Proof.Tests

open Sys2Proof Sys2Proof.Machine

set_option Elab.async false

/-- A wave of context 0 about to issue, 32 lanes, at 0x4008. -/
def base : State := { State.reset.withFetchWord 64 0x21CE000000000000 with cur := some (0, 1) }
/-- The same with the wave changed. -/
def wv (f : Wave → Wave) : State := modWave base 0 f
/-- The wave with scalar registers set. -/
def withS (l : List (Nat × Word)) (v : Wave) : Wave := { v with s := l }
/-- Whether sub-wave `x` issues `i` unhindered, with a condition on what it sees. -/
def issuesIf (s : State) (i : Instr) (x : Nat) (c : Env → State → Bool) : Bool :=
  match waveAt s 0 with
  | none => false
  | some v => match tblFind v.subs x with
    | none => false
    | some u => decide (s.cur = some (0, x)) && mayIssue v u && decide (check (simtDec v) i = none) && !(seqCarries u.pc (instrLen i) && goesOn i (issueEnv s 0 x v u i)) && (popsOf none i).all (portBound s v false) && (pushesOf none i).all (portBound s v true)
        && !(interlocked (simtEnv s 0 x v u i) i) && (popsOf none i).all (popReady s v) && (pushesOf none i).all (pushReady s v) && pushReleased s v (pushesOf none i) && (replayTrap s v i).isNone && (pushFails v (pushesOf none i)).isNone && c (issueEnv s 0 x v u i) s

theorem issuing_of {s : State} {i : Instr} {x : Nat} {c : Env → State → Bool} (h : issuesIf s i x c = true) : ∃ v u, Issuing s i 0 x v u ∧ c (issueEnv s 0 x v u i) s = true := by
  unfold issuesIf at h
  split at h
  · cases h
  · rename_i v hv
    split at h
    · cases h
    · rename_i u hu
      rw [Bool.and_eq_true] at h
      obtain ⟨h, h13⟩ := h
      simp only [Bool.and_eq_true, Bool.not_eq_true', decide_eq_true_eq, Option.isNone_iff_eq_none] at h
      obtain ⟨⟨⟨⟨⟨⟨⟨⟨⟨⟨⟨h1, h2⟩, h3⟩, h4⟩, h5⟩, h6⟩, h7⟩, h8⟩, h9⟩, h10⟩, h11⟩, h12⟩ := h
      exact ⟨v, u, { cur := h1, wave := hv, sub := hu, may := h2, legal := h3, noCarry := h4, popBound := h5, pushBound := h6, open_ := h7, popReady := h8, pushReady := h9, released := h10, noDiverge := h11, noFailed := h12 }, h13⟩

/-- Each listed state and instruction meets the premises of a statement about what is issued, the listed condition among them. -/
theorem issuing_each {x : Nat} {l : List (State × Instr × (Env → State → Bool))} (h : l.all (fun t => issuesIf t.1 t.2.1 x t.2.2) = true) :
    ∀ t ∈ l, ∃ v u, Issuing t.1 t.2.1 0 x v u ∧ t.2.2 (issueEnv t.1 0 x v u t.2.1) t.1 = true := fun t ht => issuing_of (List.all_eq_true.mp h t ht)

-- Witnesses of the statements about what an instruction does when it issues.

/-- The premises of a list of cases are met. -/
def Meets (x : Nat) (l : List (State × Instr × (Env → State → Bool))) : Prop :=
  ∀ t ∈ l, ∃ v u, Issuing t.1 t.2.1 0 x v u ∧ t.2.2 (issueEnv t.1 0 x v u t.2.1) t.1 = true

def free (_ : Env) (_ : State) : Bool := true
def b2 : RRR := { d := 3, a := 1, b := 2 }
def b1 : RRR := { d := 3, a := 1 }
def plain (l : List Instr) : List (State × Instr × (Env → State → Bool)) := l.map (fun i => (base, i, free))

theorem wit_scalarInteger : Meets 1 (plain [.sadd b2, .ssub b2, .smul b2, .smulh b2, .smin b2, .smax b2, .sadd { b2 with sat := true, ty := .n8 }, .srem b2, .sdiv { b2 with b := 113 }] ++ [(base, .sdiv b2, fun e _ => decide (sIntB b2 e = 0))]) := issuing_each (by decide +kernel)
theorem wit_scalarMove : Meets 1 (plain [.sand b2, .sor b2, .sxor b2, .sandn b2, .sshl b2, .sshr b2, .ssar b2, .srot b2, .sabs b1, .sclz b1, .spopc b1, .smov b1, .sext b2, .sbfx { b2 with c := 112 }, .sbfx { b2 with c := 111 }, .sbfi { b2 with c := 111 }, .scmp b2, .ssel { b2 with c := 4 }, .sli { d := 3, imm := -1 }, .sli { d := 3, lit := some 7 }]) := issuing_each (by decide +kernel)
theorem wit_scalarFloat : Meets 1 (plain [.sfadd b2, .sfmul b2, .sffma { b2 with c := 4 }, .sfcmp b2] ++ [(base, .sfcvt { d := 3, a := 1, stype := .f64, ty := .f32 }, fun e _ => !(cvBadFmt { d := 3, a := 1, stype := .f64, ty := .f32 } e)),
    (base, .sfcvt { d := 3, a := 1, stype := .fq, ty := .f32 }, fun e _ => !((e.nfmt 0).valid)), (base, .sfcvt { d := 3, a := 1, stype := .f64, ty := .fq, dfmt := 7 }, fun e _ => !((e.nfmt 7).valid))]) := issuing_each (by decide +kernel)
theorem wit_rounding : (1 : Nat) < 2 ^ 1 ∧ (0 : Nat) < 2 ^ 0 := by decide +kernel
def target (f : BR) (e : Env) : Int := sint 64 e.p.toNat + 8 * sint 64 f.off.toNat
def reaches (f : BR) (e : Env) : Bool := decide (-(2 ^ 56 : Int) ≤ target f e) && decide (target f e < 2 ^ 56)
/-- The same wave at another address. -/
def atPc (pc : Word) : State := wv (·.modSub 1 (fun u => { u with pc := pc }))
def far : State := atPc 0x00FFFFFFFFFFFFF0
theorem wit_branch : Meets 1 ([(base, .jmp { off := -1 }, fun e _ => reaches { off := -1 } e), (far, .jmp { off := 1 }, fun e _ => reaches { off := 1 } e), (far, .jmp { off := 2 }, fun e _ => !(reaches { off := 2 } e)),
    (base, .jc { d := 113, off := 2 }, fun e _ => reaches { off := 2 } e && decide (e.rdS 113 ≠ 0)), (base, .jc { d := 112, off := 2 }, fun e _ => reaches { off := 2 } e && decide (e.rdS 112 = 0)), (far, .jc { d := 112, off := 2 }, fun e _ => !(reaches { off := 2 } e)),
    (base, .call { d := 95, off := 2 }, fun e _ => reaches { off := 2 } e), (far, .call { d := 95, off := 2 }, fun e _ => !(reaches { off := 2 } e))] ++ plain [.jmpx { a := 1 }, .jmpx { d := 3, a := 1, fn := 1 }, .ret { a := 1 }]) := issuing_each (by decide +kernel)
theorem wit_special : Meets 1 (plain [.sread { d := 3, sel := 0 }, .sread { d := 3, sel := 16 }, .sread { d := 3, sel := 17 }, .sread { d := 3, sel := 255 }, .swrite { a := 1, sel := 7 }, .swrite { a := 1, sel := 17 }, .nop {}] ++
    [(base, .sread { d := 3, sel := 5 }, fun e _ => !e.v.isResponder), (wv (withS [(1, 15)]), .swrite { a := 1, sel := 8 }, fun e _ => decide ((e.rdS 1).toNat < 16)), (wv (withS [(1, 16)]), .swrite { a := 1, sel := 8 }, fun e _ => decide ¬((e.rdS 1).toNat < 16)),
     (wv (withS [(1, 31)]), .swrite { a := 1, sel := 9 }, fun e _ => decide ((e.rdS 1).toNat < 32)), (wv (withS [(1, 32)]), .swrite { a := 1, sel := 9 }, fun e _ => decide ¬((e.rdS 1).toNat < 32)),
     (wv (withS [(1, 256)]), .swrite { a := 1, sel := 10 }, fun e _ => decide ((e.rdS 1).toNat % 256 = 0)), (wv (withS [(1, 255)]), .swrite { a := 1, sel := 10 }, fun e _ => decide ¬((e.rdS 1).toNat % 256 = 0)),
     (base, .swrite { a := 111, sel := 11 }, free), (base, .swrite { a := 111, sel := 12 }, free), (base, .swrite { a := 111, sel := 14 }, free), (base, .swrite { a := 111, sel := 15 }, free),
     (wv (withS [(1, 2047)]), .swrite { a := 1, sel := 13 }, fun e _ => decide ((e.rdS 1).toNat < 2048)), (wv (withS [(1, 2048)]), .swrite { a := 1, sel := 13 }, fun e _ => decide ¬((e.rdS 1).toNat < 2048)),
     (wv (withS [(1, 8)]), .swrite { a := 1, sel := 16 }, fun e _ => decide ((e.rdS 1).toNat % 8 = 0)), (wv (withS [(1, 4)]), .swrite { a := 1, sel := 16 }, fun e _ => decide ¬((e.rdS 1).toNat % 8 = 0))]) := issuing_each (by decide +kernel)
theorem base_inv : Memory.wf base.mem = true := by decide +kernel
/-- Every scalar form the frame names completes, so the frame's premises are met. -/
theorem wit_scalarFrame : ([.sli { d := 3 }, .sadd b2, .ssub b2, .smul b2, .smulh b2, .smin b2, .smax b2, .sand b2, .sor b2, .sxor b2, .sandn b2, .sshl b2, .sshr b2, .ssar b2, .srot b2, .sabs b1, .sclz b1, .spopc b1, .smov b1, .sext b2, .sbfx b2, .sbfi b2, .scmp b2, .ssel b2, .jmpx { a := 1 }, .ret { a := 1 }, .nop {},
    .sdiv b2, .srem b2, .sfadd b2, .sfmul b2, .sffma b2, .sfcmp b2] : List Instr).all (fun i => issuesIf base i 1 free && (match exec i base with | .next _ => true | _ => false)) = true := by decide +kernel
theorem wit_registerFrame : waveAt base 0 = waveAt base 0 ∧ (waveAt base 0).isSome = true ∧ syncOp (.sadd b2) = false ∧ ({ wr := [⟨.s 3, 0⟩] } : Eff).registersOnly = true ∧ (exec (.sadd b2) base matches .next _) = true := by decide +kernel
theorem wit_advances : (waveAt base 0).isSome = true ∧ ((waveAt base 0).bind (fun v => tblFind v.subs 1)).isSome = true ∧ syncOp (.sadd b2) = false ∧ ({ wr := [⟨.s 3, 0⟩] } : Eff).go = .seq ∧ (∀ y ∈ ({ wr := [⟨.s 3, 0⟩] } : Eff).wr, y.dst ≠ .flags) := by decide +kernel

/-- Whether sub-wave `x` of wave 0 is the one chosen, with a condition on the wave. -/
def chosenIf (s : State) (x : Nat) (c : Wave → Sub → Bool) : Bool :=
  match waveAt s 0 with
  | none => false
  | some v => match tblFind v.subs x with
    | none => false
    | some u => decide (s.cur = some (0, x)) && mayIssue v u && c v u

theorem chosen_of {s : State} {x : Nat} {c : Wave → Sub → Bool} (h : chosenIf s x c = true) : ∃ v u, Chosen s 0 x v u ∧ c v u = true := by
  unfold chosenIf at h
  split at h
  · cases h
  · rename_i v hv
    split at h
    · cases h
    · rename_i u hu
      simp only [Bool.and_eq_true, decide_eq_true_eq] at h
      exact ⟨v, u, { cur := h.1.1, wave := hv, sub := hu, may := h.1.2 }, h.2⟩

def bound (write : Bool) : State := wv (fun v => { v with ports := [(1, { core := 0, chan := 2, write := write })] })

theorem wit_check_illegal : ∃ v u, Chosen base 0 1 v u ∧ decide (check (simtDec v) (.sadd { d := 105 }) = some (.illegal 4)) = true := chosen_of (by decide +kernel)
theorem wit_check_mode : ∃ v u, Chosen base 0 1 v u ∧ decide (check (simtDec v) (.lexit {}) = some (.mode 9)) = true := chosen_of (by decide +kernel)
theorem wit_check_carry : ∃ v u, Chosen (atPc 0x01FFFFFFFFFFFFF8) 0 1 v u ∧ (decide (check (simtDec v) (.sadd b2) = none) && decide (2 ^ 57 ≤ u.pc.toNat % 2 ^ 57 + instrLen (.sadd b2))) = true := chosen_of (by decide +kernel)
theorem wit_check_port : ∃ v u, Chosen base 0 1 v u ∧ (decide (check (simtDec v) (.sadd { b2 with a := 97 }) = none) && (popsOf none (.sadd { b2 with a := 97 })).any (fun q => !(portBound base v false q))) = true := chosen_of (by decide +kernel)
theorem wit_check_push : ∃ v u, Chosen (bound false) 0 1 v u ∧ (decide (check (simtDec v) (.sadd { b2 with d := 97 }) = none) && (pushesOf none (.sadd { b2 with d := 97 })).any (fun q => !(portBound (bound false) v true q))) = true := chosen_of (by decide +kernel)
theorem wit_check_pop : ∃ v u, Chosen (bound false) 0 1 v u ∧ (decide (check (simtDec v) (.sadd { b2 with a := 97 }) = none) && (popsOf none (.sadd { b2 with a := 97 })).all (portBound (bound false) v false) && (popsOf none (.sadd { b2 with a := 97 })).any (fun q => !(popReady (bound false) v q))) = true := chosen_of (by decide +kernel)
theorem wit_check_register : ∃ v u, Chosen (wv (fun v => { v with owed := [.s 1] })) 0 1 v u ∧ (decide (check (simtDec v) (.sadd b2) = none) && interlocked (simtEnv (wv (fun v => { v with owed := [.s 1] })) 0 1 v u (.sadd b2)) (.sadd b2)) = true := chosen_of (by decide +kernel)

/-- A wave whose condition holds. -/
def waveIf (s : State) (c : Wave → Sub → Bool) : Prop := ∃ v u, waveAt s 0 = some v ∧ tblFind v.subs 1 = some u ∧ c v u = true
theorem wave_of {s : State} {c : Wave → Sub → Bool} (h : chosenIf s 1 c = true) : waveIf s c := by
  obtain ⟨v, u, h, hc⟩ := chosen_of h
  exact ⟨v, u, h.wave, h.sub, hc⟩

theorem wit_trapEntry : waveIf base (fun v _ => !v.isResponder && v.handler.isNone && decide (v.tvec ≠ 0)) := wave_of (by decide +kernel)
def inHandler : State := wv (fun v => { v with handler := some { mask := BitVec.allOnes 32 }, tpc := 0x4010 })
def responder : State := wv (fun v => { v with origin := .responder 1 0 })
theorem wit_trapFaults : waveIf inHandler (fun v _ => !v.isResponder && v.handler.isSome && (ctxAt inHandler v.ctx).faulted.isNone && (tblFind inHandler.ctxs v.ctx).isSome) := wave_of (by decide +kernel)
theorem wit_trapFaults_noTvec : waveIf (wv (fun v => { v with tvec := 0 })) (fun v _ => !v.isResponder && decide (v.tvec = 0)) := wave_of (by decide +kernel)
theorem wit_trapFaults_responder : waveIf responder (fun v _ => v.isResponder) := wave_of (by decide +kernel)
def dbg (k : Nat) (s : State) : State := modCtx s 0 (fun c => { c with dbgWord := BitVec.ofNat 64 k })
def tracing : State := modCore (dbg 8 base) 0 (fun c => { c with trace := { c.trace with on := true, base := 0x8000, size := 4096 } })
theorem wit_softwareTrap : Meets 1 ([(base, .trap { imm := 5 }, free), (base, .trap { lit := some 5 }, free), (base, .brk { imm := 0xFFFF }, fun e s => !((ctxAt s e.v.ctx).dbgWord.getLsbD 0)), (dbg 1 base, .brk { imm := 0x12 }, fun e s => (ctxAt s e.v.ctx).dbgWord.getLsbD 0),
    (base, .mark { imm := 5 }, fun e s => !((ctxAt s e.v.ctx).dbgWord.getLsbD 3)), (dbg 8 base, .mark { imm := 5 }, fun e s => !((coreAt s e.core).trace.on)),
    (tracing, .mark { imm := 5 }, fun e s => (ctxAt s e.v.ctx).dbgWord.getLsbD 3 && (coreAt s e.core).trace.on && decide ((coreAt s e.core).trace.size ≠ 0))]) := issuing_each (by decide +kernel)
theorem wit_handlerReturn : Meets 1 ([(inHandler, .tret {}, fun e _ => e.v.handler.any (fun h => decide (h.sub = e.x) && decide (h.mask = e.mask)) && !(e.v.tcause.getLsbD 8)), (inHandler, .tretPark { fn := 1 }, fun e _ => e.v.handler.any (fun h => decide (h.sub = e.x) && decide (h.mask = e.mask)) && !(e.v.tcause.getLsbD 8)),
    (base, .tret {}, fun e _ => e.v.handler.isNone), (base, .tretPark { fn := 1 }, fun e _ => e.v.handler.isNone),
    (modWave inHandler 0 (·.modSub 1 (fun u => { u with mask := 1 })), .tret {}, fun e _ => e.v.handler.any (fun h => decide (h.mask ≠ e.mask))), (wv (fun v => { v with handler := some { sub := 3, mask := BitVec.allOnes 32 } }), .tretPark { fn := 1 }, fun e _ => e.v.handler.any (fun h => decide (h.sub ≠ e.x)))]) := issuing_each (by decide +kernel)
theorem wit_vectorInteger : Meets 1 (plain [.vadd b2, .vsub b2, .vmul b2, .vmulh b2, .vmin b2, .vmax b2, .vmad { b2 with c := 4 }, .vand b2, .vor b2, .vxor b2, .vandn b2, .vshl b2, .vshr b2, .vsar b2, .vabs b1, .vclz b1, .vpopc b1, .vmov b1, .vadd { d := 30, a := 4, b := 6, ty := .i64 }, .vadd { b2 with ty := .i16, x2 := true },
    .vbfx { b2 with c := 4 }, .vbfi { b2 with c := 4 }, .vcmp { b2 with d := 6 }, .vcmp { b2 with d := 7 }, .vsel { b2 with c := 1 }, .vaddc { b2 with c := 1 }, .vaddc { b2 with c := 7, fn := 1 }]) := issuing_each (by decide +kernel)
theorem wit_vectorFloat : Meets 1 (plain [.vfadd b2, .vfsub b2, .vfmul b2, .vffma { b2 with c := 4 }, .vfmin b2, .vfmax b2, .vrcp b1, .vsqrt b1, .vrsq b1, .vexp2 b1, .vlog2 b1, .vsin b1, .vcos b1, .vfcmp b2, .vfclass b1] ++
    [(base, .vcvt { d := 3, a := 1, stype := .f32, ty := .f16 }, fun e _ => !(cvBadFmt { stype := .f32, ty := .f16 } e)), (base, .vcvt { d := 3, a := 1, stype := .fq, ty := .f32 }, fun e _ => !((e.nfmt 0).valid))]) := issuing_each (by decide +kernel)
theorem wit_predicate : Meets 1 (plain [.plog { d := 1, a := 2, b := 3 }, .plog { d := 1, fn := 6 }, .pmov { d := 3, a := 1 }, .pmov { d := 1, a := 3, fn := 1 }, .pmov { d := 1, a := 3, fn := 2 }, .pcnt { d := 3, a := 1 }, .pcnt { d := 3, a := 1, fn := 1 }, .vrfl b1, .vwlane b2]) := issuing_each (by decide +kernel)
def allMembers (f : RRR) (e : Env) (_ : State) : Bool := e.lanes.all (fun l => (e.rdS f.c).toNat.testBit (e.laneNo l))
def someOutside (f : RRR) (e : Env) (_ : State) : Bool := e.lanes.any (fun l => !((e.rdS f.c).toNat.testBit (e.laneNo l)))
theorem wit_laneOperation : Meets 1 (([fun k => .vshf { b2 with c := k }, fun k => .vshfi { b2 with c := k }, fun k => .vbcast { b2 with c := k }, fun k => .vballot { b1 with c := k }, fun k => .vvote { b1 with c := k }, fun k => .vred { b1 with c := k }, fun k => .vscan { b1 with c := k }] : List (Nat → Instr)).flatMap
    (fun i => [(base, i 111, allMembers { c := 111 }), (base, i 112, someOutside { c := 112 }), (wv (withS [(9, 0x7FFFFFFF)]), i 9, someOutside { c := 9 })])) := issuing_each (by decide +kernel)
theorem wit_vectorFrame : ([.vadd b2, .vsub b2, .vmul b2, .vmulh b2, .vmin b2, .vmax b2, .vmad b2, .vand b2, .vor b2, .vxor b2, .vandn b2, .vshl b2, .vshr b2, .vsar b2, .vabs b1, .vclz b1, .vpopc b1, .vmov b1, .vbfx b2, .vbfi b2, .vsel b2, .vfclass b1, .vfadd b2, .vfsub b2, .vfmul b2, .vffma b2, .vfmin b2, .vfmax b2, .vsqrt b1, .vcmp b2, .vfcmp b2, .plog { d := 7, fn := 5 }] : List Instr).all
    (fun i => issuesIf base i 1 free && (match exec i base with | .next _ => true | _ => false)) = true := by decide +kernel
theorem wit_vectorFrame_approx : ([.vrcp b1, .vrsq b1, .vexp2 b1, .vlog2 b1, .vsin b1, .vcos b1] : List Instr).all (fun i => issuesIf base i 1 free) = true := by decide +kernel

/-- The wave with predicate p1 of these lanes. -/
def pred (m : Lane32) (v : Wave) : Wave := { v with p := [(1, m)] }
def takenOf (f : BR) (e : Env) : Lane32 := e.mask &&& laneMask (fun l => e.rdP f.d l)
def mixedOf (f : BR) (e : Env) : Bool := decide (takenOf f e ≠ e.mask) && decide (takenOf f e ≠ 0)
def fullStack : Tbl Hinge := (List.range 15).map (fun n => (n + 1, { mask := 1 }))
/-- A wave split once, its taken sub-wave issuing, the record and the sibling as given. -/
def splitWave (h : Hinge) (fall : Option Sub) (pc : Word) : State :=
  { wv (fun v => { v with hinge := [(1, h)], subs := (match fall with | some u => [(2, u)] | none => []) ++ [(3, { pc := pc, mask := 0xFF })] }) with cur := some (0, 3) }
def fallHere : Sub := { pc := 0x4010, mask := 0xFFFFFF00, hold := .atJoin }
def rec1 (t f : BrState) : Hinge := { mask := BitVec.allOnes 32, tst := t, fst := f }
theorem wit_brv : Meets 1 ([(base, .brv { d := 7, off := -1 }, fun e _ => decide (takenOf { d := 7 } e = e.mask) && reaches { off := -1 } e), (far, .brv { d := 7, off := 1 }, fun e _ => decide (takenOf { d := 7 } e = e.mask) && reaches { off := 1 } e), (wv (pred 0), .brv { d := 1, off := 3 }, fun e _ => decide (takenOf { d := 1 } e = 0) && decide (e.mask ≠ 0) && reaches { off := 3 } e),
    (far, .brv { d := 7, off := 2 }, fun e _ => !(reaches { off := 2 } e)),
    (wv (fun v => { pred 1 v with hinge := fullStack }), .brv { d := 1, off := 3 }, fun e _ => mixedOf { d := 1 } e && reaches { off := 3 } e && (splitEntries e.v.kernel.w16 e.half).all (fun n => (tblFind e.v.hinge n).isSome)),
    (wv (pred 1), .brv { d := 1, off := 3 }, fun e _ => mixedOf { d := 1 } e && reaches { off := 3 } e && decide (freeEntry e.v (halfOf e.v e.x) = some 1) && decide (e.x / 2 ≠ 1)),
    (wv (fun v => { pred 1 v with hinge := fullStack.take 14 }), .brv { d := 1, off := 3 }, fun e _ => mixedOf { d := 1 } e && decide (freeEntry e.v (halfOf e.v e.x) = some 15))]) := issuing_each (by decide +kernel)
theorem wit_join_root : Meets 1 ([(base, .join {}, fun e _ => (tblFind e.v.hinge (e.x / 2)).isNone)]) := issuing_each (by decide +kernel)
theorem wit_join : Meets 3 ([(splitWave (rec1 .run .wait) (some fallHere) 0x4010, .join {}, fun e _ => (tblFind e.v.hinge 1).any (fun h => decide (h.fst = .wait)) && (tblFind e.v.subs 2).any (fun y => decide (y.pc = e.p))),
    (splitWave (rec1 .run .wait) (some fallHere) 0x4018, .join {}, fun e _ => (tblFind e.v.hinge 1).any (fun h => decide (h.fst = .wait)) && (tblFind e.v.subs 2).any (fun y => decide (y.pc ≠ e.p))),
    (splitWave (rec1 .run .gone) none 0x4010, .join {}, fun e _ => (tblFind e.v.hinge 1).any (fun h => decide (h.fst = .gone))),
    (splitWave (rec1 .run .run) (some { fallHere with hold := .run }) 0x4010, .join {}, fun e _ => (tblFind e.v.hinge 1).any (fun h => decide (h.fst = .run))),
    (splitWave (rec1 .run .split) none 0x4010, .join {}, fun e _ => (tblFind e.v.hinge 1).any (fun h => decide (h.fst = .split)))]) := issuing_each (by decide +kernel)
def wendSome : Instr := .wend { g := ⟨1, false⟩ }
theorem wit_wend : Meets 1 ([(wv (pred 0), wendSome, fun e _ => decide (e.act = 0)), (wv (pred 1), wendSome, fun e _ => decide (e.act ≠ 0) && decide (e.mask &&& ~~~e.act ≠ 0)),
    (base, .wend {}, fun e s => decide (e.act ≠ 0) && decide (e.mask &&& ~~~e.act = 0) && decide (e.v.hinge = []) && decide (e.v.subs.map (·.1) = [e.x]) && e.v.drained && !e.v.isResponder && decide (s.eng = []))]) := issuing_each (by decide +kernel)
def soleOf (e : Env) : Nat := if isRoot e.v.kernel.w16 (e.x / 2) then (e.v.subs.filter (fun y => halfOf e.v y.1 = halfOf e.v e.x)).length else 0
def queued : Acc := { kind := .fence, ord := 3, scope := 4 }
theorem wit_end_split : Meets 3 ([(splitWave (rec1 .run .wait) (some fallHere) 0x4018, .endThread {}, fun e _ => decide (soleOf e ≠ 1))]) := issuing_each (by decide +kernel)
theorem wit_end_record : Meets 3 ([(splitWave (rec1 .run .gone) none 0x4018, .endThread {}, fun e _ => decide (soleOf e ≠ 1) && decide (e.v.subs.length = 1)), (splitWave (rec1 .run .gone) none 0x4018, .yield { a := 0, c := 112 }, fun e _ => !e.v.unsplit)]) := issuing_each (by decide +kernel)
theorem wit_end : Meets 1 ([(base, .endThread {}, fun e _ => decide (soleOf e = 1) && decide (e.v.failed = []) && decide (e.v.subs.map (·.1) = [e.x]) && decide (e.v.hinge = []) && decide (e.mask ≠ 0) && decide (e.v.accs = []) && e.v.toks.all (fun t => t.2.settled)),
    (wv (fun v => { v with accs := [queued] }), .endThread {}, fun e _ => decide (soleOf e = 1) && decide (e.v.failed = []) && decide (e.v.subs.map (·.1) = [e.x]) && decide (e.v.hinge = []) && decide (e.v.accs ≠ [])),
    (wv (fun v => { v with toks := [(3, .pending none)] }), .endThread {}, fun e _ => decide (soleOf e = 1) && decide (e.v.subs.map (·.1) = [e.x]) && !(e.v.toks.all (fun t => t.2.settled)))]) := issuing_each (by decide +kernel)
/-- The two halves of a wave of a width-16 kernel, each unsplit. -/
def halves : State := wv (fun v => { v with kernel := { v.kernel with w16 := true }, subs := [(1, { pc := 0x4008, mask := 0xFFFF }), (17, { pc := 0x4008, mask := 0xFFFF0000 })] })
theorem wit_end_half : Meets 1 ([(halves, .endThread {}, fun e _ => decide (soleOf e = 1) && decide (e.v.failed = []) && (tblFind e.v.hinge (e.x / 2)).isNone && decide (tblErase e.v.subs e.x ≠ []))]) := issuing_each (by decide +kernel)

/-- A wave of a cohort with 4 KiB of scratchpad, s1 in mapped memory. -/
def memS (l : List (Nat × Word)) : State := { wv (withS l) with cohorts := [(0, { spad := [(0, { size := 4096 })], gates := [(0, { expect := 2 })] })] }
def mapped : State := memS [(1, 0x8000)]
/-- Two lanes active. -/
def two (s : State) : State := modWave s 0 (·.modSub 1 (fun u => { u with mask := 0x80000001 }))
def ok? {ε α : Type} (r : Except ε α) : Bool := match r with | .ok _ => true | .error _ => false
def mem (c : Nat) (b : Nat) : MEM := { d := 4, a := 1, b := b, c := c }
def am (c : Nat) : ATM := { d := 4, a := 1, b := 2, c := c, atop := 2 }
/-- The requests of the form a case is about, checked. -/
def checks (f : MEM) (g : ATM) (n : Nat) (e : Env) (s : State) : Option (Except ReqBad (List Acc)) := ((memoryForms f g)[n]?).map (fun r => checkReqs e s r.2.1 r.2.2.1 (r.2.2.2.2.2 e))
def passes (f : MEM) (g : ATM) (n : Nat) (e : Env) (s : State) : Bool :=
  match checks f g n e s, (memoryForms f g)[n]? with
  | some (.ok l), some r => (decide (r.2.2.2.1 < 2) || decide (e.v.failed = [])) && (decide (r.2.2.1 = .store) || l.all (fun a => a.bytes.all (fun b => !b.at_.isPeer)))
  | _, _ => false
/-- The fault of the form's lowest failing request: none for a misaligned atomic. -/
def fails (f : MEM) (g : ATM) (n : Nat) (c : Option MemFault → Bool) (e : Env) (s : State) : Bool :=
  match checks f g n e s with
  | some (.error (.align _)) => c none
  | some (.error (.mem _ m)) => c (some m)
  | _ => false
def spadF (b : Nat) : MEM := { d := 4, a := 9, b := b, c := 64 }
theorem wit_memory : Meets 1 ([(mapped, .sld (mem 96 110), passes (mem 96 110) {} 0), (mapped, .sst (mem 114 110), passes (mem 114 110) {} 1), (two mapped, .vld (mem 64 116), passes (mem 64 116) {} 2), (two mapped, .vst (mem 64 116), passes (mem 64 116) {} 3),
    (two mapped, .lds (spadF 0), passes (spadF 0) {} 4), (two mapped, .lds { spadF 1 with a := 3 }, passes { spadF 1 with a := 3 } {} 4), (two mapped, .sts (spadF 0), passes (spadF 0) {} 5), (two mapped, .vunpk { d := 4, a := 9, b := 110, c := 15 }, passes { d := 4, a := 9, b := 110, c := 15 } {} 6),
    (two mapped, .vatom { am 64 with a := 6, b := 8 }, passes {} { am 64 with a := 6, b := 8 } 7), (mapped, .satom (am 96), passes {} (am 96) 8),
    (memS [(1, 0x8FFC)], .sst (mem 96 110), passes (mem 96 110) {} 1)]) := issuing_each (by decide +kernel)
def mirrored : State := modCtx (memS [(1, 0x40000000)]) 0 (fun c => { c with t := { c.t with mirrored := true } })
theorem wit_memory_fault : Meets 1 ([(memS [(1, 0x8004)], .satom (am 96), fails {} (am 96) 8 (·.isNone)), (memS [(1, 0x40000000)], .sld (mem 96 110), fails (mem 96 110) {} 0 (·.any (fun m => decide (m.cause = .page) && decide (m.reason = 0)))),
    (memS [(1, 0x0100000000000000)], .vld (mem 64 116), fails (mem 64 116) {} 2 (·.any (fun m => decide (m.cause = .protection) && decide (m.reason = 1)))), (memS [(9, 4095)], .sts (spadF 0), fails (spadF 0) {} 5 (·.any (fun m => decide (m.reason = 2)))),
    (mirrored, .sld (mem 96 110), fun e s => (ctxAt s e.v.ctx).t.mirrored && fails (mem 96 110) {} 0 (·.any (fun m => decide (m.cause = .page) && decide (m.reason = 0))) e s)]) := issuing_each (by decide +kernel)

def ran (i : Instr) (s : State) : State := match exec i s with | .next t => t | _ => s
theorem wit_flatCheck : (canonical 0x0100000000000000 && canonical 0x0100000000000007) = false ∧ (canonical 0x00FFFFFFFFFFFFFF && canonical 0x0100000000000006) = false
    ∧ (match translate base {} 0 0x40000000 0 with | .page _ _ => canonical 0x40000000 | _ => false) = true
    ∧ (match translate base {} 0 0x8FF8 0 with | .leaf l => l.r && l.w && l.x && decide (0x8FF8 / 4096 = 0x8FFF / 4096) | _ => false) = true
    ∧ (match translate { base with mem := memApply base.mem [(0x3000, 0x07)] } {} 0 0x8000 0 with | .leaf l => !(l.w && l.x) | _ => false) = true := by decide +kernel
/-- What an access of wave 0 that stands queued meets. -/
def wIf (s : State) (c : Wave → Bool) : Bool := (waveAt s 0).any c
def accIf (s : State) (k : Nat) (c : List Acc → Acc → Bool) : Bool := match accAt s 0 k with | some (_, pre, a) => c pre a | none => false
def near (a : Acc) : Bool := a.bytes.all (fun b => !b.at_.isPeer && !b.at_.isHost)
def loaded : State := ran (.sld (mem 96 110)) mapped
def stored : State := ran (.sst (mem 96 110)) mapped
def staged : State := ran (.storePerformed 0 0) stored
def spadStored : State := ran (.sts (spadF 0)) mapped
def atomicked : State := ran (.satom (am 96)) mapped
def dev (pa : Nat) : AByte := { at_ := .dev pa }
/-- A store to another die's memory that its own die has accepted. -/
def crossing : State := modDie (wv (fun v => { v with nextAcc := 1, accs := [{ kind := .store [5], stage := 1, bytes := [dev 0x1000000000] }] })) 0 (fun d => { d with pend := [{ id := 0, wave := 0, acc := 0, cells := [(0x1000000000, 5, 0)] }] })
theorem wit_performs : accIf loaded 0 (fun pre a => (match a.kind with | .load _ => true | _ => false) && a.bytes.all (fun b => !b.at_.isAway) && loadReady a pre && !(isAcq a.ord && acqWaits loaded 0 a)) = true ∧ wIf loaded (fun v => v.accs.all v.peersOk) = true
    ∧ accIf spadStored 0 (fun pre a => (match a.kind with | .store _ => true | _ => false) && near a && a.bytes.any (·.at_.isSpad) && storeReady a pre 1 && released spadStored 0 a pre) = true
    ∧ accIf stored 0 (fun pre a => (match a.kind with | .store _ => true | _ => false) && near a && a.bytes.all (fun b => !b.at_.isSpad) && decide (a.stage = 0) && storeReady a pre 1 && released stored 0 a pre) = true
    ∧ accIf staged 0 (fun pre a => (match a.kind with | .store _ => true | _ => false) && near a && a.bytes.all (fun b => !b.at_.isSpad) && decide (a.stage = 1) && !(awayStore staged 0 0 0) && storeReady a pre 2) = true
    ∧ accIf crossing 0 (fun pre a => (match a.kind with | .store _ => true | _ => false) && near a && a.bytes.all (fun b => !b.at_.isSpad) && decide (a.stage = 1) && awayStore crossing 0 0 0 && dieOrder crossing 0 0 0 && pre.isEmpty) = true
    ∧ accIf atomicked 0 (fun pre a => (match a.kind with | .atomic _ _ _ _ => true | _ => false) && near a && a.bytes.all (fun b => !b.at_.isSpad) && atomicReady a pre && released atomicked 0 a pre && !(isRel a.ord) && !(atomicWaits atomicked 0 a)) = true ∧ wIf atomicked (fun v => v.accs.all v.peersOk) = true := by decide +kernel
/-- The one access of wave 0, plain and single-copy atomic, and what else is asked of it. -/
def lone (s : State) (c : Wave → Acc → Bool) : Bool := wIf s (fun v => match v.accs with
  | [a] => !a.gated && a.gap.isNone && decide (a.got = []) && decide (a.unit = 0) && decide (a.ord = 0) && decide (a.bytes ≠ []) && !(v.inPeer a) && s.dies.all (fun d => decide (d.2.watch.wctl = [])) && c v a
  | _ => false)
def loneMem (s : State) (pa : Nat) (a : Acc) : Bool :=
  let n := a.bytes.length
  decide (a.bytes.map (·.at_) = (List.range n).map (fun i => Place.dev (pa + i))) && decide (lineOf pa = lineOf (pa + n - 1)) && (List.range n).all (fun i => inDevice (pa + i) && decide (pa + i ∉ s.unspec)) && decide (lineOf pa ∉ s.poison)
    && a.bytes.all (fun b => (tblFind s.lineKey (lineOf pa)).all (fun k => decide (k = b.attr.key)))
def loneSpad (s : State) (a : Acc) : Bool := a.bytes.all (fun b => match b.at_ with | .spad c k _ => (tblFind s.cohorts c).any (fun co => (tblFind co.spad k).isSome) && !(spadPoisoned s b.at_) | _ => false)
def spadLone : State := modWave spadStored 0 (fun v => { v with accs := v.accs.map (fun a => { a with kind := .load [{ dst := .s 3, lo := 0, n := 32 }] }) |>.take 1 })
theorem wit_lone : lone loaded (fun _ a => (match a.kind with | .load [{ dst := .s _, .. }] => true | _ => false) && loneMem loaded 0x8000 a && decide ((dieAt loaded 0).pend = []) && (tblFind (dieAt loaded 0).remote (lineOf 0x8000)).isNone && (tblFind (coreAt loaded 0).l1 (lineOf 0x8000)).isNone) = true
    ∧ lone spadLone (fun _ a => (match a.kind with | .load [{ dst := .s _, .. }] => true | _ => false) && loneSpad spadLone a) = true
    ∧ lone (modWave spadStored 0 (fun v => { v with accs := v.accs.take 1 })) (fun _ a => (match a.kind with | .store d => decide (d.length = a.bytes.length) | _ => false) && decide (a.stage = 0) && loneSpad spadStored a && decide ((a.bytes.map (·.at_)).Nodup)) = true
    ∧ lone stored (fun v a => (match a.kind with | .store d => decide (d.length = a.bytes.length) | _ => false) && decide (a.stage = 0) && loneMem stored 0x8000 a && decide (homeDie 0x8000 = dieOf v.core) && decide (homeDie (0x8000 + a.bytes.length - 1) = dieOf v.core)) = true
    ∧ wIf staged (fun v => match v.accs with | [a] => decide (a.stage = 1) && loneMem staged 0x8000 a && (dieAt staged 0).pend.all (·.home) | _ => false) = true
    ∧ lone atomicked (fun _ a => (match a.kind with | .atomic _ _ _ [{ dst := .s _, .. }] => true | _ => false) && loneMem atomicked 0x8000 a && decide ((dieAt atomicked 0).pend = []) && decide (a.scope < 4)) = true := by decide +kernel
def remoted : State := modDie base 0 (fun d => { d with remote := [(lineOf 0x1000000000, { key := 0, bytes := List.replicate 64 7 })] })
theorem wit_remoteByte : ownByte [] (dev 0x1000000000) = none ∧ tblFind (coreAt remoted 0).l1 (lineOf 0x1000000000) = none ∧ pendByte remoted 0 0x1000000000 0 = none ∧ homeDie 0x1000000000 ≠ 0 ∧ (remoteByte remoted 0 0x1000000000 0).isSome = true := by decide +kernel
def cached : State := modCore base 0 (fun c => { c with l1 := [(lineOf 0x8000, { key := 0, bytes := List.replicate 64 7 })] })
def pending : State := modDie base 0 (fun d => { d with pend := [{ id := 0, wave := 0, acc := 0, cells := [(0x1000000000, 5, 0)] }] })
def mine : List Acc := (waveAt stored 0).elim [] (·.accs)
def mineGran := ((mine.headD { kind := .align }).bytes.headD (dev 0)).gran
theorem wit_byteSource : (ownByte mine { dev 0x8000 with gran := mineGran }).isSome = true ∧ ownByte [] (dev 0x8000) = none ∧ (tblFind (coreAt cached 0).l1 (lineOf 0x8000)).any (fun l => decide (l.key = 0)) = true
    ∧ tblFind (coreAt staged 0).l1 (lineOf 0x8000) = none ∧ (pendByte pending 0 0x1000000000 0).isSome = true ∧ pendByte base 0 0x8000 0 = none ∧ homeDie 0x8000 = 0 ∧ homeDie 0x1000000000 ≠ 0 ∧ remoteByte base 0 0x1000000000 0 = none
    ∧ 0x8000 ∉ base.unspec ∧ tblFind base.lineKey (lineOf 0x8000) = none := by decide +kernel
theorem wit_atomicValues : (32 = 32 ∨ 32 = 64) ∧ (2 ^ 32 - 1 < 2 ^ 32) ∧ (0 : Nat) < 2 ^ 64 ∧ (1 : Nat) ≠ 0 := by decide +kernel
theorem wit_atomicHome : 0x8038 / 64 = (0x8038 + 8 - 1) / 64 ∧ lineOf 0x8038 ∉ base.poison ∧ (∀ q < 8, inDevice (0x8038 + q) = true ∧ 0x8038 + q ∉ base.unspec) ∧ tblFind base.lineKey (lineOf 0x8038) = none ∧ (dev 0x8038).attr.key = 0 ∧ (atomicNew 2 64 0 1 0).isSome = true ∧ inDevice 0x8040 = true := by decide +kernel
def tiled : State := modCore mapped 0 (fun c => { c with tiles := [(0, { size := 8192 })] })
theorem wit_spadStore : (tblFind mapped.cohorts 0).any (fun co => (tblFind co.spad 0).isSome) = true ∧ (tblFind (coreAt tiled 0).tiles 0).isSome = true ∧ (Place.spad 0 0 1 ≠ Place.spad 0 0 0) := by decide +kernel
def pk : MEM := { d := 4, a := 9, b := 110, c := 15 }
def stmF : MEM := { d := 4, a := 1, b := 110, c := 64 }
theorem wit_queueForms : Meets 1 ([(mapped, .vpack pk, fun e s => ok? (checkSpad s e.v .store (e.rdS pk.a + pk.off).toNat (streamSpan e pk))), (memS [(9, 4096)], .vpack pk, fun e s => !(ok? (checkSpad s e.v .store (e.rdS pk.a + pk.off).toNat (streamSpan e pk)))),
    (modWave mapped 0 (fun v => { v with kernel := { v.kernel with spad := 8192 } }), .stm stmF, fun e _ => (stmElems e stmF).all (stmOk e stmF)), (mapped, .discard { mem 0 110 with d := 0 }, fun e s => ok? (checkReqs e s true .store [{ va := (e.rdS 1 + e.rdS 110 + 0).toNat, kind := .discard }])),
    (base, .align {}, fun e _ => decide (e.v.failed = [])), (base, .fence { c := 19 }, fun e _ => decide (e.v.failed = [])), (stored, .fence { c := 19 }, fun e _ => decide (e.v.failed = []))].map (fun t => ({ t.1 with cur := some (0, 1) }, t.2))) := issuing_each (by decide +kernel)
def peerFailed : State := memS [(1, 0x8000)] |> fun s => modWave s 0 (fun v => { v with failed := [{ order := 0, timeout := false, addr := 0x9000, rank := 3, fault := 2 }, { order := 1, timeout := true, addr := 0x9008, rank := 3, fault := 0 }] })
def gatedFailed : State := { peerFailed with cohorts := [(0, { gates := [(0, { expect := 2 })] })] }
def atGate (e : Env) (s : State) : Bool := decide (e.v.failed ≠ []) && !e.v.isResponder && decide ((tblGet ({} : Gate) (tblGet ({} : Cohort) s.cohorts e.v.cohort).gates 0).expect ≠ 0)
def someFailed (e : Env) (_ : State) : Bool := decide (e.v.failed ≠ [])
theorem wit_failedPeer : Meets 1 ([(peerFailed, .align {}, someFailed), (peerFailed, .fence { c := 18 }, someFailed), (peerFailed, .endThread {}, fun e _ => decide (e.v.failed ≠ []) && decide (e.v.subs.map (·.1) = [e.x])), (peerFailed, .sst (mem 114 110), someFailed), (peerFailed, .vst (mem 82 116), someFailed),
    (gatedFailed, .garr {}, atGate), (gatedFailed, .gsync {}, atGate)]) := issuing_each (by decide +kernel)
def onLine (f : MEM) (e : Env) (s : State) : Bool := match checkReqs e s true .load [{ va := (e.rdS f.a + e.rdS f.b + f.lit.getD f.off).toNat, kind := .poll }] with
  | .ok [a] => a.bytes.length == 1 && a.bytes.all (fun b => decide (b.at_ = .dev 0x8000))
  | _ => false
def pinned (ctx quota : Nat) : State := modCtx { mapped with pins := [(0x8000 / 64, { ctx := ctx, part := 0 })] } 0 (fun c => { c with t := { c.t with pinQuota := quota } })
def quota (q : Nat) : State := modCtx mapped 0 (fun c => { c with t := { c.t with pinQuota := q } })
def pinF : MEM := mem 0 110
def pinTurn (s : State) : Bool := (tblFind s.pins 512).isNone && decide (pinCount s 0 ≠ (ctxAt s 0).t.pinQuota)
/-- Partition 0 of die 0 has no way. -/
def masked : State := modDie (quota 4) 0 (fun d => { d with partition := [(0, 0)] })
theorem wit_pin : Meets 1 ([(pinned 0 4, .pin pinF, fun e s => onLine pinF e s && (tblFind s.pins 512).any (fun r => decide (r.ctx = e.v.ctx))), (pinned 1 4, .pin pinF, fun e s => onLine pinF e s && (tblFind s.pins 512).any (fun r => decide (r.ctx ≠ e.v.ctx))),
    (quota 0, .pin pinF, fun e s => onLine pinF e s && (tblFind s.pins 512).isNone && decide (pinCount s e.v.ctx = (ctxAt s e.v.ctx).t.pinQuota)), (quota 4, .pin pinF, fun e s => onLine pinF e s && pinTurn s && decide ((pinnedWays s 512).length < 12) && decide (pinWays s 0 512 ≠ [])), (masked, .pin pinF, fun e s => onLine pinF e s && pinTurn s),
    (pinned 0 4, .unpin pinF, fun e s => onLine pinF e s && (tblFind s.pins 512).any (fun r => decide (r.ctx = e.v.ctx))), (pinned 1 4, .unpin pinF, fun e s => onLine pinF e s && (tblFind s.pins 512).all (fun r => decide (r.ctx ≠ e.v.ctx))), (quota 4, .unpin pinF, fun e s => onLine pinF e s && (tblFind s.pins 512).isNone),
    (mapped, .prefetch { pinF with d := 1 }, free)]) := issuing_each (by decide +kernel)
/-- The other case of the last two: no way of the partition, and the home cache does not hold the line. -/
theorem wit_pin_noWay (h : homeHolds masked 512 = false) : pinWays masked 0 512 = [] := by
  have h1 : pinnedWays masked 512 = [] := rfl
  have h2 : ∀ i < 16, bitAt (wayMask masked (homeDie (64 * 512)) 0) i = false := by decide +kernel
  simp [pinWays, h, h1]
  exact fun i hi => h2 i hi
def wtF (fn : Nat) : RRR := { d := 3, a := 1, b := 2, c := 112, fn := fn }
def waitSeen (f : RRR) (e : Env) (s : State) : State := served e s (waitvOf f e).flat [(waitvOf f e).req]
def waits (f : RRR) (meets : Bool) (e : Env) (s : State) : Bool := match waitvAcc e s (waitvOf f e) with
  | .ok acc => decide ((e.rdS f.a).toNat % 8 = 0) && acc.bytes.all (fun b => !b.at_.isAway) && waitvReady e (waitSeen f e s) acc && decide (meets = (f.fn.testBit 0 == decide (waitvValue e (waitSeen f e s) acc = (e.rdS f.b).toNat % 2 ^ 64))) && decide (s.dies = [])
  | .error _ => false
theorem wit_waitv : Meets 1 ([(memS [(1, 0x8001)], .waitv (wtF 1), fun e _ => decide ((e.rdS 1).toNat % 8 ≠ 0)), (mapped, .waitv (wtF 1), waits (wtF 1) true), (mapped, .waitv (wtF 0), waits (wtF 0) false), (memS [(1, 0x8000), (2, 1)], .waitv (wtF 0), waits (wtF 0) true)]) := issuing_each (by decide +kernel)
def cx : MEM := { d := 95, a := 1, b := 110, c := 96 }
def slotIs (c : Nat → Bool) (e : Env) (s : State) : Bool := match checkReqs e s true .atomic [{ va := (e.rdS 1 + e.rdS 110 + 0).toNat, n := 8, kind := .slot (e.dstS cx.d) }] with
  | .ok [a] => let acc := { a with ord := 1, scope := 4, issue := e.v.nextAcc, id := e.v.nextAcc }
    decide ((e.rdS 1).toNat % 8 = 0) && a.bytes.all (fun b => !b.at_.isPeer) && atomicReady acc e.v.accs && !(acqWaits s 0 acc) && decide (s.dies = []) && decide (lineOf 0x8007 = lineOf 0x8000) && (tblFind s.lineKey (lineOf 0x8000)).isNone && c (leNat (homeBytes s 0 0x8000 0 8))
  | _ => false
def slotHolds (b : Byte) : State := { mapped with mem := memApply mapped.mem [(0x8000, b)] }
theorem wit_callx : Meets 1 ([(memS [(1, 0x8004)], .callx cx, fun e _ => decide ((e.rdS 1).toNat % 8 ≠ 0)), (mapped, .callx cx, slotIs (· == 0)), (slotHolds 1, .callx cx, slotIs (· == 1)), (slotHolds 0x40, .callx cx, slotIs (· == 0x40))]) := issuing_each (by decide +kernel)

/-- The wave with scalars, tokens and tensor record 0: four elements of 8 bytes, flat from 0x8000, in scratchpad from 0. -/
def en (l : List (Nat × Word)) (toks : Tbl Token) : State := modWave (memS l) 0 (fun v => { v with toks := toks, recs := [(0, [0x8000, 0x300000000, 4, 0, 0, 0, 0, 0])] })
def full (pay : EPay) (s : State) : State := { s with eng := (List.range 64).map (fun k => (k, { wave := 0, pay := pay })) }
def room (e : Env) (s : State) : Bool := decide (sectQueue s e.core e.v.sect < 64)
def copies (f : EN) (e : Env) (s : State) (bad : Bool) : Bool := match e.tensorRec (e.recNo (f.a % 16)) with
  | some r => decide (bad = ((List.range r.total).any (fun n => (spadPlaces s e.v (r.saddr (e.rdS f.c).toNat n) r.esz).isNone) || (List.range r.total).any (fun n => !(r.clipped n) && !(canonical (r.gaddr (e.rdS f.b) n) && canonical ((r.gaddr (e.rdS f.b) n + r.esz - 1) % 2 ^ 64)))))
  | none => false
def tcF : EN := { a := 0, b := 1, c := 2 }
def kwF : EN := { ncons := 2, ka := 1, kb := 2 }
theorem wit_tokens : Meets 1 ([(en [(1, 63)] [], .trec { a := 1, b := 0 }, fun e _ => decide ((e.rdS 1).toNat % 64 ≠ 0)), (en [(1, 64)] [], .trec { a := 1, b := 0 }, fun e s => decide ((e.rdS 1).toNat % 64 = 0) && ok? (checkReqs e s false .load [{ va := (e.rdS 1).toNat, n := 64, kind := .load [{ dst := .tensor (e.recNo 0), lo := 0, n := 512 }] }])),
    (en [] [], .tcopy { tcF with a := 1 }, fun e _ => (e.tensorRec (e.recNo 1)).isNone), (en [] [], .tcopy tcF, fun e s => copies tcF e s false && room e s), (full .kjoin (en [] []), .tcopy tcF, fun e s => copies tcF e s false && !(room e s)), (en [(2, 4096)] [], .tcopy tcF, fun e s => copies tcF e s true),
    (en [(1, 0x00FFFFFFFFFF8000)] [], .tcopy tcF, fun e s => copies tcF e s true),
    (en [] [], .kjoin { produce := true, kout := 3, ncons := 1, ka := 1 }, room), (full .kjoin (en [] []), .kjoin { produce := true, kout := 3, ncons := 1, ka := 1 }, fun e s => !(room e s)),
    (en [] [], .kwait kwF, fun e _ => (consumed e kwF).all (fun k => decide (e.v.tok k = .done))), (en [] [(2, .failed 0x8000 1)], .kwait kwF, fun e _ => (firstFailed e.v (consumed e kwF)).isSome && (consumed e kwF).all (fun k => (e.v.tok k).settled)),
    (en [] [(1, .pending none)], .kwait kwF, fun e _ => (consumed e kwF).any (fun k => !(e.v.tok k).settled))]) := issuing_each (by decide +kernel)
theorem wit_engineIssued : (waveAt base 0).isSome = true ∧ ((waveAt base 0).bind (fun v => tblFind v.subs 1)).isSome = true ∧ syncOp (.tcopy tcF) = false := by decide +kernel
def gated (g : Gate) (wph : Nat) : State := { modWave (memS [(1, 32767), (2, 32768)]) 0 (fun v => { v with wph := [(0, wph)] }) with cohorts := [(0, { gates := [(0, g)] })] }
def gateIn (e : Env) (s : State) : Gate := tblGet ({} : Gate) (tblGet ({} : Cohort) s.cohorts e.v.cohort).gates 0
def goneBy (e : Env) (s : State) : Bool := decide ((gateIn e s).phase ≠ tblGet 0 e.v.wph 0) && decide (((gateIn e s).phase + 65536 - tblGet 0 e.v.wph 0) % 65536 < 32768)
def badGate (e : Env) (s : State) : Bool := e.v.isResponder || decide ((gateIn e s).expect = 0)
def goesGate (e : Env) (s : State) : Bool := !(badGate e s) && decide (e.v.failed = [])
def g2 : Gate := { expect := 2 }
def onCohort (f : Wave → Wave) (s : State) : State := modWave s 0 f
theorem wit_gates : Meets 1 ([(gated g2 0, .gset { a := 0, b := 1 }, fun e _ => decide ((e.rdS 1).toNat = 32767) && !e.v.isResponder), (gated g2 0, .gset { a := 0, b := 113 }, fun e _ => decide ((e.rdS 113).toNat = 1)), (gated g2 0, .gset { a := 0, b := 2 }, fun e _ => decide (32767 < (e.rdS 2).toNat)), (gated g2 0, .gset { a := 0, b := 112 }, fun e _ => decide ((e.rdS 112).toNat < 1)),
    (gated {} 0, .garr {}, badGate), (modWave (gated g2 0) 0 (fun v => { v with origin := .responder 1 0 }), .garr {}, badGate), (gated g2 0, .garr {}, fun e s => goesGate e s && relCohort e.v.accs), (modWave (gated g2 0) 0 (fun v => { v with accs := [{ kind := .store [1], bytes := [dev 0x8000] }] }), .garr {}, fun e s => goesGate e s && !(relCohort e.v.accs)),
    (gated g2 0, .garr { ncons := 1, ka := 1 }, fun e s => goesGate e s && room e s), (modWave (gated g2 0) 0 (fun v => { v with origin := .responder 1 0 }), .gwait {}, fun e _ => e.v.isResponder),
    (gated { g2 with phase := 1 } 0, .gwait {}, fun e s => !e.v.isResponder && goneBy e s && !(gateIn e s).err), (gated { g2 with phase := 0 } 65535, .gwait {}, fun e s => goneBy e s && !(gateIn e s).err), (gated { g2 with phase := 1, err := true } 0, .gwait {}, fun e s => goneBy e s && (gateIn e s).err), (gated g2 0, .gwait {}, fun e s => !e.v.isResponder && !(goneBy e s)),
    (gated {} 0, .gsync {}, badGate), (modWave (gated g2 0) 0 (fun v => { v with accs := [{ kind := .store [1], bytes := [dev 0x8000] }] }), .gsync {}, fun e s => goesGate e s && !(relCohort e.v.accs)),
    (gated { g2 with count := 1 } 0, .gsync {}, fun e s => goesGate e s && relCohort e.v.accs && goneBy e (gateArrive s e.v.cohort 0 false) && !(gateIn e (gateArrive s e.v.cohort 0 false)).err), (gated g2 0, .gsync {}, fun e s => goesGate e s && relCohort e.v.accs && !(goneBy e (gateArrive s e.v.cohort 0 false)))]) := issuing_each (by decide +kernel)
theorem wit_arrive : (1 : Nat) + 1 = ({ g2 with count := 1 } : Gate).expect ∧ (0 : Nat) + 1 ≠ g2.expect := by decide +kernel
theorem wit_yield : Meets 1 ([(gated g2 0, .yield { a := 0, c := 112 }, fun e _ => e.v.unsplit && !e.v.isResponder), (responder, .yield { a := 0, c := 112 }, fun e _ => e.v.unsplit && e.v.isResponder), (responder, .yield { a := 1, ncons := 1, ka := 1, c := 112 }, fun e _ => e.v.unsplit)]) := issuing_each (by decide +kernel)
theorem wit_yield_split : Meets 3 ([(splitWave (rec1 .run .wait) (some fallHere) 0x4018, .yield { a := 0, c := 112 }, fun e _ => !e.v.unsplit)]) := issuing_each (by decide +kernel)
def yielded (k : Nat) : State := modWave (gated { g2 with phase := 1 } 0) 0 (fun v => { v with yield_ := some { kind := k, toks := [1], cont := 0x4010 } })
theorem wit_yieldResume : waveIf (yielded 1) (fun _ _ => true) ∨ ((waveAt (yielded 1) 0).any (fun v => v.yield_.any (fun y => yieldOver (yielded 1) v y && (yieldTrap (yielded 1) v y).isNone) && !v.stopped) = true ∧ (waveAt (yielded 0) 0).any (fun v => v.yield_.any (fun y => yieldOver (yielded 0) v y && (yieldTrap (yielded 0) v y).isNone)) = true
    ∧ (ctxAt (yielded 0) 0).dbgWord.getLsbD 4 = false ∧ (ctxAt (yielded 0) 0).dbgWord.getLsbD 5 = false) := by right; decide +kernel
def mxs (l : List (Nat × Word)) : State := en l []
def open_ (e : Env) (s : State) : Bool := e.v.kernel.mtx && !(claimed s e.core e.w) && decide (mxQueue s e.core e.v.sect < 64)
def shut (e : Env) (s : State) : Bool := e.v.kernel.mtx && (claimed s e.core e.w || decide (64 ≤ mxQueue s e.core e.v.sect))
def other (s : State) : State := { s with waves := s.waves ++ [(1, { bun := { claim := true } })] }
def noMtx : State := modWave (mxs []) 0 (fun v => { v with kernel := { v.kernel with mtx := false } })
def rank16 (s : State) : State := modCore s 0 (fun c => { c with mx := { c.mx with rank := [(0, (16, false))] } })
def mlF : EN := { a := 0, b := 0, c := 1 }
def mlatIn (e : Env) (s : State) : Bool := mlatOk mlF.a (e.rdS mlF.c).toNat (tblGet (0, false) (coreAt s e.core).mx.rank 0).1 (e.fmtReg (bits (e.rdS mlF.c).toNat 9 3))
def mmF : EN := { a := 128, b := 0, c := 1 }
def mmaIn (e : Env) : Bool := let b := fmtBlock (e.rdS mmF.c).toNat; blockOk b (e.fmtReg b.afmt) (e.fmtReg b.bfmt) 2
theorem wit_matrix : Meets 1 ([(mxs [(1, 0xFFFFFF)], .fset { a := 7, b := 1 }, fun e _ => decide ((e.rdS 1).toNat < 2 ^ 24)), (mxs [(1, 0x1000000)], .fset { a := 7, b := 1 }, fun e _ => decide (2 ^ 24 ≤ (e.rdS 1).toNat)),
    (mxs [], .mclr {}, open_), (other (mxs []), .mclr {}, shut), (full (.mx { k := 2 }) (mxs []), .mclr {}, shut), (mxs [], .mbld { b := 0, c := 1 }, open_), (mxs [], .mbld { a := 4, b := 0, c := 1 }, open_), (other (mxs []), .mbld { b := 0, c := 1 }, shut),
    (mxs [(1, 16)], .jld { b := 0, c := 1 }, fun e s => open_ e s && decide ((e.rdS 1).toNat = 16)), (mxs [(1, 512)], .jld { b := 0, c := 1 }, fun e s => open_ e s && decide ((e.rdS 1).toNat = 512)), (other (mxs [(1, 16)]), .jld { b := 0, c := 1 }, shut), (mxs [(1, 15)], .jld { b := 0, c := 1 }, fun e _ => e.v.kernel.mtx && decide ((e.rdS 1).toNat < 16)), (mxs [(1, 528)], .jld { b := 0, c := 1 }, fun e _ => e.v.kernel.mtx && decide (512 < (e.rdS 1).toNat)), (mxs [(1, 24)], .jld { b := 0, c := 1 }, fun e _ => e.v.kernel.mtx && decide ((e.rdS 1).toNat % 16 ≠ 0)),
    (mxs [(1, 11)], .mst { b := 0, c := 1 }, fun e s => open_ e s && decide (mstTy (e.rdS 1).toNat (e.fmtReg (bits (e.rdS 1).toNat 4 3)) = some .f32) && (List.range 64).all (fun _ => (spadPlaces s e.v 0 64).isSome)), (other (mxs [(1, 11)]), .mst { b := 0, c := 1 }, shut),
    (mxs [(1, 288)], .mlat mlF, fun e s => e.v.kernel.mtx && !(mlatIn e s)), (rank16 (mxs [(1, 288)]), .mlat mlF, fun e s => open_ e s && mlatIn e s && (mlatSpans { k := 4, ctl := mlF.a, r := (e.tensorRec 0).getD {}, c := e.rdS 1, rank := 16 }).all (fun y => (spadPlaces s e.v y.1 y.2).isSome)),
    (mxs [], .mma mmF, fun e _ => e.v.kernel.mtx && !(mmaIn e)), (mxs [(1, 9792)], .mma mmF, fun e s => open_ e s && mmaIn e && (mmaSpans { k := 1, ctl := 128, c := e.rdS 1 }).all (fun y => (spadPlaces s e.v y.1 y.2).isSome)),
    (mxs [(1, 9792)], .mma { mmF with a := 0 }, fun e s => open_ e s && mmaIn e && (mmaSpans { k := 1, ctl := 0, r := (e.tensorRec 0).getD {}, c := e.rdS 1 }).all (fun y => (spadPlaces s e.v y.1 y.2).isSome)), (mxs [(1, 9792)], .mma { mmF with a := 64, b := 0 }, fun e s => open_ e s && mmaIn e)] ++
    ([.mbld { b := 1, c := 1 }, .mst { b := 1, c := 1 }, .mlat { b := 1, c := 1 }, .jld { b := 1, c := 1 }] : List Instr).map (fun i => (mxs [], i, fun e _ => e.v.kernel.mtx && (e.tensorRec (e.recNo 1)).isNone)) ++
    ([.mbld { b := 0, c := 1 }, .mma { b := 0, c := 1 }, .mclr {}, .mst { b := 0, c := 1 }, .mlat { b := 0, c := 1 }, .jld { b := 0, c := 1 }] : List Instr).map (fun i => (noMtx, i, fun e _ => !e.v.kernel.mtx))) := issuing_each (by decide +kernel)

def tdesc (off len core : Nat) : Word := BitVec.ofNat 64 (off + core % 4 * 2 ^ 19 + 2 ^ 21 + len * 2 ^ 32)
def tiles (l : List (Nat × Word)) (ring : Tbl KeyEntry) : State := modCore (memS l) 0 (fun c => { c with tiles := [(0, { size := 8192 })], keyring := ring })
def trF : EN := { a := 3, b := 1, c := 2 }
def descOk (e : Env) : Bool := tregOk e.v.core (e.rdS 2).toNat
def inTile (e : Env) (s : State) : Bool := let d := (e.rdS 2).toNat; inArea s e.core e.v.ctx (bits d 0 19, 256 * bits d 32 16)
def res (st : KSt) : KeyEntry := { key := 5, st := st, off := 0, len := 0 }
def tmF : EN := { a := 3, b := 1, c := 2 }
def moveBad (e : Env) : Bool := let d := (e.rdS 2).toNat; decide (bits d 19 1 ≠ 0 ∨ bits d 29 35 ≠ 0 ∨ bits d 0 8 ≠ 0 ∨ 255 < (e.rdS 1).toNat ∨ 319 < bits d 20 9 ∨ bits d 20 9 = e.v.core)
def found (e : Env) (s : State) : Option (Nat × KeyEntry) := (liveKeys s e.core e.v.ctx).find? (fun y => y.2.held && y.2.matchesKey (e.rdS 1) (e.rdS 2))
theorem wit_tiles : Meets 1 ([(tiles [(2, 1)] [], .treg trF, fun e _ => !(descOk e)), (tiles [(2, tdesc 8192 1 0)] [], .treg trF, fun e s => descOk e && !(inTile e s)), (tiles [(2, tdesc 7936 1 0)] [], .treg trF, fun e s => descOk e && inTile e s && e.v.relPackage e.v.nextAcc e.now), (tiles [(2, tdesc 0 32 0)] [], .treg trF, fun e s => descOk e && inTile e s),
    (modWave (tiles [(2, tdesc 0 1 0)] []) 0 (fun v => { v with nextAcc := 1, accs := [{ kind := .store [1], bytes := [dev 0x8000] }] }), .treg trF, fun e s => descOk e && inTile e s && !(e.v.relPackage e.v.nextAcc e.now)),
    (tiles [(1, 256)] [], .tdrop { a := 3, b := 1, c := 0 }, fun e _ => decide (255 < (e.rdS 1).toNat)), (tiles [(1, 255)] [(255, res .resident)], .tdrop { a := 3, b := 1, c := 0 }, fun e s => decide ((e.rdS 1).toNat ≤ 255) && (keyAt s e.core 255).any (fun y => decide (y.ctx = e.v.ctx))), (tiles [] [], .tdrop { a := 3, b := 1, c := 2 }, fun e s => (keyAt s e.core 0).isNone),
    (tiles [(1, 5), (2, 255)] [(0, res .lent), (1, res .resident)], .tfind { a := 4, b := 1, c := 2 }, fun e s => decide ((found e s).map (·.1) = some 1)), (tiles [(1, 6), (2, 255)] [(0, res .resident)], .tfind { a := 4, b := 1, c := 2 }, fun e s => (found e s).isNone),
    (tiles [(2, 0)] [], .tmove tmF, fun e _ => moveBad e), (tiles [(2, BitVec.ofNat 64 (320 * 2 ^ 20))] [], .tmove tmF, fun e _ => moveBad e), (full .kjoin (tiles [(2, BitVec.ofNat 64 (319 * 2 ^ 20))] []), .tmove tmF, fun e s => !(moveBad e) && decide (64 ≤ sectQueue s e.core e.v.sect)), (tiles [(1, 255), (2, BitVec.ofNat 64 (319 * 2 ^ 20))] [], .tmove tmF, fun e s => !(moveBad e) && room e s)]) := issuing_each (by decide +kernel)
def ring256 : Tbl KeyEntry := (List.range 256).map (fun i => (i, { res .resident with off := i }))
theorem wit_register : keyFull (tiles [] ring256) 0 0 = true ∧ keyFull (tiles [] [(0, res .resident)]) 0 0 = false ∧ keyOverlap (tiles [] [(0, res .resident)]) 0 0 (0, 256) = true ∧ keyOverlap (tiles [] [(0, res .resident)]) 0 0 (256, 256) = false ∧ (res .resident).mig = none := by decide +kernel
def slotS (c : Option CSlot) (s : State) : State := modCore s 0 (fun k => { k with slots := match c with | some y => [(5, y)] | none => [] })
def soF : EN := { a := 5, b := 8, c := 5 }
def badHdr (e : Env) (s : State) : Bool := decide ((e.rdS 11).toNat % 8 ≠ 0) || !(canonical (e.rdS 11).toNat) || (slotOf s e.core e.v.ctx 5).any (fun c => !c.done) || (decide (bits soF.c 4 2 = 3) && !(ctxAt s e.v.ctx).t.inDomain)
theorem wit_census : Meets 1 ([(memS [(11, 0x4004)], .solicit soF, badHdr), (slotS (some {}) (memS [(11, 0x4000)]), .solicit soF, badHdr), (memS [(11, 0x4000)], .solicit soF, fun e s => !(badHdr e s) && decide (e.v.failed = [])), (base, .answer { a := 1 }, fun e _ => !e.v.isResponder),
    (responder, .answer { a := 1 }, fun e _ => e.v.isResponder && e.v.unsplit && decide (e.v.failed = [])), (mapped, .cwait { a := 4, b := 5 }, fun e s => (slotOf s e.core e.v.ctx 5).isNone), (slotS (some { done := true }) mapped, .cwait { a := 4, b := 5 }, fun e s => (slotOf s e.core e.v.ctx 5).any (·.done)),
    (slotS (some {}) mapped, .cwait { a := 4, b := 5 }, fun e s => (slotOf s e.core e.v.ctx 5).any (fun c => !c.done))]) := issuing_each (by decide +kernel)
def ofCard (r : Option (Nat × Nat × Nat)) : State := { modWave base 0 (fun v => { v with origin := .card 4 0 }) with cards := [(4, { range := r })] }
def rangeIn (e : Env) (s : State) : Option (Nat × Nat × Nat) := match e.v.origin with | .card k _ => (tblFind s.cards k).bind (·.range) | _ => none
def qb (core ch : Nat) : Word := BitVec.ofNat 64 (ch + 256 * core)
def bindNo (f : EN) (e : Env) (s : State) : Bool :=
  let y := (e.rdS f.b).toNat
  let p := physCore s (bits y 8 9)
  decide (bits y 3 5 ≠ 0 ∨ bits y 17 47 ≠ 0 ∨ 319 < bits y 8 9) || (chanHolders s p (bits y 0 3)).any (fun c => decide (c ≠ e.v.ctx)) || (decide (f.c = 0) && (decide (p ≠ e.core) || chanRead s p (bits y 0 3) e.w))
def qF (c : Nat) : EN := { a := 1, b := if c = 2 then 110 else 1, c := c }
theorem wit_rangesPorts : Meets 1 ([(base, .rnext { a := 10 }, fun e s => (rangeIn e s).isNone), (ofCard (some (0, 5, 5)), .rnext { a := 10 }, fun e s => (rangeIn e s).any (fun r => decide (r.1 < r.2.1))), (ofCard (some (5, 5, 5)), .rnext { a := 10 }, fun e s => (rangeIn e s).any (fun r => decide ¬(r.1 < r.2.1))),
    (memS [(1, qb 320 0)], .qbind (qF 1), bindNo (qF 1)), (memS [(1, qb 1 7)], .qbind (qF 0), bindNo (qF 0)), (memS [(1, qb 319 7)], .qbind (qF 1), fun e s => !(bindNo (qF 1) e s)), (memS [(1, qb 0 7)], .qbind (qF 0), fun e s => !(bindNo (qF 0) e s)), (bound true, .qbind (qF 2), free)]) := issuing_each (by decide +kernel)
def poF : EN := { a := 3, b := 1 }
def postIn (e : Env) (s : State) : Bool := decide ((e.rdS 1).toNat % 128 = 0) && decide (e.v.failed = []) && ok? (checkReqs e s true .load [{ va := (e.rdS 1).toNat, n := 128, kind := .load [] }])
def poAway (trap : Bool) (e : Env) (s : State) : Bool := postIn e s && postReady s e.v e.v.nextAcc s.clock && (match checkReqs e s true .load [{ va := (e.rdS 1).toNat, n := 128, kind := .load [] }] with
  | .ok l => (match winWait e s (e.rdS 1).toNat (l.map (·.bytes)).flatten with | some (.hold _) => !trap | some (.trap _ _) => trap | _ => false)
  | .error _ => false)
def crRoom (e : Env) (s : State) : Bool := decide (sectQueue (collRead e (served e s true [{ va := (e.rdS 1).toNat, n := 64 }]) { kind := .load [] }).1 e.core e.v.sect < 64)
def crWaits (e : Env) (s : State) : Bool := match checkReqs e s true .load [{ va := (e.rdS 1).toNat, n := 64, kind := .load [] }] with
  | .ok l => !(collReads e s { l.headD { kind := .load [] } with issue := e.v.nextAcc, id := e.v.nextAcc })
  | .error _ => false
def crIn (e : Env) (s : State) (ready bad : Bool) : Bool := match checkReqs e s true .load [{ va := (e.rdS 1).toNat, n := 64, kind := .load [] }] with
  | .ok l => let a := { l.headD { kind := .load [] } with issue := e.v.nextAcc, id := e.v.nextAcc }
    let y := collRead e (served e s true [{ va := (e.rdS 1).toNat, n := 64 }]) a
    decide ((e.rdS 1).toNat % 8 = 0) && decide (ready = collReads e s a) && (winWait e s (e.rdS 1).toNat a.bytes).isNone && decide (bad = collBad (leNat y.2) (collOf (e.rdS 1) (leNat y.2)) s.net.rank)
  | .error _ => false
def descBytes (n ty : Byte) : List Byte := (List.replicate 16 0 ++ [n, 0, 0, 0, ty, 0, 0, 0, 1]) ++ List.replicate 39 0
/-- A descriptor in the host window, which 0x40000000 maps to: the answer of the host, or none yet. -/
def collAt (r : List WinRead) : State := { (memS [(1, 0x40000000)]) with net := { rank := some 0, reads := r }, mem := memApply mapped.mem [(0x3008, 0x2F), (0x300E, 0x0C)] }
def crAway (trap : Bool) (e : Env) (s : State) : Bool := match checkReqs e s true .load [{ va := (e.rdS 1).toNat, n := 64, kind := .load [] }] with
  | .ok l => let a := { l.headD { kind := .load [] } with issue := e.v.nextAcc, id := e.v.nextAcc }
    collReads e s a && (match winWait e s (e.rdS 1).toNat a.bytes with | some (.hold _) => !trap | some (.trap _ _) => trap | _ => false)
  | .error _ => false
def coll (n ty : Byte) : State := collAt [{ who := .sub 0 1, pa := 0xC000000000000, n := 64, bytes := some (descBytes n ty) }]
def vl : MEM := { d := 0, a := 9, b := 1, c := 64 }
def dstAway : State := memS [(1, 0x8000), (9, 0x200000)]
def vlIn (e : Env) (s : State) : Bool := !e.v.isResponder && decide ((tblGet ({} : Gate) (tblGet ({} : Cohort) s.cohorts e.v.cohort).gates 0).expect ≠ 0)
theorem wit_cards : Meets 1 ([(memS [(1, 0x8040)], .post poF, fun e _ => decide ((e.rdS 1).toNat % 128 ≠ 0)), (mapped, .post poF, fun e s => postIn e s && postReady s e.v e.v.nextAcc s.clock), (modWave mapped 0 (fun v => { v with nextAcc := 1, accs := [{ kind := .store [1], bytes := [dev 0x9000] }] }), .post poF, fun e s => postIn e s && !(postReady s e.v e.v.nextAcc s.clock)),
    (collAt [], .creduce { a := 1 }, crAway false), (collAt [{ who := .sub 0 1, pa := 0xC000000000000, n := 64, bad := some 0 }], .creduce { a := 1 }, crAway true),
    (collAt [], .post poF, poAway false), (collAt [{ who := .sub 0 1, pa := 0xC000000000000, n := 128, bad := some 0 }], .post poF, poAway true),
    (memS [(1, 0x8004)], .creduce { a := 1 }, fun e _ => decide ((e.rdS 1).toNat % 8 ≠ 0)), (coll 0 3, .creduce { a := 1 }, fun e s => crIn e s true true), (coll 1 2, .creduce { a := 1 }, fun e s => crIn e s true true), (coll 1 3, .creduce { a := 1 }, fun e s => crIn e s true false && crRoom e s), (full .kjoin (coll 1 3), .creduce { a := 1 }, fun e s => crIn e s true false && !(crRoom e s)),
    (modWave mapped 0 (fun v => { v with nextAcc := 1, accs := [{ kind := .load [], ord := 1 }] }), .creduce { a := 1 }, fun e s => crWaits e s),
    (base, .vlds vl, fun e s => !(vlIn e s)), (two (memS [(1, 0x8000), (9, 4)]), .vlds vl, fun e s => vlIn e s && ok? (vldsCheck vl e s (maskLanes e.mask))), (two dstAway, .vlds vl, fun e s => vlIn e s && !(ctxAt s e.v.ctx).t.mirrored && !(ok? (vldsCheck vl e s (maskLanes e.mask))))]) := issuing_each (by decide +kernel)
theorem wit_postDo : leNat ([1] : List Byte) % 256 ≠ 2 ∧ leNat ([2] : List Byte) % 256 = 2 ∧ (ctxAt base 0).t.postQueue ≤ (ctxAt base 0).posts.length ∧ (ctxAt (modCtx base 0 (fun c => { c with t := { c.t with postQueue := 1 } })) 0).posts.length < 1 ∧ (tblFind base.ctxs 0).isSome = true := by decide +kernel
/-- A cohort of one wave on core 0 in its MIGRATE handler, its piece moved to core 1. -/
def moving (mtx : Bool) (there : Tbl KeyEntry) (s1 : Word) (tiles1 : Tbl SpadAlloc) : State :=
  let s := modWave (memS [(1, s1)]) 0 (fun v => { v with handler := some { mask := BitVec.allOnes 32, migrate := true }, kernel := { v.kernel with mtx := mtx } })
  modCore s 1 (fun c => { c with keyring := there, tiles := tiles1 })
def piece : KeyEntry := { off := 0, len := 15, owner := 0xFFFFFFFE, mig := some (0, 0) }
def rmF : RRR := { d := 3, a := 112, b := 1 }
def coreBad (e : Env) : Bool := let b := (e.rdS 1).toNat; decide ((e.rdS 112).toNat ≠ e.v.core ∨ 319 < b ∨ b = 0 ∨ b / 80 ≠ 0)
def hereOf (e : Env) (s : State) : List Wave := (tblVals s.waves).filter (fun y => decide (y.cohort = e.v.cohort) && !y.isResponder && decide (y.core = 0))
def rm (bound moved room : Bool) (e : Env) (s : State) : Bool := match tblFind s.cohorts e.v.cohort with
  | some c => e.v.handler.any (·.migrate) && !(coreBad e) && decide (bound = remapBound s c (hereOf e s)) && decide (moved = piecesMoved s e.v.cohort 0 1) && decide (room = remapFree s e.v.cohort e.v.ctx 0 1) && decide (s.waves.map (·.1) = [e.w])
  | none => false
theorem wit_remap : Meets 1 ([(base, .remap rmF, fun e _ => e.v.handler.all (fun h => !h.migrate)), (moving false [] 80 [], .remap rmF, fun e _ => coreBad e), (moving false [] 0 [], .remap rmF, fun e _ => coreBad e), (moving true [] 1 [], .remap rmF, rm true true true), (modCore (moving false [] 1 []) 0 (fun c => { c with keyring := [(0, { piece with st := .resident })] }), .remap rmF, rm false false true),
    (moving false [(0, { piece with st := .resident })] 1 [(0, {})], .remap rmF, rm false true false), (moving false [(0, { piece with st := .resident })] 1 [], .remap rmF, rm false true true), (moving false [] 79 [], .remap rmF, fun e _ => !(coreBad e))]) := issuing_each (by decide +kernel)

theorem wit_xmodeB : Meets 1 (([fun f => .xmodeB f, fun f => .xmodeBMx { f with fn := 1 }] : List (RRR → Instr)).flatMap (fun i => [(modWave base 0 (fun v => { v with owed := [.s 1] }), i {}, fun e _ => writesPending e.v),
    (wv (fun v => { v with conv := false }), i {}, fun e _ => !(writesPending e.v) && !e.v.conv), (wv (fun v => { v with conv := true }), i {}, fun e s => !(writesPending e.v) && e.v.kernel.conv && e.v.conv && decide (e.v.subs.length = 1) && e.v.kernel.mtx && !(claimed s e.core e.w) && decide (s.waves.map (·.1) = [e.w]) && e.v.handler.isNone),
    ({ base with waves := base.waves ++ [(1, {})] }, i {}, fun e s => !(writesPending e.v) && s.waves.any (fun y => decide (y.1 ≠ e.w) && decide (physCore s y.2.core = e.core) && decide (y.2.sect = e.v.sect)))])) := issuing_each (by decide +kernel)
theorem wit_xmodeB_claimed : Meets 1 [(other (wv (fun v => { v with sect := 1 })), .xmodeBMx { fn := 1 }, fun e s => !(writesPending e.v) && claimed s e.core e.w)] := issuing_each (by decide +kernel)
def converting : State := wv (fun v => { v with phase := .converting 16 })
theorem wit_convert : (waveAt converting 0).any (fun v => decide (v.phase = .converting 16)) = true := by decide +kernel
theorem wit_slotForms : ([.xmodeS { fn := 2 }, .xmov b2, .xbcast b2, .loop { d := 255, b := 255, a := 1, len := 1 }, .lexit { a := 1 }] : List Instr).all (fun _ => chosenIf base 1 (fun v _ => !v.kernel.w16)) = true := by decide +kernel

/-- A bundle thread at 0x4008 before its first bundle. -/
def bun : State := { State.reset.withFetchWord 64 0xE00E000000000002 with cur := some (0, 1) }
def bunS (f : Wave → Wave) : State := modWave bun 0 f
def readyIf (s : State) (c : Wave → Sub → Bool) : Bool :=
  match waveAt s 0 with
  | none => false
  | some v => match tblFind v.subs rootSub with
    | none => false
    | some u => decide (s.cur = some (0, rootSub)) && decide (v.phase = .bundle) && mayBundle v && decide (u.hold = .run) && decide (v.bun.faults = []) && !(bunWaits s v) && c v u
theorem ready_of {s : State} {c : Wave → Sub → Bool} (h : readyIf s c = true) : ∃ v u, BundleReady s 0 v u.pc ∧ c v u = true := by
  unfold readyIf at h
  split at h
  · cases h
  · rename_i v hv
    split at h
    · cases h
    · rename_i u hu
      simp only [Bool.and_eq_true, Bool.not_eq_true', decide_eq_true_eq] at h
      obtain ⟨⟨⟨⟨⟨⟨h1, h2⟩, h3⟩, h4⟩, h5⟩, h6⟩, h7⟩ := h
      exact ⟨v, u, { cur := h1, wave := hv, phase := h2, may := h3, stands := ⟨u, hu, h4, rfl⟩, noFault := h5, noWait := h6 }, h7⟩
def loneIf (s : State) (sl : Slot) (i : Instr) (c : Wave → Env → Bool) : Bool :=
  readyIf s (fun v u => decide (check { slot := some sl, alloc := v.kernel.alloc } i = none) && decide (v.bun.regions = []) && decide (v.bun.pure_ = false) && !(pastEnd v u.pc (u.pc + 16)) && !(seqCarries u.pc 16 && goesOn i (aloneEnv s 0 v u.pc sl i)) && (popsOf (some sl) i).all (portBound s v false) && (pushesOf (some sl) i).all (portBound s v true)
    && (popsOf (some sl) i).all (popReady s v) && (pushesOf (some sl) i).all (pushReady s v) && decide ((pushesOf (some sl) i).length = (nub (pushesOf (some sl) i)).length) && c v (aloneEnv s 0 v u.pc sl i))
theorem lone_of {s : State} {sl : Slot} {i : Instr} {c : Wave → Env → Bool} (h : loneIf s sl i c = true) : ∃ v p, AloneReady s 0 v p sl i ∧ c v (aloneEnv s 0 v p sl i) = true := by
  obtain ⟨v, u, hr, h⟩ := ready_of h
  rw [Bool.and_eq_true] at h
  obtain ⟨h, h11⟩ := h
  simp only [Bool.and_eq_true, Bool.not_eq_true', decide_eq_true_eq] at h
  obtain ⟨⟨⟨⟨⟨⟨⟨⟨⟨h1, h2⟩, h3⟩, h4⟩, h5⟩, h6⟩, h7⟩, h8⟩, h9⟩, h10⟩ := h
  exact ⟨v, u.pc, { hr with legal := h1, impure := ⟨h2, h3⟩, inBody := h4, noCarry := h5, popBound := h6, pushBound := h7, popReady := h8, pushReady := h9, single := h10 }, h11⟩
theorem lone_each {l : List (State × Slot × Instr × (Wave → Env → Bool))} (h : l.all (fun t => loneIf t.1 t.2.1 t.2.2.1 t.2.2.2) = true) :
    ∀ t ∈ l, ∃ v p, AloneReady t.1 0 v p t.2.1 t.2.2.1 ∧ t.2.2.2 v (aloneEnv t.1 0 v p t.2.1 t.2.2.1) = true := fun t ht => lone_of (List.all_eq_true.mp h t ht)
def level : LoopLevel := { start := 0x4008, remain := 3, len := 4 }
def looped (n : Nat) (l : List (Nat × Word)) : State := bunS (fun v => { v with s := l, bun := { v.bun with loops := (List.range n).map (fun k => { level with len := 4 + k }) } })
def lpF (n : Nat) : LP := { d := 255, a := 1, b := 255, len := n }
def loopIn (n : Nat) (v : Wave) (e : Env) : Bool := decide (n ≤ 2048) && decide (v.bun.loops.length < 6) && v.bun.loops.head?.all (fun l => decide ((e.p + 16 + BitVec.ofNat 64 (8 * n)).toNat ≤ l.stop.toNat))
theorem wit_alone : ∀ t ∈ ([(bun, .sc, .xmodeS { fn := 2 }, fun v _ => decide (v.bun.loops = [])), (looped 1 [], .sc, .xmodeS { fn := 2 }, fun v _ => decide (v.bun.loops ≠ []) && issues v.bun.loops (.xmodeS { fn := 2 })),
    (looped 0 [], .sc, .loop (lpF 2048), fun v e => loopIn 2048 v e && decide ((e.rdS 1).toNat % 2 ^ 32 = 0)), (looped 5 [(1, 7)], .sc, .loop (lpF 2), fun v e => loopIn 2 v e && decide ((e.rdS 1).toNat % 2 ^ 32 ≠ 0)),
    (looped 2 [(1, 1)], .sc, .lexit { a := 1 }, fun v e => decide (v.bun.loops ≠ []) && issues v.bun.loops (.lexit { a := 1 }) && decide (e.rdS 1 ≠ 0)), (bun, .ln, .xmov { d := 3, a := 4, b := 31 }, fun v _ => decide (v.bun.loops = [])), (bun, .xq, .xbcast { d := 3, a := 4, b := 31 }, fun v _ => decide (v.bun.loops = []))] : List (State × Slot × Instr × (Wave → Env → Bool))),
    ∃ v p, AloneReady t.1 0 v p t.2.1 t.2.2.1 ∧ t.2.2.2 v (aloneEnv t.1 0 v p t.2.1 t.2.2.1) = true := lone_each (by decide +kernel)

/-- The bundle of one word in the `sc` slot. -/
def scWords (w : Word) : List Word := [encodeHeader (aloneHeader .sc), w]
def saddW (d a b : Word) : Word := 0x000E000000018000 ||| (d <<< 41) ||| (a <<< 33) ||| (b <<< 25)
def decoded (s : State) (words : List Word) (c : Except (DecFault × Nat) (BundleHeader × List BundleOp) → Wave → Sub → Bool) : Bool := readyIf s (fun v u => c (decodeBundle v.kernel.alloc (words ++ List.replicate (headerOf (words.headD 0)).len 0)) v u)
def bwords (v : Wave) (ops : List BundleOp) : List BWord := (ops.zipIdx.map (fun o => ({ pos := o.2 + 1, slot := o.1.slot, clusters := o.1.clusters, i := o.1.i } : BWord))).filter (fun o => issues v.bun.loops o.i)
def bundleIn (s : State) (c : Wave → Word → Word → BundleHeader → List BWord → Bool) (r : Except (DecFault × Nat) (BundleHeader × List BundleOp)) (v : Wave) (u : Sub) : Bool := match r with
  | .ok (h, ops) => let ws := bwords v ops
    let next := u.pc + BitVec.ofNat 64 (8 * h.len)
    decide (h.latch = 0) && decide (v.bun.regions = []) && !v.bun.pure_ && !(pastEnd v u.pc next) && (claimBad v h u.pc).isNone && ws.all (fun o => (wordBad s v u.pc o).isNone) && decide (seqCarries u.pc (8 * h.len) = false) && c v u.pc next h ws
  | .error _ => false
def boundBun (write : Bool) : State := bunS (fun v => { v with ports := [(1, { core := 0, chan := 2, write := write })] })
def mmWords : List Word := encodeHeader (aloneHeader .mx) :: encodeIn true (.mma { a := 128, c := 1, last := true, first := true })
/-- The core issued another `mma` in this cycle. -/
def lateMma : State := modCore bun 0 (fun c => { c with mx := { c.mx with lastMma := some 0 } })
theorem wit_bundleIssue : decoded bun (scWords (saddW 105 1 2)) (fun r _ _ => match r with | .error (.illegal _, _) => true | _ => false) = true ∧ decoded bun (scWords 0x068E000000018000) (fun r _ _ => match r with | .error (.illegal _, _) => true | _ => false) = true
    ∧ decoded bun (scWords 0xE00E000000018001) (fun r _ _ => match r with | .error (.mode _, _) => true | _ => false) = true
    ∧ decoded (boundBun false) (scWords (saddW 3 97 2)) (bundleIn (boundBun false) (fun v _ _ _ ws => !((bunPops ws).all (popReady (boundBun false) v)))) = true
    ∧ decoded lateMma mmWords (bundleIn lateMma (fun v _ _ _ ws => (bunPops ws).all (popReady lateMma v) && (bunPushes ws).all (pushReady lateMma v) && (hazardOf lateMma v ws).isSome)) = true
    ∧ decoded bun (scWords (saddW 3 1 2)) (bundleIn bun (fun v p next h ws => (bunPops ws).all (popReady bun v) && (bunPushes ws).all (pushReady bun v) && (hazardOf bun v ws).isNone && (replayTraps bun v ws).isNone && (match runWords bun (bunEnv bun 0 v h p next (popAll bun v (bunPops ws)) (pushAll bun v (bunPushes ws))) { s := bun } ws with
        | .done b => (match b.go with | .br t => decide (-(2 ^ 56 : Int) ≤ t) && decide (t < 2 ^ 56) | _ => true)
        | _ => false))) = true := by decide +kernel

-- Witnesses of the statements about the device's own steps.

def at_ (t : Nat) (s : State) : State := { s with clock := t }
def bunSt (f : BunSt → BunSt) (p : Phase) : State := bunS (fun v => { v with bun := f v.bun, phase := p })
def inFlight (d : Dst) : State := at_ 1 (bunSt (fun b => { b with flights := [{ wr := [⟨d, 5⟩], issue := 0, due := 3 }] }) .bundle)
def region1 : State := bunSt (fun b => { b with regions := [{ stop := some 0 }] }) .bundle
def phased (p : Phase) : State := bunSt id p
theorem wit_thread : ([.s 1, .v 247 31] : List Dst).all (fun d => wIf (inFlight d) (fun v => !v.ended && (v.bun.flights[0]?).any (fun f => landOk (inFlight d) v 0 f && decide (f.src = none) && decide (f.st = []) && decide (f.exact = false)))) = true
    ∧ wIf region1 (fun v => mayCommit region1 v && v.bun.regions.all (fun r => decide (regionPeers v r = []))) = true ∧ wIf (phased (.ret 0x4018)) (drainClear (phased (.ret 0x4018)) 0) = true ∧ wIf (phased .ending) (drainClear (phased .ending) 0) = true
    ∧ wIf (phased (.drain { cause := .hazard } false)) (fun v => threadDrained (phased (.drain { cause := .hazard } false)) 0 v && !v.stopped && decide (v.bun.regions = []) && decide (v.bun.faults = []) && !v.isResponder && v.handler.isNone && decide (v.tvec ≠ 0) && (tblFind v.subs rootSub).isSome) = true := by decide +kernel
def heldFor (h : List (Cause × Word × Word)) (a : Option (Cause × Word × Word × Nat)) : State := wv (fun v => { v with held := h, async := a })
def agedNow : State := modCore (wv (·.modSub 1 (fun u => { u with aged := 1023 }))) 0 (fun c => { c with sects := [(0, { issuedAt := some 0, last := some (5, 1) })] })
def late : State := at_ 200000 (wv (fun v => { v with preemptAt := some 0 }))
theorem wit_boundary : wIf (heldFor [(.preempt, 0, 0)] none) (fun v => mayTake (heldFor [(.preempt, 0, 0)] none) v && decide (v.phase = .simt) && decide (v.tvec ≠ 0) && !v.isResponder) = true ∧ wIf (heldFor [] (some (.watchdog, 0, 9, 1))) (mayTake (heldFor [] (some (.watchdog, 0, 9, 1)))) = true
    ∧ wIf agedNow (fun v => (tblFind v.subs 1).any (fun u => decide (u.aged = 1023)) && decide ((tblGet {} (coreAt agedNow 0).sects v.sect).issuedAt = some agedNow.clock) && decide ((tblGet {} (coreAt agedNow 0).sects v.sect).last ≠ some (0, 1))) = true
    ∧ wIf late (fun v => decide ((ctxAt late v.ctx).t.preemptLimit ≤ late.clock) && v.parkReq.isNone && !v.stopped && !v.ended && v.held.isEmpty) = true := by decide +kernel
def holding (h : Hold) (s : State) : State := modWave s 0 (·.modSub 1 (fun u => { u with hold := h }))
def waitQ (w : Bool) (since : Nat) : WaitV := { addr := 0x8000, eq := true, cmp := 0, dst := [.s 3], next := 0x4010, woken := w, since := since }
def waitDone (s : State) (q : WaitV) : Bool := wIf s (fun v => v.awake 1 && (tblFind v.subs 1).any (fun u => match waitvAcc (waitEnv s 0 1 v u) s q with
  | .ok acc => let s1 := served (waitEnv s 0 1 v u) s q.flat [q.req]
    acc.bytes.all (fun b => !b.at_.isAway) && waitvReady (waitEnv s 0 1 v u) s1 acc && decide (waitvValue (waitEnv s 0 1 v u) s1 acc = q.cmp) && decide (s.dies = [])
  | .error _ => false))
def kw (t : Token) : State := wv (fun v => { v with toks := [(1, t)] })
def gapped : State := at_ 2000000 (holding (.gap 3) (modCtx base 0 (fun c => { c with gaps := [(3, { since := 0, wave := some (0, 1), trap := { cause := .page } })] })))
theorem wit_waits : (tblFind (holding (.callx 0x8000 true 0 true) base).waves 0).isSome = true ∧ (0 : Nat) + 1024 ≤ (at_ 1024 (holding (.callx 0x8000 false 0 false) base)).clock
    ∧ waitDone (holding (.waitv (waitQ true 0)) mapped) (waitQ true 0) = true ∧ waitDone (at_ 1024 (holding (.waitv (waitQ false 0)) mapped)) (waitQ false 0) = true
    ∧ wIf (kw .done) (fun v => v.awake 1 && decide (v.tok 1 = .done)) = true ∧ wIf (kw (.failed 0x8000 1)) (fun v => (firstFailed v [1]).isSome && (v.tok 1).settled && decide (v.tvec ≠ 0) && v.handler.isNone && !(v.trapLater 1)) = true
    ∧ wIf (gated { g2 with phase := 1 } 0) (fun v => v.awake 1 && gateOver (gated { g2 with phase := 1 } 0) v 0 && !(gateOf (gated { g2 with phase := 1 } 0) v.cohort 0).err) = true ∧ wIf (gated { g2 with phase := 1, err := true } 0) (fun v => !(v.trapLater 1) && gateOver (gated { g2 with phase := 1, err := true } 0) v 0 && (gateOf (gated { g2 with phase := 1, err := true } 0) v.cohort 0).err) = true
    ∧ (tblFind (ctxAt gapped 0).gaps 3).any (fun g => decide (g.since + (ctxAt gapped 0).t.gapLimit ≤ gapped.clock) && g.eng.isNone && decide (g.wave = some (0, 1))) = true ∧ wIf gapped (fun v => decide (v.holdOf 1 = .gap 3) && !(v.trapLater 1) && !v.stopped && decide (v.phase = .simt)) = true := by decide +kernel
/-- What engine instruction k of wave 0 meets. -/
def engIf (s : State) (k : Nat) (c : EngOp → Wave → Bool) : Bool := (tblFind s.eng k).any (fun o => (waveAt s o.wave).any (c o))
def kjoined : State := ran (.kjoin { produce := true, kout := 3, ncons := 1, ka := 1 }) (en [] [])
/-- The copy of record 0 begun. -/
def copying (st : Bool) (g : Word) (clip : Bool) (s : State) : State := { s with eng := [(0, { wave := 0, begun := true, pay := .tcopy st { gbase := g, clip := clip, ndim := 0, esz := 8, e := [4, 0, 0, 0], gs := [0, 0, 0], ss := [0, 0, 0] } 0 0 [] [] })] }
def chunkIf (s : State) (c : TRec → EngOp → Wave → Except MemFault (List AByte) → Bool) : Bool := engIf s 0 (fun o v => match o.pay with
  | .tcopy st r goff soff moved wait => o.begun && o.gap.isNone && o.fault.isNone && !(stalled s 0 o) && chunkOk st r goff 0 && decide (0 ∉ moved) && decide (0 ∉ wait) && (spadPlaces s v (r.saddr soff 0) (chunkSpan (r.gaddr goff 0) r.esz 0).2).isSome
    && c r o v (chunkLook s (physCore s v.core) o st r goff 0)
  | _ => false)
def readOnly : State := { mapped with mem := memApply mapped.mem [(0x3000, 0x07)] }
def mxBegun (k : Nat) : State := { mapped with eng := [(0, { wave := 0, begun := true, pay := .mx { k := k } })] }
def vldsBegun (moved : List Nat) : State := { mapped with eng := [(0, { wave := 0, pay := .vlds 0 [([dev 0x8000], [.spad 0 0 0])] moved [] })] }
def mxIn (s : State) (k : Nat) : Bool := engIf s 0 (fun o v => match o.pay with | .mx m => decide (m.k = k) && !m.landed && m.inp.isNone && o.begun && o.fault.isNone && o.gap.isNone && !(stalled s 0 o) && mxTurn s 0 o m && !(bitAt m.ctl 2) && m.wait.isEmpty && !(mxStalled s 0 o m) && !(loadWaits s o v m) | _ => false)
def queuedIn (l : List ChanEntry) : State := modCore base 0 (fun c => { c with chans := [(2, l)] })
theorem wit_engines : engIf kjoined 0 (fun o v => !o.begun && o.gap.isNone && mayBegin kjoined o && o.depsDone && inOrder kjoined 0 o && !(stalled kjoined 0 o) && decide (o.pay = .kjoin) && decide (o.out = some 3) && decide (v.tok 3 = .pending none) && !v.ended && decide (kjoined.eng.map (·.1) = [0])) = true
    ∧ chunkIf (copying false 0x8000 true mapped) (fun r _ _ _ => r.clipped 0) = true ∧ chunkIf (copying false 0x8000 false mapped) (fun r _ _ l => !(r.clipped 0) && (match l with | .ok fb => fb.all (fun b => !b.at_.isAway) && !(engWaits mapped 0 false fb) | .error _ => false)) = true
    ∧ chunkIf (copying true 0x8000 false readOnly) (fun r _ _ l => !(r.clipped 0) && (match l with | .ok _ => false | .error m => decide (m.cause = .protection))) = true
    ∧ chunkIf (copying false 0x40000000 false mapped) (fun r _ _ l => !(r.clipped 0) && (match l with | .ok _ => false | .error m => m.isGap)) = true
    ∧ engIf (vldsBegun []) 0 (fun o v => (match o.pay with | .vlds _ l moved _ => (vldsUnits l).any (fun i => !(decide (i ∈ moved)) && !(engWaits (vldsBegun []) (dieOf v.core) false (vldsUnit l i).1)) | _ => false) && mayBegin (vldsBegun []) o && !(stalled (vldsBegun []) 0 o)) = true
    ∧ engIf (vldsBegun [0]) 0 (fun o _ => (match o.pay with | .vlds _ l moved wait => (vldsUnits l).all (fun i => decide (i ∈ moved)) && wait.isEmpty | _ => false) && mayBegin (vldsBegun [0]) o && arriveReady (vldsBegun [0]) o) = true
    ∧ ([0, 1, 2, 3, 4, 5] : List Nat).all (fun k => mxIn (mxBegun k) k) = true
    ∧ engIf { base with eng := [(0, { wave := 0, pay := .mx { k := 2, landed := true } })] } 0 (fun o _ => match o.pay with | .mx m => m.landed | _ => false) = true
    ∧ ((chanEntries (queuedIn [{ id := 4, val := some 7 }]) 0 2).find? (fun e => decide (e.id = 4))).any (fun x => x.val.isSome && !x.arrived) = true := by decide +kernel

/-- An engine instruction about to begin, its own condition met. -/
def begins (p : EPay) : Bool :=
  let s : State := { mapped with eng := [(0, { wave := 0, pay := p })] }
  engIf s 0 (fun o v => !o.begun && o.gap.isNone && mayBegin s o && o.depsDone && inOrder s 0 o && !(stalled s 0 o) && (match p with
    | .garr _ | .arr _ _ => arriveReady s o
    | .mx m => mxMayBegin s 0 o m
    | .reg _ _ _ _ => v.relPackage o.mark o.issue
    | .post bs _ => postReady s v o.mark o.issue && !(winOpen s (.eng 0) bs)
    | .coll d => !(engWaits s (dieOf (logicalOf s o.core)) false (bytesOf (collMaps s o d).1))
    | _ => true))
theorem wit_complete : ([.tcopy false {} 0 0 [] [], .kjoin, .garr 0, .arr 0 0, .move {}, .mx { k := 1 }, .coll {}, .reg 0 0 0 [], .post [] []] : List EPay).all begins = true
    ∧ engIf { mapped with eng := [(0, { wave := 0, deps := [{ tok := 1, ops := [], bad := some (0, 0, 0) }], pay := .vlds 0 [] [] [] })] } 0 (fun o _ => o.badDep.isSome) = true := by decide +kernel

/-- A move of entry 0 of core 0 to core 1 at one of its steps, the two keyrings as given. -/
def moveS (n : Nat) (m : MoveSt) (e : KSt) (there : Tbl KeyEntry) : State :=
  { modCore (tiles [] [(0, { res e with peer := 1 })]) 1 (fun c => { c with tiles := [(0, { size := 8192 })], keyring := there }) with eng := [(0, { wave := 0, begun := true, pay := .move { m with entry := 0, dst := 1, step := n } })] }
def mvIf (s : State) (n : Nat) (c : EngOp → MoveSt → KeyEntry → Bool) : Bool := match moveAt s 0 n with
  | some (o, m) => decide (o.core ≠ physCore s m.dst) && (keyAt s o.core m.entry).any (c o m)
  | none => false
def arr : Tbl KeyEntry := [(0, res .arriving)]
def any3 (_ : EngOp) (_ : MoveSt) (_ : KeyEntry) : Bool := true
/-- The first byte of the moving tile is poisoned. -/
def poisonedMove : State := modCore (moveS 4 { left := [0] } .lent arr) 0 (fun c => { c with tiles := [(0, { size := 8192, poison := [0] })] })
theorem wit_moves : mvIf (moveS 1 {} .lent []) 1 (fun o m e => decide (reserveCode (moveS 1 {} .lent []) o m e = 0)) = true ∧ mvIf (moveS 1 { off := 8192 } .lent []) 1 (fun o m e => decide (reserveCode (moveS 1 { off := 8192 } .lent []) o m e ≠ 0)) = true
    ∧ mvIf (moveS 2 { refuse := 3 } .lent []) 2 (fun _ m _ => decide (m.refuse ≠ 0)) = true ∧ mvIf (moveS 2 {} .lent arr) 2 (fun o m _ => decide (m.refuse = 0) && stampGe (coreAt (moveS 2 {} .lent arr) o.core).hiStamp m.d) = true
    ∧ mvIf (moveS 3 {} .lent arr) 3 (fun _ m _ => (keyAt (moveS 3 {} .lent arr) 1 m.dentry).isSome) = true ∧ mvIf (moveS 4 { left := [] } .lent arr) 4 (fun o m _ => !(keyBusy (moveS 4 { left := [] } .lent arr) o.core m.entry) && decide (m.left = [])) = true
    ∧ mvIf (moveS 4 { left := [0, 3] } .lent arr) 4 (fun o m e => !(keyBusy (moveS 4 { left := [0, 3] } .lent arr) o.core m.entry) && decide (m.left ≠ []) && decide (badChunks (moveS 4 { left := [0, 3] } .lent arr) o m e = []) && e.mig.isNone && (tblFind (coreAt (moveS 4 { left := [0, 3] } .lent arr) 1).tiles o.ctx).isSome) = true
    ∧ mvIf (moveS 5 {} .lent arr) 5 (fun _ m _ => (keyAt (moveS 5 {} .lent arr) 1 m.dentry).isSome) = true ∧ mvIf (moveS 6 {} .lent arr) 6 any3 = true
    ∧ mvIf poisonedMove 4 (fun o m e => !(keyBusy poisonedMove o.core m.entry) && decide (badChunks poisonedMove o m e ≠ [])) = true
    ∧ ([2, 5] : List Nat).all (fun n => mvIf (moveS n {} .lent arr) n (fun o m _ => decide ((moveS n {} .lent arr).eng.map (·.1) = [0]) && decide (m.refuse = 0) && (areaSize (moveS n {} .lent arr) 1 o.ctx).isSome)) = true := by decide +kernel
def withResp (n : Nat) (s : State) : State := modCtx s 0 (fun c => { c with t := { c.t with responders := if n = 0 then [] else [(0, n, 64)] } })
def cens : Census := { so := { stamp := 7, hdr := 0x4000 }, slot := 5, stamped := true, accepted := [0] }
def matched (n : Nat) : State := modCore { withResp n base with mem := memApply base.mem [(0x4000, 0x10), (0x4006, 0x0C), (0x4007, 0x31)], censuses := [cens] } 0 (fun c => { c with keyring := [(0, res .resident)], matches_ := [{ so := { stamp := 7, hdr := 0x4000 }, entry := 0, ansCore := 0 }] })
def answeredAll : State := let s := { slotS (some {}) mapped with censuses := [{ cens with answered := List.range 320 }], solicits := [cens.so] }
  [0, 1, 2, 3].foldl (fun t k => modCore t k (fun c => { c with seen := 1 })) s
def respLate : State := at_ 2000000 responder
def awaited : State := at_ 100000 { base with censuses := [{ cens with peers := [3] }] }
theorem wit_censuses : ({ base with censuses := [{ cens with stamped := false }] } : State).censuses.all (fun c => !c.stamped && !c.gated && decide (c.so.scope < 2) && solicitClear base c) = true
    ∧ (({ base with solicits := [cens.so] } : State).solicits[(coreAt base 319).seen]?).isSome = true ∧ ((coreAt base 319).matches_.filter (fun m => decide (m.so.ctx = 0))).length < 64
    ∧ (coreAt (matched 0) 0).matches_.findIdx? (respNext (matched 0) (logicalOf (matched 0) 0)) = some 0 ∧ respReserve (matched 0) 0 0 = none ∧ (coreAt (matched 1) 0).matches_.findIdx? (respNext (matched 1) (logicalOf (matched 1) 0)) = some 0 ∧ respReserve (matched 1) 0 0 = some (1, 64)
    ∧ headerOpen (matched 1) 0 0x4000 = false ∧ (match readHeader (matched 1) (cardCode (matched 1) 0 0) 0 0x4000 with | .ok hw => !(respHeaderBad (kernelOf 0x4000 hw) 64) | .error _ => false) = true ∧ (respPlace (matched 1) 0 0 1 64).isSome = true
    ∧ wIf respLate (fun v => v.isResponder && !v.ended && !v.stopped && decide (v.started + v.still + respLimit respLate v.ctx v.core ≤ respLate.clock)) = true
    ∧ cens.stamped = true ∧ (0 : Nat) ∈ cens.accepted ∧ 0 ∉ cens.answered ∧ ({ base with censuses := [cens] } : State).cores.all (fun e => e.2.matches_.isEmpty && e.2.defers.isEmpty) = true
    ∧ answeredAll.censuses.all (fun c => censusOver answeredAll c && c.fromPeer.isNone && (slotOf answeredAll (physCore answeredAll c.so.core) c.so.ctx c.slot).isSome) = true
    ∧ awaited.censuses.all (fun c => decide (c.peers ≠ []) && decide (c.since + (ctxAt awaited c.so.ctx).t.peerTimeout ≤ awaited.clock)) = true ∧ (areaSize (tiles [] []) (physCore (tiles [] []) 0) 0).isSome = true := by decide +kernel
/-- A context with one record in its stream at 0x10000 and a kernel header at 0x4000. -/
def stream (l : List Host.Cell) : State := modCtx { base with mem := memApply base.mem ([(0x4000, 0x10), (0x4006, 0x0C), (0x4007, 0x31)] ++ l.map (fun c => (0x10000 + c.1, c.2))) } 0 (fun c => { c with writeIdx := 1, t := { c.t with streamBase := 0x10000, streamSize := 1024, cardPool := 4 } })
def recIf (s : State) (c : Nat → Bool) : Bool := (nextRecord s 0).any (fun b => c (leNat b))
def launchB (id : Byte) : List Host.Cell := [(0, 1), (2, 0x55), (3, 1), (4, id), (9, 0x40), (0x18, 1), (0x1C, 1), (0x1E, 3)]
def jobB : List Host.Cell := [(0, 2), (9, 0x40)]
def rangeB : List Host.Cell := [(0, 3), (9, 0x40), (0x28, 100), (0x30, 1)]
def admits (s : State) : Bool := recIf s (fun x => decide (x % 256 = 1) && !(headerOpen s 0 (recField x 8 8)) && ok? (admitLaunch s x (launchOf x 0 s.order s.clock)))
def cardIf (s : State) (posted : Bool) (c : Nat → Bool) : Bool := (takeCard s 0 posted).any (fun x => c x.1)
def posted (img : List Byte) : State := modCtx (stream []) 0 (fun c => { c with posts := [(3, img)] })
def launched (l : Launch) (f : Ctx → Ctx) : State := modCtx { base with waves := [], launches := [(0, l)] } 0 f
def queuedLaunch : State := let s := stream (launchB 1); { s with waves := [], launches := [(0, match (nextRecord s 0).map (fun b => admitLaunch s (leNat b) (launchOf (leNat b) 0 0 0)) with | some (.ok l) => l | _ => {})] }
def tileCore (s : State) : State := modCore s 4 (fun c => { c with tiles := [(0, { size := 8192 })] })
def cardS (c : Card) : State := tileCore { stream [] with cards := [(7, { c with kernel := { h := 0x4000, codeLen := 16 }, order := 1 })] }
def ranged : State := tileCore { stream [] with cards := [(7, { range := some (0, 100, 1), wave := some 0, core := some 0, kernel := { h := 0x4000, codeLen := 16 } })], order := 9 }
def parking : State := modWave mapped 0 (fun v => { v with parkReq := some (16, false) })
def gone : State := { mapped with waves := [], cohorts := [], parked := [(0, { co := { spad := [(0, { size := 4096 })], waves := [0] }, waves := tblVals parking.waves })] }
theorem wit_records : recIf (stream []) (fun x => decide (x % 256 = 0)) = true ∧ recIf (stream [(0, 4)]) (fun x => decide (3 < x % 256)) = true ∧ admits (stream (launchB 1)) = true ∧ recIf (stream (launchB 0)) (fun x => decide (x % 256 = 1) && !(headerOpen (stream (launchB 0)) 0 (recField x 8 8)) && !(ok? (admitLaunch (stream (launchB 0)) x (launchOf x 0 0 0)))) = true
    ∧ cardIf (stream jobB) false (fun x => decide (x % 256 = 2) && !(headerOpen (stream jobB) 0 (recField x 8 8)) && ok? (admitCard (stream jobB) (jobMalformed x) (cardOf x 0 0 false))) = true ∧ cardIf (stream rangeB) false (fun x => decide (x % 256 = 3) && !(headerOpen (stream rangeB) 0 (recField x 8 8)) && ok? (admitCard (stream rangeB) (rangeMalformed x) (cardOf x 0 0 true))) = true
    ∧ cardIf (stream ((2, 1) :: jobB)) false (fun x => jobMalformed x) = true ∧ cardIf (stream ((2, 1) :: rangeB)) false (fun x => rangeMalformed x) = true ∧ cardIf (posted [2]) true (fun x => decide (x % 256 = 2)) = true := by decide +kernel
theorem wit_completions : (tblFind (launched { left := 0 } id).launches 0).any (fun l => l.status.isNone && decide (l.left = 0) && (launchStores (launched { left := 0 } id) l).isEmpty) = true
    ∧ ((ctxAt (launched { left := 1 } (fun c => { c with faulted := some (0, 1) })) 0).faulted.isSome && launchGone (launched { left := 1 } (fun c => { c with faulted := some (0, 1) })) 0) = true ∧ depsFailed (launched { left := 1, deps := [7] } (fun c => { c with hist := [(7, 0x85, 0)], recent := [7] })) { left := 1, deps := [7], order := 1 } = true := by decide +kernel
theorem wit_placing : (tblFind queuedLaunch.launches 0).any (fun l => l.status.isNone && depsReady queuedLaunch l && !(depsFailed queuedLaunch l) && !l.gang && decide (0 ∈ diesOf l) && (nextOn l 0).isSome && decide (openQuads queuedLaunch l 0 ≠ []) && !(launchAhead queuedLaunch l.ctx l.rank 0) && !(cardAhead queuedLaunch l.ctx l.rank 0)) = true
    ∧ (tblFind (cardS {}).cards 7).any (fun c => c.wave.isNone && c.core.isNone && (chooseCore (cardS {}) c).any (fun core => !(launchAhead (cardS {}) 0 c.rank (dieOf core)) && !(cardAhead (cardS {}) 0 c.rank (dieOf core))) && (freeCardRecord (cardS {}) c.ctx).isSome) = true
    ∧ (tblFind (cardS { tiles := [(5, 256)] }).cards 7).any (fun c => c.tiles.any (fun y => tileGone (cardS { tiles := [(5, 256)] }) c y.1)) = true
    ∧ (tblFind (cardS { core := some 4 }).cards 7).any (fun c => c.wave.isNone && decide (c.core = some 4) && (tilesAway (cardS { core := some 4 }) c 4).isEmpty && c.moving.isEmpty && mayPlace (cardS { core := some 4 }) c.ctx 4 && mtxFree (cardS { core := some 4 }) c.kernel c.ctx 4 && !(quadHeld (cardS { core := some 4 }) (quadOf 4))) = true
    ∧ ranged.cards.all (fun e => !(cardReady ranged e.2 4)) = true ∧ askPick ranged 4 0 = some (0, 7, 100) ∧ (freeCardRecord ranged 0).isSome = true
    ∧ (tblFind ranged.cards 7).any (fun c => decide (cardSects ranged { c with range := some (halve (0, 100, 1)).2, order := ranged.order, core := none, wave := none, pins := [], moving := [] } 4 ≠ [])) = true := by decide +kernel
theorem wit_parks : wIf parking (fun v => v.parkReq.isSome && mayPark parking 0 v) = true ∧ (tblFind gone.parked 0).any (fun p => (tblFind gone.cohorts 0).isNone && quadAgain gone p.co 0 && (planAgain gone p.co (recordSlots gone p.co.ctx (recordAt gone p.co)) [0, 1, 2, 3] 0 (parkedAt p)).isSome) = true := by decide +kernel

theorem wit_thermal : (79 : Nat) < 80 ∧ base.heat.tripped = false ∧ quadTemp base 79 < 95 ∧ 89 < quadTemp { base with temps := [(79, 90)] } 79 ∧ base.heat.power ≠ true := by decide +kernel
def net (n : Net) (f : State → State) : State := f { base with boot := { base.boot with links := [3] }, net := { n with rank := some 0 } }
def ldF : Frame := { port := 3, src := 5, dst := 0, addr := 0x8000, tag := 7, ty := 1 }
def grant (w : Bool) (s : State) : State := { s with host := { s.host with inbound := [(0, { valid := true, r := true, w := w, tag := 7, base := 0x8000, limit := 0x8FFF })] } }
def stF : Frame := { ldF with bytes := [1, 2], ty := 2 }
def tx1 : TxFrame := { ty := 1, fr := { src := 0, dst := 5, seq := 4, addr := 0x8000, tag := 7 } }
def tx2 : TxFrame := { tx1 with ty := 2 }
def domain (s : State) : State := modCtx s 0 (fun c => { c with t := { c.t with inDomain := true, domainTag := 7 } })
def peerAcc : State := at_ 100000 (wv (fun v => { v with accs := [{ kind := .load [], need := 1, bytes := [{ at_ := .peer 0x8000000000000 }] }] }))
def collLate : State := at_ 2000000 { base with eng := [(0, { wave := 0, begun := true, pay := .coll {} })] }
theorem wit_frames : (net {} id).heat.tripped = false ∧ 3 ∈ (net {} id).boot.links ∧ frameOk (net {} id) 1 { ldF with dst := 1 } = false ∧ frameOk (net {} id) 1 { ldF with src := 64 } = false ∧ frameOk (net {} id) 1 { ldF with src := 63 } = true ∧ rxNext (net {} id) 5 = 0
    ∧ ({ ldF with seq := 0 } : Frame).seq < rxNext (net { rxSeq := [(5, 1)] } id) 5 ∧ rxNext (net {} id) 5 < ({ ldF with seq := 1 } : Frame).seq ∧ (net {} id).net.held = []
    ∧ ok? (grantCheck (net {} (grant false)) ldF 8 .load) = true ∧ ok? (grantCheck (net {} (grant true)) stF 2 .store) = true ∧ (net {} (grant true)).dies = [] ∧ ok? (grantCheck (net {} id) ldF 8 .load) = false ∧ ok? (grantCheck (net {} (grant false)) stF 2 .store) = false ∧ ok? (grantCheck (net {} (grant false)) ldF 8 .atomic) = false
    ∧ (txFor (net { tx := [tx1] } id) ldF [1, 2, 3]).isSome = true ∧ (txFor (net { tx := [tx2] } id) ldF [2, 7, 8, 17, 18]).isSome = true ∧ tagCtx (net {} domain) 7 = some 0 ∧ (5 : Nat) ∈ ({ cens with peers := [5] } : Census).peers ∧ cens.so.stamp = ({ ldF with addr := 7 } : Frame).addr
    ∧ ((net { tx := [tx1] } (at_ (Config.resendCycles))).net.tx.find? (fun t => decide (t.fr.dst = 5) && decide (t.fr.seq = 4))).isSome = true ∧ tx1.sent + Config.resendCycles ≤ (at_ Config.resendCycles base).clock
    ∧ accIf peerAcc 0 (fun _ a => decide (0 < a.need) && a.bad.isNone && decide (a.sent + (ctxAt peerAcc 0).t.peerLimit ≤ peerAcc.clock) && a.bytes.any (·.at_.isPeer)) = true
    ∧ engIf collLate 0 (fun o _ => (match o.pay with | .coll d => collGoes collLate 0 o d | _ => false) && decide (o.issue + (ctxAt collLate o.ctx).t.collectiveLimit ≤ collLate.clock)) = true := by decide +kernel
def booting (st : BootState) : State := { base with boot := { base.boot with st := st } }
def fogged : State := at_ 64 { base with fogs := [{ seq := 1, cycle := 0, core := 0, ctx := 0, cause := 0 }] }
theorem wit_bringUp : (booting .train).boot.st = .train ∧ mayTrain (booting .link) hostPort = true ∧ mayTrain (booting .link) 15 = true ∧ mayTrain (booting .failMem) hostPort = true ∧ ((0 : Nat) ≤ base.clock ∧ base.heat.tripped = false)
    ∧ (fogged.fogs[0]?).any (fun f => decide (f.cycle + 64 ≤ fogged.clock) && wIf fogged (fun v => decide (v.ctx = f.ctx) && decide (v.core ∈ f.left) && !v.ended && !v.stopped)) = true ∧ inDevice (64 * 512) = true ∧ (arrayPlace mapped 0 4095).isSome = true ∧ (arrayPlace mapped 0 4096).isNone = true := by decide +kernel
/-- A machine with a session in state READY. -/
def host (f : State → State) : State := f { base with boot := { base.boot with links := [hostPort], session := some 1, st := .ready } }
def pl (l : List Byte) : Payload := { len := l.length, ops := l }
def zeros (n : Nat) : List Byte := List.replicate n 0
def pay (at_ : Nat) (l : List Byte) (n : Nat) : Payload := pl (zeros at_ ++ l ++ zeros (n - at_ - l.length))
def stopRecS : State := host (fun s => modWave s 0 (fun v => { v with stopRec := some {}, stopped := true }))
theorem wit_refused : hostUp (host id) = true ∧ (pl [0]).seq = cmdNext (host id) ∧ (host id).host.queue = [] ∧ cmdBusy (host id) = false ∧ headOk (pl [0]) 8 [] = false ∧ headOk (pay 4 [1] 8) 8 [(4, 4)] = false ∧ headOk (pl (zeros 64)) 64 [] = true ∧ stateOk (booting .train) true = false ∧ stateOk (host (fun s => { s with boot := { s.boot with st := .session } })) false = false ∧ 0x77 ∉ commandCodes := by decide +kernel
theorem wit_held : (pl []).seq < cmdNext (host (fun s => { s with net := { s.net with rxSeq := [(hostRank, 1)] } })) ∧ cmdNext (host id) < ({ pl [] with seq := 1 } : Payload).seq ∧ (pl []).seq = cmdNext (host (fun s => { s with host := { s.host with waiting := some (.save 0 0) } })) ∧ cmdBusy (host (fun s => { s with host := { s.host with waiting := some (.save 0 0) } })) = true ∧ hostUp (host id) = true := by decide +kernel
theorem wit_commands : hostUp (host id) = true ∧ (host id).boot.session.isSome = true ∧ (host id).boot.st = .ready ∧ headOk (pay 0 [1] 8) 8 [(4, 4)] = true ∧ headOk (pl []) 0 [] = true ∧ headOk (pay 8 [1] 16) 16 [(4, 4)] = true ∧ opNat (pay 8 [1] 16) 8 8 ≠ 0 ∧ class0Taken (host id) 0 { root := 0x1000 } = false ∧ inDevice 0x1000 = true ∧ (0x1000 : Nat) % 4096 = 0
    ∧ installed (host id) 0 = true ∧ opNat (pl (zeros 8)) 4 4 < ringSize (ctxAt (host (fun s => modCtx s 0 (fun c => { c with t := { c.t with streamSize := 128 } }))) 0).t ∧ headOk (pl (zeros 64)) 64 [(4, 4)] = true ∧ headOk (pl (zeros 48)) 48 [(4, 4)] = true ∧ opNat (pay 4 [0x3F, 1] 8) 4 2 = 319 ∧ headOk (pay 4 [0x3F, 1] 8) 8 [(6, 2)] = true
    ∧ (tblFind (ctxAt (host (fun s => modCtx s 0 (fun c => { c with gaps := [(0, {})] }))) 0).gaps (opNat (pay 4 [1] 16) 8 8)).isSome = true ∧ opNat (pay 4 [1] 16) 4 1 ≤ 1 ∧ headOk (pay 0 [0xFF, 0x0F] 520) 520 [(2, 6)] = true ∧ opNat (pay 0 [0xFF, 0x0F] 520) 0 2 < 4096 ∧ opNat (pay 0 [1] 8) 0 2 = 1
    ∧ opNat (pay 0 [3, 15] 8) 0 1 ≤ 3 ∧ opNat (pay 0 [3, 15] 8) 1 1 ≤ 15 := by decide +kernel
theorem wit_grants : headOk (pay 2 [15, 0] 40) 40 [(1, 1), (4, 4)] = true ∧ opNat (pay 2 [15, 0] 40) 0 1 = 0 ∧ opNat (pay 2 [15, 0] 40) 2 2 ≤ 15 ∧ grantOk (opNat (pay 24 [0xFF, 0x0F] 40) 8 32) = true ∧ opNat (pay 0 [1, 0, 255] 40) 0 1 = 1 ∧ opNat (pay 0 [1, 0, 255] 40) 2 2 ≤ 255
    ∧ opNat (pay 0 [2, 0, 63, 0, 0, 0, 0, 0, 15] 40) 2 2 ≤ 63 ∧ opNat (pay 0 [2, 0, 63, 0, 0, 0, 0, 0, 15] 40) 8 32 ≤ 15 ∧ opNat (pay 0 [3, 0, 0, 0, 0, 0, 0, 0, 63] 40) 8 32 ≤ 63 ∧ opNat (pay 0 [3, 0, 0, 0, 0, 0, 0, 0, 63] 40) 2 2 = 0 := by decide +kernel
theorem wit_debug : controlOk (opNat (pay 8 [0x3B - 16] 16) 8 8) = true ∧ ((waveAt stopRecS 0).bind (·.stopRec)).isSome = true ∧ targetOk (opNat (pay 4 [0x3F, 1] 16) 4 4) = true ∧ bitAt (opNat (pay 4 [0x3F, 1] 16) 4 4) 15 = false ∧ opNat (pay 4 [0x3F, 1] 16) 8 8 = 0
    ∧ bitAt (opNat (pay 4 [0, 0x80] 16) 4 4) 15 = true ∧ targetOk (opNat (pay 4 [0, 0x80] 16) 4 4) = true ∧ (targetWave stopRecS 0 (opNat (pay 4 [0, 0x80] 16) 4 4)).any (fun t => decide (t.1 = 0) && t.2.stopped && !t.2.stepping) = true
    ∧ resumed stopRecS 0 (opNat (pay 4 [0, 0x80] 16) 4 4) ≠ [] := by decide +kernel
/-- A wave about to attempt its first instruction, the fetch served. -/
def fresh1 : State := { State.reset.withFetchWord 64 0x000E060204000000 with agenda := [] }
theorem wit_step : strayByte fresh1 = none ∧ fresh1.agenda = [] ∧ fresh1.heat.tripped = false ∧ inputRuns fresh1 true = [] ∧ (cmdRun fresh1).isNone = true ∧ (firstRun fresh1 (dueSteps fresh1)).isNone = true ∧ (chosen fresh1 (freeRuns fresh1)).isNone = true ∧ openSects fresh1 = [(0, 0)] ∧ (pickReady fresh1 0 0 (sectReady fresh1 0 0)).isSome = true := by decide +kernel
def fetchIf (s : State) (c : Wave → Sub → Bool) : Bool := wIf s (fun v => (tblFind v.subs 1).any (c v))
theorem wit_attempt : fetchIf fresh1 (fun v u => decide (v.phase ≠ .bundle) && ok? (fetchWord fresh1 v u.pc.toNat u.pc.toNat) && (match fetchWord fresh1 v u.pc.toNat u.pc.toNat with | .ok w0 => !(wordHasLit w0) && ok? (decodeWord { alloc := v.kernel.alloc, w16 := v.kernel.w16 && !v.inHandler } w0 0) | .error _ => false)) = true
    ∧ fetchIf bun (fun v u => decide (v.phase = .bundle) && (match fetchWord bun v u.pc.toNat u.pc.toNat with | .ok w0 => headerOk (headerOf w0) && ok? (fetchWords bun v u.pc.toNat (u.pc.toNat + 8) ((headerOf w0).len - 1)) | .error _ => false)) = true := by decide +kernel
theorem wit_invariant : Memory.wf State.reset.mem = true ∧ ∃ t, step fresh1 = .next t := ⟨by decide, _, by unfold step; rw [wit_step.1]⟩
theorem wit_decodeEncodes : Instr.wfIn {} (.sadd b2) = true ∧ Instr.wfIn { slot := some .sc } (.loop { d := 90, a := 1, b := 255, len := 32767 }) = true ∧ ok? (decodeWord {} 0x000E060204000000 0) = true := by decide +kernel

-- Words written out bit by bit from the manual's encodings (R43 to R60), one or more of each family.

def readsIn (env : DecEnv) (w next : Word) (i : Instr) : Bool := match decodeWord env w next with | .ok j => decide (j = i) | .error _ => false
def reads (w : Word) (i : Instr) : Prop := readsIn {} w 0 i = true
def refuses (w : Word) (f : DecFault) : Bool := match decodeWord {} w 0 with | .ok _ => false | .error g => decide (g = f)
theorem test_decode_scalar : reads 0x000E060204000000 (.sadd { d := 3, a := 1, b := 2 }) ∧ readsIn {} 0x002E060200000000 0x123456789 (.sadd { d := 3, a := 1, b := 0, lit := some 0x123456789 }) = true ∧ reads 0x064E0A01FFFFFFFF (.sli { d := 5, imm := -1 }) ∧ reads 0x080E020406000000 (.sfadd { d := 1, a := 2, b := 3 }) := by unfold reads; decide +kernel
theorem test_decode_control : reads 0x200E01FFFFFFFFFF (.jmp { off := -1 }) ∧ reads 0x20CEBE0000000002 (.call { d := 95, off := 2 }) ∧ reads 0x228E040000020000 (.sread { d := 2, sel := 1 }) ∧ reads 0x21CE000000000000 (.nop {}) ∧ reads 0x230E000000000005 (.trap { imm := 5 }) ∧ reads 0x240E000000000000 (.tret {}) ∧ reads 0x240E000000000001 (.tretPark { fn := 1 }) := by unfold reads; decide +kernel
theorem test_decode_debug : reads 0x244E000000000005 (.mark { imm := 5 }) ∧ reads 0x248E000000000012 (.brk { imm := 0x12 }) := by unfold reads; decide +kernel
theorem test_decode_vector : reads 0x4014060204000000 (.vadd { g := ⟨2, true⟩, d := 3, a := 1, b := 2 }) ∧ reads 0x44CE020406000002 (.vcmp { d := 1, a := 2, b := 3, fn := 2 }) ∧ reads 0x600E060204000B20 (.vfadd { d := 3, a := 1, b := 2, ty := .f32, rnd := .tz }) ∧ reads 0x638E060360000900 (.vcvt { d := 3, a := 1, stype := .f32, ty := .f16 }) ∧ reads 0x860E020000000003 (.brv { d := 1, off := 3 }) := by unfold reads; decide +kernel
theorem test_decode_memory : reads 0x220E0802DCC00008 (.sld { d := 4, a := 1, b := 110, c := 96, off := 8 }) ∧ reads 0x8A0E08020481FFFC (.vld { d := 4, a := 1, b := 2, c := 64, off := -4 }) ∧ reads 0xA20E060404800800 (.vatom { d := 3, a := 2, b := 2, c := 64, atop := 2 }) ∧ reads 0xA40E000000260000 (.fence { c := 19 }) ∧ reads 0xA00E060200800010 (.lds { d := 3, a := 1, c := 64, off := 16 }) := by unfold reads; decide +kernel
theorem test_decode_engine : reads 0xC08E800000000440 (.kwait { ncons := 2, ka := 1, kb := 2 }) ∧ reads 0xC4CF060200000000 (.mclr { produce := true, kout := 3, a := 1 }) ∧ reads 0xCC0E000204000000 (.post { a := 1, b := 2 }) ∧ reads 0xCC4E001400000000 (.rnext { a := 10 }) := by unfold reads; decide +kernel
theorem test_decode_bundle : reads 0xE00E000000000001 (.xmodeBMx { fn := 1 }) ∧ readsIn { slot := some .sc } 0xE00E000000000002 0 (.xmodeS { fn := 2 }) = true ∧ readsIn { slot := some .sc } 0xE20FFE0204000064 0 (.loop { d := 255, a := 1, b := 2, len := 100 }) = true := by unfold reads; decide +kernel
theorem test_decode_refuses : refuses 0x068E000000000000 (.illegal 1) = true ∧ refuses 0x180E000000000000 (.illegal 2) = true := by decide +kernel

-- An ill-formed term for each test of well-formedness, which the test refuses.

theorem smoke_rrr : (.sadd { d := 256 } : Instr).wf = false ∧ (.sadd { fn := 8 } : Instr).wf = false ∧ (.vadd { g := ⟨8, false⟩ } : Instr).wf = false ∧ (.sadd {} : Instr).wf = true := by decide +kernel
theorem smoke_ri : (.sli { imm := 0x200000000 } : Instr).wf = false ∧ (.sli { imm := 1, lit := some 1 } : Instr).wf = false ∧ (.sli { imm := 0xFFFFFFFF } : Instr).wf = true ∧ (Instr.sli { imm := 0x40000000 }).wfIn { slot := some .sc } = false := by decide +kernel
theorem smoke_fields : (.sfcvt { d := 3, a := 1, stype := .f64, sfmt := 8, ty := .f32 } : Instr).wf = false ∧ (.sld { a := 1, b := 110, c := 96, off := 0x10000 } : Instr).wf = false ∧ (.satom { a := 1, c := 96, atop := 32 } : Instr).wf = false ∧ (.satom { a := 1, c := 96, off := 512 } : Instr).wf = false
    ∧ (.jmp { off := 0x10000000000 } : Instr).wf = false ∧ (.sread { sel := 256 } : Instr).wf = false ∧ (.kjoin { ncons := 4, ka := 1 } : Instr).wf = false ∧ (Instr.loop { d := 255, a := 1, b := 255, len := 32768 }).wfIn { slot := some .sc } = false := by decide +kernel
theorem smoke_checks : check { w16 := true } (.treg { a := 3, b := 1, c := 2 }) = some (.illegal 1) ∧ check {} (.lexit { a := 1 }) = some (.mode 9) ∧ check { slot := some .mx } (.sadd b2) = some (.illegal 7) ∧ check {} (.sclz { b1 with lit := some 1 }) = some (.illegal 6) ∧ check {} (.sadd { b2 with g := ⟨1, false⟩ }) = some (.illegal 5)
    ∧ check {} (.sadd { b2 with fn := 1 }) = some (.illegal 3) ∧ check {} (.sadd { b2 with d := 104 }) = some (.illegal 4) ∧ check {} (.sadd { b2 with c := 1 }) = some (.illegal 4) ∧ check {} (.fence { c := 16 }) = some (.illegal 10) := by decide +kernel

-- One step of an instruction, the result worked by hand from its rule.

def after (i : Instr) (s : State) : Wave := (waveAt (ran i s) 0).getD {}
def s12 (a b : Word) : State := wv (withS [(1, a), (2, b)])
theorem test_sadd_wraps : (after (.sadd b2) (s12 0xFFFFFFFFFFFFFFFF 2)).getS 3 = 1 := by decide +kernel
theorem test_sadd_saturates : (after (.sadd { b2 with ty := .i8, sat := true }) (s12 127 1)).getS 3 = 127 := by decide +kernel
theorem test_ssub_extends : (after (.ssub { b2 with ty := .n32 }) (s12 0 1)).getS 3 = 0xFFFFFFFF := by decide +kernel
theorem test_smulh_high : (after (.smulh { b2 with ty := .n64 }) (s12 0x8000000000000000 2)).getS 3 = 1 := by decide +kernel
theorem test_sdiv_corner : (after (.sdiv b2) (s12 0x8000000000000000 0xFFFFFFFFFFFFFFFF)).getS 3 = 0x8000000000000000 ∧ (after (.sdiv b2) (s12 7 0)).flags = flagDZ := by decide +kernel
theorem test_srem_sign : (after (.srem b2) (s12 0xFFFFFFFFFFFFFFF9 2)).getS 3 = 0xFFFFFFFFFFFFFFFF ∧ (after (.srem b2) (s12 7 0)).getS 3 = 7 := by decide +kernel
theorem test_sshl_modulo : (after (.sshl b2) (s12 3 65)).getS 3 = 6 := by decide +kernel
theorem test_ssar_sign : (after (.ssar { b2 with ty := .i32 }) (s12 0x80000000 31)).getS 3 = 0xFFFFFFFFFFFFFFFF := by decide +kernel
theorem test_srot_right : (after (.srot { b2 with ty := .n8 }) (s12 0x81 1)).getS 3 = 0x03 := by decide +kernel
theorem test_sclz_zero : (after (.sclz { b1 with ty := .n16 }) (s12 0 0)).getS 3 = 16 := by decide +kernel
theorem test_scmp_signed : (after (.scmp { b2 with fn := 2 }) (s12 0xFFFFFFFFFFFFFFFF 0)).getS 3 = 1 := by decide +kernel
theorem test_sfadd_ties : (after (.sfadd b2) (s12 0x3FF0000000000000 0x3CA0000000000000)).getS 3 = 0x3FF0000000000000 := by decide +kernel
theorem test_sfcvt_truncates : (after (.sfcvt { d := 3, a := 1, stype := .f64, ty := .i32, rnd := .tz }) (s12 0xBFF8000000000000 0)).getS 3 = 0xFFFFFFFFFFFFFFFF := by decide +kernel
theorem test_sli_literal : (after (.sli { d := 3, lit := some 0x8000000000000001 }) base).getS 3 = 0x8000000000000001 := by decide +kernel
def pcOf (v : Wave) : Word := (tblFind v.subs 1).elim 0 (·.pc)
theorem test_jmp_back : pcOf (after (.jmp { off := -1 }) base) = 0x4000 := by decide +kernel
theorem test_call_links : (after (.call { d := 95, off := 2 }) base).getS 95 = 0x4010 ∧ pcOf (after (.call { d := 95, off := 2 }) base) = 0x4018 := by decide +kernel
theorem test_jmpx_source_is_link : pcOf (after (.jmpx { d := 1, a := 1, fn := 1 }) (s12 0x5000 0)) = 0x5000 ∧ (after (.jmpx { d := 1, a := 1, fn := 1 }) (s12 0x5000 0)).getS 1 = 0x4010 := by decide +kernel
theorem test_swrite_mode : (after (.swrite { a := 1, sel := 8 }) (s12 7 0)).rm = 3 ∧ (after (.swrite { a := 1, sel := 8 }) (s12 7 0)).ftz = true := by decide +kernel
theorem test_trap_enters : (after (.trap { imm := 5 }) base).tpc = 0x4010 ∧ (after (.trap { imm := 5 }) base).tcause = 19 ∧ (after (.trap { imm := 5 }) base).taddr = 0x4008 ∧ (after (.trap { imm := 5 }) base).tinfo = 5 ∧ pcOf (after (.trap { imm := 5 }) base) = 0x4040 := by decide +kernel
theorem test_tret_leaves : (after (.tret {}) inHandler).handler = none ∧ pcOf (after (.tret {}) inHandler) = 0x4010 := by decide +kernel
def lanes (r : Nat) (f : Nat → Nat) (v : Wave) : Wave := (List.range 32).foldl (fun v l => v.setV r l (BitVec.ofNat 32 (f l))) v
def v12 (f g : Nat → Nat) : State := wv (fun v => lanes 1 f (lanes 2 g v))
theorem test_vadd_halves : ((after (.vadd { b2 with ty := .i16, x2 := true }) (v12 (fun _ => 0x0001FFFF) (fun _ => 0x00020001))).getV 3 31) = 0x00030000 := by decide +kernel
theorem test_vshr_modulo : ((after (.vshr { b2 with ty := .n32 }) (v12 (fun _ => 8) (fun _ => 33))).getV 3 0) = 4 := by decide +kernel
theorem test_vadd_guarded : ((after (.vadd { b2 with g := ⟨1, false⟩ }) (wv (fun v => pred 2 (lanes 1 id v)))).getV 3 1) = 1 ∧ ((after (.vadd { b2 with g := ⟨1, false⟩ }) (wv (fun v => pred 2 (lanes 1 id v)))).getV 3 2) = 0 := by decide +kernel
theorem test_vaddc_carry : ((after (.vaddc { b2 with c := 1 }) (v12 (fun _ => 0xFFFFFFFF) (fun _ => 1))).getV 3 5) = 0 ∧ ((after (.vaddc { b2 with c := 1 }) (v12 (fun _ => 0xFFFFFFFF) (fun _ => 1))).getP 1).getLsbD 5 = true := by decide +kernel
theorem test_vfadd_one : ((after (.vfadd { b2 with ty := .f32 }) (v12 (fun _ => 0x3F800000) (fun _ => 0x40000000))).getV 3 9) = 0x40400000 := by decide +kernel
theorem test_vcmp_lanes : (after (.vcmp { d := 1, a := 1, b := 2, fn := 2, ty := .n32 }) (v12 id (fun _ => 3))).getP 1 = 7 := by decide +kernel
theorem test_vred_sum : (after (.vred { d := 3, a := 1, c := 111, ty := .n32 }) (v12 id id)).getS 3 = 496 := by decide +kernel
theorem test_vscan_exclusive : ((after (.vscan { d := 3, a := 1, b := 1, c := 111, ty := .n32 }) (v12 id id)).getV 3 4) = 6 := by decide +kernel
theorem test_vballot_mask : (after (.vballot { d := 3, a := 1, c := 111 }) (wv (pred 0x80000001))).getS 3 = 0x80000001 := by decide +kernel
theorem test_vrfl_lowest : (after (.vrfl { d := 3, a := 1 }) (v12 (· + 5) id)).getS 3 = 5 := by decide +kernel
theorem test_vshfi_up : ((after (.vshfi { d := 3, a := 1, b := 114, c := 111 }) (v12 (· + 100) id)).getV 3 2) = 100 ∧ ((after (.vshfi { d := 3, a := 1, b := 114, c := 111 }) (v12 (· + 100) id)).getV 3 1) = 101 := by decide +kernel
theorem test_member_trap : (after (.vbcast { d := 3, a := 1, b := 112, c := 112 }) base).tcause = 3 := by decide +kernel
theorem test_brv_splits : (after (.brv { d := 1, off := 3 }) (wv (pred 5))).subs.map (fun u => (u.1, u.2.pc, u.2.mask)) = [(2, 0x4010, 0xFFFFFFFA), (3, 0x4020, 5)] := by decide +kernel
theorem test_join_fuses : (waveAt (ran (.join {}) (splitWave (rec1 .run .wait) (some fallHere) 0x4010)) 0).map (fun v => v.subs.map (fun u => (u.1, u.2.pc, u.2.mask))) = some [(1, 0x4018, 0xFFFFFFFF)] := by decide +kernel
theorem test_store_order : (let t := ran (.storePerformed 0 0) (ran (.storePerformed 0 0) (ran (.sst (mem 96 110)) (memS [(1, 0x8000), (4, 0x1122334455667788)]))); (rdByte t 0x8000, rdByte t 0x8007)) = (0x88, 0x11) := by decide +kernel
theorem test_garr_turns : (tblGet ({} : Gate) (tblGet ({} : Cohort) (ran (.garr {}) (gated { g2 with count := 1, phase := 65535 } 0)).cohorts 0).gates 0) = { expect := 2, count := 0, phase := 0 } := by decide +kernel
theorem test_treg_lowest : (after (.treg trF) (tiles [(1, 9), (2, tdesc 0 1 0)] [(0, { res .resident with off := 4 })])).getS 3 = 1 := by decide +kernel
theorem test_tfind_none : (after (.tfind { a := 4, b := 1, c := 2 }) (tiles [(1, 6), (2, 255)] [(0, res .resident)])).getS 4 = 256 := by decide +kernel
theorem test_rnext_last : (after (.rnext { a := 10 }) (ofCard (some (3, 5, 4)))).getS 10 = 3 ∧ (after (.rnext { a := 10 }) (ofCard (some (3, 5, 4)))).getS 11 = 2 := by decide +kernel
theorem test_kwait_failed : (after (.kwait kwF) (en [] [(2, .failed 0x8000 1)])).tcause = 10 ∧ (after (.kwait kwF) (en [] [(2, .failed 0x8000 1)])).tok 2 = .done := by decide +kernel
theorem test_wend_last : (after (.wend {}) base).ended = true ∧ (after (.wend {}) base).subs = [] := by decide +kernel
theorem test_fset_limit : (after (.fset { a := 7, b := 1 }) (mxs [(1, 0xFFFFFF)])).fregs = [(7, 0xFFFFFF)] ∧ (after (.fset { a := 7, b := 1 }) (mxs [(1, 0x1000000)])).tcause = 1 := by decide +kernel
/-- Two sub-waves, the first with an access of the peer window out, the second at a `kwait` whose token has failed. -/
def pairOf (h : Option Handler) (need : Nat) : State := wv (fun v => { v with handler := h, toks := [(1, .failed 0x8000 1)], accs := [{ kind := .load [], bytes := [{ at_ := .peer 0x8000000000000 }], stage := 1, need := need, issue := 0, sub := 2 }], subs := [(2, { mask := 1, hold := .peer 0 0x4018 [] }), (3, { mask := 2, hold := .kwait [1] 0x4018 })] })
/-- R391: a trap waits for the instruction of another sub-wave that is out, and a sub-wave that a handler has stopped ends no wait. -/
theorem test_trap_waits : ((runStep (pairOf none 1) (.kwaitComplete 0 3)).isSome, (runStep (pairOf none 0) (.kwaitComplete 0 3)).isSome, (runStep (pairOf (some { sub := 2, mask := 1 }) 0) (.kwaitComplete 0 3)).isSome) = (false, true, false) := by decide +kernel

end Sys2Proof.Tests
end

section
/-! PROOFS. Scalar integer arithmetic (R68, R89, R90): the result of each two-source form on n bits, and that each form completes with it. -/

namespace Sys2Proof.Machine

/-- R64: an instruction that passed the tests carries `.sat` only where its entry accepts it. -/
theorem sat_eq_false_of_check {env : DecEnv} {i : Instr} (hc : check env i = none) (hs : (specOf env.slot i).sat = false) : (fieldsOf i).sat = false := by
  obtain ⟨_, _, _, _, _, hmod, _, _⟩ := (check_none_iff env i).1 hc
  simp only [modBad, hs, Bool.or_eq_false_iff, Bool.not_false, Bool.and_true] at hmod
  obtain ⟨⟨⟨⟨⟨_, hsat⟩, _⟩, _⟩, _⟩, _⟩ := hmod
  exact hsat

/-- An effect may be rewritten by what issuing unhindered says of the instruction. -/
theorem Yields.congr {i : Instr} {f g : Env → Eff} (hf : Yields i f)
    (h : ∀ s w x v u, Issuing s i w x v u → f (issueEnv s w x v u i) = g (issueEnv s w x v u i)) : Yields i g := by
  intro s w x v u hi
  rw [← h s w x v u hi]
  exact hf s w x v u hi

theorem sBits_pos (f : RRR) : 0 < sBits f := by
  unfold sBits
  cases f.ty <;> decide

/-- Adding 2ⁿ does not change the n bits of a result. -/
theorem truncN_add_two_pow (n : Nat) (e : Int) : truncN n (e + (2 ^ n : Nat)) = truncN n e := by
  simp [truncN]

/-- R68: on n bits the most negative number is its own negation. -/
theorem truncN_neg_half {n : Nat} (hn : 0 < n) : truncN n (-(2 ^ (n - 1) : Nat)) = truncN n (2 ^ (n - 1) : Nat) := by
  have hpow : 2 ^ n = 2 ^ (n - 1) * 2 := (Nat.pow_pred_mul hn).symm
  rw [← truncN_add_two_pow]
  congr 1
  omega

theorem divRem_by_zero (sg : Bool) (n : Nat) (x : Int) : divRem sg n x 0 = (0, x, true) := rfl

/-- R68: by a nonzero divisor the remainder is exact, and so is the quotient on n bits; its one corner, the most negative number divided by −1, wraps to itself. -/
theorem divRem_by_ne_zero (sg : Bool) {n : Nat} (hn : 0 < n) (x : Int) {y : Int} (hy : y ≠ 0) :
    truncN n (divRem sg n x y).1 = truncN n (x.tdiv y) ∧ (divRem sg n x y).2 = (x.tmod y, false) := by
  by_cases hcorner : (sg && decide (x = -(2 ^ (n - 1) : Nat)) && decide (y = -1)) = true
  · have hr : divRem sg n x y = (x, 0, false) := by simp only [divRem, hy, hcorner, if_true, if_false]
    simp only [Bool.and_eq_true, decide_eq_true_eq] at hcorner
    obtain ⟨⟨_, rfl⟩, rfl⟩ := hcorner
    rw [hr]
    exact ⟨by simpa using truncN_neg_half hn, by simp⟩
  · have hr : divRem sg n x y = (x.tdiv y, x.tmod y, false) := by simp only [divRem, hy, hcorner, if_false, Bool.false_eq_true]
    rw [hr]
    exact ⟨rfl, rfl⟩

theorem effSDiv_quotient (f : RRR) (e : Env) : effSDiv false f e =
    if sIntB f e = 0 then { wr := sIntOut f e 0, flags := flagDZ } else { wr := sIntOut f e (truncN (sBits f) ((sIntA f e).tdiv (sIntB f e))) } := by
  by_cases hy : sIntB f e = 0
  · simp [effSDiv, hy, divRem_by_zero, truncN, flagIf]
  · obtain ⟨hq, hr⟩ := divRem_by_ne_zero (tySigned f.ty) (sBits_pos f) (sIntA f e) hy
    simp [effSDiv, hy, hq, hr, flagIf]

theorem effSDiv_remainder (f : RRR) (e : Env) : effSDiv true f e =
    if sIntB f e = 0 then { wr := sIntOut f e (truncN (sBits f) (sIntA f e)), flags := flagDZ } else { wr := sIntOut f e (truncN (sBits f) ((sIntA f e).tmod (sIntB f e))) } := by
  by_cases hy : sIntB f e = 0
  · simp [effSDiv, hy, divRem_by_zero, flagIf]
  · obtain ⟨_, hr⟩ := divRem_by_ne_zero (tySigned f.ty) (sBits_pos f) (sIntA f e) hy
    simp [effSDiv, hy, hr, flagIf]

theorem intOp_min (n : Nat) (x y : Int) : intOp .min n x y = min x y := (Int.min_def x y).symm

theorem intOp_max (n : Nat) (x y : Int) : intOp .max n x y = max x y := (Int.max_def x y).symm

theorem intOp_mulh (n : Nat) (x y : Int) : intOp .mulh n x y = x * y / 2 ^ n := by simp [intOp]

/-- R90: a two-source form completes with its exact result wrapped or saturated. -/
theorem yields_effSInt {i : Instr} {o : IntOp} {f : RRR} (hx : ∀ s, exec i s = issue i (pureBody (effSInt o f)) s) : Yields i (effSInt o f) :=
  yields_pure hx (fun _ _ hgo => by cases hgo)

/-- R90: a two-source form whose entry does not accept `.sat` completes with its exact result wrapped. -/
theorem yields_effSInt_wrapped {i : Instr} {o : IntOp} {f : RRR} (hx : ∀ s, exec i s = issue i (pureBody (effSInt o f)) s) (hf : (fieldsOf i).sat = f.sat) (hs : (specOf none i).sat = false) :
    Yields i (fun e => { wr := sIntOut f e (truncN (sBits f) (intOp o (sBits f) (sIntA f e) (sIntB f e))) }) :=
  (yields_effSInt hx).congr fun _ _ _ _ _ hi => by
    have hsat : f.sat = false := hf ▸ sat_eq_false_of_check hi.legal hs
    simp [effSInt, fitN, hsat]

/-- R68, R90: division and remainder complete with their effect. -/
theorem yields_effSDiv {i : Instr} {rem : Bool} {f : RRR} (hx : ∀ s, exec i s = issue i (pureBody (effSDiv rem f)) s) : Yields i (effSDiv rem f) :=
  yields_pure hx (fun _ _ hgo => by cases hgo)

theorem yields_smulh (f : RRR) : Yields (.smulh f) (fun e => { wr := sIntOut f e (truncN (sBits f) (sIntA f e * sIntB f e / 2 ^ sBits f)) }) := by
  simpa only [intOp_mulh] using yields_effSInt_wrapped (i := .smulh f) (o := .mulh) (fun _ => rfl) rfl rfl

theorem yields_smin (f : RRR) : Yields (.smin f) (fun e => { wr := sIntOut f e (truncN (sBits f) (min (sIntA f e) (sIntB f e))) }) := by
  simpa only [intOp_min] using yields_effSInt_wrapped (i := .smin f) (o := .min) (fun _ => rfl) rfl rfl

theorem yields_smax (f : RRR) : Yields (.smax f) (fun e => { wr := sIntOut f e (truncN (sBits f) (max (sIntA f e) (sIntB f e))) }) := by
  simpa only [intOp_max] using yields_effSInt_wrapped (i := .smax f) (o := .max) (fun _ => rfl) rfl rfl

/-- Settles O6: a wrapping form never carries `.sat`, since R64's test would refuse it, and the one corner of R68's division wraps to the exact quotient. -/
theorem scalarIntegerResults : Obligations.ScalarIntegerResults := by
  refine ⟨fun f => ⟨?_, ?_, ?_, yields_smulh f, yields_smin f, yields_smax f⟩, fun f => ⟨?_, ?_⟩⟩
  · exact yields_effSInt (i := .sadd f) (o := .add) (fun _ => rfl)
  · exact yields_effSInt (i := .ssub f) (o := .sub) (fun _ => rfl)
  · exact yields_effSInt (i := .smul f) (o := .mul) (fun _ => rfl)
  · simpa only [← effSDiv_quotient] using yields_effSDiv (i := .sdiv f) (rem := false) (fun _ => rfl)
  · simpa only [← effSDiv_remainder] using yields_effSDiv (i := .srem f) (rem := true) (fun _ => rfl)

end Sys2Proof.Machine
end

section
/-! PROOFS. The vector branch (R126, R128 to R130, R172): what its body answers in each case, and the wave after a split. -/

namespace Sys2Proof.Machine

section
variable {f : BR} {e : Env} {s : State}

/-- R172: the lanes of the issuing sub-wave in which the predicate of `brv` holds. -/
def brvTaken (f : BR) (e : Env) : Lane32 := e.mask &&& laneMask (fun l => e.rdP f.d l)

theorem brOut_eq_false_iff (t : Int) : brOut t = false ↔ -(2 ^ 56 : Int) ≤ t ∧ t < 2 ^ 56 := by
  simp [brOut]

theorem bodyBrv_of_out (ho : brOut (brTarget e.p f.off) = true) : bodyBrv f e s = .trap s (brTrap (brTarget e.p f.off)) := by
  simp only [bodyBrv, ho, if_true]

theorem bodyBrv_of_all (ho : brOut (brTarget e.p f.off) = false) (ht : brvTaken f e = e.mask) :
    bodyBrv f e s = .done s { go := .br (brTarget e.p f.off) } := by
  unfold brvTaken at ht
  simp only [bodyBrv, ho, ht, if_true, if_false, Bool.false_eq_true]

theorem bodyBrv_of_none (ho : brOut (brTarget e.p f.off) = false) (ht : brvTaken f e = 0) (hm : e.mask ≠ 0) :
    bodyBrv f e s = .done s {} := by
  unfold brvTaken at ht
  simp only [bodyBrv, ho, ht, hm.symm, if_true, if_false, Bool.false_eq_true]

/-- R128: a mixed predicate with an entry free splits the sub-wave. -/
theorem bodyBrv_of_mixed {n : Nat} {u : Sub} (ho : brOut (brTarget e.p f.off) = false) (hall : brvTaken f e ≠ e.mask) (hnone : brvTaken f e ≠ 0)
    (hn : freeEntry e.v e.half = some n) (hu : tblFind e.v.subs e.x = some u) :
    bodyBrv f e s = .done (modWave s e.w (fun v => splitSub v e.x n u (brvTaken f e) (BitVec.ofInt 64 (brTarget e.p f.off)) e.next))
      { go := .kept, last := some (subId n (decide (lowestLane (brvTaken f e) = lowestLane e.mask))) } := by
  unfold brvTaken at *
  simp only [bodyBrv, ho, hall, hnone, hn, hu, if_false, Bool.false_eq_true]

/-- R130: a mixed predicate with no entry free. -/
theorem bodyBrv_of_full (ho : brOut (brTarget e.p f.off) = false) (hall : brvTaken f e ≠ e.mask) (hnone : brvTaken f e ≠ 0)
    (hn : freeEntry e.v e.half = none) : bodyBrv f e s = .trap s { cause := .splitOverflow } := by
  unfold brvTaken at *
  simp only [bodyBrv, ho, hall, hnone, hn, if_false, Bool.false_eq_true]

/-- R127: a sub-wave's number names its parent entry. -/
theorem subParent_subId (h : Nat) (b : Bool) : subParent (subId h b) = h := by
  cases b
  · simp [subParent, subId, ofBool]
  · simp [subParent, subId, ofBool]
    omega

theorem freeEntry_eq_none_iff (v : Wave) (half : Nat) :
    freeEntry v half = none ↔ ∀ n ∈ splitEntries v.kernel.w16 half, (tblFind v.hinge n).isSome = true := by
  simp [freeEntry, Option.ne_none_iff_isSome]

/-! The hinge stack and the sub-waves after a split (R128). -/

section
variable (v : Wave) {x n : Nat} (u : Sub) (taken : Lane32) (t next : Word)

theorem hinge_splitSub_new : tblFind (splitSub v x n u taken t next).hinge n = some { mask := u.mask, parent := x / 2, pbranch := decide (x % 2 = 1), tst := .run, fst := .run } :=
  tblFind_put_self _ _ _

/-- The issuer's own branch of its parent entry becomes SPLIT; the rest of that entry stays. -/
theorem hinge_splitSub_parent (hx : x / 2 ≠ n) {h : Hinge} (hh : tblFind v.hinge (x / 2) = some h) :
    ∃ h', tblFind (splitSub v x n u taken t next).hinge (x / 2) = some h' ∧ (if x % 2 = 1 then h'.tst else h'.fst) = .split ∧ h'.mask = h.mask ∧ h'.parent = h.parent := by
  refine ⟨if subBranch x then { h with tst := .split } else { h with fst := .split }, ?_, ?_⟩
  · exact (tblFind_put_ne _ _ hx).trans ((tblFind_mod_self _ _ _).trans (by simp [hh, subParent]))
  · by_cases hb : x % 2 = 1 <;> simp [subBranch, hb]

theorem subs_splitSub_taken : tblFind (splitSub v x n u taken t next).subs (2 * n + 1) = some { pc := t, mask := taken } :=
  (tblFind_put_ne _ _ (by simp [subId, ofBool])).trans (tblFind_put_self _ _ _)

theorem subs_splitSub_others : tblFind (splitSub v x n u taken t next).subs (2 * n) = some { pc := next, mask := u.mask &&& ~~~taken } :=
  tblFind_put_self _ _ _

theorem subs_splitSub_issuer (hx : x / 2 ≠ n) : tblFind (splitSub v x n u taken t next).subs x = none := by
  have hne : ∀ b, x ≠ subId n b := fun b hb => hx (hb ▸ subParent_subId n b)
  exact (tblFind_put_ne _ _ (hne false)).trans ((tblFind_put_ne _ _ (hne true)).trans (tblFind_erase_self _ _))

end

theorem countIssue_eq (v : Wave) (x : Nat) (reset : Bool) (limit : Word) : ∃ n a, v.countIssue x reset limit = { v with wd := n, async := a } := by
  unfold Wave.countIssue
  split
  · exact ⟨0, v.async, rfl⟩
  · split
    · exact ⟨v.wd, v.async, rfl⟩
    · exact ⟨_, _, rfl⟩

theorem tblMod_of_absent {α : Type} {t : Tbl α} {k : Nat} (h : tblFind t k = none) (g : α → α) : tblMod t k g = t := by
  induction t with
  | nil => rfl
  | cons y r ih =>
    obtain ⟨j, a⟩ := y
    by_cases hj : k = j
    · simp [tblFind, hj] at h
    · simp only [tblFind, hj, if_false] at h
      simp [tblMod, hj, ih h]

/-- R129: an instruction that took its own sub-wave away changes no sub-wave as it completes, only the counts and FLAGS. -/
theorem advance_of_absent {v : Wave} {x : Nat} (h : tblFind v.subs x = none) (next : Word) (g : Eff) (limit : Word) :
    ∃ n a, v.advance x next g limit = { v with flags := v.flags ||| g.flags, retired := v.retired + 1, wd := n, async := a } := by
  unfold Wave.advance Wave.modSub
  simp only [tblMod_of_absent h]
  exact countIssue_eq _ _ _ _

/-- R128, R172: a mixed `brv` completes over the split wave. -/
theorem exec_brv_of_mixed {w x n : Nat} {v : Wave} {u : Sub} (hi : Issuing s (.brv f) w x v u) (he : e = issueEnv s w x v u (.brv f))
    (ho : brOut (brTarget e.p f.off) = false) (hall : brvTaken f e ≠ e.mask) (hnone : brvTaken f e ≠ 0) (hn : freeEntry v (halfOf v x) = some n) :
    exec (.brv f) s = .next (retire s w x v u (.brv f) (modWave s w (fun a => splitSub a x n u (brvTaken f e) (BitVec.ofInt 64 (brTarget e.p f.off)) (u.pc + 8)))
      { go := .kept, last := some (subId n (decide (lowestLane (brvTaken f e) = lowestLane e.mask))) }) := by
  subst he
  exact issue_done hi (bodyBrv_of_mixed ho hall hnone hn hi.sub) (fun _ hg => by cases hg)

/-- The issuing wave after a split completes: its hinge stack and sub-waves are those of the split, and its registers are unchanged. -/
theorem waveAt_retire_splitSub {w x n : Nat} {v : Wave} {u : Sub} {taken : Lane32} {t next : Word} (hv : waveAt s w = some v) (hx : x / 2 ≠ n) (last : Option Nat) :
    ∃ v', waveAt (retire s w x v u (.brv f) (modWave s w (fun a => splitSub a x n u taken t next)) { go := .kept, last := last }) w = some v'
      ∧ v'.hinge = (splitSub v x n u taken t next).hinge ∧ v'.subs = (splitSub v x n u taken t next).subs
      ∧ v'.s = v.s ∧ v'.v = v.v ∧ v'.p = v.p ∧ v'.flags = v.flags ∧ v'.rootMask = v.rootMask := by
  rw [waveAt_retire rfl, waveAt_modWave_self, hv]
  refine ⟨_, rfl, ?_⟩
  have habsent : tblFind ((splitSub v x n u taken t next).queue x []).subs x = none := subs_splitSub_issuer v u taken t next hx
  obtain ⟨k, a, hadv⟩ := advance_of_absent habsent (u.pc + BitVec.ofNat 64 (instrLen (.brv f))) { go := .kept, last := last } v.wdlimit
  simp only [Wave.putAll, List.foldl_nil, hadv]
  exact ⟨rfl, rfl, rfl, rfl, rfl, Nat.or_zero _, rfl⟩

end

/-- Settles O26: one equation of the body for each case of the predicate, and for a split the laws of the new hinge entry and its two sub-waves. -/
theorem vectorBranchResults : Obligations.VectorBranchResults := by
  intro f
  refine ⟨?_, ?_, ?_, ?_, ?_⟩
  · rintro s w x v u hi ⟨hall, hr⟩
    have ho := (brOut_eq_false_iff _).2 hr
    exact issue_done hi (bodyBrv_of_all ho hall) (fun _ hg => by cases hg; exact ho)
  · rintro s w x v u hi ⟨hnone, hm, hr⟩
    exact issue_done hi (bodyBrv_of_none ((brOut_eq_false_iff _).2 hr) hnone hm) (fun _ hg => by cases hg)
  · intro s w x v u hi hr
    exact issue_trap hi (bodyBrv_of_out (Bool.of_not_eq_false (mt (brOut_eq_false_iff _).1 hr)))
  · rintro s w x v u hi ⟨⟨hall, hnone⟩, hr, hfull⟩
    exact issue_trap hi (bodyBrv_of_full ((brOut_eq_false_iff _).2 hr) hall hnone ((freeEntry_eq_none_iff _ _).2 hfull))
  · rintro s w x v u n - hi ⟨hall, hnone⟩ hr hn hx
    obtain ⟨v', hw, hhinge, hsubs, hregs⟩ := waveAt_retire_splitSub hi.wave hx _
    obtain ⟨hs, hv, hp, hflags, hroot⟩ := hregs
    refine ⟨_, v', exec_brv_of_mixed hi rfl ((brOut_eq_false_iff _).2 hr) hall hnone hn, hw, ?_, ?_, ?_, ?_, ?_, hs, hv, hp, hflags, hroot, ?_⟩
    · exact hhinge ▸ hinge_splitSub_new ..
    · exact hsubs ▸ subs_splitSub_taken ..
    · exact hsubs ▸ subs_splitSub_others ..
    · exact hsubs ▸ subs_splitSub_issuer _ _ _ _ _ hx
    · exact fun h hh => hhinge ▸ hinge_splitSub_parent _ _ _ _ _ hx hh
    · exact keeps_retire (keeps_modWave w s _) rfl rfl (by simp)

end Sys2Proof.Machine
end

section
/-! PROOFS. The tile forms (R340, R343 to R346): what the body of each answers in each case, the lowest FREE entry of a keyring, and an entry set or freed. -/

namespace Sys2Proof.Machine

/-! Entries of a keyring (R340). -/

section
variable {s : State} {p : Nat}

/-- R340: where a keyring has a FREE entry, the head of its list of FREE entries is the lowest one. -/
theorem freeKeys_headD_lowest {c : Core} (h : (freeKeys c).length ≠ 0) :
    (freeKeys c).headD 0 < 256 ∧ tblFind c.keyring ((freeKeys c).headD 0) = none ∧ ∀ j < (freeKeys c).headD 0, (tblFind c.keyring j).isSome = true := by
  cases hl : freeKeys c with
  | nil => exact absurd (congrArg List.length hl) h
  | cons i r =>
    have hi : (freeKeys c).head? = some i := congrArg List.head? hl
    rw [freeKeys, List.head?_filter, List.find?_range_eq_some] at hi
    obtain ⟨hfree, hlt, hbelow⟩ := hi
    exact ⟨List.mem_range.1 hlt, Option.isNone_iff_eq_none.1 hfree, fun j hj => by simpa using hbelow j hj⟩

/-- An entry of a core's keyring set, or made FREE. -/
def setKey (s : State) (p i : Nat) (k : Option KeyEntry) : State :=
  modCore s p (fun c => { c with keyring := k.elim (tblErase c.keyring i) (tblPut c.keyring i) })

theorem keyAt_setKey_self (s : State) (p i : Nat) (k : Option KeyEntry) : keyAt (setKey s p i k) p i = k := by
  rw [keyAt, setKey, coreAt_modCore_self]
  cases k with
  | none => exact tblFind_erase_self _ _
  | some y => exact tblFind_put_self _ _ _

theorem keyAt_setKey_ne (s : State) (p : Nat) {i j : Nat} (k : Option KeyEntry) (h : j ≠ i) : keyAt (setKey s p i k) p j = keyAt s p j := by
  rw [keyAt, setKey, coreAt_modCore_self]
  cases k with
  | none => exact tblFind_erase_ne _ h
  | some y => exact tblFind_put_ne _ _ h

/-! The registration of a tile (R343). -/

theorem regTile_of_full {ctx owner off len : Nat} {key : Word} (h : keyFull s p ctx = true) : regTile s p ctx owner key off len = (s, 256) := by
  rw [regTile, if_pos h]

theorem regTile_of_overlap {ctx owner off len : Nat} {key : Word} (hf : keyFull s p ctx = false) (ho : keyOverlap s p ctx (256 * off, 256 * (len + 1)) = true) :
    regTile s p ctx owner key off len = (s, 257) := by
  rw [regTile, if_neg (ne_true_of_eq_false hf), if_pos ho]

theorem regTile_of_room {ctx owner off len : Nat} {key : Word} (hf : keyFull s p ctx = false) (ho : keyOverlap s p ctx (256 * off, 256 * (len + 1)) = false) :
    regTile s p ctx owner key off len =
      (setKey s p ((freeKeys (coreAt s p)).headD 0) (some { key := key, len := len, off := off, owner := owner, ctx := ctx }), (freeKeys (coreAt s p)).headD 0) := by
  rw [regTile, if_neg (ne_true_of_eq_false hf), if_neg (ne_true_of_eq_false ho)]
  rfl

/-- R340: a keyring that is not full has a FREE entry. -/
theorem freeKeys_length_of_not_full {ctx : Nat} (h : keyFull s p ctx = false) : (freeKeys (coreAt s p)).length ≠ 0 :=
  of_decide_eq_false (Bool.or_eq_false_iff.1 h).1

/-- R343: where the keyring has room and no live range meets the tile, the registration takes the lowest FREE entry and leaves the others. -/
theorem regTile_registers {ctx owner off len : Nat} {key : Word} (hf : keyFull s p ctx = false) (ho : keyOverlap s p ctx (256 * off, 256 * (len + 1)) = false) :
    ∃ i < 256, (regTile s p ctx owner key off len).2 = i ∧ keyAt s p i = none ∧ (∀ j < i, (keyAt s p j).isSome = true)
      ∧ keyAt (regTile s p ctx owner key off len).1 p i = some { key := key, st := .resident, len := len, off := off, owner := owner, ctx := ctx }
      ∧ ∀ j, j ≠ i → keyAt (regTile s p ctx owner key off len).1 p j = keyAt s p j := by
  obtain ⟨hlt, hfree, hbelow⟩ := freeKeys_headD_lowest (freeKeys_length_of_not_full hf)
  rw [regTile_of_room hf ho]
  exact ⟨_, hlt, rfl, hfree, hbelow, keyAt_setKey_self _ _ _ _, fun _ hj => keyAt_setKey_ne _ _ _ hj⟩

end

/-! What each body answers in each case. -/

section
variable {f : EN} {e : Env} {s : State}

/-- R65: outside a bundle the REASON of a body's refusal stands alone in TINFO, at the instruction's own address. -/
theorem issue_illegal {i : Instr} {w x : Nat} {v : Wave} {u : Sub} {body : Env → State → Res} (hi : Issuing s i w x v u)
    (hb : body (issueEnv s w x v u i) s = .trap s ((issueEnv s w x v u i).illegal 10)) :
    issue i body s = .next (trapped s w x s { cause := .illegal, addr := u.pc, info := 10 }) :=
  issue_trap hi hb

/-- A body that ends with results alone completes over its state. -/
theorem issue_writes {i : Instr} {w x : Nat} {v : Wave} {u : Sub} {body : Env → State → Res} {s1 : State} {l : List Wr} (hi : Issuing s i w x v u)
    (hb : body (issueEnv s w x v u i) s = .done s1 { wr := l }) : issue i body s = .next (retire s w x v u i s1 { wr := l }) :=
  issue_done hi hb (fun _ hg => by cases hg)

/-- R221: the trap of a byte that no load may reach: KIND load and REASON 2 (log 116). -/
theorem protectionTrap_load (a : Nat) : ({ cause := .protection, addr := a, reason := 2 : MemFault }.trap .load 0) = { cause := .protection, addr := BitVec.ofNat 64 a, info := BitVec.ofNat 64 2048 } := by
  simp [MemFault.trap, MemFault.info, Kind.code, ofBool]

theorem bodyTreg_of_refused (h : tregOk e.v.core (e.rdS f.c).toNat = false) : bodyTreg f e s = .trap s (e.illegal 10) := by
  simp only [bodyTreg, h, Bool.not_false, if_true]

/-- R221, R343: a tile that reaches past the tile area. -/
theorem bodyTreg_of_outside (h : tregOk e.v.core (e.rdS f.c).toNat = true) (ho : ¬ inArea s e.core e.v.ctx (bits (e.rdS f.c).toNat 0 19, 256 * bits (e.rdS f.c).toNat 32 16) = true) :
    bodyTreg f e s = .trap s { cause := .protection, addr := BitVec.ofNat 64 (bits (e.rdS f.c).toNat 0 22), info := BitVec.ofNat 64 2048 } := by
  simp only [bodyTreg, h, Bool.not_true, Bool.false_eq_true, if_false, Bool.eq_false_iff.2 ho, Bool.not_false, if_true, protectionTrap_load]

theorem bodyTreg_of_released (h : tregOk e.v.core (e.rdS f.c).toNat = true) (hin : inArea s e.core e.v.ctx (bits (e.rdS f.c).toNat 0 19, 256 * bits (e.rdS f.c).toNat 32 16) = true)
    (hr : e.v.relPackage e.v.nextAcc e.now = true) :
    let r := regTile s e.core e.v.ctx (ownerOf e.v) (e.rdS f.b) (bits (e.rdS f.c).toNat 8 11) (bits (e.rdS f.c).toNat 32 16 - 1)
    bodyTreg f e s = .done r.1 { wr := e.wrS f.a (BitVec.ofNat 64 r.2) } := by
  simp only [bodyTreg, h, hin, hr, Bool.not_true, Bool.false_eq_true, if_false, if_true]

/-- R343: outside a bundle the registration waits for the wave's earlier stores. -/
theorem bodyTreg_of_unreleased (h : tregOk e.v.core (e.rdS f.c).toNat = true) (hin : inArea s e.core e.v.ctx (bits (e.rdS f.c).toNat 0 19, 256 * bits (e.rdS f.c).toNat 32 16) = true)
    (hr : e.v.relPackage e.v.nextAcc e.now = false) (hs : e.slot = none) : bodyTreg f e s = .hold s := by
  simp only [bodyTreg, h, hin, hr, hs, Bool.not_true, Bool.false_eq_true, if_false, Option.isSome_none]

theorem bodyTdrop_of_out (h : 255 < (e.rdS f.b).toNat) : bodyTdrop f e s = .trap s (e.illegal 10) := by
  simp only [bodyTdrop, h, if_true]

/-- R344: an index of no entry of the context. -/
theorem bodyTdrop_of_foreign (h : (e.rdS f.b).toNat ≤ 255) (hk : ∀ y, keyAt s e.core (e.rdS f.b).toNat = some y → y.ctx ≠ e.v.ctx) :
    bodyTdrop f e s = .done s { wr := e.wrS f.a 1 } := by
  cases hy : keyAt s e.core (e.rdS f.b).toNat with
  | none => simp only [bodyTdrop, Nat.not_lt.2 h, hy, dropKey, if_false, Option.isSome_none, Bool.false_eq_true]; rfl
  | some y => simp only [bodyTdrop, Nat.not_lt.2 h, hy, hk y hy, dropKey, if_false, Option.isSome_none, Bool.false_eq_true]; rfl

/-- R344: an entry of the context goes to what `dropKey` says of it. -/
theorem bodyTdrop_of_own {y : KeyEntry} (h : (e.rdS f.b).toNat ≤ 255) (hy : keyAt s e.core (e.rdS f.b).toNat = some y) (hc : y.ctx = e.v.ctx) :
    let r := dropKey f.c (keyBusy s e.core (e.rdS f.b).toNat) (some y)
    bodyTdrop f e s = .done (setKey s e.core (e.rdS f.b).toNat r.2) { wr := e.wrS f.a (BitVec.ofNat 64 r.1) } := by
  simp only [bodyTdrop, Nat.not_lt.2 h, hy, hc, if_false, if_true, Option.isSome_some]
  cases (dropKey f.c (keyBusy s e.core (e.rdS f.b).toNat) (some y)).2 <;> rfl

theorem bodyTfind_of_none (h : ∀ y ∈ liveKeys s e.core e.v.ctx, (y.2.held && y.2.matchesKey (e.rdS f.b) (e.rdS f.c)) = false) :
    bodyTfind f e s = .done s { wr := e.wrS f.a 256 ++ e.wrS (f.a + 1) 0 } := by
  have hn := List.find?_eq_none.2 fun y hy => ne_true_of_eq_false (h y hy)
  simp only [bodyTfind, hn]

theorem bodyTfind_of_some {y : Nat × KeyEntry} (h : (liveKeys s e.core e.v.ctx).find? (fun y => y.2.held && y.2.matchesKey (e.rdS f.b) (e.rdS f.c)) = some y) :
    bodyTfind f e s = .done s { wr := e.wrS f.a (BitVec.ofNat 64 y.1) ++ e.wrS (f.a + 1) (y.2.desc e.v.core) } := by
  simp only [bodyTfind, h]

/-- R346: the descriptors, entries and cores that `tmove` refuses. -/
def tmoveBad (f : EN) (e : Env) : Prop :=
  bits (e.rdS f.c).toNat 19 1 ≠ 0 ∨ bits (e.rdS f.c).toNat 29 35 ≠ 0 ∨ bits (e.rdS f.c).toNat 0 8 ≠ 0 ∨ 255 < (e.rdS f.b).toNat
    ∨ 319 < bits (e.rdS f.c).toNat 20 9 ∨ bits (e.rdS f.c).toNat 20 9 = e.v.core

theorem bodyTmove_of_bad (h : tmoveBad f e) : bodyTmove f e s = .trap s (e.illegal 10) :=
  if_pos h

/-- R307: outside a bundle the 65th engine instruction of a section waits. -/
theorem bodyTmove_of_queueFull (h : ¬ tmoveBad f e) (hs : e.slot = none) (hq : 64 ≤ sectQueue s e.core e.v.sect) : bodyTmove f e s = .hold s := by
  refine (if_neg h).trans ?_
  simp only [engForm, hs, hq, Option.isSome_none, Bool.false_eq_true, false_and, if_false, if_true]

theorem bodyTmove_of_room (h : ¬ tmoveBad f e) (hs : e.slot = none) (hq : sectQueue s e.core e.v.sect < 64) :
    bodyTmove f e s = .done (modWave (engIssue e s f (.move { entry := (e.rdS f.b).toNat, dst := bits (e.rdS f.c).toNat 20 9, off := bits (e.rdS f.c).toNat 0 19, res := e.dstS f.a })) e.w
      (fun v => { v with owed := v.owed ++ e.dstS f.a })) {} := by
  refine (if_neg h).trans ?_
  simp only [engForm, hs, Nat.not_le.2 hq, Option.isSome_none, Bool.false_eq_true, false_and, if_false]

end

/-- R344: the answers of `dropKey` for an entry that is no migration entry. -/
theorem dropKey_cases (form : Nat) (busy : Bool) (y : KeyEntry) (hm : y.mig = none) :
    (y.st = .lent ∨ y.st = .arriving → dropKey form busy (some y) = (2, some y)) ∧ (y.st = .pinned → dropKey 0 busy (some y) = (4, some y))
      ∧ (y.st = .resident → dropKey 0 true (some y) = (3, some y) ∧ dropKey 0 false (some y) = (0, none))
      ∧ (y.st = .resident ∨ y.st = .pinned → dropKey 1 busy (some y) = (0, some { y with st := .pinned }) ∧ dropKey 2 busy (some y) = (0, some { y with st := .resident })) := by
  refine ⟨?_, ?_, ?_, ?_⟩
  · rintro (h | h) <;> simp [dropKey, hm, h]
  · intro h; simp [dropKey, hm, h]
  · intro h; simp [dropKey, hm, h]
  · rintro (h | h) <;> simp [dropKey, hm, h]

/-- Settles O45: one equation of the body for each case the statement names; a registration takes the head of the list of FREE entries, which is the lowest, and a drop sets or frees its own entry alone. -/
theorem tileForms : Obligations.TileForms := by
  intro f
  refine ⟨?_, ?_, ?_, ?_, ?_, ?_, ?_, dropKey_cases, ?_, ?_⟩
  · intro s w x v u hi hbad
    exact issue_illegal hi (bodyTreg_of_refused hbad)
  · rintro s w x v u hi ⟨hok, hout⟩
    exact issue_trap hi (bodyTreg_of_outside hok hout)
  · rintro s w x v u hi ⟨hok, hin, hrel⟩
    exact issue_writes hi (bodyTreg_of_released hok hin hrel)
  · rintro s w x v u hi ⟨hok, hin, hrel⟩
    exact issue_hold hi (bodyTreg_of_unreleased hok hin hrel rfl)
  · exact fun s p ctx owner key off len => ⟨regTile_of_full, regTile_of_overlap, regTile_registers⟩
  · intro s w x v u hi hout
    exact issue_illegal hi (bodyTdrop_of_out hout)
  · intro s w x v u hi e i hle
    refine ⟨fun hk => ?_, fun y hy hc => ?_⟩
    · exact issue_writes hi (bodyTdrop_of_foreign hle hk)
    · exact ⟨_, issue_writes hi (bodyTdrop_of_own hle hy hc), rfl, rfl, keyAt_setKey_self _ _ _ _, fun _ hj => keyAt_setKey_ne _ _ _ hj⟩
  · intro s w x v u hi e fits
    refine ⟨fun hnone => ?_, fun y hy => ?_⟩
    · exact issue_writes hi (bodyTfind_of_none hnone)
    · exact issue_writes hi (bodyTfind_of_some hy)
  · intro s w x v u hi e bad
    refine ⟨fun hbad => ?_, fun hgood hfull => ?_, fun hgood hroom => ?_⟩
    · exact issue_illegal hi (bodyTmove_of_bad hbad)
    · exact issue_hold hi (bodyTmove_of_queueFull hgood rfl hfull)
    · exact issue_writes hi (bodyTmove_of_room hgood rfl hroom)

end Sys2Proof.Machine
end

section
/-! PROOFS. Every step keeps memory in its canonical form (R210): the next state of any meaning is the end of a step, and what follows a step writes no memory of its own. -/

namespace Sys2Proof.Machine

/-- The invariant speaks of memory alone. -/
theorem State.Inv.congr {s t : State} (h : s.Inv) (hm : t.mem = s.mem) : t.Inv := by
  unfold State.Inv
  rw [hm]
  exact h

theorem State.Inv.finish {s : State} (h : s.Inv) (t : State) : (Machine.finish s t).Inv := Memory.wf_finish s t h

theorem Ends.inv {s t : State} {o : Out} (ho : Ends s o) (h : s.Inv) (ht : o = .next t) : t.Inv := by
  obtain ⟨u, rfl⟩ := ho t ht
  exact h.finish u

theorem inv_runStep {s t : State} {i : Instr} (h : s.Inv) (ht : runStep s i = some t) : t.Inv := by
  refine (ends_exec i s).inv h ?_
  unfold runStep at ht
  split at ht
  · next he => rw [he, Option.some.inj ht]
  · cases ht

theorem inv_firstRun {s t : State} {l : List Instr} (h : s.Inv) (ht : firstRun s l = some t) : t.Inv := by
  obtain ⟨i, _, hi⟩ := List.exists_of_findSome?_eq_some ht
  exact inv_runStep h hi

theorem inv_inputRuns {s t : State} {past : Bool} (h : s.Inv) (ht : t ∈ inputRuns s past) : t.Inv := by
  obtain ⟨e, _, he⟩ := List.mem_filterMap.1 ht
  split at he
  · refine inv_runStep (h.congr ?_) he
    rfl
  · cases he

theorem inv_freeRuns {s t : State} (h : s.Inv) (ht : t ∈ freeRuns s) : t.Inv := by
  rcases List.mem_append.1 ht with hf | hin
  · obtain ⟨i, _, hi⟩ := List.mem_filterMap.1 hf
    exact inv_runStep h hi
  · exact inv_inputRuns h hin

/-- R484: a held command that runs is the meaning of a command. -/
theorem ends_runCmd (c : HostCmd) (s : State) : Ends s (runCmd c s) := by
  cases c with
  | openSession p => exact ends_execOpenSession p s
  | status p => exact ends_execStatus p s
  | attest p => exact ends_execAttest p s
  | ctxSet p t => exact ends_execCtxSet p t s
  | streamWrite p => exact ends_execStreamWrite p s
  | invalidate p => exact ends_execInvalidate p s
  | preempt p => exact ends_execPreempt p s
  | coreSave p => exact ends_execCoreSave p s
  | coreRestore p => exact ends_execCoreRestore p s
  | gapAnswer p => exact ends_execGapAnswer p s
  | keyLoad p => exact ends_execKeyLoad p s
  | keyRetire p => exact ends_execKeyRetire p s
  | partitionSet p => exact ends_execPartitionSet p s
  | grantSetHost p => exact ends_execGrantSetHost p s
  | grantSetInbound p => exact ends_execGrantSetInbound p s
  | grantSetRoute p => exact ends_execGrantSetRoute p s
  | grantSetRank p => exact ends_execGrantSetRank p s
  | debugWrite p r => exact ends_execDebugWrite p r s
  | debugRead p r => exact ends_execDebugRead p r s
  | stop p => exact ends_execStop p s
  | step p => exact ends_execStep p s
  | resume p => exact ends_execResume p s
  | unknown opcode p => exact ends_execUnknownCommand opcode p s

theorem inv_cmdRun {s t : State} (h : s.Inv) (ht : cmdRun s = some t) : t.Inv := by
  obtain ⟨c, _, hc⟩ := List.exists_of_findSome?_eq_some ht
  refine (ends_runCmd c s).inv h ?_
  split at hc
  · next he => rw [he, Option.some.inj hc]
  · cases hc

/-! What a sub-wave attempts, and the issue of the sections. -/

theorem inv_attempt {s t : State} {w x : Nat} {v : Wave} {u : Sub} (h : s.Inv) (ht : attempt s w x v u = .next t) : t.Inv := by
  have hserved : ∀ n c, ({ fetchServed s v u.pc.toNat n with cur := c } : State).Inv := fun _ _ => h.congr rfl
  have hcur : ∀ c, ({ s with cur := c } : State).Inv := fun _ => h.congr rfl
  unfold attempt at ht
  split at ht
  · exact (ends_nextOf s _).inv h ht
  · exact (ends_exec _ _).inv (hserved _ _) ht
  · split at ht
    · exact (ends_nextOf s _).inv h ht
    · split at ht
      · refine (ends_bundleCur _ _ fun _ _ _ t1 h1 => ?_).inv (hcur (some (w, x))) ht
        obtain ⟨a, rfl⟩ := ends_nextOf s _ t1 h1
        exact ⟨a, rfl⟩
      · exact (ends_nextOf s _).inv h ht

theorem inv_tryIssue {s t : State} {w x : Nat} (h : s.Inv) (ht : tryIssue s w x = some t) : t.Inv := by
  unfold tryIssue at ht
  split at ht
  · cases ht
  · split at ht
    · cases ht
    · split at ht
      · split at ht
        · next ha =>
          split at ht
          · cases ht
          · exact inv_attempt h (Option.some.inj ht ▸ ha)
        · cases ht
      · cases ht

theorem inv_sectReady {s : State} {p k : Nat} {r : Ready} (h : s.Inv) (hr : r ∈ sectReady s p k) : r.t.Inv := by
  obtain ⟨l, hl, hrl⟩ := List.mem_flatten.1 hr
  obtain ⟨e, _, rfl⟩ := List.mem_map.1 hl
  obtain ⟨u, _, hu⟩ := List.mem_filterMap.1 hrl
  obtain ⟨t, ht, rfl⟩ := Option.map_eq_some_iff.1 hu
  exact inv_tryIssue h ht

/-- R135: the oldest of a list is one of it. -/
theorem oldest_mem {l : List Ready} {r : Ready} (h : oldest l = some r) : r ∈ l := by
  have hfold : ∀ (l : List Ready) (a : Ready), l.foldl (fun m b => if b.older m then b else m) a ∈ a :: l := by
    intro l
    induction l with
    | nil => exact fun a => List.mem_singleton.2 rfl
    | cons b r ih =>
      intro a
      rw [List.foldl_cons]
      rcases List.mem_cons.1 (ih (if b.older a then b else a)) with he | hr
      · rw [he]
        split
        · exact List.mem_cons_of_mem _ List.mem_cons_self
        · exact List.mem_cons_self
      · exact List.mem_cons_of_mem _ (List.mem_cons_of_mem _ hr)
  cases l with
  | nil => cases h
  | cons a r => exact Option.some.inj h ▸ hfold r a

/-- R135: the sub-wave a section picks is one that is ready. -/
theorem pickReady_mem {s : State} {p k : Nat} {l : List Ready} {r : Ready} (h : pickReady s p k l = some r) : r ∈ l := by
  unfold pickReady at h
  split at h
  · next ho => exact (List.mem_filter.1 (oldest_mem (Option.some.inj h ▸ ho))).1
  · split at h
    · rcases Option.or_eq_some_iff.1 h with hf | ⟨_, ho⟩
      · exact List.mem_of_find?_eq_some hf
      · exact oldest_mem ho
    · exact oldest_mem h

theorem inv_issues {s t : State} (h : s.Inv) (ht : t ∈ issues_ s) : t.Inv := by
  obtain ⟨c, _, hc⟩ := List.mem_filterMap.1 ht
  obtain ⟨r, hr, rfl⟩ := Option.map_eq_some_iff.1 hc
  exact (inv_sectReady h (pickReady_mem hr)).finish _

theorem chosenIssue_mem {s t : State} {l : List State} (h : chosenIssue s l = some t) : t ∈ l := by
  unfold chosenIssue at h
  split at h
  · cases h
  · exact List.mem_singleton.2 (Option.some.inj h).symm
  · exact List.mem_of_getElem? h

theorem chosen_mem {s t : State} {l : List State} (h : chosen s l = some t) : t ∈ l := by
  unfold chosen at h
  split at h
  · cases h
  · exact List.mem_of_getElem? h

/-! What follows a drain changes waves, channels and what the host is told, never memory (R422). -/

theorem mem_dropEntries (s : State) (l : List (Nat × Nat × Nat)) : (dropEntries s l).mem = s.mem := by
  induction l generalizing s with
  | nil => rfl
  | cons d r ih => exact ih _

theorem mem_contextFault (s : State) (w : Nat) (c : Cause) : (contextFault s w c).mem = s.mem := by
  unfold contextFault
  split
  · rfl
  · split <;> rfl

theorem mem_enterTrap (s : State) (w x : Nat) (t : Trap) : (enterTrap s w x t).mem = s.mem := by
  unfold enterTrap
  split
  · rfl
  · split
    · rfl
    · split
      · exact mem_contextFault _ _ _
      · rfl

theorem mem_takeAsync (s : State) (w x : Nat) (v : Wave) (t : Trap) : (takeAsync s w x v t).mem = s.mem := by
  have hs : (modWave (dropReads (freeWaits s v) w) w (·.stand)).mem = s.mem := mem_dropEntries _ _
  unfold takeAsync
  dsimp only
  split
  · exact hs
  · split
    · exact hs
    · exact (mem_enterTrap _ _ _ _).trans hs

theorem mem_takeCause (s : State) (w x : Nat) (v : Wave) (t : Trap) : (takeCause s w x v t).mem = s.mem := by
  unfold takeCause
  split
  · exact mem_takeAsync _ _ _ _ _
  · split <;> rfl

theorem mem_stepDeliver (s : State) (w : Nat) : (stepDeliver s w).mem = s.mem := by
  unfold stepDeliver
  split
  · rfl
  · split
    · rfl
    · dsimp only
      split
      · exact mem_takeCause _ _ _ _ _
      · rfl

theorem mem_stepStop (s : State) (w : Nat) : (stepStop s w).mem = s.mem := by
  unfold stepStop
  split
  · rfl
  · dsimp only
    split <;> rfl

theorem mem_stepEnd (s t : State) (w : Nat) : (stepEnd s t w).mem = t.mem := by
  unfold stepEnd
  split
  · split
    · dsimp only
      split
      · exact mem_stepDeliver _ _
      · exact (mem_stepStop _ _).trans (mem_stepDeliver _ _)
    · rfl
  · rfl

theorem mem_stepEnds (s t : State) : (stepEnds s t).mem = t.mem := by
  unfold stepEnds
  induction tblKeys s.waves generalizing t with
  | nil => rfl
  | cons w r ih => exact (ih _).trans (mem_stepEnd s t w)

/-! The step itself. -/

theorem inv_runDevice {s : State} (h : s.Inv) : (runDevice s).Inv := by
  unfold runDevice
  split
  · next t ht =>
    rcases Option.or_eq_some_iff.1 ht with hin | ⟨_, hdue⟩
    · rcases Option.or_eq_some_iff.1 hin with hinput | ⟨_, hcmd⟩
      · exact inv_inputRuns h (List.mem_of_head? hinput)
      · exact inv_cmdRun h hcmd
    · exact inv_firstRun h hdue
  · split
    · next t ht => exact inv_freeRuns h (chosen_mem ht)
    · split
      · next t ht =>
        rcases Option.or_eq_some_iff.1 ht with hissue | ⟨_, hdrain⟩
        · exact inv_issues h (chosenIssue_mem hissue)
        · obtain ⟨a, ha, rfl⟩ := Option.map_eq_some_iff.1 hdrain
          exact (inv_firstRun h ha).congr (mem_stepEnds s a)
      · exact h.finish _

theorem inv_nextState {s : State} (h : s.Inv) : (nextState s).Inv := by
  unfold nextState
  split
  · next i r _ =>
    cases hrun : runStep { s with agenda := r } i with
    | none => exact h.finish _
    | some t =>
      have hr : ({ s with agenda := r } : State).Inv := h.congr rfl
      exact inv_runStep hr hrun
  · split
    · cases hin : inputRuns s true with
      | nil => exact h.finish _
      | cons t r =>
        have ht : t ∈ inputRuns s true := hin ▸ List.mem_cons_self
        exact inv_inputRuns h ht
    · exact inv_runDevice h

theorem inv_tidy {t : State} (h : t.Inv) : (tidy t).Inv := by
  unfold tidy
  split
  · exact h.finish _
  · exact h

/-- Settles O4: the next state of a step is the end of a step over canonical memory, and what follows it at once ends one again. -/
theorem stepKeepsInvariant : Obligations.StepKeepsInvariant := by
  intro s t h ht
  unfold step at ht
  split at ht
  · cases ht
  · cases ht
    exact inv_tidy (inv_nextState h)

end Sys2Proof.Machine
end

section
/-! PROOFS. Decoding and encoding agree (R43 to R60, R64): a list of bit fields and the number that holds them, the form of each instruction, what each format's parser answers, and the rows of the opcode map. -/

namespace Sys2Proof

open Sys2Proof.Machine

/-! Lists of bit fields. -/

/-- The fields of a list, from bit `lo` up, are those of a number. -/
def FieldsAt : List (Nat × Nat) → Nat → Nat → Prop
  | [], _, _ => True
  | (w, v) :: r, lo, n => v % 2 ^ w = bits n lo w ∧ FieldsAt r (lo + w) n

/-- The bits that a list of fields takes. -/
def fieldsWidth (l : List (Nat × Nat)) : Nat := (l.map (·.1)).sum

theorem bits_add (n lo a b : Nat) : bits n lo (a + b) = bits n lo a + 2 ^ a * bits n (lo + a) b := by
  rw [bits, bits, bits, Nat.pow_add, Nat.mod_mul, Nat.pow_add, Nat.div_div_eq_div_mul]

theorem bits_lt (n lo w : Nat) : bits n lo w < 2 ^ w := Nat.mod_lt _ (Nat.two_pow_pos w)

/-- Fields are those of a number exactly where they pack into its bits. -/
theorem fieldsAt_iff (l : List (Nat × Nat)) (lo n : Nat) : FieldsAt l lo n ↔ packBits l = bits n lo (fieldsWidth l) := by
  induction l generalizing lo with
  | nil => simp [FieldsAt, packBits, fieldsWidth, bits, Nat.mod_one]
  | cons e r ih =>
    obtain ⟨w, v⟩ := e
    have hw : fieldsWidth ((w, v) :: r) = w + fieldsWidth r := rfl
    rw [FieldsAt, ih, packBits, hw, bits_add]
    have hv : v % 2 ^ w < 2 ^ w := Nat.mod_lt _ (Nat.two_pow_pos w)
    have hb := bits_lt n lo w
    constructor
    · rintro ⟨h1, h2⟩
      rw [h1, h2]
    · intro h
      have hlow : v % 2 ^ w = bits n lo w := by
        have := congrArg (· % 2 ^ w) h
        simpa [Nat.add_mul_mod_self_left, Nat.mod_eq_of_lt hb] using this
      exact ⟨hlow, Nat.eq_of_mul_eq_mul_left (Nat.two_pow_pos w) (by omega)⟩

theorem packBits_lt (l : List (Nat × Nat)) : packBits l < 2 ^ fieldsWidth l := by
  induction l with
  | nil => simp [packBits, fieldsWidth]
  | cons e r ih =>
    obtain ⟨w, v⟩ := e
    have hw : fieldsWidth ((w, v) :: r) = w + fieldsWidth r := rfl
    have hv : v % 2 ^ w < 2 ^ w := Nat.mod_lt _ (Nat.two_pow_pos w)
    rw [packBits, hw, Nat.pow_add]
    calc v % 2 ^ w + 2 ^ w * packBits r < 2 ^ w + 2 ^ w * packBits r := by omega
      _ = 2 ^ w * (packBits r + 1) := by rw [Nat.mul_add_one, Nat.add_comm]
      _ ≤ 2 ^ w * 2 ^ fieldsWidth r := Nat.mul_le_mul_left _ ih

/-- R43: a word is packed from 64 bits of fields exactly where they are its own. -/
theorem ofNat_packBits_eq_iff {l : List (Nat × Nat)} (hl : fieldsWidth l = 64) (w : Word) : BitVec.ofNat 64 (packBits l) = w ↔ FieldsAt l 0 w.toNat := by
  have hlt : packBits l < 2 ^ 64 := hl ▸ packBits_lt l
  have hw : bits w.toNat 0 64 = w.toNat := by simp [bits, Nat.mod_eq_of_lt w.isLt]
  rw [fieldsAt_iff, hl, hw, ← BitVec.toNat_inj, BitVec.toNat_ofNat, Nat.mod_eq_of_lt hlt]

/-- The values of fields of the given widths, from bit `lo` up. -/
def fieldValues : List Nat → Nat → Nat → List Nat
  | [], _, _ => []
  | w :: r, lo, n => bits n lo w :: fieldValues r (lo + w) n

theorem unpackBits_eq_fieldValues (ws : List Nat) (lo n : Nat) : unpackBits ws (n / 2 ^ lo) = fieldValues ws lo n := by
  induction ws generalizing lo with
  | nil => rfl
  | cons w r ih => rw [unpackBits, fieldValues, Nat.div_div_eq_div_mul, ← Nat.pow_add, ih]; rfl

theorem unpackBits_eq (ws : List Nat) (n : Nat) : unpackBits ws n = fieldValues ws 0 n := by
  simpa using unpackBits_eq_fieldValues ws 0 n

theorem bitAt_eq_decide (n k : Nat) : bitAt n k = decide (bits n k 1 = 1) := by
  rw [bitAt, Nat.testBit_eq_decide_div_mod_eq]
  simp [bits]

theorem ofBool_decide_bits (n k : Nat) : ofBool (decide (bits n k 1 = 1)) % 2 ^ 1 = bits n k 1 := by
  have := bits_lt n k 1
  unfold ofBool
  split <;> simp_all
  omega

theorem decide_bits_of_ofBool {b : Bool} {n k : Nat} (h : ofBool b % 2 ^ 1 = bits n k 1) : decide (bits n k 1 = 1) = b := by
  rw [← h]
  cases b <;> rfl

/-! Sign-extended fields. -/

theorem sext64_congr {k x y : Nat} (h : x % 2 ^ k = y % 2 ^ k) : sext64 k x = sext64 k y := by
  simp only [sext64, sint, h]

theorem toNat_sext64_mod {k : Nat} (hk : k ≤ 64) (x : Nat) : (sext64 k x).toNat % 2 ^ k = x % 2 ^ k := by
  have hd : ((2 ^ k : Nat) : Int) ∣ ((2 ^ 64 : Nat) : Int) := Int.natCast_dvd_natCast.2 (Nat.pow_dvd_pow 2 hk)
  have hs : ((sext64 k x).toNat : Int) % ((2 ^ k : Nat) : Int) = sint k x % ((2 ^ k : Nat) : Int) := by
    rw [sext64, BitVec.toNat_ofInt, Int.toNat_of_nonneg (Int.emod_nonneg _ (by decide))]
    exact Int.emod_emod_of_dvd _ hd
  have hx : sint k x % ((2 ^ k : Nat) : Int) = (x : Int) % ((2 ^ k : Nat) : Int) := by
    unfold sint
    dsimp only
    split
    · rw [Int.natCast_emod, Int.emod_emod_of_dvd _ (Int.dvd_refl _)]
    · rw [Int.sub_emod, Int.emod_self, Int.sub_zero, Int.emod_emod_of_dvd _ (Int.dvd_refl _), Int.natCast_emod, Int.emod_emod_of_dvd _ (Int.dvd_refl _)]
  exact_mod_cast hs.trans hx

theorem fitsSigned_sext64 {k : Nat} (hk : k ≤ 64) (x : Nat) : fitsSigned k (sext64 k x) = true :=
  decide_eq_true (sext64_congr (toNat_sext64_mod hk x))

/-- A field that fits is the sign extension of the bits it stands in. -/
theorem sext64_of_field {k n : Nat} {w : Word} (hf : fitsSigned k w = true) (h : w.toNat % 2 ^ k = bits n 0 k) : sext64 k n = w := by
  refine (sext64_congr ?_).trans (of_decide_eq_true hf)
  rw [h]
  simp [bits]

/-! Codes of types and roundings (R48, R57). -/

@[simp] theorem tyOf_tyCode (t : Ty) : tyOf (tyCode t) = some t := by cases t <;> rfl
@[simp] theorem rndOf_rndCode (r : Rnd) : rndOf (rndCode r) = some r := by cases r <;> rfl
theorem tyCode_lt (t : Ty) : tyCode t < 16 := by cases t <;> decide
theorem rndCode_lt (r : Rnd) : rndCode r < 8 := by cases r <;> decide

theorem tyCode_getD {n : Nat} (h : (tyOf n).isSome = true) : tyCode ((tyOf n).getD .dflt) = n := by
  unfold tyOf at h ⊢
  split at h <;> first | rfl | cases h

theorem rndCode_getD {n : Nat} (h : (rndOf n).isSome = true) : rndCode ((rndOf n).getD .mode) = n := by
  unfold rndOf at h ⊢
  split at h <;> first | rfl | cases h

/-! The fields of an instruction as one of the nine formats (R47). -/

/-- The fields of an instruction under its format. -/
inductive Form where
  | rrr (f : RRR)
  | ri (f : RI)
  | cv (f : CV)
  | mem (f : MEM)
  | atm (f : ATM)
  | br (f : BR)
  | sr (f : SR)
  | en (f : EN)
  | lp (f : LP)

/-- The fields common to all formats. -/
def Form.fields : Form → Fields
  | .rrr f => f.fields
  | .ri f => f.fields
  | .cv f => f.fields
  | .mem f => f.fields
  | .atm f => f.fields
  | .br f => f.fields
  | .sr f => f.fields
  | .en f => f.fields
  | .lp f => f.fields

/-- Whether the fields fit their bits. -/
def Form.fits (slot : Bool) : Form → Bool
  | .rrr f => f.fits
  | .ri f => f.fits slot
  | .cv f => f.fits
  | .mem f => f.fits slot
  | .atm f => f.fits
  | .br f => f.fits
  | .sr f => f.fits
  | .en f => f.fits
  | .lp f => f.fits

/-- The bit fields of the word. -/
def Form.bits (slot : Bool) (op : Nat) : Form → List (Nat × Nat)
  | .rrr f => rrrBits f op
  | .ri f => riBits slot f op
  | .cv f => cvBits f op
  | .mem f => memBits slot f op
  | .atm f => atmBits f op
  | .br f => brBits f op
  | .sr f => srBits f op
  | .en f => enBits f op
  | .lp f => lpBits f op

/-- The instruction that a row of the opcode map makes of fields of its format. -/
def OpRow.build : OpRow → Form → Option Instr
  | .rrr mk, .rrr f => some (mk f)
  | .ri mk, .ri f => some (mk f)
  | .cv mk, .cv f => some (mk f)
  | .mem mk, .mem f => some (mk f)
  | .atm mk, .atm f => some (mk f)
  | .br mk, .br f => some (mk f)
  | .sr mk, .sr f => some (mk f)
  | .en mk, .en f => some (mk f)
  | .lp mk, .lp f => some (mk f)
  | _, _ => none

theorem fieldsWidth_bits (slot : Bool) (op : Nat) (F : Form) : fieldsWidth (F.bits slot op) = 64 := by
  cases F <;> cases slot <;> simp [Form.bits, rrrBits, riBits, cvBits, memBits, atmBits, brBits, srBits, enBits, lpBits, headBits, fieldsWidth]

/-! What the parser of each format answers. -/

/-- The literal that a word takes from the word that follows. -/
def litIn (n : Nat) (next : Word) : Option Word := if hasLit n then some next else none

@[simp] theorem isSome_litIn (n : Nat) (next : Word) : (litIn n next).isSome = hasLit n := by
  unfold litIn
  cases hasLit n <;> rfl

/-- A parsed word that fails no test of its format. -/
def Parsed.clean (p : Parsed) : Prop := p.bad6 = false ∧ p.bad5 = false ∧ p.bad3 = false ∧ p.bad4 = false

theorem checkParsed_eq_none_iff (env : DecEnv) (p : Parsed) : checkParsed env p = none ↔ check env p.i = none ∧ p.clean := by
  obtain ⟨i, b6, b5, b3, b4⟩ := p
  unfold checkParsed Parsed.clean
  dsimp only
  constructor
  · intro h
    split at h
    · cases h
    · cases h
    · cases h
    · grind
  · rintro ⟨hc, rfl, rfl, rfl, rfl⟩
    simp [hc]

theorem field_eq {v w lo n : Nat} (hv : v < 2 ^ w) (h : v % 2 ^ w = bits n lo w) : bits n lo w = v := by
  rw [← h, Nat.mod_eq_of_lt hv]

theorem bitAt_of_ofBool {b : Bool} {n k : Nat} (h : ofBool b % 2 ^ 1 = bits n k 1) : bitAt n k = b := by
  rw [bitAt_eq_decide, decide_bits_of_ofBool h]

theorem ofBool_bitAt (n k : Nat) : ofBool (bitAt n k) % 2 ^ 1 = bits n k 1 := by
  rw [bitAt_eq_decide, ofBool_decide_bits]

theorem bits_mod (n lo w : Nat) : bits n lo w % 2 ^ w = bits n lo w := Nat.mod_eq_of_lt (bits_lt n lo w)

/-- R43: the fields above D name the guard and bit L. -/
theorem guardOf_of_headBits {g : Guard} {lit : Bool} {op n : Nat} (hg : g.fits = true) (h : FieldsAt (headBits g lit op) 49 n) : guardOf n = g ∧ hasLit n = lit ∧ bits n 54 10 = op % 2 ^ 10 := by
  obtain ⟨hp, hneg, hlit, hop, -⟩ := h
  refine ⟨?_, bitAt_of_ofBool hlit, hop.symm⟩
  have hp' : g.p < 2 ^ 3 := of_decide_eq_true hg
  rw [guardOf, field_eq hp' hp, bitAt_of_ofBool hneg]

theorem headBits_of_guardOf {lit : Bool} {n : Nat} (hl : lit = hasLit n) : FieldsAt (headBits (guardOf n) lit (bits n 54 10)) 49 n := by
  subst hl
  exact ⟨bits_mod n 49 3, ofBool_bitAt n 52, ofBool_bitAt n 53, bits_mod n 54 10, trivial⟩

theorem noGuardBad_eq_false_iff (n : Nat) : noGuardBad n = false ↔ guardOf n = Guard.none := by simp [noGuardBad]

theorem guard_fits (n : Nat) : (guardOf n).fits = true := decide_eq_true (bits_lt n 49 3)

/-! Format RRR (R48). -/

theorem parseRRR_of_fieldsAt (mk : RRR → Instr) {slot : Bool} {f : RRR} {op n : Nat} (hf : f.fits = true) (hs : slot = true → f.lit = none) (h : FieldsAt (rrrBits f op) 0 n) :
    parseRRR slot mk n f.lit = { i := mk f } := by
  simp only [RRR.fits, Bool.and_eq_true, decide_eq_true_eq] at hf
  obtain ⟨⟨⟨⟨⟨fg, fd⟩, fa⟩, fb⟩, fc⟩, ffn⟩ := hf
  obtain ⟨hfn, hsat, hrnd, hx2, hty, hsc, hsb, hsa, hfirst, hlast, hc, hb, ha, hd, hhead⟩ := h
  obtain ⟨hg, hl, -⟩ := guardOf_of_headBits fg hhead
  have hlit : (slot && hasLit n) = false := by cases slot <;> simp_all
  simp only [Nat.reduceAdd] at *
  simp only [parseRRR, unpackBits_eq, fieldValues, Nat.reduceAdd, hlit, hg, field_eq ffn hfn, field_eq (rndCode_lt f.rnd) hrnd, field_eq (tyCode_lt f.ty) hty, field_eq fc hc, field_eq fb hb, field_eq fa ha,
    field_eq fd hd, decide_bits_of_ofBool hsat, decide_bits_of_ofBool hx2, decide_bits_of_ofBool hsc, decide_bits_of_ofBool hsb, decide_bits_of_ofBool hsa, decide_bits_of_ofBool hfirst, decide_bits_of_ofBool hlast,
    tyOf_tyCode, rndOf_rndCode, Option.getD_some, Option.isNone_some, Bool.or_self]

theorem fieldsAt_of_parseRRR (mk : RRR → Instr) {slot : Bool} {n : Nat} {lit : Option Word} (hl : lit.isSome = hasLit n) (hc : (parseRRR slot mk n lit).clean) :
    ∃ f : RRR, (parseRRR slot mk n lit).i = mk f ∧ f.fits = true ∧ f.lit = lit ∧ FieldsAt (rrrBits f (bits n 54 10)) 0 n := by
  obtain ⟨-, -, hbad, -⟩ := hc
  simp only [parseRRR, unpackBits_eq, fieldValues, Nat.reduceAdd, Bool.or_eq_false_iff, Option.isNone_eq_false_iff] at hbad ⊢
  obtain ⟨hty, hrnd⟩ := hbad
  refine ⟨_, rfl, ?_, rfl, ?_⟩
  · simp only [RRR.fits, guard_fits, Bool.true_and, Bool.and_eq_true, decide_eq_true_eq]
    exact ⟨⟨⟨⟨bits_lt n 41 8, bits_lt n 33 8⟩, bits_lt n 25 8⟩, bits_lt n 17 8⟩, bits_lt n 0 3⟩
  · refine ⟨bits_mod n 0 3, ofBool_decide_bits n 3, ?_, ofBool_decide_bits n 7, ?_, ofBool_decide_bits n 12, ofBool_decide_bits n 13, ofBool_decide_bits n 14, ofBool_decide_bits n 15, ofBool_decide_bits n 16,
      bits_mod n 17 8, bits_mod n 25 8, bits_mod n 33 8, bits_mod n 41 8, headBits_of_guardOf hl⟩
    · rw [rndCode_getD hrnd]; exact bits_mod n 4 3
    · rw [tyCode_getD hty]; exact bits_mod n 8 4

/-! Format RI (R49). -/

/-- The 31 bits of an immediate that lie apart in a bundle's word. -/
theorem split_imm {x n : Nat} (hlow : x % 2 ^ 15 = bits n 0 15) (hhigh : x / 2 ^ 15 % 2 ^ 16 = bits n 17 16) : x % 2 ^ 31 = bits n 0 15 + 2 ^ 15 * bits n 17 16 := by
  rw [← hlow, ← hhigh]
  exact Nat.mod_mul (x := x) (a := 2 ^ 15) (b := 2 ^ 16)

theorem parseRI_of_fieldsAt (mk : RI → Instr) {slot : Bool} {f : RI} {op n : Nat} (hf : f.fits slot = true) (hs : slot = true → f.lit = none) (hi : slot = false → f.last = false ∧ f.first = false)
    (h : FieldsAt (riBits slot f op) 0 n) : parseRI slot mk n f.lit = { i := mk f } := by
  obtain ⟨lit, d, a, last, first, imm⟩ := f
  simp only [RI.fits, Bool.and_eq_true, decide_eq_true_eq] at hf
  obtain ⟨⟨fd, fa⟩, fimm⟩ := hf
  cases slot with
  | true =>
    obtain rfl : lit = none := hs rfl
    obtain ⟨hlow, hfirst, hlast, hhigh, ha, hd, hhead⟩ := h
    obtain ⟨hg, hl, -⟩ := guardOf_of_headBits rfl hhead
    have himm : sext64 31 (bits n 0 15 + 2 ^ 15 * bits n 17 16) = imm := by
      rw [← split_imm hlow hhigh]
      exact (sext64_congr (Nat.mod_mod _ _)).trans (of_decide_eq_true fimm)
    simp only [Nat.reduceAdd] at *
    simp only [parseRI, if_true, hl, (noGuardBad_eq_false_iff n).2 hg, himm, field_eq fd hd, field_eq fa ha, bitAt_of_ofBool hfirst, bitAt_of_ofBool hlast, Option.isSome_none]
  | false =>
    obtain ⟨rfl, rfl⟩ := hi rfl
    obtain ⟨himm, ha, hd, hhead⟩ := h
    obtain ⟨hg, hl, -⟩ := guardOf_of_headBits rfl hhead
    have hbad : (hasLit n && decide (bits n 0 33 ≠ 0)) = false ∧ sext64 33 n = imm := by
      cases lit with
      | none =>
        simp only [hl, Option.isSome_none, Bool.false_and, true_and]
        exact sext64_of_field fimm himm
      | some l =>
        have h0 : imm = 0 := of_decide_eq_true fimm
        subst h0
        have hz : bits n 0 33 = 0 := himm.symm
        exact ⟨by simp [hz], sext64_of_field rfl himm⟩
    simp only [Nat.reduceAdd] at *
    simp only [parseRI, Bool.false_eq_true, if_false, hbad.1, hbad.2, (noGuardBad_eq_false_iff n).2 hg, field_eq fd hd, field_eq fa ha]

theorem fieldsAt_of_parseRI (mk : RI → Instr) {slot : Bool} {n : Nat} {lit : Option Word} (hl : lit.isSome = hasLit n) (hc : (parseRI slot mk n lit).clean) :
    ∃ f : RI, (parseRI slot mk n lit).i = mk f ∧ f.fits slot = true ∧ f.lit = lit ∧ FieldsAt (riBits slot f (bits n 54 10)) 0 n := by
  obtain ⟨hlit, hg, -, -⟩ := hc
  cases slot with
  | true =>
    simp only [parseRI, if_true] at hlit hg ⊢
    have hfits := toNat_sext64_mod (k := 31) (by decide) (bits n 0 15 + 2 ^ 15 * bits n 17 16)
    have hlow := bits_lt n 0 15
    have hhigh := bits_lt n 17 16
    refine ⟨_, rfl, ?_, rfl, ?_⟩
    · simp only [RI.fits, hl, hlit, Bool.false_eq_true, if_false, if_true, Bool.and_eq_true, decide_eq_true_eq]
      exact ⟨⟨bits_lt n 41 8, bits_lt n 33 8⟩, fitsSigned_sext64 (by decide) _⟩
    · refine ⟨?_, ofBool_bitAt n 15, ofBool_bitAt n 16, ?_, bits_mod n 33 8, bits_mod n 41 8, (noGuardBad_eq_false_iff n).1 hg ▸ headBits_of_guardOf hl⟩
      · dsimp only
        omega
      · simp only [Nat.reduceAdd]
        omega
  | false =>
    simp only [parseRI, Bool.false_eq_true, if_false, Bool.and_eq_false_iff, decide_eq_false_iff_not, ne_eq, Classical.not_not] at hlit hg ⊢
    refine ⟨_, rfl, ?_, rfl, ?_⟩
    · simp only [RI.fits, Bool.false_eq_true, if_false, Bool.and_eq_true, decide_eq_true_eq]
      refine ⟨⟨bits_lt n 41 8, bits_lt n 33 8⟩, ?_⟩
      split
      · next hsome =>
        have hz : bits n 0 33 = 0 := hlit.resolve_left (by simp [← hl, hsome])
        refine decide_eq_true ((sext64_congr (y := 0) ?_).trans rfl)
        rw [← hz]
        simp [bits]
      · exact fitsSigned_sext64 (by decide) _
    · refine ⟨?_, bits_mod n 33 8, bits_mod n 41 8, (noGuardBad_eq_false_iff n).1 hg ▸ headBits_of_guardOf hl⟩
      rw [toNat_sext64_mod (by decide)]
      simp [bits]

/-! Format CV (R50). -/

theorem parseCV_of_fieldsAt (mk : CV → Instr) {f : CV} {op n : Nat} (hf : f.fits = true) (h : FieldsAt (cvBits f op) 0 n) : parseCV mk n = { i := mk f } := by
  simp only [CV.fits, Bool.and_eq_true, decide_eq_true_eq] at hf
  obtain ⟨⟨⟨⟨fg, fd⟩, fa⟩, fsf⟩, fdf⟩ := hf
  obtain ⟨hfn, hsat, hrnd, hx2, hty, hsc, hsb, hsa, hfirst, hlast, hdf, hz5, hsf, hz1, hst, ha, hd, hhead⟩ := h
  obtain ⟨hg, hl, -⟩ := guardOf_of_headBits fg hhead
  simp only [Nat.reduceAdd, Nat.zero_mod] at *
  simp only [parseCV, unpackBits_eq, fieldValues, Nat.reduceAdd, hl, hg, ← hfn, field_eq (rndCode_lt f.rnd) hrnd, ← hx2, field_eq (tyCode_lt f.ty) hty, ← hsc, ← hsb, ← hz5, ← hz1, field_eq (tyCode_lt f.stype) hst,
    field_eq fdf hdf, field_eq fsf hsf, field_eq fa ha, field_eq fd hd, decide_bits_of_ofBool hsat, decide_bits_of_ofBool hsa, decide_bits_of_ofBool hfirst, decide_bits_of_ofBool hlast,
    tyOf_tyCode, rndOf_rndCode, Option.getD_some, Option.isNone_some, ne_eq, not_true_eq_false, decide_false, Bool.or_self]

theorem fieldsAt_of_parseCV (mk : CV → Instr) {n : Nat} (hc : (parseCV mk n).clean) :
    hasLit n = false ∧ ∃ f : CV, (parseCV mk n).i = mk f ∧ f.fits = true ∧ FieldsAt (cvBits f (bits n 54 10)) 0 n := by
  obtain ⟨hlit, -, hbad, -⟩ := hc
  simp only [parseCV, unpackBits_eq, fieldValues, Nat.reduceAdd, Bool.or_eq_false_iff, Option.isNone_eq_false_iff, decide_eq_false_iff_not, ne_eq, Classical.not_not] at hlit hbad ⊢
  obtain ⟨⟨⟨⟨⟨⟨⟨⟨hty, hst⟩, hrnd⟩, hfn⟩, hx2⟩, hsc⟩, hsb⟩, hz5⟩, hz1⟩ := hbad
  refine ⟨hlit, _, rfl, ?_, ?_⟩
  · simp only [CV.fits, guard_fits, Bool.true_and, Bool.and_eq_true, decide_eq_true_eq]
    exact ⟨⟨⟨bits_lt n 41 8, bits_lt n 33 8⟩, bits_lt n 25 3⟩, bits_lt n 17 3⟩
  · refine ⟨hfn.symm, ofBool_decide_bits n 3, ?_, hx2.symm, ?_, hsc.symm, hsb.symm, ofBool_decide_bits n 14, ofBool_decide_bits n 15, ofBool_decide_bits n 16, bits_mod n 17 3, hz5.symm, bits_mod n 25 3, hz1.symm, ?_,
      bits_mod n 33 8, bits_mod n 41 8, headBits_of_guardOf hlit.symm⟩
    · rw [rndCode_getD hrnd]; exact bits_mod n 4 3
    · rw [tyCode_getD hty]; exact bits_mod n 8 4
    · rw [tyCode_getD hst]; exact bits_mod n 29 4

/-! Format MEM (R51). -/

theorem sext64_field (k n : Nat) (hk : k ≤ 64) : (sext64 k n).toNat % 2 ^ k = bits n 0 k := by
  rw [toNat_sext64_mod hk]
  simp [bits]

theorem parseMEM_of_fieldsAt (mk : MEM → Instr) {slot : Bool} {f : MEM} {op n : Nat} (hf : f.fits slot = true) (hs : slot = true → f.lit = none) (hi : slot = false → f.last = false ∧ f.first = false)
    (h : FieldsAt (memBits slot f op) 0 n) : parseMEM slot mk n f.lit = { i := mk f } := by
  obtain ⟨g, lit, d, a, b, c, last, first, off⟩ := f
  simp only [MEM.fits, Bool.and_eq_true, decide_eq_true_eq] at hf
  obtain ⟨⟨⟨⟨⟨fg, fd⟩, fa⟩, fb⟩, fc⟩, foff⟩ := hf
  cases slot with
  | true =>
    obtain rfl : lit = none := hs rfl
    obtain ⟨hoff, hfirst, hlast, hc, hb, ha, hd, hhead⟩ := h
    obtain ⟨hg, hl, -⟩ := guardOf_of_headBits fg hhead
    have hsext : sext64 15 n = off := sext64_of_field foff hoff
    simp only [Nat.reduceAdd] at *
    simp only [parseMEM, if_true, hl, hg, hsext, field_eq fc hc, field_eq fb hb, field_eq fa ha, field_eq fd hd, bitAt_of_ofBool hfirst, bitAt_of_ofBool hlast, Option.isSome_none]
  | false =>
    obtain ⟨rfl, rfl⟩ := hi rfl
    obtain ⟨hoff, hc, hb, ha, hd, hhead⟩ := h
    obtain ⟨hg, hl, -⟩ := guardOf_of_headBits fg hhead
    have hsext : sext64 17 n = off := sext64_of_field foff hoff
    simp only [Nat.reduceAdd] at *
    simp only [parseMEM, Bool.false_eq_true, if_false, hg, hsext, field_eq fc hc, field_eq fb hb, field_eq fa ha, field_eq fd hd]

theorem fieldsAt_of_parseMEM (mk : MEM → Instr) {slot : Bool} {n : Nat} {lit : Option Word} (hl : lit.isSome = hasLit n) :
    ∃ f : MEM, (parseMEM slot mk n lit).i = mk f ∧ f.fits slot = true ∧ f.lit = lit ∧ FieldsAt (memBits slot f (bits n 54 10)) 0 n := by
  cases slot with
  | true =>
    refine ⟨_, rfl, ?_, rfl, ?_⟩
    · simp only [MEM.fits, guard_fits, Bool.true_and, if_true, Bool.and_eq_true, decide_eq_true_eq]
      exact ⟨⟨⟨⟨bits_lt n 41 8, bits_lt n 33 8⟩, bits_lt n 25 8⟩, bits_lt n 17 8⟩, fitsSigned_sext64 (by decide) _⟩
    · exact ⟨sext64_field 15 n (by decide), ofBool_bitAt n 15, ofBool_bitAt n 16, bits_mod n 17 8, bits_mod n 25 8, bits_mod n 33 8, bits_mod n 41 8, headBits_of_guardOf hl⟩
  | false =>
    refine ⟨_, rfl, ?_, rfl, ?_⟩
    · simp only [MEM.fits, guard_fits, Bool.true_and, Bool.false_eq_true, if_false, Bool.and_eq_true, decide_eq_true_eq]
      exact ⟨⟨⟨⟨bits_lt n 41 8, bits_lt n 33 8⟩, bits_lt n 25 8⟩, bits_lt n 17 8⟩, fitsSigned_sext64 (by decide) _⟩
    · exact ⟨sext64_field 17 n (by decide), bits_mod n 17 8, bits_mod n 25 8, bits_mod n 33 8, bits_mod n 41 8, headBits_of_guardOf hl⟩

/-! Format ATM (R52). -/

theorem parseATM_of_fieldsAt (mk : ATM → Instr) {f : ATM} {op n : Nat} (hf : f.fits = true) (h : FieldsAt (atmBits f op) 0 n) : parseATM mk n = { i := mk f } := by
  simp only [ATM.fits, Bool.and_eq_true, decide_eq_true_eq] at hf
  obtain ⟨⟨⟨⟨⟨⟨fg, fd⟩, fa⟩, fb⟩, fc⟩, fat⟩, foff⟩ := hf
  obtain ⟨hoff, hat, hfirst, hlast, hc, hb, ha, hd, hhead⟩ := h
  obtain ⟨hg, hl, -⟩ := guardOf_of_headBits fg hhead
  simp only [Nat.reduceAdd] at *
  simp only [parseATM, hl, hg, sext64_of_field foff hoff, field_eq fat hat, field_eq fc hc, field_eq fb hb, field_eq fa ha, field_eq fd hd, bitAt_of_ofBool hfirst, bitAt_of_ofBool hlast]

theorem fieldsAt_of_parseATM (mk : ATM → Instr) {n : Nat} (hc : (parseATM mk n).clean) :
    hasLit n = false ∧ ∃ f : ATM, (parseATM mk n).i = mk f ∧ f.fits = true ∧ FieldsAt (atmBits f (bits n 54 10)) 0 n := by
  obtain ⟨hlit, -, -, -⟩ := hc
  refine ⟨hlit, _, rfl, ?_, ?_⟩
  · simp only [ATM.fits, guard_fits, Bool.true_and, Bool.and_eq_true, decide_eq_true_eq]
    exact ⟨⟨⟨⟨⟨bits_lt n 41 8, bits_lt n 33 8⟩, bits_lt n 25 8⟩, bits_lt n 17 8⟩, bits_lt n 10 5⟩, fitsSigned_sext64 (by decide) _⟩
  · exact ⟨sext64_field 10 n (by decide), bits_mod n 10 5, ofBool_bitAt n 15, ofBool_bitAt n 16, bits_mod n 17 8, bits_mod n 25 8, bits_mod n 33 8, bits_mod n 41 8, headBits_of_guardOf hlit.symm⟩

/-! Formats BR, SR, EN and LP (R53 to R56), which have no guard and no literal. -/

theorem headBits_of_noGuard {n : Nat} (hl : hasLit n = false) (hg : noGuardBad n = false) : FieldsAt (headBits .none false (bits n 54 10)) 49 n :=
  (noGuardBad_eq_false_iff n).1 hg ▸ headBits_of_guardOf hl.symm

theorem parseBR_of_fieldsAt (mk : BR → Instr) {f : BR} {op n : Nat} (hf : f.fits = true) (h : FieldsAt (brBits f op) 0 n) : parseBR mk n = { i := mk f } := by
  simp only [BR.fits, Bool.and_eq_true, decide_eq_true_eq] at hf
  obtain ⟨fd, foff⟩ := hf
  obtain ⟨hoff, hd, hhead⟩ := h
  obtain ⟨hg, hl, -⟩ := guardOf_of_headBits rfl hhead
  simp only [Nat.reduceAdd] at *
  simp only [parseBR, hl, (noGuardBad_eq_false_iff n).2 hg, sext64_of_field foff hoff, field_eq fd hd]

theorem fieldsAt_of_parseBR (mk : BR → Instr) {n : Nat} (hc : (parseBR mk n).clean) :
    hasLit n = false ∧ ∃ f : BR, (parseBR mk n).i = mk f ∧ f.fits = true ∧ FieldsAt (brBits f (bits n 54 10)) 0 n := by
  obtain ⟨hlit, hg, -, -⟩ := hc
  refine ⟨hlit, _, rfl, ?_, sext64_field 41 n (by decide), bits_mod n 41 8, headBits_of_noGuard hlit hg⟩
  simp only [BR.fits, Bool.and_eq_true, decide_eq_true_eq]
  exact ⟨bits_lt n 41 8, fitsSigned_sext64 (by decide) _⟩

theorem parseSR_of_fieldsAt (mk : SR → Instr) {f : SR} {op n : Nat} (hf : f.fits = true) (h : FieldsAt (srBits f op) 0 n) : parseSR mk n = { i := mk f } := by
  simp only [SR.fits, Bool.and_eq_true, decide_eq_true_eq] at hf
  obtain ⟨⟨fd, fa⟩, fsel⟩ := hf
  obtain ⟨hz, hsel, hz8, ha, hd, hhead⟩ := h
  obtain ⟨hg, hl, -⟩ := guardOf_of_headBits rfl hhead
  simp only [Nat.reduceAdd, Nat.zero_mod] at *
  simp only [parseSR, hl, (noGuardBad_eq_false_iff n).2 hg, ← hz, ← hz8, field_eq fsel hsel, field_eq fa ha, field_eq fd hd, ne_eq, not_true_eq_false, decide_false]

theorem fieldsAt_of_parseSR (mk : SR → Instr) {n : Nat} (hc : (parseSR mk n).clean) :
    hasLit n = false ∧ ∃ f : SR, (parseSR mk n).i = mk f ∧ f.fits = true ∧ FieldsAt (srBits f (bits n 54 10)) 0 n := by
  obtain ⟨hlit, hg, hz, hz8⟩ := hc
  have hz : bits n 0 17 = 0 := by simpa [parseSR] using hz
  have hz8 : bits n 25 8 = 0 := by simpa [parseSR] using hz8
  refine ⟨hlit, _, rfl, ?_, hz.symm, bits_mod n 17 8, hz8.symm, bits_mod n 33 8, bits_mod n 41 8, headBits_of_noGuard hlit hg⟩
  simp only [SR.fits, Bool.and_eq_true, decide_eq_true_eq]
  exact ⟨⟨bits_lt n 41 8, bits_lt n 33 8⟩, bits_lt n 17 8⟩

theorem parseEN_of_fieldsAt (mk : EN → Instr) {f : EN} {op n : Nat} (hf : f.fits = true) (h : FieldsAt (enBits f op) 0 n) : parseEN mk n = { i := mk f } := by
  simp only [EN.fits, Bool.and_eq_true, decide_eq_true_eq] at hf
  obtain ⟨⟨⟨⟨⟨⟨⟨fn, fko⟩, fa⟩, fb⟩, fc⟩, fka⟩, fkb⟩, fkc⟩ := hf
  obtain ⟨hkc, hkb, hka, hfirst, hlast, hc, hb, ha, hko, hn, hp, hhead⟩ := h
  obtain ⟨hg, hl, -⟩ := guardOf_of_headBits rfl hhead
  simp only [Nat.reduceAdd] at *
  simp only [parseEN, hl, (noGuardBad_eq_false_iff n).2 hg, field_eq fkc hkc, field_eq fkb hkb, field_eq fka hka, field_eq fc hc, field_eq fb hb, field_eq fa ha, field_eq fko hko, field_eq fn hn,
    bitAt_of_ofBool hp, bitAt_of_ofBool hfirst, bitAt_of_ofBool hlast]

theorem fieldsAt_of_parseEN (mk : EN → Instr) {n : Nat} (hc : (parseEN mk n).clean) :
    hasLit n = false ∧ ∃ f : EN, (parseEN mk n).i = mk f ∧ f.fits = true ∧ FieldsAt (enBits f (bits n 54 10)) 0 n := by
  obtain ⟨hlit, hg, -, -⟩ := hc
  refine ⟨hlit, _, rfl, ?_, bits_mod n 0 5, bits_mod n 5 5, bits_mod n 10 5, ofBool_bitAt n 15, ofBool_bitAt n 16, bits_mod n 17 8, bits_mod n 25 8, bits_mod n 33 8, bits_mod n 41 5, bits_mod n 46 2,
    ofBool_bitAt n 48, headBits_of_noGuard hlit hg⟩
  simp only [EN.fits, Bool.and_eq_true, decide_eq_true_eq]
  exact ⟨⟨⟨⟨⟨⟨⟨bits_lt n 46 2, bits_lt n 41 5⟩, bits_lt n 33 8⟩, bits_lt n 25 8⟩, bits_lt n 17 8⟩, bits_lt n 10 5⟩, bits_lt n 5 5⟩, bits_lt n 0 5⟩

theorem parseLP_of_fieldsAt (mk : LP → Instr) {f : LP} {op n : Nat} (hf : f.fits = true) (h : FieldsAt (lpBits f op) 0 n) : parseLP mk n = { i := mk f } := by
  simp only [LP.fits, Bool.and_eq_true, decide_eq_true_eq] at hf
  obtain ⟨⟨⟨fd, fa⟩, fb⟩, fl⟩ := hf
  obtain ⟨hlen, hz2, hz8, hb, ha, hd, hhead⟩ := h
  obtain ⟨hg, hl, -⟩ := guardOf_of_headBits rfl hhead
  simp only [Nat.reduceAdd, Nat.zero_mod] at *
  simp only [parseLP, hl, (noGuardBad_eq_false_iff n).2 hg, ← hz2, ← hz8, field_eq fl hlen, field_eq fb hb, field_eq fa ha, field_eq fd hd, ne_eq, not_true_eq_false, decide_false]

theorem fieldsAt_of_parseLP (mk : LP → Instr) {n : Nat} (hc : (parseLP mk n).clean) :
    hasLit n = false ∧ ∃ f : LP, (parseLP mk n).i = mk f ∧ f.fits = true ∧ FieldsAt (lpBits f (bits n 54 10)) 0 n := by
  obtain ⟨hlit, hg, hz2, hz8⟩ := hc
  have hz2 : bits n 15 2 = 0 := by simpa [parseLP] using hz2
  have hz8 : bits n 17 8 = 0 := by simpa [parseLP] using hz8
  refine ⟨hlit, _, rfl, ?_, bits_mod n 0 15, hz2.symm, hz8.symm, bits_mod n 25 8, bits_mod n 33 8, bits_mod n 41 8, headBits_of_noGuard hlit hg⟩
  simp only [LP.fits, Bool.and_eq_true, decide_eq_true_eq]
  exact ⟨⟨⟨bits_lt n 41 8, bits_lt n 33 8⟩, bits_lt n 25 8⟩, bits_lt n 0 15⟩

/-! The rows of the opcode map (R59, R60). -/

/-- An instruction has opcode `op` and the fields `F` of its format. -/
structure Formed (i : Instr) (op : Nat) (F : Form) : Prop where
  code : opOf i = some op
  fields : fieldsOf i = F.fields
  fits : ∀ slot, i.fits slot = F.fits slot
  bits : ∀ slot, wordBits slot i op = F.bits slot op

/-- A row of the opcode map makes instructions of its code and its format. -/
def OpRow.Makes (r : OpRow) (op : Nat) : Prop := ∀ F i, r.build F = some i → Formed i op F

theorem makes_rrr {mk : RRR → Instr} {op : Nat} (h : ∀ f, Formed (mk f) op (.rrr f)) : (OpRow.rrr mk).Makes op := by
  intro F i hb
  cases F <;> cases hb
  exact h _

theorem makes_ri {mk : RI → Instr} {op : Nat} (h : ∀ f, Formed (mk f) op (.ri f)) : (OpRow.ri mk).Makes op := by
  intro F i hb
  cases F <;> cases hb
  exact h _

theorem makes_cv {mk : CV → Instr} {op : Nat} (h : ∀ f, Formed (mk f) op (.cv f)) : (OpRow.cv mk).Makes op := by
  intro F i hb
  cases F <;> cases hb
  exact h _

theorem makes_mem {mk : MEM → Instr} {op : Nat} (h : ∀ f, Formed (mk f) op (.mem f)) : (OpRow.mem mk).Makes op := by
  intro F i hb
  cases F <;> cases hb
  exact h _

theorem makes_atm {mk : ATM → Instr} {op : Nat} (h : ∀ f, Formed (mk f) op (.atm f)) : (OpRow.atm mk).Makes op := by
  intro F i hb
  cases F <;> cases hb
  exact h _

theorem makes_br {mk : BR → Instr} {op : Nat} (h : ∀ f, Formed (mk f) op (.br f)) : (OpRow.br mk).Makes op := by
  intro F i hb
  cases F <;> cases hb
  exact h _

theorem makes_sr {mk : SR → Instr} {op : Nat} (h : ∀ f, Formed (mk f) op (.sr f)) : (OpRow.sr mk).Makes op := by
  intro F i hb
  cases F <;> cases hb
  exact h _

theorem makes_en {mk : EN → Instr} {op : Nat} (h : ∀ f, Formed (mk f) op (.en f)) : (OpRow.en mk).Makes op := by
  intro F i hb
  cases F <;> cases hb
  exact h _

theorem makes_lp {mk : LP → Instr} {op : Nat} (h : ∀ f, Formed (mk f) op (.lp f)) : (OpRow.lp mk).Makes op := by
  intro F i hb
  cases F <;> cases hb
  exact h _

theorem makes_tretOf : (OpRow.rrr tretOf).Makes 0x090 := by
  refine makes_rrr fun f => ?_
  unfold tretOf
  split <;> exact ⟨rfl, rfl, fun _ => rfl, fun _ => rfl⟩

theorem makes_xmodeOf : (OpRow.rrr xmodeOf).Makes 0x380 := by
  refine makes_rrr fun f => ?_
  unfold xmodeOf
  split
  · exact ⟨rfl, rfl, fun _ => rfl, fun _ => rfl⟩
  · split <;> exact ⟨rfl, rfl, fun _ => rfl, fun _ => rfl⟩

theorem makes_group0 {op : Nat} {r : OpRow} (h : opGroup0 op = some r) : r.Makes op := by
  unfold opGroup0 at h
  split at h <;> cases h <;> first | exact makes_rrr fun _ => ⟨rfl, rfl, fun _ => rfl, fun _ => rfl⟩ | exact makes_ri fun _ => ⟨rfl, rfl, fun _ => rfl, fun _ => rfl⟩ | exact makes_cv fun _ => ⟨rfl, rfl, fun _ => rfl, fun _ => rfl⟩

theorem makes_group1 {op : Nat} {r : OpRow} (h : opGroup1 op = some r) : r.Makes op := by
  unfold opGroup1 at h
  split at h <;> cases h <;> first | exact makes_br fun _ => ⟨rfl, rfl, fun _ => rfl, fun _ => rfl⟩ | exact makes_rrr fun _ => ⟨rfl, rfl, fun _ => rfl, fun _ => rfl⟩ | exact makes_mem fun _ => ⟨rfl, rfl, fun _ => rfl, fun _ => rfl⟩ | exact makes_sr fun _ => ⟨rfl, rfl, fun _ => rfl, fun _ => rfl⟩ | exact makes_ri fun _ => ⟨rfl, rfl, fun _ => rfl, fun _ => rfl⟩ | exact makes_tretOf

theorem makes_group2 {op : Nat} {r : OpRow} (h : opGroup2 op = some r) : r.Makes op := by
  unfold opGroup2 at h
  split at h <;> cases h <;> first | exact makes_rrr fun _ => ⟨rfl, rfl, fun _ => rfl, fun _ => rfl⟩

theorem makes_group3 {op : Nat} {r : OpRow} (h : opGroup3 op = some r) : r.Makes op := by
  unfold opGroup3 at h
  split at h <;> cases h <;> first | exact makes_rrr fun _ => ⟨rfl, rfl, fun _ => rfl, fun _ => rfl⟩ | exact makes_cv fun _ => ⟨rfl, rfl, fun _ => rfl, fun _ => rfl⟩

theorem makes_group4 {op : Nat} {r : OpRow} (h : opGroup4 op = some r) : r.Makes op := by
  unfold opGroup4 at h
  split at h <;> cases h <;> first | exact makes_rrr fun _ => ⟨rfl, rfl, fun _ => rfl, fun _ => rfl⟩ | exact makes_br fun _ => ⟨rfl, rfl, fun _ => rfl, fun _ => rfl⟩ | exact makes_mem fun _ => ⟨rfl, rfl, fun _ => rfl, fun _ => rfl⟩

theorem makes_group5 {op : Nat} {r : OpRow} (h : opGroup5 op = some r) : r.Makes op := by
  unfold opGroup5 at h
  split at h <;> cases h <;> first | exact makes_mem fun _ => ⟨rfl, rfl, fun _ => rfl, fun _ => rfl⟩ | exact makes_atm fun _ => ⟨rfl, rfl, fun _ => rfl, fun _ => rfl⟩ | exact makes_rrr fun _ => ⟨rfl, rfl, fun _ => rfl, fun _ => rfl⟩

theorem makes_group6 {op : Nat} {r : OpRow} (h : opGroup6 op = some r) : r.Makes op := by
  unfold opGroup6 at h
  split at h <;> cases h <;> first | exact makes_en fun _ => ⟨rfl, rfl, fun _ => rfl, fun _ => rfl⟩

theorem makes_group7 {op : Nat} {r : OpRow} (h : opGroup7 op = some r) : r.Makes op := by
  unfold opGroup7 at h
  split at h <;> cases h <;> first | exact makes_rrr fun _ => ⟨rfl, rfl, fun _ => rfl, fun _ => rfl⟩ | exact makes_lp fun _ => ⟨rfl, rfl, fun _ => rfl, fun _ => rfl⟩ | exact makes_xmodeOf

/-- R59, R60: every row makes instructions of its own code, which fits the ten bits of OP. -/
theorem makes_of_opRow {op : Nat} {r : OpRow} (h : opRow op = some r) : r.Makes op ∧ op < 2 ^ 10 := by
  unfold opRow at h
  split at h
  · exact ⟨makes_group0 h, by omega⟩
  · exact ⟨makes_group1 h, by omega⟩
  · exact ⟨makes_group2 h, by omega⟩
  · exact ⟨makes_group3 h, by omega⟩
  · exact ⟨makes_group4 h, by omega⟩
  · exact ⟨makes_group5 h, by omega⟩
  · exact ⟨makes_group6 h, by omega⟩
  · exact ⟨makes_group7 h, by omega⟩
  · cases h

/-- R64: an instruction that passes the tests has a function code that its entry accepts. -/
theorem fn_mem_of_check {env : DecEnv} {i : Instr} (h : check env i = none) : (fieldsOf i).fn ∈ (specOf env.slot i).fns := by
  obtain ⟨-, -, -, -, -, hmod, -, -⟩ := (check_none_iff env i).1 h
  simp only [modBad, Bool.or_eq_false_iff, Bool.not_eq_false', decide_eq_true_eq] at hmod
  obtain ⟨⟨⟨⟨⟨⟨-, hfn⟩, -⟩, -⟩, -⟩, -⟩, -⟩ := hmod
  exact hfn

/-- R59, R60, R183, R395: an instruction that passes the tests is made by the row of its code. -/
theorem row_of_check {env : DecEnv} {i : Instr} {op : Nat} (hc : check env i = none) (ho : opOf i = some op) : ∃ r F, opRow op = some r ∧ r.build F = some i := by
  have hfn := fn_mem_of_check hc
  cases i with
  | tret f =>
    cases ho
    have h0 : f.fn = 0 := by simpa [specOf, fieldsOf, RRR.fields] using hfn
    exact ⟨.rrr tretOf, .rrr f, rfl, by simp [OpRow.build, tretOf, h0]⟩
  | tretPark f =>
    cases ho
    have h1 : f.fn = 1 := by simpa [specOf, fieldsOf, RRR.fields] using hfn
    exact ⟨.rrr tretOf, .rrr f, rfl, by simp [OpRow.build, tretOf, h1]⟩
  | xmodeB f =>
    cases ho
    have h0 : f.fn = 0 := by
      have hmem : f.fn ∈ [0] := hfn
      simpa using hmem
    exact ⟨.rrr xmodeOf, .rrr f, rfl, by simp [OpRow.build, xmodeOf, h0]⟩
  | xmodeBMx f =>
    cases ho
    have h1 : f.fn = 1 := by simpa [specOf, fieldsOf, RRR.fields] using hfn
    exact ⟨.rrr xmodeOf, .rrr f, rfl, by simp [OpRow.build, xmodeOf, h1]⟩
  | xmodeS f =>
    cases ho
    have h2 : f.fn = 2 := by simpa [specOf, fieldsOf, RRR.fields] using hfn
    exact ⟨.rrr xmodeOf, .rrr f, rfl, by simp [OpRow.build, xmodeOf, h2]⟩
  | sli f | trap f | mark f | brk f => exact ⟨_, .ri f, by cases ho; rfl, rfl⟩
  | sfcvt f | vcvt f => exact ⟨_, .cv f, by cases ho; rfl, rfl⟩
  | jmp f | jc f | call f | brv f => exact ⟨_, .br f, by cases ho; rfl, rfl⟩
  | callx f | sld f | sst f | vunpk f | vpack f | vld f | vst f | lds f | sts f | stm f | vlds f | fence f | align f | prefetch f | discard f | pin f | unpin f =>
    exact ⟨_, .mem f, by cases ho; rfl, rfl⟩
  | sread f | swrite f => exact ⟨_, .sr f, by cases ho; rfl, rfl⟩
  | vatom f | satom f => exact ⟨_, .atm f, by cases ho; rfl, rfl⟩
  | loop f => exact ⟨_, .lp f, by cases ho; rfl, rfl⟩
  | trec f | tcopy f | kwait f | kjoin f | gset f | garr f | gwait f | gsync f | yield f | fset f | mbld f | mma f | mclr f | mst f | mlat f | jld f
  | treg f | tdrop f | tfind f | tmove f | solicit f | answer f | cwait f | post f | rnext f | qbind f | creduce f => exact ⟨_, .en f, by cases ho; rfl, rfl⟩
  | sadd f | ssub f | smul f | smulh f | sdiv f | srem f | sand f | sor f | sxor f | sandn f | sshl f | sshr f | ssar f | srot f | smin f | smax f
  | sabs f | sclz f | spopc f | sbfx f | sbfi f | sext f | scmp f | ssel f | smov f | sfadd f | sfmul f | sffma f | sfcmp f | jmpx f | ret f | endThread f
  | nop f | remap f | vadd f | vsub f | vmul f | vmulh f | vmad f | vand f | vor f | vxor f | vandn f | vshl f | vshr f | vsar f
  | vmin f | vmax f | vabs f | vclz f | vpopc f | vbfx f | vbfi f | vcmp f | vsel f | vmov f | vaddc f | vfadd f | vfsub f | vfmul f | vffma f | vfmin f
  | vfmax f | vfcmp f | vrcp f | vrsq f | vsqrt f | vexp2 f | vlog2 f | vsin f | vcos f | vfclass f | vshf f | vshfi f | vbcast f | vrfl f | vwlane f | vballot f
  | vvote f | vred f | vscan f | plog f | pmov f | pcnt f | join f | wend f | waitv f | xmov f | xbcast f | lexit f => exact ⟨_, .rrr f, by cases ho; rfl, rfl⟩
  | _ => cases ho

/-! A row's parser against the fields of its format. -/

theorem fieldsAt_append (l r : List (Nat × Nat)) (lo n : Nat) : FieldsAt (l ++ r) lo n ↔ FieldsAt l lo n ∧ FieldsAt r (lo + fieldsWidth l) n := by
  induction l generalizing lo with
  | nil => simp [FieldsAt, fieldsWidth]
  | cons e l ih =>
    have hw : fieldsWidth (e :: l) = e.1 + fieldsWidth l := rfl
    rw [List.cons_append, FieldsAt, FieldsAt, ih, hw, and_assoc, Nat.add_assoc]

/-- R43: every format has the head above its own fields. -/
theorem exists_headBits (slot : Bool) (op : Nat) (F : Form) : ∃ l g, F.bits slot op = l ++ headBits g F.fields.lit.isSome op ∧ fieldsWidth l = 49 := by
  cases F with
  | ri f => cases slot <;> exact ⟨_, _, rfl, by simp [fieldsWidth]⟩
  | mem f => cases slot <;> exact ⟨_, _, rfl, by simp [fieldsWidth]⟩
  | _ => exact ⟨_, _, rfl, by simp [fieldsWidth]⟩

theorem head_of_fieldsAt {slot : Bool} {op n : Nat} {F : Form} (h : FieldsAt (F.bits slot op) 0 n) : hasLit n = F.fields.lit.isSome ∧ bits n 54 10 = op % 2 ^ 10 := by
  obtain ⟨l, g, hl, hw⟩ := exists_headBits slot op F
  rw [hl, fieldsAt_append, hw] at h
  obtain ⟨-, -, -, hlit, hop, -⟩ := h
  exact ⟨bitAt_of_ofBool hlit, hop.symm⟩

theorem parseRow_of_fieldsAt {r : OpRow} {F : Form} {i : Instr} {slot : Bool} {op n : Nat} (hb : r.build F = some i) (hf : F.fits slot = true) (hs : slot = true → F.fields.lit = none)
    (hi : slot = false → F.fields.last = false ∧ F.fields.first = false) (h : FieldsAt (F.bits slot op) 0 n) : parseRow slot r n F.fields.lit = { i := i } := by
  cases r <;> cases F <;> cases hb
  case rrr mk f => exact parseRRR_of_fieldsAt mk hf hs h
  case ri mk f => exact parseRI_of_fieldsAt mk hf hs hi h
  case cv mk f => exact parseCV_of_fieldsAt mk hf h
  case mem mk f => exact parseMEM_of_fieldsAt mk hf hs hi h
  case atm mk f => exact parseATM_of_fieldsAt mk hf h
  case br mk f => exact parseBR_of_fieldsAt mk hf h
  case sr mk f => exact parseSR_of_fieldsAt mk hf h
  case en mk f => exact parseEN_of_fieldsAt mk hf h
  case lp mk f => exact parseLP_of_fieldsAt mk hf h

theorem fieldsAt_of_parseRow {r : OpRow} {slot : Bool} {n : Nat} {next : Word} (hc : (parseRow slot r n (litIn n next)).clean) :
    ∃ F, r.build F = some (parseRow slot r n (litIn n next)).i ∧ F.fits slot = true ∧ F.fields.lit = litIn n next ∧ FieldsAt (F.bits slot (bits n 54 10)) 0 n := by
  have hnone : hasLit n = false → none = litIn n next := fun h => by simp [litIn, h]
  cases r with
  | rrr mk =>
    obtain ⟨f, hp, hf, hl, h⟩ := fieldsAt_of_parseRRR mk (isSome_litIn n next) hc
    exact ⟨.rrr f, congrArg some hp.symm, hf, hl, h⟩
  | ri mk =>
    obtain ⟨f, hp, hf, hl, h⟩ := fieldsAt_of_parseRI mk (isSome_litIn n next) hc
    exact ⟨.ri f, congrArg some hp.symm, hf, hl, h⟩
  | mem mk =>
    obtain ⟨f, hp, hf, hl, h⟩ := fieldsAt_of_parseMEM mk (slot := slot) (isSome_litIn n next)
    exact ⟨.mem f, congrArg some hp.symm, hf, hl, h⟩
  | cv mk =>
    obtain ⟨hl, f, hp, hf, h⟩ := fieldsAt_of_parseCV mk hc
    exact ⟨.cv f, congrArg some hp.symm, hf, hnone hl, h⟩
  | atm mk =>
    obtain ⟨hl, f, hp, hf, h⟩ := fieldsAt_of_parseATM mk hc
    exact ⟨.atm f, congrArg some hp.symm, hf, hnone hl, h⟩
  | br mk =>
    obtain ⟨hl, f, hp, hf, h⟩ := fieldsAt_of_parseBR mk hc
    exact ⟨.br f, congrArg some hp.symm, hf, hnone hl, h⟩
  | sr mk =>
    obtain ⟨hl, f, hp, hf, h⟩ := fieldsAt_of_parseSR mk hc
    exact ⟨.sr f, congrArg some hp.symm, hf, hnone hl, h⟩
  | en mk =>
    obtain ⟨hl, f, hp, hf, h⟩ := fieldsAt_of_parseEN mk hc
    exact ⟨.en f, congrArg some hp.symm, hf, hnone hl, h⟩
  | lp mk =>
    obtain ⟨hl, f, hp, hf, h⟩ := fieldsAt_of_parseLP mk hc
    exact ⟨.lp f, congrArg some hp.symm, hf, hnone hl, h⟩

/-! Decoding and encoding (R64). -/

theorem encodeIn_of_formed {i : Instr} {op : Nat} {F : Form} (h : Formed i op F) (slot : Bool) : encodeIn slot i = BitVec.ofNat 64 (packBits (F.bits slot op)) :: F.fields.lit.toList := by
  simp only [encodeIn, h.code, h.bits, litOf, h.fields]

/-- R46: no word of a bundle carries a literal that passes the tests. -/
theorem lit_none_of_check {env : DecEnv} {i : Instr} (h : check env i = none) (hs : env.slot.isSome = true) : (fieldsOf i).lit = none := by
  obtain ⟨-, -, -, hlit, -, -, -, -⟩ := (check_none_iff env i).1 h
  cases hl : (fieldsOf i).lit with
  | none => rfl
  | some l => simp [litBad, hl, hs] at hlit

/-- R64: LAST and FIRST pass the tests only in a bundle. -/
theorem noIter_of_check {env : DecEnv} {i : Instr} (h : check env i = none) (hs : env.slot.isSome = false) : (fieldsOf i).last = false ∧ (fieldsOf i).first = false := by
  obtain ⟨-, -, -, -, -, hmod, -, -⟩ := (check_none_iff env i).1 h
  simp only [modBad, Bool.or_eq_false_iff] at hmod
  obtain ⟨⟨⟨⟨⟨⟨⟨⟨⟨⟨hiter, -⟩, -⟩, -⟩, -⟩, -⟩, -⟩, -⟩, -⟩, -⟩, -⟩ := hmod
  have hn : env.slot.isNone = true := by simpa using hs
  simpa [hn] using hiter

/-- An instruction that fits some word has an opcode. -/
theorem opOf_of_fits {slot : Bool} {i : Instr} (h : i.fits slot = true) : ∃ op, opOf i = some op := by
  cases i <;> first | exact ⟨_, rfl⟩ | cases h

/-- R64: the word of a well-formed instruction decodes to it. -/
theorem decodeWord_of_fieldsAt {env : DecEnv} {i : Instr} {op : Nat} {r : OpRow} {F : Form} {w next : Word} (hr : opRow op = some r) (hb : r.build F = some i) (hc : check env i = none) (hf : F.fits env.slot.isSome = true)
    (h : FieldsAt (F.bits env.slot.isSome op) 0 w.toNat) (hnext : ∀ l, F.fields.lit = some l → next = l) : decodeWord env w next = .ok i := by
  obtain ⟨hmakes, hop⟩ := makes_of_opRow hr
  have hform := hmakes F i hb
  obtain ⟨hlit, hcode⟩ := head_of_fieldsAt h
  rw [Nat.mod_eq_of_lt hop] at hcode
  have hl : (if hasLit w.toNat then some next else none) = F.fields.lit := by
    rw [hlit]
    cases hF : F.fields.lit with
    | none => rfl
    | some l => simp [hnext l hF]
  have hp := parseRow_of_fieldsAt hb hf (fun hs => hform.fields ▸ lit_none_of_check hc hs) (fun hs => hform.fields ▸ noIter_of_check hc hs) h
  simp only [decodeWord, hcode, hr, hl, hp, (checkParsed_eq_none_iff env { i := i }).2 ⟨hc, rfl, rfl, rfl, rfl⟩]

/-- R64: a word that decodes holds the fields of its instruction. -/
theorem fieldsAt_of_decodeWord {env : DecEnv} {i : Instr} {w next : Word} (h : decodeWord env w next = .ok i) :
    check env i = none ∧ ∃ op F, Formed i op F ∧ F.fits env.slot.isSome = true ∧ F.fields.lit = litIn w.toNat next ∧ FieldsAt (F.bits env.slot.isSome op) 0 w.toNat := by
  unfold decodeWord at h
  dsimp only at h
  split at h
  · cases h
  · next r hr =>
    split at h
    · cases h
    · next hp =>
      cases h
      obtain ⟨hc, hclean⟩ := (checkParsed_eq_none_iff _ _).1 hp
      obtain ⟨F, hb, hf, hl, hat⟩ := fieldsAt_of_parseRow hclean
      exact ⟨hc, _, F, (makes_of_opRow hr).1 F _ hb, hf, hl, hat⟩

/-- Settles O2: a word and its fields determine each other, each format's parser inverts its list of fields, and each row of the opcode map makes instructions of its own code. -/
theorem decodeEncodes : Obligations.DecodeEncodes := by
  constructor
  · intro env i hwf
    simp only [Instr.wfIn, Bool.and_eq_true, decide_eq_true_eq] at hwf
    obtain ⟨hfits, hc⟩ := hwf
    obtain ⟨op, ho⟩ := opOf_of_fits hfits
    obtain ⟨r, F, hr, hb⟩ := row_of_check hc ho
    have hform := (makes_of_opRow hr).1 F i hb
    refine ⟨BitVec.ofNat 64 (packBits (F.bits env.slot.isSome op)), ?_, fun next hnext => ?_⟩
    · rw [encodeIn_of_formed hform, litOf, hform.fields]
    · have hat := (ofNat_packBits_eq_iff (fieldsWidth_bits env.slot.isSome op F) _).1 rfl
      exact decodeWord_of_fieldsAt hr hb hc (hform.fits _ ▸ hfits) hat (by simpa only [litOf, hform.fields] using hnext)
  · intro env w next i hd
    obtain ⟨hc, op, F, hform, hf, hl, hat⟩ := fieldsAt_of_decodeWord hd
    refine ⟨?_, ?_⟩
    · simp only [Instr.wfIn, hc, hform.fits, hf, decide_true, Bool.and_self]
    · rw [encodeIn_of_formed hform, (ofNat_packBits_eq_iff (fieldsWidth_bits _ _ _) w).2 hat, hl, litIn, wordHasLit]
      cases hasLit w.toNat <;> rfl

end Sys2Proof
end

section
/-! PROOFS. The scalar bitwise, shift, count, move, bit-field, comparison and selection forms (R91 to R96): each effect as its rule gives it. -/

namespace Sys2Proof.Machine

/-- A form whose body only writes results yields its effect, in any other writing of it. -/
theorem yields_effect {i : Instr} {f g : Env → Eff} (hx : ∀ s, exec i s = issue i (pureBody f) s) (hgo : ∀ e, (f e).go = .seq) (h : ∀ e, f e = g e) : Yields i g := by
  have hfg : f = g := funext h
  exact hfg ▸ yields_pure hx fun e t ht => by rw [hgo e] at ht; cases ht

theorem two_pow_sBits_pos (f : RRR) : 0 < 2 ^ sBits f := Nat.two_pow_pos _

theorem sint_mod (n x : Nat) : sint n (x % 2 ^ n) = sint n x := by simp [sint]

theorem toInt_mod (sg : Bool) (n x : Nat) : toInt sg n (x % 2 ^ n) = toInt sg n x := by
  cases sg <;> simp [toInt, uint, sint_mod]

theorem sext64_mod (n x : Nat) : sext64 n (x % 2 ^ n) = sext64 n x := by rw [sext64, sext64, sint_mod]

theorem zext64_mod (n x : Nat) : zext64 n (x % 2 ^ n) = zext64 n x := by rw [zext64, zext64, Nat.mod_mod]

theorem fieldWidth_eq_min (n x : Nat) : fieldWidth n x = min x n := by
  unfold fieldWidth
  split <;> omega

theorem ofNat_ofBool (b : Bool) : (BitVec.ofNat 64 (ofBool b)) = if b then 1 else 0 := by cases b <;> rfl

/-- R91: a rotation by k of n bits, with the count of zero, which moves nothing, apart. -/
theorem bitOp_rot {n a : Nat} (ha : a < 2 ^ n) (b : Nat) : bitOp .rot n a b = if b % n = 0 then a else (a * 2 ^ (b % n) % 2 ^ n) ||| a / 2 ^ (n - b % n) := by
  by_cases hk : b % n = 0 <;> simp [bitOp, hk, Nat.mod_eq_of_lt ha]

theorem bitOp_sar (n x b : Nat) : bitOp .sar n (x % 2 ^ n) b = truncN n (sint n x / 2 ^ (b % n)) := by
  simp [bitOp, sint_mod]

/-- R94: a field extracted and extended is that of the value moved down. -/
theorem ext64_bitField (sg : Bool) (x : Word) (pos w : Nat) : ext64 sg w (bitField 64 x.toNat pos w) = if sg then sext64 w (x.toNat / 2 ^ pos) else zext64 w (x.toNat / 2 ^ pos) := by
  rw [bitField, Nat.mod_eq_of_lt x.isLt]
  cases sg <;> simp only [ext64, sext64_mod, zext64_mod, if_true, if_false, Bool.false_eq_true]

theorem ext64_not_n64 (t : Ty) (n x : Nat) : ext64 (decide (t ≠ .n64)) n x = if t = .n64 then zext64 n x else sext64 n x := by
  by_cases h : t = .n64 <;> simp [ext64, h]

/-- R94: bit i of an insertion is the field's within it and the old one outside. -/
theorem testBit_bitInsert {n d : Nat} (x pos w : Nat) {i : Nat} (hi : i < n) :
    (bitInsert n d x pos w).testBit i = if pos ≤ i ∧ i < pos + w then x.testBit (i - pos) else d.testBit i := by
  have hm : ((2 ^ w - 1) * 2 ^ pos % 2 ^ n).testBit i = (decide (pos ≤ i) && decide (i - pos < w)) := by
    rw [Nat.testBit_mod_two_pow, Nat.testBit_mul_two_pow, Nat.testBit_two_pow_sub_one]
    simp [hi]
  have hc : (2 ^ n - 1 - (2 ^ w - 1) * 2 ^ pos % 2 ^ n).testBit i = !(decide (pos ≤ i) && decide (i - pos < w)) := by
    rw [Nat.sub_sub, Nat.add_comm 1, Nat.testBit_two_pow_sub_succ (Nat.mod_lt _ (Nat.two_pow_pos n)), hm]
    simp [hi]
  have hx : (x % 2 ^ w * 2 ^ pos % 2 ^ n).testBit i = (decide (pos ≤ i) && (decide (i - pos < w) && x.testBit (i - pos))) := by
    rw [Nat.testBit_mod_two_pow, Nat.testBit_mul_two_pow, Nat.testBit_mod_two_pow]
    simp [hi]
  unfold bitInsert
  rw [Nat.testBit_or, Nat.testBit_and, hc, hx]
  by_cases h1 : pos ≤ i
  · have hw : i - pos < w ↔ i < pos + w := by omega
    by_cases h2 : i < pos + w <;> simp [h1, h2, hw]
  · simp [h1]

theorem yields_effSBit {i : Instr} {o : BitOp} {f : RRR} {g : Env → Nat} (hx : ∀ s, exec i s = issue i (pureBody (effSBit o f)) s)
    (h : ∀ e, (effSBit o f e).wr = sIntOut f e (g e)) : Yields i (fun e => { wr := sIntOut f e (g e) }) :=
  yields_effect hx (fun _ => rfl) fun e => by rw [← h e]; rfl

/-- Settles O7: each effect in the words of its rule; the rotation by zero and the selection of a bit field are the cases that need an argument. -/
theorem scalarMoveResults : Obligations.ScalarMoveResults := by
  refine ⟨fun f => ⟨?_, ?_, ?_, ?_, ?_, ?_, ?_, ?_⟩, fun f r => ⟨?_, ?_, ?_, ?_, ?_, ?_, ?_, ?_, ?_, ?_⟩⟩
  · exact yields_effSBit (o := .and) (fun _ => rfl) fun _ => rfl
  · exact yields_effSBit (o := .or) (fun _ => rfl) fun _ => rfl
  · exact yields_effSBit (o := .xor) (fun _ => rfl) fun _ => rfl
  · exact yields_effSBit (o := .andn) (fun _ => rfl) fun _ => rfl
  · exact yields_effSBit (o := .shl) (fun _ => rfl) fun _ => rfl
  · exact yields_effSBit (o := .shr) (fun _ => rfl) fun _ => rfl
  · exact yields_effSBit (o := .sar) (fun _ => rfl) fun e => congrArg (sIntOut f e) (bitOp_sar _ _ _)
  · exact yields_effSBit (o := .rot) (fun _ => rfl) fun e => congrArg (sIntOut f e) (bitOp_rot (Nat.mod_lt _ (two_pow_sBits_pos f)) _)
  · exact yields_effect (f := effSabs f) (fun _ => rfl) (fun _ => rfl) fun _ => rfl
  · exact yields_effect (f := effSCount leadZeros f) (fun _ => rfl) (fun _ => rfl) fun _ => rfl
  · exact yields_effect (f := effSCount popcount f) (fun _ => rfl) (fun _ => rfl) fun _ => rfl
  · exact yields_effect (f := effSmov f) (fun _ => rfl) (fun _ => rfl) fun _ => rfl
  · exact yields_effect (f := effSext f) (fun _ => rfl) (fun _ => rfl) fun e => by rw [effSext, ext64_not_n64]
  · refine yields_effect (f := effSbfx f) (fun _ => rfl) (fun _ => rfl) fun e => ?_
    simp only [effSbfx, fieldWidth_eq_min, ext64_bitField]
    by_cases h : f.ty = .n64 <;> simp [h]
  · intro s x y v u hi
    refine ⟨_, fun i hlt => ?_, issue_done hi (body := pureBody (effSbfi f)) rfl fun _ hg => by cases hg⟩
    rw [BitVec.getLsbD_ofNat, decide_eq_true hlt, Bool.true_and, testBit_bitInsert _ _ _ hlt, fieldWidth_eq_min]
    rfl
  · exact yields_effect (f := effScmp f) (fun _ => rfl) (fun _ => rfl) fun e => by rw [effScmp, ofNat_ofBool]
  · refine yields_effect (f := effSsel f) (fun _ => rfl) (fun _ => rfl) fun e => ?_
    rw [effSsel, ite_not]
  · exact yields_effect (f := effSli r) (fun _ => rfl) (fun _ => rfl) fun _ => rfl

end Sys2Proof.Machine
end

section
/-! PROOFS. The scalar float and conversion forms (R97 to R100), the branches (R102 to R105), the special registers (R31, R33, R113), and the laws that turn one equation of a body into a statement about `exec`. -/

namespace Sys2Proof.Machine

/-! From a body to what `exec` answers. -/

theorem yieldsIf_of_body {i : Instr} {body : Env → State → Res} {c : Env → State → Prop} {s1 : Env → State → State} {eff : Env → State → Eff} (hx : ∀ s, exec i s = issue i body s)
    (hgo : ∀ e s t, c e s → (eff e s).go = .br t → brOut t = false)
    (hb : ∀ s w x v u, Issuing s i w x v u → c (issueEnv s w x v u i) s → body (issueEnv s w x v u i) s = .done (s1 (issueEnv s w x v u i) s) (eff (issueEnv s w x v u i) s)) :
    YieldsIf i c s1 eff := fun s w x v u hi hc => (hx s).trans (issue_done hi (hb s w x v u hi hc) fun t => hgo _ s t hc)

theorem trapsIf_of_body {i : Instr} {body : Env → State → Res} {c : Env → State → Prop} {t : Env → State → Trap} (hx : ∀ s, exec i s = issue i body s)
    (hb : ∀ s w x v u, Issuing s i w x v u → c (issueEnv s w x v u i) s → body (issueEnv s w x v u i) s = .trap s (t (issueEnv s w x v u i) s)) :
    TrapsIf i c t := fun s w x v u hi hc => (hx s).trans (issue_trap hi (hb s w x v u hi hc))

theorem waitsIf_of_body {i : Instr} {body : Env → State → Res} {c : Env → State → Prop} (hx : ∀ s, exec i s = issue i body s)
    (hb : ∀ s w x v u, Issuing s i w x v u → c (issueEnv s w x v u i) s → body (issueEnv s w x v u i) s = .hold s) : WaitsIf i c :=
  fun s w x v u hi hc => (hx s).trans (issue_hold hi (hb s w x v u hi hc))

theorem Yields.yieldsIf {i : Instr} {eff : Env → Eff} (h : Yields i eff) (c : Env → State → Prop) : YieldsIf i c (fun _ s => s) (fun e _ => eff e) :=
  fun s w x v u hi _ => h s w x v u hi

/-- R65: outside a bundle the REASON of a refusal stands alone in TINFO. -/
theorem illegal_issueEnv (s : State) (w x : Nat) (v : Wave) (u : Sub) (i : Instr) (r : Nat) :
    (issueEnv s w x v u i).illegal r = { cause := .illegal, addr := u.pc, info := BitVec.ofNat 64 r } := rfl

theorem modeTrap_issueEnv (s : State) (w x : Nat) (v : Wave) (u : Sub) (i : Instr) (r : Nat) :
    (issueEnv s w x v u i).modeTrap r = { cause := .mode, addr := u.pc, info := BitVec.ofNat 64 r } := rfl

/-- R29, R46: an instruction whose entry takes no literal is one word long. -/
theorem instrLen_of_check {env : DecEnv} {i : Instr} (h : check env i = none) (hs : (specOf env.slot i).lit = false) : instrLen i = 8 := by
  obtain ⟨-, -, -, hlit, -, -, -, -⟩ := (check_none_iff env i).1 h
  unfold instrLen
  cases hl : (fieldsOf i).lit with
  | none => rfl
  | some l => simp [litBad, hl, hs] at hlit

theorem next_issueEnv_of_noLit {s : State} {w x : Nat} {v : Wave} {u : Sub} {i : Instr} (hi : Issuing s i w x v u) (hs : (specOf none i).lit = false) :
    (issueEnv s w x v u i).next = u.pc + 8 := by
  have h : (issueEnv s w x v u i).next = u.pc + BitVec.ofNat 64 (instrLen i) := rfl
  rw [h, instrLen_of_check hi.legal hs]
  rfl

/-- R58: an operand that passes the tests lies in its class. -/
theorem clsOk_d_of_check {env : DecEnv} {i : Instr} (h : check env i = none) : clsOk env (specOf env.slot i).d (fieldsOf i).d = true := by
  obtain ⟨-, -, -, -, -, -, hopnd, -⟩ := (check_none_iff env i).1 h
  simp only [opndBad, Bool.or_eq_false_iff, Bool.not_eq_false', Bool.and_eq_true] at hopnd
  obtain ⟨⟨⟨⟨hd, -⟩, -⟩, -⟩, -⟩ := hopnd
  exact hd

theorem lt_of_sregOk {env : DecEnv} {r : Nat} (h : sregOk env r = true) : r < 96 := by
  unfold sregOk at h
  split at h <;> simp at h <;> omega

/-! The scalar float and conversion forms. -/

theorem FVal.negIf_false (x : FVal) : x.negIf false = x := by cases x <;> simp [FVal.negIf]

theorem cvBadFmt_eq_true_iff (f : CV) (e : Env) : cvBadFmt f e = true ↔ (f.stype = .fq ∧ (e.nfmt f.sfmt).valid = false) ∨ (f.ty = .fq ∧ (e.nfmt f.dfmt).valid = false) := by
  simp [cvBadFmt]

/-- Settles O8: the effects are those of the rules; a conversion traps exactly where a format register it names is not valid. -/
theorem scalarFloatResults : Obligations.ScalarFloatResults := by
  refine ⟨fun f => ⟨?_, ?_, ?_, ?_⟩, fun f => ⟨?_, ?_⟩⟩
  · refine yields_effect (f := effSfadd f) (fun _ => rfl) (fun _ => rfl) fun e => ?_
    by_cases h : f.fn = 1
    · simp only [effSfadd, sFltOut, h, decide_true, if_true]
    · simp only [effSfadd, sFltOut, h, decide_false, if_false, FVal.negIf_false]
  · exact yields_effect (f := effSfmul f) (fun _ => rfl) (fun _ => rfl) fun _ => rfl
  · exact yields_effect (f := effSffma f) (fun _ => rfl) (fun _ => rfl) fun _ => rfl
  · exact yields_effect (f := effSfcmp f) (fun _ => rfl) (fun _ => rfl) fun e => by rw [effSfcmp, ofNat_ofBool]
  · refine yieldsIf_of_body (body := bodySfcvt f) (fun _ => rfl) (fun _ _ _ _ hg => by cases hg) fun s w x v u hi hc => ?_
    simp only [bodySfcvt, hc, Bool.false_eq_true, if_false, cvOne]
  · refine trapsIf_of_body (body := bodySfcvt f) (fun _ => rfl) fun s w x v u hi hc => ?_
    simp only [bodySfcvt, (cvBadFmt_eq_true_iff _ _).2 hc, if_true]
    rfl

/-! Branches. -/

theorem brOut_eq_true_iff (t : Int) : brOut t = true ↔ ¬ (-(2 ^ 56 : Int) ≤ t ∧ t < 2 ^ 56) := by
  rw [← brOut_eq_false_iff, Bool.not_eq_false]

/-- R102: a form that branches to an offset traps where its target is out of range, and does nothing else. -/
theorem trapsIf_brOut {i : Instr} {body : Env → State → Res} {eff : Env → State → Eff} {t : Env → Int} (hx : ∀ s, exec i s = issue i body s) (hb : ∀ e s, body e s = .done s (eff e s)) (hgo : ∀ e s, (eff e s).go = .br (t e)) :
    TrapsIf i (fun e _ => ¬ (-(2 ^ 56 : Int) ≤ t e ∧ t e < 2 ^ 56)) (fun e _ => { cause := .fetchBounds, addr := BitVec.ofInt 64 (t e) }) :=
  fun s _ _ _ _ hi hc => (hx s).trans (issue_brOut hi (hb _ s) (hgo _ s) ((brOut_eq_true_iff _).2 hc))

/-- R105: a call writes the address of the word after it, to a scalar register. -/
theorem wrS_call {s : State} {w x : Nat} {v : Wave} {u : Sub} {f : BR} (hi : Issuing s (.call f) w x v u) :
    (issueEnv s w x v u (.call f)).wrS f.d (issueEnv s w x v u (.call f)).next = [⟨.s ((issueEnv s w x v u (.call f)).sreg f.d), (u.pc + 8).toNat⟩] := by
  have hd : f.d < 96 := lt_of_sregOk (clsOk_d_of_check hi.legal)
  rw [next_issueEnv_of_noLit hi rfl, Env.wrS, if_pos hd]

/-- Settles O10: a target is checked as it is formed, exactly; the link is the address after the one word of the instruction. -/
theorem branchResults : Obligations.BranchResults := by
  refine ⟨fun f => ⟨?_, ?_, ?_, ?_, ?_, ?_⟩, fun f => ⟨?_, ?_⟩⟩
  · exact yieldsIf_of_body (body := bodyJmp f) (fun _ => rfl) (fun _ _ _ hc hg => by cases hg; exact (brOut_eq_false_iff _).2 hc) fun _ _ _ _ _ _ _ => rfl
  · exact trapsIf_brOut (body := bodyJmp f) (fun _ => rfl) (fun _ _ => rfl) (fun _ _ => rfl)
  · refine yieldsIf_of_body (body := bodyJc f) (fun _ => rfl) (fun e _ t hc hg => ?_) fun s w x v u hi hc => ?_
    · dsimp only at hg
      split at hg <;> cases hg
      exact (brOut_eq_false_iff _).2 hc
    · have ho : brOut (brTarget (issueEnv s w x v u (.jc f)).p f.off) = false := (brOut_eq_false_iff _).2 hc
      simp only [bodyJc, ho, Bool.false_eq_true, if_false]
      by_cases h0 : (issueEnv s w x v u (.jc f)).rdS f.d = 0
      · simp only [h0, ne_eq, not_true_eq_false, if_true, if_false]
      · simp only [h0, ne_eq, not_false_eq_true, if_true, if_false]
        rfl
  · refine trapsIf_of_body (body := bodyJc f) (fun _ => rfl) fun s w x v u hi hc => ?_
    have ho : brOut (brTarget (issueEnv s w x v u (.jc f)).p f.off) = true := (brOut_eq_true_iff _).2 hc
    simp only [bodyJc, ho, if_true]
    rfl
  · refine yieldsIf_of_body (body := bodyCall f) (fun _ => rfl) (fun _ _ _ hc hg => by cases hg; exact (brOut_eq_false_iff _).2 hc) fun s w x v u hi _ => ?_
    rw [bodyCall, wrS_call hi]
    rfl
  · exact trapsIf_brOut (body := bodyCall f) (fun _ => rfl) (fun _ _ => rfl) (fun _ _ => rfl)
  · intro s w x v u hi
    refine issue_done hi (body := bodyJmpx f) ?_ (fun _ hg => by cases hg)
    rw [bodyJmpx, next_issueEnv_of_noLit hi rfl]
    rfl
  · exact fun s w x v u hi => issue_done hi (body := bodyRet f) rfl (fun _ hg => by cases hg)

/-! Special registers. -/

/-- R74: outside the windows of its results a bundle reads FLAGS as it stands. -/
theorem flagsRead_of_unwindowed {e : Env} (h : e.windowed .flags = false) : e.flagsRead = e.v.flags := by
  simp only [Env.windowed, Bool.or_eq_false_iff, List.any_eq_false] at h
  obtain ⟨hfl, -⟩ := h
  have hwr : ∀ (l : List Wr), (∀ y ∈ l, y.dst ≠ .flags) → l.foldl (fun t x => if x.dst = .flags then t ||| x.val else t) 0 = 0 := by
    intro l
    induction l with
    | nil => exact fun _ => rfl
    | cons y r ih => exact fun hl => by simp [hl y (by simp), ih fun z hz => hl z (by simp [hz])]
  have hraised : ∀ (l : List Flight), (∀ f ∈ l, ¬ (f.inWindow e.now && decide (Dst.flags ∈ f.dsts)) = true) →
      l.foldl (fun t f => if f.inWindow e.now then f.wr.foldl (fun t x => if x.dst = .flags then t ||| x.val else t) t else t) 0 = 0 := by
    intro l
    induction l with
    | nil => exact fun _ => rfl
    | cons f r ih =>
      intro hl
      have hf : (if f.inWindow e.now then f.wr.foldl (fun t x => if x.dst = .flags then t ||| x.val else t) 0 else 0) = 0 := by
        split
        · next hw =>
          refine hwr _ fun y hy hd => hl f (by simp) ?_
          rw [hw, Bool.true_and, decide_eq_true_eq]
          exact List.mem_append_left _ (List.mem_map.2 ⟨y, hy, hd⟩)
        · rfl
      rw [List.foldl_cons, hf]
      exact ih fun g hg => hl g (by simp [hg])
  rw [Env.flagsRead, hraised _ hfl]
  simp

theorem yieldsIf_sread {f : SR} {c : Env → State → Prop} {val : Env → Word} (h : ∀ e s, c e s → e.special31 f.sel = some (val e)) :
    YieldsIf (.sread f) c (fun _ s => s) (fun e _ => { wr := e.wrS f.d (val e) }) :=
  yieldsIf_of_body (body := bodySread f) (fun _ => rfl) (fun _ _ _ _ hg => by cases hg) fun s w x v u _ hc => by rw [bodySread, h _ s hc]

theorem yields_sread {f : SR} {val : Env → Word} (h : ∀ e, e.special31 f.sel = some (val e)) : Yields (.sread f) (fun e => { wr := e.wrS f.d (val e) }) :=
  fun s w x v u hi => yieldsIf_sread (c := fun _ _ => True) (fun e _ _ => h e) s w x v u hi trivial

theorem special31_of_ge {e : Env} {sel : Nat} (h : 17 ≤ sel) : e.special31 sel = none := by
  unfold Env.special31
  split <;> first | omega | rfl

theorem writeSpecial_of_readOnly {v : Wave} {sel : Nat} (x : Word) (h : sel < 8 ∨ 17 ≤ sel) : v.writeSpecial sel x = none := by
  unfold Wave.writeSpecial
  split <;> first | omega | rfl

/-- R33: `swrite` of a register that takes the values `ok` alone. -/
theorem swrite_results {f : SR} {ok : Word → Prop} {set : Wave → Word → Wave} (hok : ∀ (v : Wave) (x : Word), ok x → v.writeSpecial f.sel x = some (set v x)) (hno : ∀ (v : Wave) (x : Word), ¬ ok x → v.writeSpecial f.sel x = none) :
    YieldsIf (.swrite f) (fun e _ => ok (e.rdS f.a)) (fun e s => modWave s e.w (fun v => set v (e.rdS f.a))) (fun _ _ => {})
      ∧ TrapsIf (.swrite f) (fun e _ => ¬ ok (e.rdS f.a)) (fun e _ => { cause := .illegal, addr := e.p, info := 10 }) := by
  constructor
  · refine yieldsIf_of_body (body := bodySwrite f) (fun _ => rfl) (fun _ _ _ _ hg => by cases hg) fun s w x v u _ hc => ?_
    simp only [bodySwrite, hok _ _ hc, Option.getD_some]
  · refine trapsIf_of_body (body := bodySwrite f) (fun _ => rfl) fun s w x v u _ hc => ?_
    rw [bodySwrite, hno _ _ hc]
    rfl

/-- Settles O11: one value for each selector; a write of a bit that a register does not have is refused like that of a register that is only read (log 5). -/
theorem specialRegisterResults : Obligations.SpecialRegisterResults := by
  intro f
  refine ⟨?_, ?_, ?_, ?_, ?_, ?_, ?_, ?_⟩
  · intro val hval
    simp only [List.mem_cons, List.not_mem_nil, or_false, Prod.mk.injEq] at hval
    rcases hval with ⟨hs, rfl⟩ | ⟨hs, rfl⟩ | ⟨hs, rfl⟩ | ⟨hs, rfl⟩ | ⟨hs, rfl⟩ | ⟨hs, rfl⟩ | ⟨hs, rfl⟩ | ⟨hs, rfl⟩ | ⟨hs, rfl⟩ | ⟨hs, rfl⟩ | ⟨hs, rfl⟩ | ⟨hs, rfl⟩ <;>
      exact yields_sread fun e => by rw [hs]; rfl
  · intro val hval
    simp only [List.mem_cons, List.not_mem_nil, or_false, Prod.mk.injEq] at hval
    rcases hval with ⟨hs, rfl⟩ | ⟨hs, rfl⟩ | ⟨hs, rfl⟩ | ⟨hs, rfl⟩
    · refine yieldsIf_sread fun e _ hr => ?_
      cases hw : e.w16 <;> simp [hs, Env.special31, Env.special, hr, hw]
    · exact yieldsIf_sread fun e _ hr => by simp [hs, Env.special31, Env.special, hr]
    · exact yieldsIf_sread fun e _ hr => by simp [hs, Env.special31, hr]
    · exact yieldsIf_sread fun e _ hr => by simp [hs, Env.special31, hr]
  · intro hsel
    refine yieldsIf_sread (val := fun _ => 0) fun e _ hr => ?_
    simp only [List.mem_cons, List.not_mem_nil, or_false] at hsel
    rcases hsel with hs | hs | hs <;> simp [hs, Env.special31, hr]
  · intro hs
    exact yieldsIf_sread fun e _ hw => by rw [hs, ← flagsRead_of_unwindowed hw]; rfl
  · intro hs
    refine trapsIf_of_body (body := bodySread f) (fun _ => rfl) fun s w x v u _ _ => ?_
    rw [bodySread, special31_of_ge hs]
    rfl
  · intro ok set hmem
    simp only [List.mem_cons, List.not_mem_nil, or_false, Prod.mk.injEq] at hmem
    have key : ∀ (v : Wave) (x : Word), (ok x → v.writeSpecial f.sel x = some (set v x)) ∧ (¬ ok x → v.writeSpecial f.sel x = none) := by
      intro v x
      rcases hmem with ⟨hs, rfl, rfl⟩ | ⟨hs, rfl, rfl⟩ | ⟨hs, rfl, rfl⟩ | ⟨hs, rfl, rfl⟩ | ⟨hs, rfl, rfl⟩ | ⟨hs, rfl, rfl⟩ | ⟨hs, rfl, rfl⟩ | ⟨hs, rfl, rfl⟩ | ⟨hs, rfl, rfl⟩ <;>
        simp +contextual [hs, Wave.writeSpecial, bitAt]
    exact swrite_results (fun v x => (key v x).1) (fun v x => (key v x).2)
  · intro hs
    refine trapsIf_of_body (body := bodySwrite f) (fun _ => rfl) fun s w x v u _ _ => ?_
    rw [bodySwrite, writeSpecial_of_readOnly _ hs]
    rfl
  · exact fun g s w x v u hi => issue_done hi (body := bodyNop) rfl (fun _ hg => by cases hg)

end Sys2Proof.Machine
end

section
/-! PROOFS. Decoding of written-out words, the reset state, what a step runs, the rounding direction and the operands that stand for no register (R17, R34, R41, R58, R70). -/

namespace Sys2Proof.Machine

/-- Settles O1: each word is decoded as it is written. -/
theorem decodeWords : Obligations.DecodeWords := ⟨rfl, rfl, rfl, rfl, rfl, rfl, rfl, rfl, rfl, rfl, rfl⟩

/-- Settles O3: every table of the reset state lists nothing. -/
theorem resetState : Obligations.ResetState :=
  ⟨rfl, rfl, rfl, rfl, rfl, rfl, rfl, fun _ => rfl, rfl, fun _ _ => rfl, rfl, fun _ _ => rfl, rfl, rfl, rfl⟩

/-- Settles O9: with nothing below the remainder, an inexact quotient is one whose remainder is not zero. -/
theorem roundingDirection : Obligations.RoundingDirection := by
  intro neg q r k _
  refine ⟨?_, rfl, ?_, ?_⟩ <;> cases neg <;> simp [roundUp]

/-! The operands that stand for no register. -/

theorem rdS_special (e : Env) {k : Nat} (hk : k < 8) : e.rdS (104 + k) = e.special k := by
  unfold Env.rdS
  rw [if_neg (by omega), if_neg (by omega), if_pos (by omega), Nat.add_sub_cancel_left]

theorem rdS_constant (e : Env) (k : Nat) : e.rdS (112 + k) = BitVec.ofNat 64 k := by
  unfold Env.rdS
  rw [if_neg (by omega), if_neg (by omega), if_neg (by omega), Nat.add_sub_cancel_left]

theorem rdP_seven (e : Env) (l : Nat) : e.rdP 7 l = true := if_pos rfl

theorem setPBit_seven (v : Wave) (l : Nat) (b : Bool) : v.setPBit 7 l b = v := setP_seven v _

/-- Settles O15: an operand number of 104 or more names a special or a constant. -/
theorem hardwiredOperands : Obligations.HardwiredOperands := by
  intro e v
  refine ⟨fun k _ => rdS_constant e k, ?_, ?_, ?_, ?_, ?_, rdP_seven e, getP_seven v, setP_seven v, setPBit_seven v, fun _ _ => rfl⟩
  · exact rdS_special e (k := 6) (by decide)
  · exact rdS_special e (k := 7) (by decide)
  · exact rdS_special e (k := 5) (by decide)
  · exact rdS_special e (k := 3) (by decide)
  · exact rdS_special e (k := 2) (by decide)

/-! What a step runs. -/

theorem tryIssue_eq_some {s t : State} {w x : Nat} (h : tryIssue s w x = some t) :
    ∃ v u, waveAt s w = some v ∧ tblFind v.subs x = some u ∧ (mayIssue v u || (mayBundle v && decide (u.hold = .run))) = true ∧ attempt s w x v u = .next t := by
  unfold tryIssue at h
  split at h
  · cases h
  · next v hv =>
    split at h
    · cases h
    · next u hu =>
      split at h
      · next hm =>
        split at h
        · next t' ha =>
          split at h
          · cases h
          · cases h
            simp only [Bool.and_eq_true] at hm
            obtain ⟨⟨hm, -⟩, -⟩ := hm
            exact ⟨v, u, hv, hu, hm, ha⟩
        · cases h
      · cases h

/-- R135: what a section has ready is what its sub-waves come to when they are tried. -/
theorem tryIssue_of_mem_sectReady {s : State} {p k : Nat} {r : Ready} (h : r ∈ sectReady s p k) : tryIssue s r.w r.x = some r.t := by
  simp only [sectReady, List.mem_flatten, List.mem_map] at h
  obtain ⟨_, ⟨e, -, rfl⟩, hr⟩ := h
  simp only [readyOf, List.mem_filterMap, Option.map_eq_some_iff] at hr
  obtain ⟨_, -, t, ht, rfl⟩ := hr
  exact ht

theorem nextState_of_one_section {s : State} {p k : Nat} {r : Ready} (hag : s.agenda = []) (htr : s.heat.tripped = false) (hin : inputRuns s true = []) (hcmd : cmdRun s = none)
    (hdue : firstRun s (dueSteps s) = none) (hfree : chosen s (freeRuns s) = none) (hopen : openSects s = [(p, k)]) (hr : pickReady s p k (sectReady s p k) = some r) :
    nextState s = finish r.t (afterIssue s p k r (sectReady s p k)) := by
  have hiss : issues_ s = [finish r.t (afterIssue s p k r (sectReady s p k))] := by simp [issues_, hopen, hr]
  simp [nextState, hag, htr, runDevice, hin, hcmd, hdue, hfree, hiss, chosenIssue]

/-- Settles O5: the fetch decides what is attempted; with one open section nothing else is left to choose. -/
theorem stepRunsDecoded : Obligations.StepRunsDecoded := by
  refine ⟨?_, ?_, fun s w x t h => tryIssue_eq_some h, ?_⟩
  · intro s w x v u w0 w1 i hp h0 h1 hd
    have hf : fetchNext s w x v u = .run i := by
      have hdec : decodeWord { alloc := v.kernel.alloc, w16 := (simtEnv s w x v u (.nop {})).w16 } w0 w1 = .ok i := hd
      simp only [fetchNext, hp, if_false, fetchSimt, h0, h1, hdec]
    simp only [attempt, hf]
  · intro s w x v u w0 ws hp h0 hok hws
    have hf : fetchNext s w x v u = .run (.bundleIssue (w0 :: ws)) := by simp only [fetchNext, hp, if_true, fetchBundle, h0, hok, hws]
    simp only [attempt, hf]
    rfl
  · intro s p k r hst hag htr hin hcmd hdue hfree hopen hr
    refine ⟨tryIssue_of_mem_sectReady (pickReady_mem hr), ?_⟩
    rw [step, hst, nextState_of_one_section hag htr hin hcmd hdue hfree hopen hr]

end Sys2Proof.Machine
end

section
/-! PROOFS. The frame of a completed instruction: what its results, its queue and its count of issue leave of the wave, and what the scalar forms write (R29, R30, R58, R138, R139). -/

namespace Sys2Proof.Machine

/-! Results put in a wave. -/

/-- A result changes registers, predicates, formats, records and FLAGS alone. -/
theorem Wave.put_eq (v : Wave) (y : Wr) : ∃ s x p fr rc fl, v.put y = { v with s := s, v := x, p := p, fregs := fr, recs := rc, flags := fl } := by
  obtain ⟨d, n⟩ := y
  cases d with
  | p k l =>
    show ∃ s x p fr rc fl, v.setPBit k l _ = _
    unfold Wave.setPBit Wave.setP
    split
    · exact ⟨_, _, _, _, _, _, rfl⟩
    · exact ⟨_, _, _, _, _, _, rfl⟩
  | _ => exact ⟨_, _, _, _, _, _, rfl⟩

theorem Wave.putAll_eq (l : List Wr) (v : Wave) : ∃ s x p fr rc fl, v.putAll l = { v with s := s, v := x, p := p, fregs := fr, recs := rc, flags := fl } := by
  induction l generalizing v with
  | nil => exact ⟨_, _, _, _, _, _, rfl⟩
  | cons y r ih =>
    obtain ⟨s, x, p, fr, rc, fl, hy⟩ := v.put_eq y
    obtain ⟨s', x', p', fr', rc', fl', hr⟩ := ih (v.put y)
    exact ⟨s', x', p', fr', rc', fl', hr.trans (by rw [hy])⟩

@[simp] theorem Wave.putAll_subs (v : Wave) (l : List Wr) : (v.putAll l).subs = v.subs := by
  obtain ⟨_, _, _, _, _, _, h⟩ := Wave.putAll_eq l v
  rw [h]

@[simp] theorem Wave.putAll_wd (v : Wave) (l : List Wr) : (v.putAll l).wd = v.wd := by
  obtain ⟨_, _, _, _, _, _, h⟩ := Wave.putAll_eq l v
  rw [h]

@[simp] theorem Wave.putAll_async (v : Wave) (l : List Wr) : (v.putAll l).async = v.async := by
  obtain ⟨_, _, _, _, _, _, h⟩ := Wave.putAll_eq l v
  rw [h]

@[simp] theorem Wave.putAll_handler (v : Wave) (l : List Wr) : (v.putAll l).handler = v.handler := by
  obtain ⟨_, _, _, _, _, _, h⟩ := Wave.putAll_eq l v
  rw [h]

theorem Wave.put_flags (v : Wave) {y : Wr} (h : y.dst ≠ .flags) : (v.put y).flags = v.flags := by
  obtain ⟨d, n⟩ := y
  cases d with
  | flags => exact absurd rfl h
  | p k l =>
    show (v.setPBit k l _).flags = _
    unfold Wave.setPBit Wave.setP
    split <;> rfl
  | _ => rfl

theorem Wave.putAll_flags (l : List Wr) (v : Wave) (h : ∀ y ∈ l, y.dst ≠ .flags) : (v.putAll l).flags = v.flags := by
  induction l generalizing v with
  | nil => rfl
  | cons y r ih => exact (ih (v.put y) fun z hz => h z (by simp [hz])).trans (v.put_flags (h y (by simp)))

/-- A predicate bit named outside the lanes is no bit at all. -/
theorem keepsWave_put_inVector (v : Wave) (y : Wr) (h : ∀ r l, y.dst = .v r l → l < 32) : KeepsWave [y.dst] v (v.put y) := by
  by_cases hy : y.inLanes = true
  · exact keepsWave_put v y hy
  · obtain ⟨d, n⟩ := y
    cases d with
    | v r l => exact absurd (decide_eq_true (h r l rfl)) hy
    | p k l =>
      have hp : ∀ j m, m < 32 → Dst.p j m ∉ [Dst.p k l] → ((v.put ⟨.p k l, n⟩).getP j).getLsbD m = (v.getP j).getLsbD m :=
        fun j m hm hq => getP_setPBit_ne v _ hm (by simpa using hq)
      have hform : ∃ t, v.put ⟨.p k l, n⟩ = { v with p := t } := by
        show ∃ t, v.setPBit k l _ = _
        unfold Wave.setPBit Wave.setP
        split
        · exact ⟨v.p, rfl⟩
        · exact ⟨_, rfl⟩
      obtain ⟨t, ht⟩ := hform
      rw [ht] at hp ⊢
      exact { KeepsWave.refl [Dst.p k l] v with predicates := hp }
    | _ => exact absurd rfl hy

theorem keepsWave_putAll_inVector (l : List Wr) (v : Wave) (h : ∀ y ∈ l, ∀ r k, y.dst = .v r k → k < 32) : KeepsWave (l.map (·.dst)) v (v.putAll l) := by
  induction l generalizing v with
  | nil => exact KeepsWave.refl [] v
  | cons y r ih => exact (keepsWave_put_inVector v y (h y (by simp))).trans (ih (v.put y) fun z hz => h z (by simp [hz]))

/-! The wave after its instruction. -/

/-- What a wave shows of its own completed instruction. -/
def Wave.completed (v : Wave) (x : Nat) (next : Word) (e : Eff) : Wave := ((v.putAll e.wr).queue x e.accs).advance x next e v.wdlimit

theorem waveAt_retire_self {s : State} {w x : Nat} {v : Wave} {u : Sub} {i : Instr} {e : Eff} (hv : waveAt s w = some v) (hs : syncOp i = false) :
    waveAt (retire s w x v u i s e) w = some (v.completed x (u.pc + BitVec.ofNat 64 (instrLen i)) e) := by
  rw [waveAt_retire hs, hv]
  rfl

theorem keepsWave_completed (v : Wave) (x : Nat) (next : Word) {e : Eff} (ha : e.accs = []) (hl : ∀ y ∈ e.wr, ∀ r k, y.dst = .v r k → k < 32) : KeepsWave e.dsts v (v.completed x next e) := by
  have hrest : KeepsWave [] (v.putAll e.wr) (v.completed x next e) :=
    keepsWave_retired (v.putAll e.wr) x next { e with wr := [] } v.wdlimit ha (fun _ h => by cases h)
  have h := (keepsWave_putAll_inVector e.wr v hl).trans hrest
  rwa [List.append_nil] at h

@[simp] theorem Wave.countIssue_flags (v : Wave) (x : Nat) (b : Bool) (n : Word) : (v.countIssue x b n).flags = v.flags := by
  unfold Wave.countIssue
  split
  · rfl
  · split <;> rfl

@[simp] theorem Wave.countIssue_s (v : Wave) (x : Nat) (b : Bool) (n : Word) : (v.countIssue x b n).s = v.s := by
  unfold Wave.countIssue
  split
  · rfl
  · split <;> rfl

@[simp] theorem Wave.countIssue_subs (v : Wave) (x : Nat) (b : Bool) (n : Word) : (v.countIssue x b n).subs = v.subs := by
  unfold Wave.countIssue
  split
  · rfl
  · split <;> rfl

theorem flags_completed (v : Wave) (x : Nat) (next : Word) {e : Eff} (h : ∀ y ∈ e.wr, y.dst ≠ .flags) : (v.completed x next e).flags = v.flags ||| e.flags := by
  simp only [Wave.completed, Wave.advance, Wave.countIssue_flags]
  exact congrArg (· ||| e.flags) (Wave.putAll_flags e.wr v h)

theorem getS_completed (v : Wave) (x : Nat) (next : Word) (e : Eff) (r : Nat) : (v.completed x next e).getS r = (v.putAll e.wr).getS r := by
  simp only [Wave.getS, Wave.completed, Wave.advance, Wave.countIssue_s]
  rfl

theorem subs_completed (v : Wave) (x : Nat) (next : Word) (e : Eff) :
    (v.completed x next e).subs = tblMod v.subs x (fun u => { u with pc := if e.go = .kept then u.pc else goPc e.go next, aged := 0 }) := by
  simp only [Wave.completed, Wave.advance, Wave.countIssue_subs, Wave.modSub, Wave.queue, Wave.putAll_subs]

theorem Wave.countIssue_count {v : Wave} (h : v.handler = none) (x : Nat) (limit : Word) : v.countIssue x false limit =
    { v with wd := v.wd + 1, async := if limit ≠ 0 ∧ limit.toNat ≤ v.wd + 1 ∧ v.async.isNone then some (.watchdog, 0, BitVec.ofNat 64 (v.wd + 1), x) else v.async } := by
  simp [Wave.countIssue, Wave.inHandler, h]

/-- R138: the watchdog as the instruction leaves it. -/
theorem watchdog_completed (v : Wave) (x : Nat) (next : Word) (e : Eff) :
    ∃ a : Wave, v.completed x next e = a.countIssue (e.last.getD x) e.wdReset v.wdlimit ∧ a.wd = v.wd ∧ a.async = v.async ∧ a.handler = v.handler :=
  ⟨_, rfl, Wave.putAll_wd v e.wr, Wave.putAll_async v e.wr, Wave.putAll_handler v e.wr⟩

/-- The frame of a completion that writes registers, or a channel entry, and queues nothing. -/
theorem frame_retire {s : State} {w x : Nat} {v : Wave} {u : Sub} {i : Instr} {e : Eff} (hv : waveAt s w = some v) (hs : syncOp i = false) (ha : e.accs = [])
    (hmem : ∀ y ∈ e.wr, ∀ p, y.dst ≠ .mem p) (hfl : ∀ y ∈ e.wr, y.dst ≠ .flags) (hl : ∀ y ∈ e.wr, ∀ r l, y.dst = .v r l → l < 32) :
    KeepsRest w s (retire s w x v u i s e) ∧ ∃ v', waveAt (retire s w x v u i s e) w = some v' ∧ KeepsWave e.dsts v v' ∧ v'.flags = v.flags ||| e.flags :=
  ⟨keeps_retire (KeepsRest.refl w s) rfl hs hmem, _, waveAt_retire_self hv hs, keepsWave_completed v x _ ha hl, flags_completed v x _ hfl⟩

theorem registersOnly_iff (e : Eff) : e.registersOnly = true ↔ e.accs = [] ∧ ∀ y ∈ e.wr, (∀ a b c, y.dst ≠ .chan a b c) ∧ ∀ p, y.dst ≠ .mem p := by
  simp only [Eff.registersOnly, Bool.and_eq_true, List.isEmpty_iff, List.all_eq_true]
  refine and_congr_right fun _ => forall₂_congr fun y _ => ?_
  obtain ⟨d, n⟩ := y
  cases d <;> simp

/-- Settles O13: a completion that only writes registers has the frame of its places. -/
theorem registerFormFrame : Obligations.RegisterFormFrame := by
  intro s i w x v u e t _ hv hs hr hd hex ht
  obtain ⟨ha, hwr⟩ := (registersOnly_iff e).1 hr
  obtain rfl : retire s w x v u i s e = t := Host.Outcome.next.inj (hex.symm.trans ht)
  exact frame_retire hv hs ha (fun y hy => (hwr y hy).2) (fun y hy => (hd y hy).1) fun y hy => (hd y hy).2

/-- Settles O14: the sub-wave's own entry alone moves on, and the count of issue is the watchdog's. -/
theorem completionAdvances : Obligations.CompletionAdvances := by
  intro s w x v u i e hv hu hs hgo hfl
  refine ⟨_, waveAt_retire_self hv hs, ⟨{ u with pc := u.pc + BitVec.ofNat 64 (instrLen i), aged := 0 }, ?_, rfl, rfl, rfl⟩, fun y hy => ?_, flags_completed v x _ hfl, ?_⟩
  · rw [subs_completed, tblFind_mod_self, hu, hgo]
    rfl
  · rw [subs_completed, tblFind_mod_ne _ _ hy]
  · obtain ⟨a, ha, hwd, has, hh⟩ := watchdog_completed v x (u.pc + BitVec.ofNat 64 (instrLen i)) e
    rw [ha, ← hwd, ← has, ← hh]
    refine ⟨fun hr => ?_, fun hin hr => ?_, fun hno hr => ⟨?_, fun h0 hlim hnone => ?_, fun hlim => ?_⟩⟩
    · simp [Wave.countIssue, hr]
    · simp [Wave.countIssue, hr, Wave.inHandler, hin]
    · rw [hr, Wave.countIssue_count hno]
    · rw [hr, Wave.countIssue_count hno, if_pos ⟨h0, hlim, Option.isNone_iff_eq_none.2 hnone⟩]
    · rw [hr, Wave.countIssue_count hno]
      refine if_neg ?_
      rintro ⟨h0, h1, -⟩
      rcases hlim with h | h
      · exact h0 h
      · omega

end Sys2Proof.Machine
end

section
/-! PROOFS. The frame of the scalar forms that write only registers (R30, R58). -/

namespace Sys2Proof.Machine

/-- A scalar form whose only result is D's and that goes on behind itself. -/
structure WritesD (i : Instr) (d : Nat) (fl : Env → Nat) : Prop where
  yields : ∃ val : Env → Word, Yields i (fun e => { wr := e.wrS d (val e), flags := fl e })
  sync : syncOp i = false
  place : (fieldsOf i).d = d

/-- A scalar result goes to a register or to a channel entry. -/
theorem dst_of_mem_wrS {e : Env} {d : Nat} {x : Word} {y : Wr} (h : y ∈ e.wrS d x) : (∃ r, y.dst = .s r) ∨ ∃ a b c, y.dst = .chan a b c := by
  unfold Env.wrS at h
  split at h
  · cases List.mem_singleton.1 h
    exact .inl ⟨_, rfl⟩
  · split at h
    · cases List.mem_singleton.1 h
      exact .inr ⟨_, _, _, rfl⟩
    · cases h

theorem dsts_wrS (e : Env) (d : Nat) (x : Word) : (e.wrS d x).map (·.dst) = e.dstS d := by
  unfold Env.dstS Env.wrS
  split
  · rfl
  · split <;> rfl

/-- What a completion whose only results are D's leaves, whatever its FLAGS and target. -/
theorem frame_wrS {s : State} {w x : Nat} {v : Wave} {u : Sub} {i : Instr} {e : Eff} {env : Env} {d : Nat} (hv : waveAt s w = some v) (hs : syncOp i = false) (ha : e.accs = [])
    (hwr : ∀ y ∈ e.wr, ∃ val, y ∈ env.wrS d val) :
    KeepsRest w s (retire s w x v u i s e) ∧ ∃ v', waveAt (retire s w x v u i s e) w = some v' ∧ KeepsWave e.dsts v v' ∧ v'.flags = v.flags ||| e.flags := by
  have hdst : ∀ y ∈ e.wr, (∃ r, y.dst = .s r) ∨ ∃ a b c, y.dst = .chan a b c := fun y hy => dst_of_mem_wrS (hwr y hy).choose_spec
  refine frame_retire hv hs ha (fun y hy p hp => ?_) (fun y hy hp => ?_) fun y hy r l hp => ?_ <;>
    rcases hdst y hy with ⟨r, h⟩ | ⟨a, b, c, h⟩ <;> simp [h] at hp

theorem pc_completed {v : Wave} {x : Nat} {u : Sub} {next : Word} {e : Eff} (hu : tblFind v.subs x = some u) (hgo : e.go = .seq) : ∃ u', tblFind (v.completed x next e).subs x = some u' ∧ u'.pc = next := by
  refine ⟨{ u with pc := next, aged := 0 }, ?_, rfl⟩
  rw [subs_completed, tblFind_mod_self, hu, hgo]
  rfl

theorem instrLen_eq (i : Instr) : BitVec.ofNat 64 (instrLen i) = if (fieldsOf i).lit.isSome then 16 else 8 := by
  unfold instrLen
  split <;> rfl

theorem WritesD.frame {i : Instr} {d : Nat} {fl : Env → Nat} (h : WritesD i d fl) {s t : State} {w x : Nat} {v : Wave} {u : Sub} (hi : Issuing s i w x v u) (hx : exec i s = .next t) :
    KeepsRest w s t ∧ ∃ v', waveAt t w = some v' ∧ KeepsWave ((issueEnv s w x v u i).dstS (fieldsOf i).d) v v' ∧ v'.flags = v.flags ||| fl (issueEnv s w x v u i)
      ∧ ∃ u', tblFind v'.subs x = some u' ∧ u'.pc = u.pc + (if (fieldsOf i).lit.isSome then 16 else 8) := by
  obtain ⟨val, hy⟩ := h.yields
  cases (hy s w x v u hi).symm.trans hx
  obtain ⟨hk, v', hv', hw, hfl⟩ := frame_wrS (u := u) (x := x) (e := { wr := (issueEnv s w x v u i).wrS d (val (issueEnv s w x v u i)), flags := fl (issueEnv s w x v u i) }) hi.wave h.sync rfl fun y hy => ⟨_, hy⟩
  refine ⟨hk, v', hv', ?_, hfl, ?_⟩
  · rwa [Eff.dsts, dsts_wrS, ← h.place] at hw
  · rw [waveAt_retire_self hi.wave h.sync] at hv'
    cases hv'
    rw [← instrLen_eq]
    exact pc_completed hi.sub rfl

/-- The scalar forms that never raise a flag and write D alone. -/
def quietD (f : RRR) : List Instr :=
  [.sadd f, .ssub f, .smul f, .smulh f, .smin f, .smax f, .sand f, .sor f, .sxor f, .sandn f, .sshl f, .sshr f, .ssar f, .srot f, .sabs f, .sclz f, .spopc f, .smov f, .sext f, .sbfx f, .sbfi f, .scmp f, .ssel f]

theorem writesD_of_pure {i : Instr} {d : Nat} {eff : Env → Eff} {val : Env → Word} {fl : Env → Nat} (hx : ∀ s, exec i s = issue i (pureBody eff) s) (h : ∀ e, eff e = { wr := e.wrS d (val e), flags := fl e })
    (hs : syncOp i = false) (hd : (fieldsOf i).d = d) : WritesD i d fl :=
  ⟨⟨val, yields_effect hx (fun e => by rw [h e]) h⟩, hs, hd⟩

theorem writesD_of_quietD {f : RRR} {i : Instr} (h : i ∈ quietD f) : WritesD i f.d (fun _ => 0) := by
  simp only [quietD, List.mem_cons, List.not_mem_nil, or_false] at h
  rcases h with rfl | rfl | rfl | rfl | rfl | rfl | rfl | rfl | rfl | rfl | rfl | rfl | rfl | rfl | rfl | rfl | rfl | rfl | rfl | rfl | rfl | rfl | rfl
  · exact writesD_of_pure (eff := effSInt .add f) (fun _ => rfl) (fun _ => rfl) rfl rfl
  · exact writesD_of_pure (eff := effSInt .sub f) (fun _ => rfl) (fun _ => rfl) rfl rfl
  · exact writesD_of_pure (eff := effSInt .mul f) (fun _ => rfl) (fun _ => rfl) rfl rfl
  · exact writesD_of_pure (eff := effSInt .mulh f) (fun _ => rfl) (fun _ => rfl) rfl rfl
  · exact writesD_of_pure (eff := effSInt .min f) (fun _ => rfl) (fun _ => rfl) rfl rfl
  · exact writesD_of_pure (eff := effSInt .max f) (fun _ => rfl) (fun _ => rfl) rfl rfl
  · exact writesD_of_pure (eff := effSBit .and f) (fun _ => rfl) (fun _ => rfl) rfl rfl
  · exact writesD_of_pure (eff := effSBit .or f) (fun _ => rfl) (fun _ => rfl) rfl rfl
  · exact writesD_of_pure (eff := effSBit .xor f) (fun _ => rfl) (fun _ => rfl) rfl rfl
  · exact writesD_of_pure (eff := effSBit .andn f) (fun _ => rfl) (fun _ => rfl) rfl rfl
  · exact writesD_of_pure (eff := effSBit .shl f) (fun _ => rfl) (fun _ => rfl) rfl rfl
  · exact writesD_of_pure (eff := effSBit .shr f) (fun _ => rfl) (fun _ => rfl) rfl rfl
  · exact writesD_of_pure (eff := effSBit .sar f) (fun _ => rfl) (fun _ => rfl) rfl rfl
  · exact writesD_of_pure (eff := effSBit .rot f) (fun _ => rfl) (fun _ => rfl) rfl rfl
  · exact writesD_of_pure (eff := effSabs f) (fun _ => rfl) (fun _ => rfl) rfl rfl
  · exact writesD_of_pure (eff := effSCount leadZeros f) (fun _ => rfl) (fun _ => rfl) rfl rfl
  · exact writesD_of_pure (eff := effSCount popcount f) (fun _ => rfl) (fun _ => rfl) rfl rfl
  · exact writesD_of_pure (eff := effSmov f) (fun _ => rfl) (fun _ => rfl) rfl rfl
  · exact writesD_of_pure (eff := effSext f) (fun _ => rfl) (fun _ => rfl) rfl rfl
  · exact writesD_of_pure (eff := effSbfx f) (fun _ => rfl) (fun _ => rfl) rfl rfl
  · exact writesD_of_pure (eff := effSbfi f) (fun _ => rfl) (fun _ => rfl) rfl rfl
  · exact writesD_of_pure (eff := effScmp f) (fun _ => rfl) (fun _ => rfl) rfl rfl
  · exact writesD_of_pure (eff := effSsel f) (fun _ => rfl) (fun _ => rfl) rfl rfl

theorem writesD_sli (g : RI) : WritesD (.sli g) g.d (fun _ => 0) := writesD_of_pure (eff := effSli g) (fun _ => rfl) (fun _ => rfl) rfl rfl

/-- R68: of the forms that may raise a flag, a division raises DZ alone. -/
theorem writesD_of_flagging {f : RRR} {i : Instr} (h : i ∈ [Instr.sdiv f, .srem f, .sfadd f, .sfmul f, .sffma f, .sfcmp f]) :
    ∃ fl, WritesD i f.d fl ∧ (i = .sdiv f ∨ i = .srem f → ∀ e, fl e = 0 ∨ fl e = flagDZ) := by
  have hdz : ∀ b, flagIf b flagDZ = 0 ∨ flagIf b flagDZ = flagDZ := fun b => by cases b <;> simp [flagIf]
  simp only [List.mem_cons, List.not_mem_nil, or_false] at h
  rcases h with rfl | rfl | rfl | rfl | rfl | rfl
  · exact ⟨_, writesD_of_pure (eff := effSDiv false f) (fun _ => rfl) (fun _ => rfl) rfl rfl, fun _ _ => hdz _⟩
  · exact ⟨_, writesD_of_pure (eff := effSDiv true f) (fun _ => rfl) (fun _ => rfl) rfl rfl, fun _ _ => hdz _⟩
  · exact ⟨_, writesD_of_pure (eff := effSfadd f) (fun _ => rfl) (fun _ => rfl) rfl rfl, by simp⟩
  · exact ⟨_, writesD_of_pure (eff := effSfmul f) (fun _ => rfl) (fun _ => rfl) rfl rfl, by simp⟩
  · exact ⟨_, writesD_of_pure (eff := effSffma f) (fun _ => rfl) (fun _ => rfl) rfl rfl, by simp⟩
  · exact ⟨_, writesD_of_pure (eff := effSfcmp f) (fun _ => rfl) (fun _ => rfl) rfl rfl, by simp⟩

theorem testBit_or_left {a b : Nat} {k : Nat} (h : a.testBit k = true) : (a ||| b).testBit k = true := by rw [Nat.testBit_or, h, Bool.true_or]

/-- A scalar result put in its register is what the register holds. -/
theorem getS_wrS_completed {s : State} {w x : Nat} {v : Wave} {u : Sub} {i : Instr} {d : Nat} {val next : Word} {e : Eff} (he : e.wr = (issueEnv s w x v u i).wrS d val) :
    (d < 96 → (v.completed x next e).getS ((issueEnv s w x v u i).sreg d) = val ∧ ∀ r, r ≠ (issueEnv s w x v u i).sreg d → (v.completed x next e).getS r = v.getS r)
      ∧ (96 ≤ d → ∀ r, (v.completed x next e).getS r = v.getS r) := by
  simp only [getS_completed, he, Env.wrS]
  refine ⟨fun h => ?_, fun h r => ?_⟩
  · rw [if_pos h]
    refine ⟨(getS_setS_self v _ _).trans (BitVec.ofNat_toNat 64 val ▸ BitVec.setWidth_eq val), fun r hr => getS_setS_ne v _ hr⟩
  · rw [if_neg (by omega)]
    split <;> rfl

theorem or_zero_flags (v v' : Wave) (h : v'.flags = v.flags ||| 0) : v'.flags = v.flags := h.trans (Nat.or_zero _)

/-- Settles O12: all but three of the forms write D and go on; `jmpx` may write it and leaves, `ret` and `nop` write nothing. -/
theorem scalarFrame : Obligations.ScalarFrame := by
  refine ⟨?_, ?_⟩
  · intro f g i s w x v u t
    dsimp only
    intro hmem _ hi hx
    have hforms : (i = .sli g ∨ i ∈ quietD f) ∨ i ∈ [Instr.sdiv f, .srem f, .sfadd f, .sfmul f, .sffma f, .sfcmp f] ∨ i = .jmpx f ∨ i = .ret f ∨ i = .nop f := by
      rcases hmem with h | h | h
      · exact .inl (.inl h)
      · rcases List.mem_append.1 (show i ∈ quietD f ++ [.jmpx f, .ret f, .nop f] from h) with h | h
        · exact .inl (.inr h)
        · simp only [List.mem_cons, List.not_mem_nil, or_false] at h
          exact .inr (.inr h)
      · exact .inr (.inl h)
    rcases hforms with hq | hf | rfl | rfl | rfl
    · have hd : ∃ d, WritesD i d (fun _ => 0) := by
        rcases hq with rfl | hq
        · exact ⟨_, writesD_sli g⟩
        · exact ⟨_, writesD_of_quietD hq⟩
      have hplain : ¬ (i = .ret f ∨ i = .nop f ∨ (i = .jmpx f ∧ f.fn ≠ 1)) := by
        rintro (rfl | rfl | ⟨rfl, -⟩) <;> simp [quietD] at hq
      have hdiv : ¬ (i = .sdiv f ∨ i = .srem f) := by
        rintro (rfl | rfl) <;> simp [quietD] at hq
      obtain ⟨d, hd⟩ := hd
      obtain ⟨hk, v', hv', hw, hfl, hpc⟩ := hd.frame hi hx
      have hfl := or_zero_flags v v' hfl
      exact ⟨hk, v', hv', by rwa [if_neg hplain], fun b hb => hfl ▸ hb, fun _ => hfl, fun h => absurd h hdiv, fun _ _ => hpc⟩
    · have hplain : ¬ (i = .ret f ∨ i = .nop f ∨ (i = .jmpx f ∧ f.fn ≠ 1)) := by
        rintro (rfl | rfl | ⟨rfl, -⟩) <;> simp at hf
      obtain ⟨fl, hd, hdz⟩ := writesD_of_flagging hf
      obtain ⟨hk, v', hv', hw, hfl, hpc⟩ := hd.frame hi hx
      refine ⟨hk, v', hv', by rwa [if_neg hplain], fun b hb => hfl ▸ testBit_or_left hb, fun h => absurd hf h, fun h => ?_, fun _ _ => hpc⟩
      rcases hdz h (issueEnv s w x v u i) with h0 | h0
      · exact .inl (or_zero_flags v v' (h0 ▸ hfl))
      · exact .inr (h0 ▸ hfl)
    · have hy := (branchResults.2 f).1 s w x v u hi
      cases hy.symm.trans hx
      obtain ⟨hk, v', hv', hw, hfl⟩ := frame_wrS (u := u) (x := x) (env := issueEnv s w x v u (.jmpx f)) (d := f.d) (i := .jmpx f)
        (e := { wr := if f.fn = 1 then (issueEnv s w x v u (.jmpx f)).wrS f.d ((issueEnv s w x v u (.jmpx f)).p + 8) else [], go := .abs ((issueEnv s w x v u (.jmpx f)).rdS f.a) }) hi.wave rfl rfl fun y hy => by
          by_cases h1 : f.fn = 1
          · exact ⟨_, by simpa [h1] using hy⟩
          · simp [h1] at hy
      have hfl := or_zero_flags v v' hfl
      refine ⟨hk, v', hv', ?_, fun b hb => hfl ▸ hb, fun _ => hfl, by simp, by simp⟩
      by_cases h1 : f.fn = 1
      · simpa [h1, Eff.dsts, dsts_wrS, fieldsOf, RRR.fields] using hw
      · simpa [h1, Eff.dsts] using hw
    · have hy := (branchResults.2 f).2 s w x v u hi
      cases hy.symm.trans hx
      obtain ⟨hk, v', hv', hw, hfl⟩ := frame_wrS (u := u) (x := x) (env := issueEnv s w x v u (.ret f)) (d := f.d) (i := .ret f)
        (e := { go := .abs ((issueEnv s w x v u (.ret f)).rdS f.a) }) hi.wave rfl rfl fun y hy => by cases hy
      have hfl := or_zero_flags v v' hfl
      exact ⟨hk, v', hv', by simpa [Eff.dsts] using hw, fun b hb => hfl ▸ hb, fun _ => hfl, by simp, by simp⟩
    · have hy : exec (.nop f) s = .next (retire s w x v u (.nop f) s {}) := issue_done hi (body := bodyNop) rfl (fun _ hg => by cases hg)
      cases hy.symm.trans hx
      obtain ⟨hk, v', hv', hw, hfl⟩ := frame_wrS (u := u) (x := x) (env := issueEnv s w x v u (.nop f)) (d := f.d) (i := .nop f)
        (e := {}) hi.wave rfl rfl fun y hy => by cases hy
      have hfl := or_zero_flags v v' hfl
      refine ⟨hk, v', hv', by simpa [Eff.dsts] using hw, fun b hb => hfl ▸ hb, fun _ => hfl, by simp, fun _ _ => ?_⟩
      rw [waveAt_retire_self hi.wave rfl] at hv'
      cases hv'
      rw [← instrLen_eq]
      exact pc_completed hi.sub rfl
  · intro s w x v u i d val e hv hs he
    refine ⟨_, waveAt_retire_self hv hs, ?_⟩
    exact getS_wrS_completed he

end Sys2Proof.Machine
end

section
/-! PROOFS. What stops an instruction before any effect, the entry of a trap, a faulted context, the software traps and the return from a handler (R42, R65, R114, R391 to R395, R426). -/

namespace Sys2Proof.Machine

/-! The tests before the body. -/

/-- R41: every instruction of SIMT code goes through the one rule of issue. -/
theorem exists_body_of_simt {i : Instr} (ho : (opOf i).isSome = true) (hs : (specOf none i).simt = true) : ∃ body, ∀ s, exec i s = issue i body s := by
  cases i with
  | sadd _ | ssub _ | smul _ | smulh _ | sdiv _ | srem _ | smin _ | smax _ | sand _ | sor _ | sxor _ | sandn _ | sshl _ | sshr _ | ssar _ | srot _
  | sabs _ | sclz _ | spopc _ | smov _ | sext _ | sbfx _ | sbfi _ | scmp _ | ssel _ | sli _ | sfadd _ | sfmul _ | sffma _ | sfcmp _ | sfcvt _ | jmp _
  | jc _ | jmpx _ | call _ | callx _ | ret _ | endThread _ | nop _ | sld _ | sst _ | sread _ | swrite _ | trap _ | tret _ | tretPark _ | mark _ | brk _
  | remap _ | vadd _ | vsub _ | vmul _ | vmulh _ | vmin _ | vmax _ | vmad _ | vand _ | vor _ | vxor _ | vandn _ | vshl _ | vshr _ | vsar _ | vabs _
  | vclz _ | vpopc _ | vmov _ | vbfx _ | vbfi _ | vcmp _ | vsel _ | vaddc _ | vfadd _ | vfsub _ | vfmul _ | vffma _ | vfmin _ | vfmax _ | vfcmp _
  | vrcp _ | vsqrt _ | vrsq _ | vexp2 _ | vlog2 _ | vsin _ | vcos _ | vfclass _ | vcvt _ | plog _ | pmov _ | pcnt _ | vshf _ | vshfi _ | vbcast _
  | vrfl _ | vwlane _ | vballot _ | vvote _ | vred _ | vscan _ | brv _ | join _ | wend _ | vunpk _ | vpack _ | vld _ | vst _ | lds _ | sts _ | stm _
  | vlds _ | vatom _ | satom _ | fence _ | align _ | prefetch _ | discard _ | pin _ | unpin _ | waitv _ | trec _ | tcopy _ | kwait _ | kjoin _ | gset _
  | garr _ | gwait _ | gsync _ | yield _ | fset _ | mbld _ | mma _ | mclr _ | mst _ | mlat _ | jld _ | treg _ | tdrop _ | tfind _ | tmove _ | solicit _
  | answer _ | cwait _ | post _ | rnext _ | qbind _ | creduce _ | xmodeB _ | xmodeBMx _ => exact ⟨_, fun _ => rfl⟩
  | xmodeS _ | xmov _ | xbcast _ | loop _ | lexit _ => exact nomatch (show false = true from hs)
  | _ => exact nomatch (show false = true from ho)

section
variable {s : State} {i : Instr} {w x : Nat} {v : Wave} {u : Sub} (body : Env → State → Res)

theorem issueAt_refused {f : DecFault} (hc : check (simtDec v) i = some f) : issueAt i body s w x v u = .next (trapped s w x s (decTrap (simtEnv s w x v u i) f)) := by
  have hl : check { alloc := v.kernel.alloc, w16 := (simtEnv s w x v u i).w16 } i = some f := hc
  unfold issueAt
  dsimp only
  rw [hl]
  rfl

theorem issueAt_unbound (hc : check (simtDec v) i = none) (hb : ((popsOf none i).all (portBound s v false) && (pushesOf none i).all (portBound s v true)) = false) :
    issueAt i body s w x v u = .next (trapped s w x s ((simtEnv s w x v u i).illegal 10)) := by
  have hl : check { alloc := v.kernel.alloc, w16 := (simtEnv s w x v u i).w16 } i = none := hc
  unfold issueAt
  simp only [hl, hb, Bool.not_false, if_true]
  rfl

/-- R42, R86, R197, R381: nothing that only makes the instruction wait, or that refuses it, comes before its body but the carry of its sequential address. -/
theorem issueAt_waits (hc : check (simtDec v) i = none) (hb : ((popsOf none i).all (portBound s v false) && (pushesOf none i).all (portBound s v true)) = true)
    (hw : (interlocked (simtEnv s w x v u i) i || !((popsOf none i).all (popReady s v)) || !((pushesOf none i).all (pushReady s v)) || !(pushReleased s v (pushesOf none i))) = true) :
    issueAt i body s w x v u = .next (finish s s) := by
  have hl : check { alloc := v.kernel.alloc, w16 := (simtEnv s w x v u i).w16 } i = none := hc
  unfold issueAt
  simp only [hl, hb, hw, Bool.not_true, Bool.false_eq_true, if_false, if_true]
  rfl

theorem issueAt_carries (hc : check (simtDec v) i = none) (hb : ((popsOf none i).all (portBound s v false) && (pushesOf none i).all (portBound s v true)) = true)
    (hw : (interlocked (simtEnv s w x v u i) i || !((popsOf none i).all (popReady s v)) || !((pushesOf none i).all (pushReady s v)) || !(pushReleased s v (pushesOf none i))) = false)
    (hn : (seqCarries u.pc (instrLen i) && goesOn i (issueEnv s w x v u i)) = true) :
    issueAt i body s w x v u = .next (trapped s w x s (carryTrap u.pc (instrLen i))) := by
  have hl : check { alloc := v.kernel.alloc, w16 := (simtEnv s w x v u i).w16 } i = none := hc
  have hn' : (seqCarries u.pc (instrLen i) && goesOn i { simtEnv s w x v u i with pops := popAll s v (popsOf none i), pushes := pushAll s v (pushesOf none i) }) = true := hn
  unfold issueAt
  simp only [hl, hb, hw, hn', Bool.not_true, Bool.false_eq_true, if_false, if_true]
  rfl

end

theorem decTrap_illegal (s : State) (w x : Nat) (v : Wave) (u : Sub) (i : Instr) (r : Nat) : decTrap (simtEnv s w x v u i) (.illegal r) = { cause := .illegal, addr := u.pc, info := BitVec.ofNat 64 r } := rfl

theorem decTrap_mode (s : State) (w x : Nat) (v : Wave) (u : Sub) (i : Instr) (r : Nat) : decTrap (simtEnv s w x v u i) (.mode r) = { cause := .mode, addr := u.pc, info := BitVec.ofNat 64 r } := rfl

theorem all_eq_false_of_mem {l : List Nat} {p : Nat → Bool} {q : Nat} (hq : q ∈ l) (h : p q = false) : l.all p = false :=
  List.all_eq_false.2 ⟨q, hq, by simp [h]⟩

/-- Settles O16: the order of the tests is that of the rule of issue. -/
theorem checksBeforeEffect : Obligations.ChecksBeforeEffect := by
  intro s i w x v u ho hs hch
  obtain ⟨body, hx⟩ := exists_body_of_simt ho hs
  have hex : exec i s = issueAt i body s w x v u := (hx s).trans (issue_chosen hch body)
  rw [hex]
  refine ⟨fun r hc => by rw [issueAt_refused body hc, decTrap_illegal], fun r hc => by rw [issueAt_refused body hc, decTrap_mode], fun hc hb => ?_, fun hc h1 h2 hw => ?_, ?_⟩
  · refine issueAt_unbound body hc ?_
    rcases hb with ⟨q, hq, hb⟩ | ⟨q, hq, hb⟩
    · rw [all_eq_false_of_mem hq hb, Bool.false_and]
    · rw [all_eq_false_of_mem hq hb, Bool.and_false]
  · refine issueAt_waits body hc (by rw [h1, h2]; rfl) ?_
    rcases hw with h | ⟨q, hq, h⟩ | ⟨q, hq, h⟩ | h
    · simp [h]
    · simp [all_eq_false_of_mem hq h]
    · simp [all_eq_false_of_mem hq h]
    · simp [h]
  · intro hc h1 h2 hin hpo hpu hrel hgo hsum
    refine issueAt_carries body hc (by rw [h1, h2]; rfl) (by simp [hin, hpo, hpu, hrel]) ?_
    rw [hgo, Bool.and_true]
    exact decide_eq_true hsum

/-! The entry of a trap. -/

theorem enterTrap_handler {s : State} {w x : Nat} {v : Wave} {t : Trap} (hv : waveAt s w = some v) (hr : v.isResponder = false) (hh : v.handler = none) (ht : v.tvec ≠ 0) :
    enterTrap s w x t = modWave s w (fun u => u.enterHandler x t (t.tpc.getD (((tblFind v.subs x).map (·.pc)).getD 0)) (tcauseOf t.cause false false false) { migrate := decide (t.cause = .migrate) }) := by
  unfold enterTrap
  simp only [hv, hr, Wave.inHandler, hh, Option.isSome_none, Bool.false_or, Bool.false_eq_true, if_false]
  rw [if_neg (by simpa using ht)]

theorem enterTrap_responder {s : State} {w x : Nat} {v : Wave} {t : Trap} (hv : waveAt s w = some v) (hr : v.isResponder = true) : enterTrap s w x t = responderFault s w := by
  unfold enterTrap
  simp only [hv, hr, if_true]

theorem enterTrap_fault {s : State} {w x : Nat} {v : Wave} {t : Trap} (hv : waveAt s w = some v) (hr : v.isResponder = false) (hh : v.handler.isSome = true ∨ v.tvec = 0) :
    enterTrap s w x t = contextFault s w t.cause := by
  have hf : (v.inHandler || decide (v.tvec = 0)) = true := by rcases hh with h | h <;> simp [Wave.inHandler, h]
  unfold enterTrap
  simp only [hv, hr, hf, Bool.false_eq_true, if_false, if_true]

theorem tcauseOf_plain (c : Cause) : tcauseOf c false false false = BitVec.ofNat 64 (causeCode c) := rfl

theorem waveAt_trapped {s : State} {w x : Nat} {v : Wave} {t : Trap} (hv : waveAt s w = some v) (hr : v.isResponder = false) (hh : v.handler = none) (ht : v.tvec ≠ 0) :
    waveAt (trapped s w x s t) w = some (v.enterHandler x t (t.tpc.getD (((tblFind v.subs x).map (·.pc)).getD 0)) (tcauseOf t.cause false false false) { migrate := decide (t.cause = .migrate) }) := by
  rw [trapped, waveAt_finish, enterTrap_handler hv hr hh ht, waveAt_modWave_self, hv]
  rfl

/-- Settles O17: the handler's entry is the one change. -/
theorem trapEntryWrites : Obligations.TrapEntryWrites := by
  intro s w x v u t _ hv hu hr hh ht
  refine ⟨_, waveAt_trapped hv hr hh ht, ?_, rfl, rfl, rfl, ⟨_, rfl, rfl, ?_, rfl⟩, ?_, fun y hy => ?_, rfl, rfl, rfl, rfl, rfl, rfl, rfl, rfl, rfl, rfl, rfl, rfl, rfl, rfl, rfl, keeps_trapped hv hr hh ht⟩
  · simp [Wave.enterHandler, Wave.trapRegs, hu]
  · simp [hu]
  · simp [Wave.enterHandler, Wave.trapRegs, tblFind_mod_self, hu]
  · simp [Wave.enterHandler, Wave.trapRegs, tblFind_mod_ne _ _ hy]

theorem tblFind_map_snd {α β : Type} (t : Tbl α) (g : α → β) (k : Nat) : tblFind (t.map (fun e => (e.1, g e.2))) k = (tblFind t k).map g := by
  induction t with
  | nil => rfl
  | cons e r ih =>
    simp only [List.map_cons, tblFind]
    split
    · rfl
    · exact ih

/-- R394: what the first fault of a context asks of a wave. -/
def faultedWave (c : Nat) (r : Nat) (a : Wave) : Wave := if a.ctx = c ∧ a.isResponder = false then faultAsk r a else a

theorem contextFault_first {s : State} {w : Nat} {v : Wave} {c : Cause} (hv : waveAt s w = some v) (hf : (ctxAt s v.ctx).faulted = none) :
    contextFault s w c = tellHost { modCtx s v.ctx (fun x => { x with faulted := some (v.frame, causeCode c) }) with waves := s.waves.map (fun e => (e.1, faultedWave v.ctx (causeCode c) e.2)) } (.ctxFault v.ctx v.frame (causeCode c)) := by
  have hmap : (fun e : Nat × Wave => if e.2.ctx = v.ctx ∧ e.2.isResponder = false then (e.1, faultAsk (causeCode c) e.2) else e) = fun e => (e.1, faultedWave v.ctx (causeCode c) e.2) := by
    funext e
    unfold faultedWave
    split <;> rfl
  unfold contextFault
  simp only [hv, hf, modCtx_waves, hmap]

/-- Settles O18: the first fault of a context changes its record, its waves' requests and what the host is told. -/
theorem trapFaultsContext : Obligations.TrapFaultsContext := by
  intro s w x v t hv
  refine ⟨fun hr hh hf hc => ?_, fun hr => ?_⟩
  · have he : trapped s w x s t = finish s _ := congrArg (finish s) ((enterTrap_fault hv hr hh).trans (contextFault_first hv hf))
    rw [he]
    refine ⟨?_, rfl, fun y a hy => ⟨faultedWave v.ctx (causeCode t.cause) a, ?_, fun h1 h2 h3 => ?_, fun h => ?_⟩⟩
    · obtain ⟨c, hc⟩ := Option.isSome_iff_exists.1 hc
      show (tblGet {} (tblMod s.ctxs v.ctx _) v.ctx).faulted = _
      rw [tblGet, tblFind_mod_self, hc]
      rfl
    · show tblFind (s.waves.map _) y = _
      rw [tblFind_map_snd, show tblFind s.waves y = some a from hy]
      rfl
    · rw [faultedWave, if_pos ⟨h1, h2⟩, faultAsk, h3]
    · refine if_neg ?_
      rintro ⟨h1, h2⟩
      rcases h with h | h
      · exact h h1
      · rw [h2] at h
        cases h
  · refine ⟨{ v.stopIssue s.clock with respFault := true, answer := none }, ?_, rfl, rfl, rfl, rfl, rfl⟩
    rw [trapped, waveAt_finish, enterTrap_responder hv hr, responderFault, waveAt_modWave_self, hv]
    rfl

/-! The software traps. -/

theorem brkStop_eq (s : State) (c : Nat) : brkStop s c = (ctxAt s c).dbgWord.getLsbD 0 := rfl

theorem tracing_eq (s : State) (c : Nat) : tracing s c = (ctxAt s c).dbgWord.getLsbD 3 := rfl

/-- Settles O19: `trap` always traps; `brk` and `mark` go by the debug word of their context; the foghorn of `brk` is on the agenda at once (log 85). -/
theorem softwareTrapResults : Obligations.SoftwareTrapResults := by
  refine ⟨fun f => ⟨?_, ?_, ?_⟩, fun f => ⟨?_, ?_⟩⟩
  · exact trapsIf_of_body (body := bodyTrap f) (fun _ => rfl) fun s w x v u _ _ => rfl
  · refine trapsIf_of_body (body := bodyBrk f) (fun _ => rfl) fun s w x v u _ hc => ?_
    simp only [bodyBrk, brkStop_eq, hc, Bool.false_eq_true, if_false]
  · refine yieldsIf_of_body (body := bodyBrk f) (fun _ => rfl) (fun _ _ _ _ hg => by cases hg) fun s w x v u _ hc => ?_
    simp only [bodyBrk, brkStop_eq, hc, if_true]
  · refine yieldsIf_of_body (body := bodyMark f) (fun _ => rfl) (fun _ _ _ _ hg => by cases hg) fun s w x v u _ hc => ?_
    rcases hc with h | h | h
    · simp only [bodyMark, tracing_eq, h, Bool.false_eq_true, if_false]
    · simp only [bodyMark, traceMark, h, Bool.false_and, Bool.false_eq_true, if_false, ite_self]
    · simp only [bodyMark, traceMark, h, ne_eq, not_true_eq_false, decide_false, Bool.and_false, Bool.false_eq_true, if_false, ite_self]
  · refine yieldsIf_of_body (body := bodyMark f) (fun _ => rfl) (fun _ _ _ _ hg => by cases hg) fun s w x v u _ hc => ?_
    simp only [not_or, Bool.not_eq_false] at hc
    obtain ⟨h1, h2, h3⟩ := hc
    simp only [bodyMark, tracing_eq, traceMark, h1, h2, h3, ne_eq, not_false_eq_true, decide_true, Bool.and_self, if_true]
    rfl

/-! The return from a handler. -/

/-- A completion with neither results nor accesses leaves its wave but for FLAGS, its sub-wave, the watchdog and the count of issues. -/
theorem Wave.completed_plain (v : Wave) (x : Nat) (next : Word) {e : Eff} (hw : e.wr = []) (ha : e.accs = []) :
    ∃ wd as, v.completed x next e = { v with flags := v.flags ||| e.flags, retired := v.retired + 1, subs := tblMod v.subs x (fun u => { u with pc := if e.go = .kept then u.pc else goPc e.go next, aged := 0 }), wd := wd, async := as } := by
  simp only [Wave.completed, hw, ha, Wave.putAll, List.foldl_nil, Wave.queue, List.mapIdx_nil, List.append_nil, List.length_nil, Nat.add_zero, Wave.advance]
  obtain ⟨wd, as, h⟩ := countIssue_eq (({ v with flags := v.flags ||| e.flags, retired := v.retired + 1 } : Wave).modSub x (fun u => { u with pc := if e.go = .kept then u.pc else goPc e.go next, aged := 0 })) (e.last.getD x) e.wdReset v.wdlimit
  exact ⟨wd, as, h⟩

theorem waveAt_retire_over {s s1 : State} {w x : Nat} {v v1 : Wave} {u : Sub} {i : Instr} {e : Eff} (hv : waveAt s1 w = some v1) (hl : v1.wdlimit = v.wdlimit) (hs : syncOp i = false) :
    waveAt (retire s w x v u i s1 e) w = some (v1.completed x (u.pc + BitVec.ofNat 64 (instrLen i)) e) := by
  rw [waveAt_retire hs, hv, ← hl]
  rfl

theorem tretWave_simt {s : State} {v : Wave} {h : Handler} (x : Nat) (park : Bool) (hh : v.handler = some h) (hb : v.tcause.getLsbD 8 = false) :
    tretWave s v x park = { v.leaveHandler x with yield_ := h.yield, parkReq := if park then some (v.tcause.toNat % 256, false) else v.parkReq } := by
  have hc : v.causeBundle = false := hb
  unfold tretWave
  simp only [hc, hh, Bool.false_eq_true, if_false, Option.bind_some]
  cases park <;> rfl

/-- What a sub-wave that may issue says of its wave. -/
theorem mayIssue_phase {v : Wave} {u : Sub} (h : mayIssue v u = true) : v.phase = .simt ∧ v.parkReq = none ∧ u.hold = .run := by
  simp only [mayIssue, Bool.and_eq_true, decide_eq_true_eq, Option.isNone_iff_eq_none] at h
  obtain ⟨⟨⟨⟨⟨⟨⟨⟨hp, -⟩, -⟩, -⟩, -⟩, -⟩, hpark⟩, hrun⟩, -⟩ := h
  exact ⟨hp, hpark, hrun⟩

/-- Settles O20: the handler state is left before the issue completes, so that the sub-wave stands at TPC (log 97); the REASON of a park is the code of TCAUSE (log 53). -/
theorem handlerReturn : Obligations.HandlerReturn := by
  intro f park
  have hx : ∀ s, exec (if park then .tretPark f else .tret f) s = issue (if park then .tretPark f else .tret f) (bodyTret park) s := by
    cases park <;> exact fun _ => rfl
  refine ⟨?_, ?_, ?_⟩
  · intro s w x v u h _ hi hh hsub hmask hcb
    have hsync : syncOp (if park then .tretPark f else .tret f) = false := by cases park <;> rfl
    have hbody : bodyTret park (issueEnv s w x v u (if park then .tretPark f else .tret f)) s = .done (modWave s w (fun v => tretWave s v x park)) { go := .kept } := by
      have hbad : tretBad (issueEnv s w x v u (if park then .tretPark f else .tret f)) = none := by
        have hv : (issueEnv s w x v u (if park then .tretPark f else .tret f)).v.handler = some h := hh
        rw [tretBad, hv]
        exact if_neg (not_or.2 ⟨Classical.not_not.2 hsub.symm, Classical.not_not.2 hmask.symm⟩)
      rw [bodyTret, hbad]
      rfl
    have hwave : waveAt (modWave s w (fun v => tretWave s v x park)) w = some (tretWave s v x park) := by rw [waveAt_modWave_self, hi.wave]; rfl
    obtain ⟨hphase, hpark, hrun⟩ := mayIssue_phase hi.may
    have hform := tretWave_simt (s := s) x park hh hcb
    obtain ⟨wd, as, hdone⟩ := (tretWave s v x park).completed_plain x (u.pc + BitVec.ofNat 64 (instrLen (if park then .tretPark f else .tret f))) (e := { go := .kept }) rfl rfl
    refine ⟨_, _, (hx s).trans (issue_done hi hbody (by simp)), (waveAt_retire_over hwave (by rw [hform]; rfl) hsync).trans (congrArg some hdone), ?_⟩
    rw [hform]
    refine ⟨rfl, ?_, fun y hy => ?_, ?_, hphase, rfl, rfl, rfl, rfl, Nat.or_zero _, rfl, rfl, rfl, rfl, rfl, keeps_retire (keeps_modWave w s _) rfl hsync (by simp)⟩
    · simp [Wave.leaveHandler, tblFind_mod_self, hi.sub]
    · simp [Wave.leaveHandler, tblFind_mod_ne _ _ hy]
    · rw [hpark]
  · refine trapsIf_of_body (body := bodyTret park) hx fun s w x v u hi hc => ?_
    rw [bodyTret, tretBad, hc]
    rfl
  · refine trapsIf_of_body (body := bodyTret park) hx fun s w x v u hi hc => ?_
    obtain ⟨h, hh, hne⟩ := hc
    rw [bodyTret, tretBad, hh]
    simp only [if_pos (hne.imp Ne.symm Ne.symm)]
    rfl

end Sys2Proof.Machine
end

section
/-! PROOFS. The vector forms of groups 2 to 4: each effect in the words of its rule (R142 to R171). -/

namespace Sys2Proof.Machine

/-- A form whose body is pure and computes lane by lane yields its effect, in any writing of what a lane does. -/
theorem yields_eachLane {i : Instr} {eff : Env → Eff} {g h : Env → Nat → List Wr × Nat} (hx : ∀ s, exec i s = issue i (pureBody eff) s) (he : ∀ e, eff e = eachLane e (g e)) (hg : ∀ e l, g e l = h e l) :
    Yields i (fun e => eachLane e (h e)) :=
  yields_effect hx (fun e => by rw [he e]; rfl) fun e => by rw [he e, funext (hg e)]

/-- The same for the element-wise forms, over the elements of A, B and C. -/
theorem yields_vecMap {i : Instr} {eff : Env → Eff} {f : RRR} {n : Nat} {out : Nat → Nat} {op op' : Env → Nat → Nat → Nat → Nat × Nat} (hx : ∀ s, exec i s = issue i (pureBody eff) s)
    (he : ∀ e, eff e = vecMap f n out (op e) e) (hop : ∀ e a b c, op e a b c = op' e a b c) : Yields i (fun e => vecMap f n out (op' e) e) :=
  yields_effect hx (fun e => by rw [he e]; rfl) fun e => by
    have h : op e = op' e := funext fun a => funext fun b => funext fun c => hop e a b c
    rw [he e, h]

theorem bitOp_sar_eq (n a b : Nat) : bitOp .sar n a b = truncN n (sint n a / 2 ^ (b % n)) := by simp [bitOp]

theorem bitField_eq (n x pos w : Nat) : bitField n x pos w = x % 2 ^ n / 2 ^ pos % 2 ^ w := rfl

theorem cast_ofBool (b : Bool) : ((ofBool b : Nat) : Int) = if b then 1 else 0 := by cases b <;> rfl

theorem ite_decide {p q : Prop} [Decidable p] [Decidable q] {c : Prop} [Decidable c] : (if c then decide p else decide q) = decide (if c then p else q) := by
  by_cases hc : c <;> simp [hc]

/-- R145 to R148: the element-wise integer forms of one register list. -/
theorem yields_vInt {i : Instr} {f : RRR} {op op' : Nat → Nat → Nat → Nat} (hx : ∀ s, exec i s = issue i (pureBody (vInt f op)) s) (h : ∀ a b c, op a b c = op' a b c) :
    Yields i (vecMap f (vBits f) (ext32 (tySigned f.ty) (vBits f)) (fun a b c => (op' a b c, 0))) :=
  yields_vecMap (op := fun _ a b c => (op a b c, 0)) (op' := fun _ a b c => (op' a b c, 0)) hx (fun _ => rfl) fun _ a b c => by rw [h]

/-- Settles O21: the effects are those of the rules; a field is extracted before it is extended. -/
theorem vectorIntegerResults : Obligations.VectorIntegerResults := by
  refine ⟨fun f => ⟨?_, ?_, ?_, ?_, ?_, ?_, ?_, ?_, ?_, ?_, ?_, ?_, ?_, ?_, ?_, ?_, ?_, ?_⟩, fun f => ⟨?_, ?_, ?_, ?_, ?_⟩⟩
  · exact yields_vInt (fun _ => rfl) fun _ _ _ => rfl
  · exact yields_vInt (fun _ => rfl) fun _ _ _ => rfl
  · exact yields_vInt (fun _ => rfl) fun _ _ _ => rfl
  · exact yields_vInt (fun _ => rfl) fun _ _ _ => by rw [intOp_mulh]
  · exact yields_vInt (fun _ => rfl) fun _ _ _ => by rw [intOp_min]
  · exact yields_vInt (fun _ => rfl) fun _ _ _ => by rw [intOp_max]
  · exact yields_vInt (fun _ => rfl) fun _ _ _ => rfl
  · exact yields_vInt (fun _ => rfl) fun _ _ _ => rfl
  · exact yields_vInt (fun _ => rfl) fun _ _ _ => rfl
  · exact yields_vInt (fun _ => rfl) fun _ _ _ => rfl
  · exact yields_vInt (fun _ => rfl) fun _ _ _ => rfl
  · exact yields_vInt (fun _ => rfl) fun _ _ _ => rfl
  · exact yields_vInt (fun _ => rfl) fun _ _ _ => rfl
  · exact yields_vInt (fun _ => rfl) fun _ _ _ => bitOp_sar_eq _ _ _
  · exact yields_vInt (fun _ => rfl) fun _ _ _ => rfl
  · exact yields_vInt (fun _ => rfl) fun _ _ _ => rfl
  · exact yields_vInt (fun _ => rfl) fun _ _ _ => rfl
  · exact yields_vInt (fun _ => rfl) fun _ _ _ => rfl
  · refine yields_eachLane (eff := effVbfx f) (fun _ => rfl) (fun _ => rfl) fun e l => ?_
    simp only [fieldWidth_eq_min, bitField_eq, sint_mod]
    rfl
  · refine yields_eachLane (eff := effVbfi f) (fun _ => rfl) (fun _ => rfl) fun e l => ?_
    simp only [fieldWidth_eq_min]
    rfl
  · exact yields_eachLane (eff := effVcmp f) (fun _ => rfl) (fun _ => rfl) fun _ _ => rfl
  · exact yields_eachLane (eff := effVsel f) (fun _ => rfl) (fun _ => rfl) fun _ _ => rfl
  · refine yields_eachLane (eff := effVaddc f) (fun _ => rfl) (fun _ => rfl) fun e l => ?_
    simp only [cast_ofBool, ite_decide]

/-- R153: the element-wise float forms. -/
theorem yields_vFlt {i : Instr} {f : RRR} {op op' : Env → Nat → Nat → Nat → Nat × Nat} (hx : ∀ s, exec i s = issue i (pureBody (fun e => vFlt f (op e) e)) s) (h : ∀ e a b c, op e a b c = op' e a b c) :
    Yields i (fun e => vecMap f (vFmt f).width (fun r => r) (op' e) e) := yields_vecMap hx (fun _ => rfl) h

/-- Settles O22: the effects are those of the rules, the approximate forms by the device's own candidates (log 13). -/
theorem vectorFloatResults : Obligations.VectorFloatResults := by
  refine ⟨fun f => ⟨?_, ?_, ?_, ?_, ?_, ?_, ?_, ?_, ?_, ?_, ?_, ?_, ?_, ?_, ?_⟩, fun f => ⟨?_, ?_⟩⟩
  · exact yields_vFlt (fun _ => rfl) fun _ _ _ _ => rfl
  · exact yields_vFlt (fun _ => rfl) fun _ _ _ _ => rfl
  · exact yields_vFlt (fun _ => rfl) fun _ _ _ _ => rfl
  · exact yields_vFlt (fun _ => rfl) fun _ _ _ _ => rfl
  · exact yields_vFlt (fun _ => rfl) fun _ _ _ _ => rfl
  · exact yields_vFlt (fun _ => rfl) fun _ _ _ _ => rfl
  · exact yields_vFlt (fun _ => rfl) fun _ _ _ _ => rfl
  · exact yields_vFlt (fun _ => rfl) fun _ _ _ _ => rfl
  · exact yields_vFlt (fun _ => rfl) fun _ _ _ _ => rfl
  · exact yields_vFlt (fun _ => rfl) fun _ _ _ _ => rfl
  · exact yields_vFlt (fun _ => rfl) fun _ _ _ _ => rfl
  · exact yields_vFlt (fun _ => rfl) fun _ _ _ _ => rfl
  · exact yields_vFlt (fun _ => rfl) fun _ _ _ _ => rfl
  · exact yields_eachLane (eff := effVfcmp f) (fun _ => rfl) (fun _ => rfl) fun _ _ => rfl
  · exact yields_eachLane (eff := effVfclass f) (fun _ => rfl) (fun _ => rfl) fun _ _ => rfl
  · refine yieldsIf_of_body (body := bodyVcvt f) (fun _ => rfl) (fun _ _ _ _ hg => by cases hg) fun s w x v u _ hc => ?_
    have hok : cvBadFmt f (issueEnv s w x v u (.vcvt f)) = false := Bool.eq_false_iff.2 (mt (cvBadFmt_eq_true_iff f _).1 hc)
    simp only [bodyVcvt, hok, Bool.false_eq_true, if_false]
    rfl
  · refine trapsIf_of_body (body := bodyVcvt f) (fun _ => rfl) fun s w x v u _ hc => ?_
    simp only [bodyVcvt, (cvBadFmt_eq_true_iff f _).2 hc, if_true]
    rfl

/-- R163: which of its three moves a `pmov` makes. -/
theorem effPmov_eq (f : RRR) (e : Env) : effPmov f e = eachLane e (fun l =>
    (if f.fn = 0 then e.wrV 32 f.d l (if e.rdP f.a l then 1 else 0) else if f.fn = 1 then e.wrP f.d l (decide (e.rdV f.a l ≠ 0)) else e.wrP f.d l ((e.rdS f.a).getLsbD (e.laneNo l)), 0)) := by
  unfold effPmov
  refine congrArg (eachLane e) (funext fun l => congrArg (·, 0) ?_)
  split
  · next h => rw [if_pos h]; rfl
  · next h => rw [if_neg (by omega), if_pos h]
  · next h0 h1 => rw [if_neg h0, if_neg h1]

/-- Settles O23: a form on the predicates of its lanes, or one scalar result. -/
theorem predicateResults : Obligations.PredicateResults := by
  intro f
  refine ⟨?_, ?_, ?_, ?_, ?_⟩
  · exact yields_eachLane (eff := effPlog f) (fun _ => rfl) (fun _ => rfl) fun _ _ => rfl
  · exact yields_eachLane (eff := effPmov f) (fun _ => rfl) (effPmov_eq f) fun _ _ => rfl
  · exact yields_effect (f := effPcnt f) (fun _ => rfl) (fun _ => rfl) fun _ => rfl
  · exact yields_effect (f := effVrfl f) (fun _ => rfl) (fun _ => rfl) fun _ => rfl
  · exact yields_effect (f := effVwlane f) (fun _ => rfl) (fun _ => rfl) fun _ => rfl

/-! The lane operations. -/

theorem foldl_add_eq_zero_iff {l : List Nat} {a : Nat} : l.foldl (· + ·) a = 0 ↔ a = 0 ∧ ∀ x ∈ l, x = 0 := by
  induction l generalizing a with
  | nil => simp
  | cons x r ih => rw [List.foldl_cons, ih]; simp [and_assoc]

/-- R133: no lane without its member bit exactly where the sum of their bits is zero. -/
theorem memberClear_eq_zero_iff (e : Env) (c : Nat) : memberClear e c = 0 ↔ ∀ l ∈ e.lanes, (e.rdS c).toNat.testBit (e.laneNo l) = true := by
  simp only [memberClear, foldl_add_eq_zero_iff, true_and, List.forall_mem_map, List.mem_filter, and_imp, Bool.not_eq_true']
  exact forall₂_congr fun l _ => by simp

theorem laneOperation_results {i : Instr} {c : Nat} {eff : Env → Eff} (hx : ∀ s, exec i s = issue i (withMembers c eff) s) (hgo : ∀ e, (eff e).go = .seq) :
    YieldsIf i (fun e _ => ∀ l ∈ e.lanes, (e.rdS c).toNat.testBit (e.laneNo l) = true) (fun _ s => s) (fun e _ => eff e)
      ∧ TrapsIf i (fun e _ => ∃ l ∈ e.lanes, (e.rdS c).toNat.testBit (e.laneNo l) = false) (fun e _ => { cause := .member, info := BitVec.ofNat 64 (memberClear e c) }) := by
  refine ⟨?_, ?_⟩
  · refine yieldsIf_of_body hx (fun e _ _ _ hg => by rw [hgo e] at hg; cases hg) fun s w x v u _ hc => ?_
    rw [withMembers, if_pos ((memberClear_eq_zero_iff _ c).2 hc)]
  · refine trapsIf_of_body hx fun s w x v u _ hc => ?_
    obtain ⟨l, hl, hm⟩ := hc
    have hne : memberClear (issueEnv s w x v u i) c ≠ 0 := fun h0 => by simp [(memberClear_eq_zero_iff _ c).1 h0 l hl] at hm
    rw [withMembers, if_neg hne]

theorem effVshfi_eq (f : RRR) (e : Env) : effVshfi f e = eachLane e (fun l => (e.wrV (vBits f) f.d l (fromLane e f (vBits f) l
    (if f.fn = 0 then (if (e.rdB f).toNat % e.span ≤ e.laneNo l then e.laneNo l - (e.rdB f).toNat % e.span else e.laneNo l)
      else if f.fn = 1 then (if e.laneNo l + (e.rdB f).toNat % e.span ≤ e.span - 1 then e.laneNo l + (e.rdB f).toNat % e.span else e.laneNo l) else e.laneNo l ^^^ ((e.rdB f).toNat % e.span))), 0)) := by
  unfold effVshfi
  refine congrArg (eachLane e) (funext fun l => congrArg (fun j => (e.wrV (vBits f) f.d l (fromLane e f (vBits f) l j), 0)) ?_)
  rcases f.fn with _ | _ | _ <;> rfl

theorem effVvote_eq (f : RRR) (e : Env) : effVvote f e = eachLane e (fun l => (e.wrP f.d l (if f.fn = 0 then e.lanes.all (fun l => e.rdP f.a l) else if f.fn = 1 then e.lanes.any (fun l => e.rdP f.a l)
    else e.lanes.all (fun l => e.rdP f.a l) || !(e.lanes.any (fun l => e.rdP f.a l))), 0)) := by
  have hall : (e.lanes.map (fun l => e.rdP f.a l)).all id = e.lanes.all (fun l => e.rdP f.a l) := List.all_map
  have hany : (e.lanes.map (fun l => e.rdP f.a l)).any id = e.lanes.any (fun l => e.rdP f.a l) := List.any_map
  have hnot : (e.lanes.map (fun l => e.rdP f.a l)).all not = !(e.lanes.any (fun l => e.rdP f.a l)) := by rw [List.all_map, List.not_any_eq_all_not]; rfl
  unfold effVvote
  dsimp only
  rw [hall, hany, hnot]
  refine congrArg (eachLane e) (funext fun l => congrArg (fun b => (e.wrP f.d l b, 0)) ?_)
  rcases f.fn with _ | _ | _ <;> rfl

/-- Settles O24: the member check comes first, then each lane is given what its form names. -/
theorem laneOperationResults : Obligations.LaneOperationResults := by
  intro f i eff
  dsimp only
  intro hmem
  have key : ∃ eff', (∀ s, exec i s = issue i (withMembers f.c eff') s) ∧ (∀ e, (eff' e).go = .seq) ∧ ∀ e, eff' e = eff e := by
    simp only [List.mem_cons, List.not_mem_nil, or_false, Prod.mk.injEq] at hmem
    rcases hmem with ⟨rfl, rfl⟩ | ⟨rfl, rfl⟩ | ⟨rfl, rfl⟩ | ⟨rfl, rfl⟩ | ⟨rfl, rfl⟩ | ⟨rfl, rfl⟩ | ⟨rfl, rfl⟩
    · exact ⟨effVshf f, fun _ => rfl, fun _ => rfl, fun _ => rfl⟩
    · exact ⟨effVshfi f, fun _ => rfl, fun _ => rfl, effVshfi_eq f⟩
    · exact ⟨effVbcast f, fun _ => rfl, fun _ => rfl, fun _ => rfl⟩
    · exact ⟨effVballot f, fun _ => rfl, fun _ => rfl, fun _ => rfl⟩
    · exact ⟨effVvote f, fun _ => rfl, fun _ => rfl, effVvote_eq f⟩
    · exact ⟨effVred f, fun _ => rfl, fun _ => rfl, fun _ => rfl⟩
    · exact ⟨effVscan f, fun _ => rfl, fun _ => rfl, fun _ => rfl⟩
  obtain ⟨eff', hx, hgo, he⟩ := key
  obtain rfl : eff' = eff := funext he
  exact laneOperation_results hx hgo

end Sys2Proof.Machine
end

section
/-! PROOFS. The frame of the vector forms (R124). -/

namespace Sys2Proof.Machine

theorem KeepsWave.mono {ds es : List Dst} {a b : Wave} (h : KeepsWave ds a b) (hs : ∀ d ∈ ds, d ∈ es) : KeepsWave es a b where
  scalars r hr := h.scalars r fun hd => hr (hs _ hd)
  lanes r l hl hr := h.lanes r l hl fun hd => hr (hs _ hd)
  predicates k l hl hr := h.predicates k l hl fun hd => hr (hs _ hd)
  formats n hn := h.formats n fun hd => hn (hs _ hd)
  records n hn := h.records n fun hd => hn (hs _ hd)
  mode := h.mode
  ctxbase := h.ctxbase
  wdlimit := h.wdlimit
  tpc := h.tpc
  tcause := h.tcause
  taddr := h.taddr
  tinfo := h.tinfo
  tvec := h.tvec
  hinges := h.hinges
  root := h.root
  masks := h.masks
  bundle := h.bundle
  tokens := h.tokens
  ports := h.ports
  gates := h.gates
  accesses := h.accesses
  handler := h.handler

theorem lt_of_mem_maskLanes {m : Lane32} {l : Nat} (h : l ∈ maskLanes m) : l < 32 := List.mem_range.1 (List.mem_filter.1 h).1

theorem mem_eachLane {e : Env} {g : Nat → List Wr × Nat} {y : Wr} (h : y ∈ (eachLane e g).wr) : ∃ l ∈ e.lanes, y ∈ (g l).1 := by
  simp only [eachLane, List.mem_flatten, List.mem_map] at h
  obtain ⟨_, ⟨_, ⟨l, hl, rfl⟩, rfl⟩, hy⟩ := h
  exact ⟨l, hl, hy⟩

theorem flagAll_zero {l : List Nat} (h : ∀ x ∈ l, x = 0) : flagAll l = 0 := by
  have hfold : ∀ (l : List Nat), (∀ x ∈ l, x = 0) → l.foldl flagOr 0 = 0 := by
    intro l
    induction l with
    | nil => exact fun _ => rfl
    | cons x r ih => exact fun hl => by rw [List.foldl_cons, hl x (by simp)]; exact ih fun z hz => hl z (by simp [hz])
  exact hfold l h

theorem flags_eachLane_zero {e : Env} {g : Nat → List Wr × Nat} (h : ∀ l, (g l).2 = 0) : (eachLane e g).flags = 0 :=
  flagAll_zero fun x hx => by
    simp only [List.map_map, List.mem_map] at hx
    obtain ⟨l, -, rfl⟩ := hx
    exact h l

/-- A form whose lanes write their own places `D` and nothing else. -/
structure LaneForm (i : Instr) (eff : Env → Eff) (D : Nat → List Dst) : Prop where
  yields : Yields i eff
  sync : syncOp i = false
  lanes : ∃ g : Env → Nat → List Wr × Nat, ∀ e, eff e = eachLane e (g e) ∧ ∀ l, ∀ y ∈ (g e l).1, y.dst ∈ D l

/-- The registers and predicate bits a vector form may name in lane l. -/
def LanePlace (l : Nat) (d : Dst) : Prop := (∃ r, d = .v r l) ∨ ∃ k, d = .p k l

theorem LaneForm.frame {i : Instr} {eff : Env → Eff} {D : Nat → List Dst} (h : LaneForm i eff D) (hD : ∀ l, ∀ d ∈ D l, LanePlace l d) {s t : State} {w x : Nat} {v : Wave} {u : Sub} (hi : Issuing s i w x v u) (hx : exec i s = .next t) :
    KeepsRest w s t ∧ ∃ v', waveAt t w = some v' ∧ KeepsWave ((issueEnv s w x v u i).lanes.flatMap D) v v' ∧ v'.flags = v.flags ||| (eff (issueEnv s w x v u i)).flags := by
  obtain ⟨g, hg⟩ := h.lanes
  obtain ⟨he, hin⟩ := hg (issueEnv s w x v u i)
  obtain rfl : retire s w x v u i s (eff (issueEnv s w x v u i)) = t := Host.Outcome.next.inj ((h.yields s w x v u hi).symm.trans hx)
  have hy : ∀ y ∈ (eff (issueEnv s w x v u i)).wr, ∃ l ∈ (issueEnv s w x v u i).lanes, y.dst ∈ D l := by
    intro y hy
    rw [he] at hy
    obtain ⟨l, hl, hy⟩ := mem_eachLane hy
    exact ⟨l, hl, hin l y hy⟩
  have hplace : ∀ y ∈ (eff (issueEnv s w x v u i)).wr, ∃ l < 32, LanePlace l y.dst := by
    intro y hy'
    obtain ⟨l, hl, hd⟩ := hy y hy'
    exact ⟨l, lt_of_mem_maskLanes hl, hD l _ hd⟩
  obtain ⟨hk, v', hv', hw, hfl⟩ := frame_retire (u := u) (x := x) (i := i) (e := eff (issueEnv s w x v u i)) hi.wave h.sync (by rw [he]; rfl)
    (fun y hy p hp => by obtain ⟨l, -, ⟨r, hd⟩ | ⟨k, hd⟩⟩ := hplace y hy <;> rw [hd] at hp <;> cases hp)
    (fun y hy hp => by obtain ⟨l, -, ⟨r, hd⟩ | ⟨k, hd⟩⟩ := hplace y hy <;> rw [hd] at hp <;> cases hp)
    (fun y hy r l hp => by
      obtain ⟨l', hl', ⟨r', hd⟩ | ⟨k, hd⟩⟩ := hplace y hy <;> rw [hd] at hp <;> cases hp
      exact hl')
  refine ⟨hk, v', hv', hw.mono fun d hd => ?_, hfl⟩
  obtain ⟨y, hy', rfl⟩ := List.mem_map.1 hd
  exact List.mem_flatMap.2 (hy y hy')

/-! The places of a vector result. -/

/-- The registers of a vector result in lane l. -/
def vPlaces (f : RRR) (l : Nat) : List Dst := if f.ty.is64 = true then [.v f.d l, .v (f.d + 1) l] else [.v f.d l]

theorem dst_mem_wrV (e : Env) {n l x : Nat} {f : RRR} {y : Wr} (hn : n = 64 → f.ty.is64 = true) (h : y ∈ e.wrV n f.d l x) : y.dst ∈ vPlaces f l := by
  unfold Env.wrV at h
  unfold vPlaces
  by_cases h64 : n = 64
  · rw [if_pos (hn h64)]
    rw [if_pos h64] at h
    simp only [List.mem_cons, List.not_mem_nil, or_false] at h ⊢
    rcases h with rfl | rfl
    · exact .inl rfl
    · exact .inr rfl
  · rw [if_neg h64] at h
    obtain rfl := List.mem_singleton.1 h
    split <;> simp

theorem is64_of_vBits {f : RRR} (h : vBits f = 64) : f.ty.is64 = true := by
  unfold vBits tyBits at h
  cases hty : f.ty <;> rw [hty] at h <;> first | rfl | cases h

theorem is64_of_vFmt {f : RRR} (h : (vFmt f).width = 64) : f.ty.is64 = true := by
  unfold vFmt fmtOf at h
  cases hty : f.ty <;> rw [hty] at h <;> first | rfl | cases h

theorem dst_mem_vecMap {f : RRR} {n : Nat} {out : Nat → Nat} {op : Nat → Nat → Nat → Nat × Nat} (hn : n = 64 → f.ty.is64 = true) (e : Env) :
    ∃ g, vecMap f n out op e = eachLane e g ∧ ∀ l, ∀ y ∈ (g l).1, y.dst ∈ vPlaces f l := by
  refine ⟨_, rfl, fun l y hy => ?_⟩
  dsimp only at hy
  split at hy
  · exact dst_mem_wrV (n := 32) e (fun h => absurd h (by decide)) hy
  · exact dst_mem_wrV e hn hy

/-- R142, R143: an element-wise form writes the places of its result. -/
theorem laneForm_vecMap {i : Instr} {f : RRR} {n : Nat} {out : Nat → Nat} {op : Env → Nat → Nat → Nat → Nat × Nat} (hx : ∀ s, exec i s = issue i (pureBody (fun e => vecMap f n out (op e) e)) s)
    (hs : syncOp i = false) (hn : n = 64 → f.ty.is64 = true) : LaneForm i (fun e => vecMap f n out (op e) e) (vPlaces f) where
  yields := yields_effect hx (fun _ => rfl) fun _ => rfl
  sync := hs
  lanes := ⟨fun e => (dst_mem_vecMap hn e).choose, fun e => (dst_mem_vecMap hn e).choose_spec⟩

theorem laneForm_eachLane {i : Instr} {g : Env → Nat → List Wr × Nat} {D : Nat → List Dst} (hx : ∀ s, exec i s = issue i (pureBody (fun e => eachLane e (g e))) s) (hs : syncOp i = false)
    (hd : ∀ e l, ∀ y ∈ (g e l).1, y.dst ∈ D l) : LaneForm i (fun e => eachLane e (g e)) D where
  yields := yields_effect hx (fun _ => rfl) fun _ => rfl
  sync := hs
  lanes := ⟨g, fun e => ⟨rfl, hd e⟩⟩

theorem flags_vecMap_zero {f : RRR} {n : Nat} {out : Nat → Nat} {op : Nat → Nat → Nat → Nat} (e : Env) : (vecMap f n out (fun a b c => (op a b c, 0)) e).flags = 0 := by
  refine flags_eachLane_zero fun l => ?_
  dsimp only
  split <;> rfl

/-- A vector form that raises no flag. -/
def QuietForm (i : Instr) (D : Nat → List Dst) : Prop := ∃ eff, LaneForm i eff D ∧ ∀ e, (eff e).flags = 0

theorem quietForm_vInt {i : Instr} {f : RRR} {op : Nat → Nat → Nat → Nat} (hx : ∀ s, exec i s = issue i (pureBody (vInt f op)) s) (hs : syncOp i = false) : QuietForm i (vPlaces f) :=
  ⟨_, laneForm_vecMap (n := vBits f) (op := fun _ a b c => (op a b c, 0)) hx hs is64_of_vBits, flags_vecMap_zero⟩

theorem quietForm_eachLane {i : Instr} {g : Env → Nat → List Wr × Nat} {D : Nat → List Dst} (hx : ∀ s, exec i s = issue i (pureBody (fun e => eachLane e (g e))) s) (hs : syncOp i = false)
    (hd : ∀ e l, ∀ y ∈ (g e l).1, y.dst ∈ D l) (hf : ∀ e l, (g e l).2 = 0) : QuietForm i D := ⟨_, laneForm_eachLane hx hs hd, fun e => flags_eachLane_zero (hf e)⟩

/-- The element-wise integer forms. -/
def elementForms (f : RRR) : List Instr :=
  [.vadd f, .vsub f, .vmul f, .vmulh f, .vmin f, .vmax f, .vmad f, .vand f, .vor f, .vxor f, .vandn f, .vshl f, .vshr f, .vsar f, .vabs f, .vclz f, .vpopc f, .vmov f]

/-- The forms without flags whose results take the width of their type. -/
def wideForms (f : RRR) : List Instr := elementForms f ++ [.vbfx f, .vbfi f, .vsel f]

theorem quietForm_of_elementForms {f : RRR} {i : Instr} (h : i ∈ elementForms f) : QuietForm i (vPlaces f) := by
  simp only [elementForms, List.mem_cons, List.not_mem_nil, or_false] at h
  rcases h with rfl | rfl | rfl | rfl | rfl | rfl | rfl | rfl | rfl | rfl | rfl | rfl | rfl | rfl | rfl | rfl | rfl | rfl <;>
    exact quietForm_vInt (fun _ => rfl) rfl

theorem quietForm_of_wideForms {f : RRR} {i : Instr} (h : i ∈ wideForms f) : QuietForm i (vPlaces f) := by
  rcases List.mem_append.1 h with h | h
  · exact quietForm_of_elementForms h
  · simp only [List.mem_cons, List.not_mem_nil, or_false] at h
    rcases h with rfl | rfl | rfl
    · exact quietForm_eachLane (fun _ => rfl) rfl (fun e l y hy => dst_mem_wrV e is64_of_vBits hy) fun _ _ => rfl
    · refine quietForm_eachLane (fun _ => rfl) rfl (fun e l y hy => ?_) fun _ _ => rfl
      dsimp only at hy
      split at hy
      · cases hy
      · exact dst_mem_wrV e is64_of_vBits hy
    · exact quietForm_eachLane (fun _ => rfl) rfl (fun e l y hy => dst_mem_wrV e is64_of_vBits hy) fun _ _ => rfl

theorem quietForm_vfclass (f : RRR) : QuietForm (.vfclass f) (fun l => [.v f.d l]) :=
  quietForm_eachLane (fun _ => rfl) rfl (fun e l y hy => by obtain rfl := List.mem_singleton.1 hy; exact List.mem_singleton.2 rfl) fun _ _ => rfl

theorem laneForm_vFlt {i : Instr} {f : RRR} {op : Env → Nat → Nat → Nat → Nat × Nat} (hx : ∀ s, exec i s = issue i (pureBody (fun e => vFlt f (op e) e)) s) (hs : syncOp i = false) :
    LaneForm i (fun e => vecMap f (vFmt f).width (fun r => r) (op e) e) (vPlaces f) := laneForm_vecMap hx hs is64_of_vFmt

theorem laneForm_of_flagging {f : RRR} {i : Instr} (h : i ∈ [Instr.vfadd f, .vfsub f, .vfmul f, .vffma f, .vfmin f, .vfmax f, .vrcp f, .vsqrt f, .vrsq f, .vexp2 f, .vlog2 f, .vsin f, .vcos f]) :
    ∃ eff, LaneForm i eff (vPlaces f) := by
  simp only [List.mem_cons, List.not_mem_nil, or_false] at h
  rcases h with rfl | rfl | rfl | rfl | rfl | rfl | rfl | rfl | rfl | rfl | rfl | rfl | rfl <;>
    exact ⟨_, laneForm_vFlt (fun _ => rfl) rfl⟩

/-- R123: the bits a predicate result names in lane l. -/
def pPlaces (f : RRR) (l : Nat) : List Dst := if f.d = 7 then [] else [.p f.d l]

theorem dst_mem_wrP (e : Env) {f : RRR} {l : Nat} {b : Bool} {y : Wr} (h : y ∈ e.wrP f.d l b) : y.dst ∈ pPlaces f l := by
  unfold Env.wrP at h
  unfold pPlaces
  split at h
  · cases h
  · next hd =>
    obtain rfl := List.mem_singleton.1 h
    rw [if_neg hd]
    exact List.mem_singleton.2 rfl

theorem flatMap_pPlaces (f : RRR) (ls : List Nat) : ls.flatMap (pPlaces f) = if f.d = 7 then [] else ls.map (fun l => .p f.d l) := by
  unfold pPlaces
  split
  · exact List.flatMap_eq_nil_iff.2 fun _ _ => rfl
  · exact (List.map_eq_flatMap (f := fun l => Dst.p f.d l)).symm

theorem lanePlace_vPlaces (f : RRR) (l : Nat) : ∀ d ∈ vPlaces f l, LanePlace l d := by
  intro d hd
  unfold vPlaces at hd
  split at hd
  · simp only [List.mem_cons, List.not_mem_nil, or_false] at hd
    exact .inl (hd.elim (fun h => ⟨_, h⟩) fun h => ⟨_, h⟩)
  · exact .inl ⟨_, List.mem_singleton.1 hd⟩

theorem lanePlace_pPlaces (f : RRR) (l : Nat) : ∀ d ∈ pPlaces f l, LanePlace l d := by
  intro d hd
  unfold pPlaces at hd
  split at hd
  · cases hd
  · exact .inr ⟨_, List.mem_singleton.1 hd⟩

/-- R150, R156, R162: the forms whose result is a predicate. -/
theorem laneForm_predicate {f : RRR} {i : Instr} (h : i ∈ [Instr.vcmp f, .vfcmp f, .plog f]) : ∃ eff, LaneForm i eff (pPlaces f) ∧ (i ≠ .vfcmp f → ∀ e, (eff e).flags = 0) := by
  simp only [List.mem_cons, List.not_mem_nil, or_false] at h
  rcases h with rfl | rfl | rfl
  · exact ⟨_, laneForm_eachLane (i := .vcmp f) (fun _ => rfl) rfl fun e _ _ hy => dst_mem_wrP e hy, fun _ e => flags_eachLane_zero fun _ => rfl⟩
  · exact ⟨_, laneForm_eachLane (i := .vfcmp f) (fun _ => rfl) rfl fun e _ _ hy => dst_mem_wrP e hy, fun h => absurd rfl h⟩
  · exact ⟨_, laneForm_eachLane (i := .plog f) (fun _ => rfl) rfl fun e _ _ hy => dst_mem_wrP e hy, fun _ e => flags_eachLane_zero fun _ => rfl⟩

/-- Settles O25: every result lies in its own lane, and a lane that does not execute has none. -/
theorem vectorFrame : Obligations.VectorFrame := by
  intro f i s w x v u t
  dsimp only
  intro _ hi hx
  refine ⟨fun hmem => ?_, fun hmem => ?_⟩
  · have key : ∃ eff D, LaneForm i eff D ∧ (∀ l, ∀ d ∈ D l, LanePlace l d) ∧ (∀ l, D l = if f.ty.is64 = true ∧ i ≠ .vfclass f then [.v f.d l, .v (f.d + 1) l] else [.v f.d l])
        ∧ (i ∈ wideForms f ++ [.vfclass f] → ∀ e, (eff e).flags = 0) := by
      have hwide : i ≠ .vfclass f → ∀ l, vPlaces f l = if f.ty.is64 = true ∧ i ≠ .vfclass f then [.v f.d l, .v (f.d + 1) l] else [.v f.d l] := fun h l => by simp only [vPlaces, h, ne_eq, not_false_eq_true, and_true]
      rcases hmem with h | h
      · rcases List.mem_append.1 (show i ∈ wideForms f ++ [.vfclass f] from h) with h | h
        · obtain ⟨eff, hl, hf⟩ := quietForm_of_wideForms h
          have hne : i ≠ .vfclass f := by rintro rfl; simp [wideForms, elementForms] at h
          exact ⟨eff, _, hl, lanePlace_vPlaces f, hwide hne, fun _ => hf⟩
        · obtain rfl := List.mem_singleton.1 h
          obtain ⟨eff, hl, hf⟩ := quietForm_vfclass f
          exact ⟨eff, _, hl, fun l d hd => .inl ⟨_, List.mem_singleton.1 hd⟩, fun l => by simp, fun _ => hf⟩
      · have hne : i ≠ .vfclass f := by rintro rfl; simp at h
        have hnw : i ∉ wideForms f ++ [.vfclass f] := by
          simp only [List.mem_cons, List.not_mem_nil, or_false] at h
          rcases h with rfl | rfl | rfl | rfl | rfl | rfl | rfl | rfl | rfl | rfl | rfl | rfl | rfl <;> simp [wideForms, elementForms]
        obtain ⟨eff, hl⟩ := laneForm_of_flagging h
        exact ⟨eff, _, hl, lanePlace_vPlaces f, hwide hne, fun hq => absurd hq hnw⟩
    obtain ⟨eff, D, hl, hD, hform, hq⟩ := key
    obtain ⟨hk, v', hv', hw, hfl⟩ := hl.frame hD hi hx
    refine ⟨hk, v', hv', ?_, fun h => or_zero_flags v v' (hq h _ ▸ hfl)⟩
    exact funext hform ▸ hw
  · obtain ⟨eff, hl, hf⟩ := laneForm_predicate hmem
    obtain ⟨hk, v', hv', hw, hfl⟩ := hl.frame (lanePlace_pPlaces f) hi hx
    exact ⟨hk, v', hv', flatMap_pPlaces f _ ▸ hw, fun h => or_zero_flags v v' (hf h _ ▸ hfl)⟩

end Sys2Proof.Machine
end

section
/-! PROOFS. `join`, `wend` and `end`: the entry that is left, the lanes that leave, the wave that ends (R109, R127 to R132, R173, R174). -/

namespace Sys2Proof.Machine

/-! What an instruction sees of the sub-wave that issues it. -/

section
variable (s : State) (w x : Nat) (v : Wave) (u : Sub) (i : Instr)

@[simp] theorem issueEnv_w : (issueEnv s w x v u i).w = w := rfl
@[simp] theorem issueEnv_x : (issueEnv s w x v u i).x = x := rfl
@[simp] theorem issueEnv_v : (issueEnv s w x v u i).v = v := rfl
@[simp] theorem issueEnv_mask : (issueEnv s w x v u i).mask = u.mask := rfl
@[simp] theorem issueEnv_p : (issueEnv s w x v u i).p = u.pc := rfl
@[simp] theorem issueEnv_core : (issueEnv s w x v u i).core = physCore s v.core := rfl
@[simp] theorem issueEnv_now : (issueEnv s w x v u i).now = s.clock := rfl
@[simp] theorem issueEnv_slot : (issueEnv s w x v u i).slot = none := rfl
@[simp] theorem issueEnv_tag : (issueEnv s w x v u i).tag = 0 := rfl
@[simp] theorem issueEnv_w16 : (issueEnv s w x v u i).w16 = (v.kernel.w16 && !v.inHandler) := rfl
@[simp] theorem issueEnv_half : (issueEnv s w x v u i).half = halfOf v x := rfl

end

/-! Completions that write nothing. -/

/-- A completion that resets the watchdog and writes nothing. -/
theorem Wave.completed_reset (v : Wave) (x : Nat) (next : Word) {e : Eff} (hw : e.wr = []) (ha : e.accs = []) (hr : e.wdReset = true) :
    v.completed x next e = { v with flags := v.flags ||| e.flags, retired := v.retired + 1, subs := tblMod v.subs x (fun u => { u with pc := if e.go = .kept then u.pc else goPc e.go next, aged := 0 }), wd := 0 } := by
  simp only [Wave.completed, hw, ha, Wave.putAll, List.foldl_nil, Wave.queue, List.mapIdx_nil, List.append_nil, List.length_nil, Nat.add_zero, Wave.advance, Wave.countIssue, hr, if_true, Wave.modSub]

/-- An instruction that completes over a state in which its own wave is `v1`, writing nothing and resetting the watchdog. -/
theorem exec_done_reset {s s1 : State} {i : Instr} {w x : Nat} {v v1 : Wave} {u : Sub} {body : Env → State → Res} {e : Eff} (hx : ∀ s, exec i s = issue i body s) (hi : Issuing s i w x v u)
    (hb : body (issueEnv s w x v u i) s = .done s1 e) (hk : KeepsRest w s s1) (hm : s1.mem = s.mem) (hv1 : waveAt s1 w = some v1) (hl : v1.wdlimit = v.wdlimit) (hgo : e.go = .seq ∨ e.go = .kept)
    (hs : syncOp i = false) (hw : e.wr = []) (ha : e.accs = []) (hr : e.wdReset = true) :
    ∃ t, exec i s = .next t ∧ KeepsRest w s t
      ∧ waveAt t w = some { v1 with flags := v1.flags ||| e.flags, retired := v1.retired + 1, subs := tblMod v1.subs x (fun u' => { u' with pc := if e.go = .kept then u'.pc else goPc e.go (u.pc + BitVec.ofNat 64 (instrLen i)), aged := 0 }), wd := 0 } := by
  have hbr : ∀ t, e.go = .br t → brOut t = false := fun t ht => by rcases hgo with h | h <;> rw [h] at ht <;> cases ht
  refine ⟨_, (hx s).trans (issue_done hi hb hbr), keeps_retire hk hm hs (by rw [hw]; simp), ?_⟩
  rw [waveAt_retire_over hv1 hl hs, Wave.completed_reset v1 x _ hw ha hr]

theorem waveAt_modWave_of {s : State} {w : Nat} {v : Wave} (hv : waveAt s w = some v) (g : Wave → Wave) : waveAt (modWave s w g) w = some (g v) := by
  rw [waveAt_modWave_self, hv]
  rfl

/-! `join`. -/

theorem subId_sibling (x : Nat) : subId (x / 2) (!(decide (x % 2 = 1))) = if x % 2 = 1 then x - 1 else x + 1 := by
  rcases Nat.mod_two_eq_zero_or_one x with h | h <;> simp [subId, ofBool, h] <;> omega

theorem brState_sibling {v : Wave} {x : Nat} {h : Hinge} (hh : tblFind v.hinge (x / 2) = some h) : brState v (x / 2) (!(decide (x % 2 = 1))) = if x % 2 = 1 then h.fst else h.tst := by
  unfold brState
  rw [hh]
  rcases Nat.mod_two_eq_zero_or_one x with h | h <;> simp [h]

/-- R128: the entry is gone and its place in the parent is the sub-wave that goes on. -/
theorem replaceHinge_spec {v : Wave} {n : Nat} {h : Hinge} (hh : tblFind v.hinge n = some h) (mask : Lane32) (pc : Word) :
    tblFind (replaceHinge v n mask pc).hinge n = none ∧ tblFind (replaceHinge v n mask pc).subs (2 * h.parent + (if h.pbranch then 1 else 0)) = some { pc := pc, mask := mask }
      ∧ (replaceHinge v n mask pc).s = v.s ∧ (replaceHinge v n mask pc).v = v.v ∧ (replaceHinge v n mask pc).p = v.p ∧ (replaceHinge v n mask pc).flags = v.flags ∧ (replaceHinge v n mask pc).wdlimit = v.wdlimit := by
  have hplace : subId h.parent h.pbranch = 2 * h.parent + (if h.pbranch then 1 else 0) := by cases hb : h.pbranch <;> simp [subId, ofBool]
  unfold replaceHinge
  rw [hh]
  refine ⟨?_, ?_, rfl, rfl, rfl, rfl, rfl⟩
  · simp [setBr, tblFind_mod, tblFind_erase_self]
  · rw [← hplace]
    exact tblFind_put_self _ _ _

/-- A sub-wave just placed has not aged. -/
theorem tblFind_mod_aged {t : Tbl Sub} {x k : Nat} {y : Sub} {f : Sub → Sub} (h : tblFind t k = some y) (hf : f y = y) : tblFind (tblMod t x f) k = some y := by
  rw [tblFind_mod]
  split
  · rw [h, Option.map_some, hf]
  · exact h

section
variable {f : RRR} {s : State} {w x : Nat} {v : Wave} {u : Sub} (hi : Issuing s (.join f) w x v u)
include hi

theorem next_join : u.pc + BitVec.ofNat 64 (instrLen (.join f)) = u.pc + 8 := next_issueEnv_of_noLit hi rfl

/-- R173: where nothing holds the sub-wave, it goes on behind the `join` and its stack stays. -/
theorem join_passes (hb : bodyJoin (issueEnv s w x v u (.join f)) s = .done s { wdReset := true }) :
    ∃ t v', exec (.join f) s = .next t ∧ waveAt t w = some v' ∧ v'.hinge = v.hinge ∧ tblFind v'.subs x = some { u with pc := u.pc + 8, aged := 0 } ∧ (v.handler = none → v'.wd = 0) ∧ v'.s = v.s ∧ v'.v = v.v ∧ v'.p = v.p ∧ KeepsRest w s t := by
  obtain ⟨t, ht, hk, hv'⟩ := exec_done_reset (fun _ => rfl) hi hb (KeepsRest.refl w s) rfl hi.wave rfl (.inl rfl) rfl rfl rfl rfl
  refine ⟨t, _, ht, hv', rfl, ?_, fun _ => rfl, rfl, rfl, rfl, hk⟩
  rw [tblFind_mod_self, hi.sub, next_join hi]
  rfl

/-- R128: the sub-wave takes the place of its entry with the lanes `mask`. -/
theorem join_goes {h : Hinge} {mask : Lane32} (hh : tblFind v.hinge (x / 2) = some h)
    (hb : bodyJoin (issueEnv s w x v u (.join f)) s = .done (modWave s w (fun v => replaceHinge v (x / 2) mask (u.pc + 8))) { go := .kept, wdReset := true, last := some (replacedId v (x / 2)) }) :
    ∃ t v', exec (.join f) s = .next t ∧ waveAt t w = some v' ∧ tblFind v'.hinge (x / 2) = none ∧ tblFind v'.subs (2 * h.parent + (if h.pbranch then 1 else 0)) = some { pc := u.pc + 8, mask := mask } ∧ (v.handler = none → v'.wd = 0)
      ∧ v'.s = v.s ∧ v'.v = v.v ∧ v'.p = v.p ∧ v'.flags = v.flags ∧ KeepsRest w s t := by
  obtain ⟨hgone, hplace, hs, hv, hp, hf, hl⟩ := replaceHinge_spec hh mask (u.pc + 8)
  obtain ⟨t, ht, hk, hv'⟩ := exec_done_reset (fun _ => rfl) hi hb (keeps_modWave w s _) rfl (waveAt_modWave_of hi.wave _) hl (.inr rfl) rfl rfl rfl rfl
  exact ⟨t, _, ht, hv', hgone, tblFind_mod_aged hplace rfl, fun _ => rfl, hs, hv, hp, (Nat.or_zero _).trans hf, hk⟩

/-- R128: while the sibling runs or is split, the sub-wave waits at the `join`. -/
theorem join_waits {h : Hinge} (hh : tblFind v.hinge (x / 2) = some h)
    (hb : bodyJoin (issueEnv s w x v u (.join f)) s = .done (modWave s w (fun v => (setBr v (x / 2) (decide (x % 2 = 1)) .wait).modSub x (fun u => { u with hold := .atJoin, aged := 0 }))) { go := .kept, wdReset := true }) :
    ∃ t v', exec (.join f) s = .next t ∧ waveAt t w = some v' ∧ tblFind v'.subs x = some { u with hold := .atJoin, aged := 0 } ∧ (∀ y, y ≠ x → tblFind v'.subs y = tblFind v.subs y)
      ∧ (∃ h', tblFind v'.hinge (x / 2) = some h' ∧ (if x % 2 = 1 then h'.tst else h'.fst) = .wait ∧ (if x % 2 = 1 then h'.fst else h'.tst) = (if x % 2 = 1 then h.fst else h.tst)) ∧ (v.handler = none → v'.wd = 0) ∧ KeepsRest w s t := by
  obtain ⟨t, ht, hk, hv'⟩ := exec_done_reset (fun _ => rfl) hi hb (keeps_modWave w s _) rfl (waveAt_modWave_of hi.wave _) rfl (.inr rfl) rfl rfl rfl rfl
  refine ⟨t, _, ht, hv', ?_, fun y hy => ?_, ⟨if x % 2 = 1 then { h with tst := .wait } else { h with fst := .wait }, ?_, ?_, ?_⟩, fun _ => rfl, hk⟩
  · simp [Wave.modSub, setBr, tblFind_mod_self, hi.sub]
  · simp [Wave.modSub, setBr, tblFind_mod_ne _ _ hy]
  · simp [Wave.modSub, setBr, tblFind_mod_self, hh]
  · split <;> rfl
  · split <;> rfl

end

/-- R173: what `join` comes to under a split record whose other branch is in state `st`. -/
theorem bodyJoin_of_record (f : RRR) (s : State) (w x : Nat) (v : Wave) (u : Sub) (hi : Issuing s (.join f) w x v u) {h : Hinge} (hh : tblFind v.hinge (x / 2) = some h) {st : BrState} (hst : st = if x % 2 = 1 then h.fst else h.tst) :
    bodyJoin (issueEnv s w x v u (.join f)) s = match st with
      | .wait => match tblFind v.subs (if x % 2 = 1 then x - 1 else x + 1) with
        | some y => if y.pc = u.pc then .done (modWave s w (fun v => replaceHinge v (x / 2) (u.mask ||| y.mask) (u.pc + 8))) { go := .kept, wdReset := true, last := some (replacedId v (x / 2)) } else .done s { wdReset := true }
        | none => .done s { wdReset := true }
      | .gone => .done (modWave s w (fun v => replaceHinge v (x / 2) u.mask (u.pc + 8))) { go := .kept, wdReset := true, last := some (replacedId v (x / 2)) }
      | _ => .done (modWave s w (fun v => (setBr v (x / 2) (decide (x % 2 = 1)) .wait).modSub x (fun u => { u with hold := .atJoin, aged := 0 }))) { go := .kept, wdReset := true } := by
  have hnone : (tblFind (issueEnv s w x v u (.join f)).v.hinge (subParent (issueEnv s w x v u (.join f)).x)).isNone = false := by
    show (tblFind v.hinge (x / 2)).isNone = false
    rw [hh]
    rfl
  have hbr : brState (issueEnv s w x v u (.join f)).v (subParent (issueEnv s w x v u (.join f)).x) (!(subBranch (issueEnv s w x v u (.join f)).x)) = st := (brState_sibling hh).trans hst.symm
  have hsib : subId (subParent (issueEnv s w x v u (.join f)).x) (!(subBranch (issueEnv s w x v u (.join f)).x)) = if x % 2 = 1 then x - 1 else x + 1 := subId_sibling x
  have hnext : (issueEnv s w x v u (.join f)).next = u.pc + 8 := next_issueEnv_of_noLit hi rfl
  unfold bodyJoin
  dsimp only
  rw [hnone, hbr, hsib, hnext]
  cases st <;> rfl

/-! Lanes that leave. -/

theorem tblErase_tblMod {α : Type} (t : Tbl α) (k : Nat) (f : α → α) : tblErase (tblMod t k f) k = tblErase t k := by
  induction t with
  | nil => rfl
  | cons e r ih =>
    obtain ⟨j, a⟩ := e
    by_cases h : k = j <;> simp [tblMod, tblErase, h] <;> simpa [h] using ih

/-- R132: a wave that has ended. -/
def endedWave (v : Wave) (clock : Nat) : Wave := { v.stopIssue clock with respFault := v.isResponder && v.answer.isNone }

theorem waveAt_endWave {s : State} {w : Nat} {v : Wave} (hv : waveAt s w = some v) : waveAt (endWave s w) w = some (endedWave v s.clock) := waveAt_modWave_of hv _

/-- R131: the lanes `m` leave the wave, its entries and sub-wave x. -/
def leaveLanes (v : Wave) (x : Nat) (m : Lane32) : Wave :=
  { v with rootMask := v.rootMask &&& ~~~m, hinge := v.hinge.map (fun e => (e.1, { e.2 with mask := e.2.mask &&& ~~~m })), subs := tblMod v.subs x (fun u => { u with mask := u.mask &&& ~~~m }) }

theorem hinge_leaveLanes (v : Wave) (x : Nat) (m : Lane32) (n : Nat) : tblFind (leaveLanes v x m).hinge n = (tblFind v.hinge n).map (fun h => { h with mask := h.mask &&& ~~~m }) :=
  tblFind_map_snd (α := Hinge) (β := Hinge) v.hinge (fun h => { h with mask := h.mask &&& ~~~m }) n

/-- R131: with lanes left the sub-wave stays. -/
theorem exitLanes_of_left {v : Wave} {x : Nat} {u : Sub} {m : Lane32} (hu : tblFind v.subs x = some u) (hm : u.mask &&& ~~~m ≠ 0) : exitLanes v x m = leaveLanes v x m := by
  have hsub : tblFind (leaveLanes v x m).subs x = some { u with mask := u.mask &&& ~~~m } := by simp [leaveLanes, tblFind_mod_self, hu]
  show (match tblFind (leaveLanes v x m).subs x with
    | none => leaveLanes v x m
    | some u => if u.mask = 0 then branchGone { leaveLanes v x m with subs := tblErase (leaveLanes v x m).subs x } (subParent x) (subBranch x) 16 else leaveLanes v x m) = _
  rw [hsub]
  exact if_neg hm

/-- R131: without lanes left a sub-wave under no entry goes. -/
theorem exitLanes_of_gone {v : Wave} {x : Nat} {u : Sub} {m : Lane32} (hu : tblFind v.subs x = some u) (hm : u.mask &&& ~~~m = 0) (hh : tblFind v.hinge (x / 2) = none) :
    exitLanes v x m = { leaveLanes v x m with subs := tblErase v.subs x } := by
  have hsub : tblFind (leaveLanes v x m).subs x = some { u with mask := u.mask &&& ~~~m } := by simp [leaveLanes, tblFind_mod_self, hu]
  have herase : tblErase (leaveLanes v x m).subs x = tblErase v.subs x := tblErase_tblMod _ _ _
  have hroot : tblFind (leaveLanes v x m).hinge (subParent x) = none := by rw [hinge_leaveLanes, subParent, hh]; rfl
  show (match tblFind (leaveLanes v x m).subs x with
    | none => leaveLanes v x m
    | some u => if u.mask = 0 then branchGone { leaveLanes v x m with subs := tblErase (leaveLanes v x m).subs x } (subParent x) (subBranch x) 16 else leaveLanes v x m) = _
  rw [hsub]
  dsimp only
  rw [if_pos hm, herase, branchGone]
  dsimp only
  rw [hroot]

theorem and_not_self (m : Lane32) : m &&& ~~~m = 0 := by
  ext i
  simp

theorem mayIssue_not_ended {v : Wave} {u : Sub} (h : mayIssue v u = true) : v.ended = false := by
  simp only [mayIssue, Bool.and_eq_true, Bool.not_eq_true'] at h
  obtain ⟨⟨⟨⟨⟨⟨⟨⟨-, he⟩, -⟩, -⟩, -⟩, -⟩, -⟩, -⟩, -⟩ := h
  exact he

/-! The place of a wave that has ended. -/

theorem waves_freeChans (l : List (Nat × PortBind)) (s : State) : (freeChans s l).waves = s.waves := by
  induction l generalizing s with
  | nil => rfl
  | cons b r ih =>
    rw [freeChans, ih]
    split <;> rfl

theorem waves_placeFreed (s : State) (core k regs : Nat) : (placeFreed s core k regs).waves = s.waves := by
  unfold placeFreed
  split
  · split <;> rfl
  · rfl

theorem waves_cohortEnd (s : State) (co : Nat) (c : Cohort) : (cohortEnd s co c).waves = s.waves := by
  unfold cohortEnd
  dsimp only
  split
  · unfold cardEnd
    split <;> rfl
  · rfl

/-- R132: a wave that releases its place is no wave any more. -/
theorem waveAt_releaseWave (s : State) (w : Nat) : waveAt (releaseWave s w) w = none := by
  unfold releaseWave
  split
  · next h => exact h
  · next v h =>
    have hgone : tblFind (freeChans { s with waves := tblErase s.waves w } v.ports).waves w = none := by rw [waves_freeChans]; exact tblFind_erase_self _ _
    dsimp only
    split
    · exact hgone
    · unfold waveAt
      rw [waves_placeFreed]
      split
      · rw [waves_cohortEnd]; exact hgone
      · exact hgone

/-- R132: a drained wave leaves its place in a cycle after the one it ended in (log 22). -/
theorem waveAt_reapWave {s : State} {w : Nat} {v : Wave} (hv : waveAt s w = some v) (he : v.ended = true) (hc : v.endedAt < s.clock) (hd : v.drained = true) (hr : v.isResponder = false) (hn : engLeft s w = false) :
    waveAt (reapWave s w) w = none := by
  unfold reapWave
  simp only [hv, he, hd, hn, hr, decide_eq_true hc, Bool.not_false, Bool.and_self, if_true, Bool.false_eq_true, if_false]
  exact waveAt_releaseWave s w

/-! The statements. -/

section
variable {f : RRR} {s : State} {w x : Nat} {v : Wave} {u : Sub} (hi : Issuing s (.wend f) w x v u)
include hi

theorem next_wend : u.pc + BitVec.ofNat 64 (instrLen (.wend f)) = u.pc + 8 := next_issueEnv_of_noLit hi rfl

/-- R174: with lanes left the sub-wave goes on without those that executed. -/
theorem wend_leaves (hout : (issueEnv s w x v u (.wend f)).act ≠ 0) (hleft : u.mask &&& ~~~(issueEnv s w x v u (.wend f)).act ≠ 0) :
    ∃ t, exec (.wend f) s = .next t ∧ KeepsRest w s t ∧ ∃ v1, v1 = leaveLanes v x (issueEnv s w x v u (.wend f)).act
      ∧ waveAt t w = some { v1 with flags := v1.flags ||| 0, retired := v1.retired + 1, subs := tblMod v1.subs x (fun u' => { u' with pc := u.pc + 8, aged := 0 }), wd := 0 } := by
  have hexit : exitLanes v x (issueEnv s w x v u (.wend f)).act = leaveLanes v x (issueEnv s w x v u (.wend f)).act := exitLanes_of_left hi.sub hleft
  have hsub : tblFind (leaveLanes v x (issueEnv s w x v u (.wend f)).act).subs x = some { u with mask := u.mask &&& ~~~(issueEnv s w x v u (.wend f)).act } := by simp [leaveLanes, tblFind_mod_self, hi.sub]
  have hne : (leaveLanes v x (issueEnv s w x v u (.wend f)).act).subs.isEmpty = false := by
    rw [List.isEmpty_eq_false_iff]
    intro h
    rw [h] at hsub
    cases hsub
  have hact : (issueEnv s w x v u (.wend f)).act ≠ (issueEnv s w x v u (.wend f)).mask := by
    intro h
    rw [h] at hleft
    exact hleft (and_not_self u.mask)
  have hb : bodyWend (issueEnv s w x v u (.wend f)) s = .done (modWave s w (fun _ => leaveLanes v x (issueEnv s w x v u (.wend f)).act)) { wdReset := true } := by
    unfold bodyWend
    simp only [issueEnv_v, issueEnv_x, issueEnv_w, hexit, if_neg hout, hne, Bool.false_eq_true, if_false, hsub, Option.isSome_some, decide_eq_true hact, Bool.and_self, if_true]
  obtain ⟨t, ht, hk, hv'⟩ := exec_done_reset (fun _ => rfl) hi hb (keeps_modWave w s _) rfl (waveAt_modWave_of hi.wave _) rfl (.inl rfl) rfl rfl rfl rfl
  refine ⟨t, ht, hk, _, rfl, ?_⟩
  rw [hv', next_wend hi]
  rfl

/-- R132: the last lanes of an unsplit wave end it. -/
theorem wend_ends (hout : (issueEnv s w x v u (.wend f)).act ≠ 0) (hleft : u.mask &&& ~~~(issueEnv s w x v u (.wend f)).act = 0) (hh : v.hinge = []) (hs : v.subs = [(x, u)]) :
    ∃ t v', exec (.wend f) s = .next t ∧ waveAt t w = some v' ∧ KeepsRest w s t ∧ v'.ended = true ∧ v'.endedAt = s.clock ∧ v'.subs = [] ∧ v'.handler = none ∧ v'.rootMask = v.rootMask &&& ~~~(issueEnv s w x v u (.wend f)).act
      ∧ v'.s = v.s ∧ v'.v = v.v ∧ v'.p = v.p ∧ v'.drained = v.drained ∧ v'.isResponder = v.isResponder := by
  have hexit : exitLanes v x (issueEnv s w x v u (.wend f)).act = { leaveLanes v x (issueEnv s w x v u (.wend f)).act with subs := [] } := by
    have hn : tblErase v.subs x = [] := by rw [hs]; simp [tblErase]
    rw [← hn]
    exact exitLanes_of_gone hi.sub hleft (by rw [hh]; rfl)
  have hb : bodyWend (issueEnv s w x v u (.wend f)) s = .done (endWave (modWave s w (fun _ => { leaveLanes v x (issueEnv s w x v u (.wend f)).act with subs := [] })) w) { go := .kept, wdReset := true } := by
    unfold bodyWend
    simp only [issueEnv_v, issueEnv_x, issueEnv_w, hexit, if_neg hout]
    rfl
  obtain ⟨t, ht, hk, hv'⟩ := exec_done_reset (fun _ => rfl) hi hb ((keeps_modWave w s _).trans (keeps_modWave w _ _)) rfl (waveAt_endWave (waveAt_modWave_of hi.wave _)) rfl (.inr rfl) rfl rfl rfl rfl
  exact ⟨t, _, ht, hv', hk, rfl, rfl, rfl, rfl, rfl, rfl, rfl, rfl, by unfold Wave.drained; rfl, by unfold Wave.isResponder; rfl⟩

end

/-- Settles O27: the state of the other branch decides a `join`; the lanes left decide a `wend`; a drained wave leaves its place in a later cycle (log 22). -/
theorem joinResults : Obligations.JoinResults := by
  refine ⟨fun f s w x v u _ hi => ⟨fun hnone => ?_, fun h hh => ?_⟩, fun f s w x v u _ hi => ⟨fun hout => ?_, fun hout hleft => ?_, fun hout hleft hh hs => ?_⟩⟩
  · refine join_passes hi ?_
    have hn : (tblFind (issueEnv s w x v u (.join f)).v.hinge (subParent (issueEnv s w x v u (.join f)).x)).isNone = true := by
      show (tblFind v.hinge (x / 2)).isNone = true
      rw [hnone]
      rfl
    rw [bodyJoin]
    exact if_pos hn
  · have hbody := fun st hst => bodyJoin_of_record f s w x v u hi hh (st := st) hst
    refine ⟨fun y hst hy => ⟨fun hpc => ?_, fun hpc => ?_⟩, fun hst => ?_, fun hst => ?_⟩
    · refine join_goes hi hh ?_
      rw [hbody _ hst.symm]
      dsimp only
      rw [hy]
      exact if_pos hpc
    · refine join_passes hi ?_
      rw [hbody _ hst.symm]
      dsimp only
      rw [hy]
      exact if_neg hpc
    · exact join_goes hi hh (hbody _ hst.symm)
    · have hsib : (if x % 2 = 1 then x - 1 else x + 1) ≠ x := by split <;> omega
      have hb : bodyJoin (issueEnv s w x v u (.join f)) s = .done (modWave s w (fun v => (setBr v (x / 2) (decide (x % 2 = 1)) .wait).modSub x (fun u => { u with hold := .atJoin, aged := 0 }))) { go := .kept, wdReset := true } := by
        rcases hst with hst | hst <;> exact hbody _ hst.symm
      obtain ⟨t, v', ht, hv', hx, hother, hrec, hwd, hk⟩ := join_waits hi hh hb
      exact ⟨t, v', ht, hv', hx, hother _ hsib, hrec, hwd, hk⟩
  · refine issue_done hi (body := bodyWend) ?_ (fun _ hg => by cases hg)
    rw [bodyWend]
    exact if_pos hout
  · obtain ⟨t, ht, hk, v1, rfl, hv'⟩ := wend_leaves hi hout hleft
    refine ⟨t, _, ht, hv', ?_, rfl, fun n h hn => ?_, fun y hy => ?_, rfl, rfl, rfl, ?_, hk⟩
    · simp only [leaveLanes, tblFind_mod_self, hi.sub, Option.map_some]
    · exact (hinge_leaveLanes v x _ n).trans (by rw [hn]; rfl)
    · simp only [leaveLanes, tblFind_mod_ne _ _ hy]
    · exact (mayIssue_not_ended hi.may : v.ended = false)
  · obtain ⟨t, v', ht, hv', hk, hended, hat, hsubs, hhand, hroot, hs, hv, hp, hdr, hresp⟩ := wend_ends hi hout hleft hh hs
    refine ⟨t, v', ht, hv', hended, hsubs, hhand, hroot, hs, hv, hp, fun hd hr hn => ?_⟩
    refine waveAt_reapWave (v := v') hv' hended ?_ (hdr.trans hd) (hresp.trans hr) ?_
    · show v'.endedAt < t.clock + 1
      rw [hat, hk.clock]
      exact Nat.lt_succ_self _
    · show t.eng.any _ = false
      rw [hk.engines, List.any_eq_false]
      exact fun e he => by simpa using hn e.1 e.2 he

theorem endSplit_eq_false_iff (v : Wave) (x : Nat) : endSplit v x = false ↔ (v.subs.filter (fun e => halfOf v e.1 = halfOf v x)).length = 1 ∧ isRoot v.kernel.w16 (x / 2) = true := by
  simp [endSplit, subParent]

section
variable {f : RRR} {s : State} {w x : Nat} {v : Wave} {u : Sub}

theorem exec_end_of_body {s1 : State} {v1 : Wave} (hi : Issuing s (.endThread f) w x v u) (hb : bodyEnd (issueEnv s w x v u (.endThread f)) s = .done s1 { go := .kept }) (hv1 : waveAt s1 w = some v1) (hl : v1.wdlimit = v.wdlimit) :
    ∃ t wd as, exec (.endThread f) s = .next t ∧ waveAt t w = some { v1 with flags := v1.flags ||| 0, retired := v1.retired + 1, subs := tblMod v1.subs x (fun u => { u with pc := u.pc, aged := 0 }), wd := wd, async := as } := by
  obtain ⟨wd, as, h⟩ := v1.completed_plain x (u.pc + BitVec.ofNat 64 (instrLen (.endThread f))) (e := { go := .kept }) rfl rfl
  refine ⟨_, wd, as, (issue_done hi hb (fun _ hg => by cases hg) : exec (.endThread f) s = _), ?_⟩
  rw [waveAt_retire_over hv1 hl rfl, h]
  rfl

/-- R131: what is left of the wave, or of its half, when the issuing sub-wave goes under no split record. -/
theorem exitLanes_all (hu : tblFind v.subs x = some u) (hh : tblFind v.hinge (x / 2) = none) : exitLanes v x u.mask = { leaveLanes v x u.mask with subs := tblErase v.subs x } :=
  exitLanes_of_gone hu (and_not_self u.mask) hh

theorem bodyEnd_of_unsplit (hsp : endSplit v x = false) (hf : v.failed = []) (hu : tblFind v.subs x = some u) (hh : tblFind v.hinge (x / 2) = none) :
    bodyEnd (issueEnv s w x v u (.endThread f)) s = if (tblErase v.subs x).isEmpty = true then (if (v.accs.isEmpty && v.toks.all (fun t => t.2.settled)) = true then .done (endWave s w) { go := .kept } else .hold s)
      else .done (modWave s w (fun _ => { leaveLanes v x u.mask with subs := tblErase v.subs x })) { go := .kept } := by
  have hnofail : failedTrap v = none := by rw [failedTrap, hf]
  simp only [bodyEnd, issueEnv_v, issueEnv_x, issueEnv_w, issueEnv_mask, hsp, hnofail, exitLanes_all hu hh, Bool.false_eq_true, if_false]
  rfl

end

theorem tblErase_single {α : Type} (k : Nat) (a : α) : tblErase [(k, a)] k = [] := by simp [tblErase]

/-- Settles O28: `end` is refused where the wave or half is split, and otherwise the lanes exit, or the wave ends or waits. -/
theorem endResults : Obligations.EndResults := by
  intro f s w x v u hi
  dsimp only
  rw [← endSplit_eq_false_iff]
  refine ⟨fun hsp => ?_, fun hsp hf hs hh _ ha ht => ?_, fun hsp hf hh hs => ?_, fun hsp hf hs hh hw => ?_⟩
  · refine issue_trap hi (body := bodyEnd) ?_
    have hsplit : endSplit v x = true := by simpa using hsp
    simp only [bodyEnd, issueEnv_v, issueEnv_x, hsplit, if_true]
    rfl
  · have hb : bodyEnd (issueEnv s w x v u (.endThread f)) s = .done (endWave s w) { go := .kept } := by
      rw [bodyEnd_of_unsplit hsp hf hi.sub (by rw [hh]; rfl), hs, tblErase_single, ha, ht]
      rfl
    obtain ⟨t, wd, as, hx, hv'⟩ := exec_end_of_body hi hb (waveAt_endWave hi.wave) rfl
    refine ⟨t, hx, fun v' h => ?_⟩
    obtain rfl := Option.some.inj (hv'.symm.trans h)
    exact ⟨rfl, rfl, rfl, rfl⟩
  · have hne : (tblErase v.subs x).isEmpty = false := List.isEmpty_eq_false_iff.2 hs
    have hb : bodyEnd (issueEnv s w x v u (.endThread f)) s = .done (modWave s w (fun _ => { leaveLanes v x u.mask with subs := tblErase v.subs x })) { go := .kept } := by
      rw [bodyEnd_of_unsplit hsp hf hi.sub hh, hne]
      rfl
    obtain ⟨t, wd, as, hx, hv'⟩ := exec_end_of_body hi hb (waveAt_modWave_of hi.wave _) rfl
    exact ⟨t, _, hx, hv', tblMod_of_absent (tblFind_erase_self _ _) _, rfl, (mayIssue_not_ended hi.may : v.ended = false), rfl, rfl⟩
  · refine issue_hold hi (body := bodyEnd) ?_
    have hopen : (v.accs.isEmpty && v.toks.all (fun t => t.2.settled)) = false := by
      rcases hw with h | h
      · rw [List.isEmpty_eq_false_iff.2 h, Bool.false_and]
      · rw [h, Bool.and_false]
    rw [bodyEnd_of_unsplit hsp hf hi.sub (by rw [hh]; rfl), hs, tblErase_single, hopen]
    rfl

end Sys2Proof.Machine
end

section
/-! PROOFS. The check of a flat access, the byte a load returns, what an atomic leaves, and what a scratchpad store and an atomic write (R35, R212, R213, R219, R220, R243 to R245, R256, R272, R276). -/

namespace Sys2Proof.Machine

/-! The check of one flat access. -/

section
variable (s : State) (u : View) (ctx : Nat) (k : Kind) {va : Nat} (n tag : Nat)

/-- Between two canonical ends the check is that of the first page, then of the second where the access reaches it. -/
theorem checkMap_of_canonical (hv : canonical va = true) (hl : canonical ((va + n - 1) % 2 ^ 64) = true) :
    checkMap s u ctx k va n tag = match checkPage s u ctx k va va tag false with
      | .error f => .error f
      | .ok l1 => match (if firstSpan l1.size va n = n then .ok l1 else checkPage s u ctx k ((va + firstSpan l1.size va n) % 2 ^ 64) va (tag + 2) true) with
        | .error f => .error f
        | .ok l2 => .ok (spanBytes l1 l2 (firstSpan l1.size va n) n) := by
  simp only [checkMap, hv, hl]
  rfl

end

theorem firstSpan_of_le {size va n : Nat} (h : va % 2 ^ size + n ≤ 2 ^ size) : firstSpan size va n = n := by
  simp only [firstSpan]
  omega

theorem spanBytes_one_page (l1 l2 : Leaf) (n : Nat) :
    spanBytes l1 l2 n n = (List.range n).map (fun i => { at_ := placeOf { l1 with pa := l1.pa + i }, attr := attrOf l1 }) := by
  simp only [spanBytes]
  exact List.map_congr_left fun i hi => by simp [List.mem_range.1 hi]

/-- Settles O31, branch by branch: the two ends, the walk of the first page, its permissions, one page holding every byte. -/
theorem flatAccessChecks : Obligations.FlatAccessChecks := by
  unfold Obligations.FlatAccessChecks
  intro s u ctx k va n tag _ _ last
  refine ⟨fun hv => by simp [checkMap, hv], fun hv hl => ?_, fun hv hl r l ht => ?_, fun hv hl l ht hp => ?_, fun hv hl l ht hs hp => ?_⟩
  · simp only [checkMap, hv, show canonical ((va + n - 1) % 2 ^ 64) = false from hl]
    rfl
  · simp [checkMap_of_canonical s u ctx k n tag hv hl, checkPage, ht]
  · have ha : l.allows k = false := by cases k <;> exact hp
    simp [checkMap_of_canonical s u ctx k n tag hv hl, checkPage, ht, ha]
  · have ha : l.allows k = true := by cases k <;> exact hp
    simp [checkMap_of_canonical s u ctx k n tag hv hl, checkPage, ht, ha, firstSpan_of_le hs, spanBytes_one_page]

/-! The copy that one byte of a load returns. -/

theorem homeByte_of_known {s : State} {pa : Nat} {key : Nat} (tag : Nat) (hu : pa ∉ s.unspec) (hk : ∀ k, tblFind s.lineKey (lineOf pa) = some k → k = key) : homeByte s key pa tag = rdByte s pa := by
  simp only [homeByte, if_neg hu]
  split
  · next k h => rw [if_pos (hk k h)]
  · rfl

section
variable {s : State} {core die : Nat} {pre : List Acc} {b : AByte} {pa tag : Nat} (hb : b.at_ = .dev pa) (ho : ownByte pre b = none)
include hb ho

/-- A byte of device memory that no earlier store of the wave forwards is the core's L1 copy or the die's. -/
theorem readPlace_l1 : readPlace s core die false pre b none tag = l1Byte s core die b.attr pa tag := by
  simp [readPlace, ho, hb]

theorem readPlace_pend (h1 : tblFind (coreAt s core).l1 (lineOf pa) = none) {x : Byte} (hx : pendByte s die pa b.attr.key = some x) : readPlace s core die false pre b none tag = x := by
  simp [readPlace_l1 hb ho, l1Byte, h1, pocByte, hx]

theorem readPlace_home (h1 : tblFind (coreAt s core).l1 (lineOf pa) = none) (hx : pendByte s die pa b.attr.key = none) :
    readPlace s core die false pre b none tag = if homeDie pa = die then homeByte s b.attr.key pa tag else (remoteByte s die pa b.attr.key).getD (homeByte s b.attr.key pa tag) := by
  simp [readPlace_l1 hb ho, l1Byte, h1, pocByte, hx]

end

/-- Settles O33, copy by copy in the order in which a load finds them. -/
theorem loadedByteSource : Obligations.LoadedByteSource := by
  unfold Obligations.LoadedByteSource
  intro s core die pre b pa tag hb
  refine ⟨fun x hx => by simp [readPlace, hx], fun ho => ⟨fun l hl hk => ?_, fun h1 x hx => readPlace_pend hb ho h1 hx, fun h1 hx hh => ?_, fun h1 hx hh hr => ?_⟩, fun ho h1 hx hh x hr => ?_,
    fun hu hk => homeByte_of_known tag hu hk⟩
  · simp [readPlace_l1 hb ho, l1Byte, hl, hk]
  · rw [readPlace_home hb ho h1 hx, if_pos hh]
  · rw [readPlace_home hb ho h1 hx, if_neg hh, hr, Option.getD_none]
  · rw [readPlace_home hb ho h1 hx, if_neg hh, hr, Option.getD_some]

/-! What an atomic leaves. -/

theorem sint_ite_le_min (n x y : Nat) : sint n (if sint n x ≤ sint n y then x else y) = min (sint n x) (sint n y) := by
  rw [apply_ite (sint n), Int.min_def]

theorem sint_ite_le_max (n x y : Nat) : sint n (if sint n x ≤ sint n y then y else x) = max (sint n x) (sint n y) := by
  rw [apply_ite (sint n), Int.max_def]

/-- Settles O34: each operation is its row of the table, minimum and maximum taken on the signed values. -/
theorem atomicNewValues : Obligations.AtomicNewValues := by
  unfold Obligations.AtomicNewValues
  intro n old b c _ _ _ _
  refine ⟨rfl, if_pos rfl, fun h => if_neg h, rfl, rfl, rfl, rfl, ⟨_, rfl, sint_ite_le_min n old b⟩, ⟨_, rfl, sint_ite_le_max n old b⟩, rfl, rfl, fun m hm => ?_, rfl, rfl⟩
  subst hm
  simp only [atomicNew]
  split <;> rfl

/-! A scratchpad store. -/

@[simp] theorem rdByte_wakeAll (s : State) (line : Option Nat) (g pa : Nat) : rdByte (wakeAll s line g) pa = rdByte s pa := rfl

@[simp] theorem spadByte_wakeAll (s : State) (line : Option Nat) (g : Nat) (q : Place) : spadByte (wakeAll s line g) q = spadByte s q := by cases q <;> rfl

theorem rdByte_spadPut (s : State) (p : Place) (b : Byte) (pa : Nat) : rdByte (spadPut s p b) pa = rdByte s pa := by cases p <;> rfl

/-- The bytes of an allocation after one byte is written in its table: that byte where it is named. -/
theorem bytes_allocPut_self {t : Tbl SpadAlloc} {k : Nat} (off : Nat) (b : Byte) {al : SpadAlloc} (ha : tblFind t k = some al) : tblGet 0 (tblGet {} (tblMod t k (allocPut off b)) k).bytes off = b := by
  have hb : tblGet {} (tblMod t k (allocPut off b)) k = allocPut off b al := by simp [tblGet, tblFind_mod_self, ha]
  rw [hb]
  exact tblGet_set_self 0 al.bytes off b

/-- The other bytes stay. -/
theorem bytes_allocPut_ne (t : Tbl SpadAlloc) {k j off o : Nat} (b : Byte) (h : j = k → o ≠ off) : tblGet 0 (tblGet {} (tblMod t k (allocPut off b)) j).bytes o = tblGet 0 (tblGet {} t j).bytes o := by
  by_cases hj : j = k
  · subst hj
    cases ht : tblFind t j with
    | none => simp [tblGet, tblFind_mod_self, ht]
    | some al =>
      have hb : tblGet {} (tblMod t j (allocPut off b)) j = allocPut off b al := by simp [tblGet, tblFind_mod_self, ht]
      have ha : tblGet {} t j = al := by simp [tblGet, ht]
      rw [hb, ha]
      exact tblGet_set_ne 0 al.bytes b (h rfl)
  · simp [tblGet, tblFind_mod_ne t _ hj]

theorem spadByte_spadPut_ne (s : State) {p q : Place} (b : Byte) (h : q ≠ p) : spadByte (spadPut s p b) q = spadByte s q := by
  match p, q with
  | .dev _, _ | .peer _, _ | .host _, _ => rfl
  | .spad _ _ _, .dev _ | .spad _ _ _, .peer _ | .spad _ _ _, .host _ | .spad _ _ _, .tile _ _ _ => rfl
  | .tile _ _ _, .dev _ | .tile _ _ _, .peer _ | .tile _ _ _, .host _ | .tile _ _ _, .spad _ _ _ => rfl
  | .spad cohort core off, .spad cohort' core' off' =>
    simp only [spadByte, spadPut, modAlloc, modCohort]
    by_cases hc : cohort' = cohort
    · subst hc
      cases ht : tblFind s.cohorts cohort' with
      | none => simp [tblGet, tblFind_mod_self, ht]
      | some co =>
        have hg : ∀ d : Cohort, tblGet d (tblMod s.cohorts cohort' (fun c => { c with spad := tblMod c.spad core (allocPut off b) })) cohort' = { co with spad := tblMod co.spad core (allocPut off b) } := fun d => by simp [tblGet, tblFind_mod_self, ht]
        have ho : ∀ d : Cohort, tblGet d s.cohorts cohort' = co := fun d => by simp [tblGet, ht]
        rw [hg, ho]
        exact bytes_allocPut_ne co.spad b (fun hk ho' => h (by rw [hk, ho']))
    · simp [tblGet, tblFind_mod_ne s.cohorts _ hc]
  | .tile core ctx off, .tile core' ctx' off' =>
    simp only [spadByte, spadPut, modAlloc]
    by_cases hc : core' = core
    · subst hc
      rw [coreAt_modCore_self]
      exact bytes_allocPut_ne (coreAt s core').tiles b (fun hk ho' => h (by rw [hk, ho']))
    · rw [coreAt_modCore_ne s _ hc]

theorem spadByte_spadPut_spad {s : State} {cohort core : Nat} (off : Nat) (b : Byte) {co : Cohort} {al : SpadAlloc} (hc : tblFind s.cohorts cohort = some co) (ha : tblFind co.spad core = some al) :
    spadByte (spadPut s (.spad cohort core off) b) (.spad cohort core off) = b := by
  have hg : ∀ d : Cohort, tblGet d (tblMod s.cohorts cohort (fun c => { c with spad := tblMod c.spad core (allocPut off b) })) cohort = { co with spad := tblMod co.spad core (allocPut off b) } := fun d => by simp [tblGet, tblFind_mod_self, hc]
  simp only [spadByte, spadPut, modAlloc, modCohort]
  rw [hg]
  exact bytes_allocPut_self off b ha

theorem spadByte_spadPut_tile {s : State} {core ctx : Nat} (off : Nat) (b : Byte) {al : SpadAlloc} (ha : tblFind (coreAt s core).tiles ctx = some al) :
    spadByte (spadPut s (.tile core ctx off) b) (.tile core ctx off) = b := by
  simp only [spadByte, spadPut, modAlloc]
  rw [coreAt_modCore_self]
  exact bytes_allocPut_self off b ha

theorem rdByte_spadStore (s : State) (p : Place) (b : Byte) (pa : Nat) : rdByte (spadStore s p b) pa = rdByte s pa := by
  rw [spadStore, rdByte_wakeAll, rdByte_spadPut]

theorem spadByte_spadStore (s : State) (p q : Place) (b : Byte) : spadByte (spadStore s p b) q = spadByte (spadPut s p b) q := by
  rw [spadStore, spadByte_wakeAll]

/-- Settles O36: waking the waiters touches no byte, and the byte put is the only one that differs. -/
theorem scratchpadStoreWrites : Obligations.ScratchpadStoreWrites := by
  unfold Obligations.ScratchpadStoreWrites
  intro s p q b
  simp only [spadByte_spadStore, rdByte_spadStore, implies_true, and_true]
  refine ⟨?_, ?_, fun h => spadByte_spadPut_ne s b h⟩
  · rintro cohort core off co al rfl hc ha
    exact spadByte_spadPut_spad off b hc ha
  · rintro core ctx off al rfl ha
    exact spadByte_spadPut_tile off b ha

/-! An atomic at its home. -/

theorem rdBytes_eq_map (s : State) (pa n : Nat) : rdBytes s pa n = (List.range n).map (fun i => rdByte s (pa + i)) := by
  induction n generalizing pa with
  | zero => rfl
  | succ n ih => simp [rdBytes, ih, List.range_succ_eq_map, Function.comp_def, Nat.add_assoc, Nat.add_comm 1]

theorem homeBytes_eq_map (s : State) (key pa tag n : Nat) : homeBytes s key pa tag n = (List.range n).map (fun i => homeByte s key (pa + i) tag) := by
  induction n generalizing pa with
  | zero => rfl
  | succ n ih => simp [homeBytes, ih, List.range_succ_eq_map, Function.comp_def, Nat.add_assoc, Nat.add_comm 1]

theorem homeBytes_of_known {s : State} {pa n : Nat} {key : Nat} (tag : Nat) (hu : ∀ q < n, pa + q ∉ s.unspec) (hk : ∀ q < n, ∀ k, tblFind s.lineKey (lineOf (pa + q)) = some k → k = key) :
    homeBytes s key pa tag n = rdBytes s pa n := by
  rw [homeBytes_eq_map, rdBytes_eq_map]
  refine List.map_congr_left fun q hq => ?_
  rw [List.mem_range] at hq
  exact homeByte_of_known tag (hu q hq) (hk q hq)

theorem leBytes_length (n x : Nat) : (leBytes n x).length = n := by
  induction n generalizing x with
  | zero => rfl
  | succ n ih => simp [leBytes, ih]

theorem lineTake_mem (s : State) (key line : Nat) : (lineTake s key line).mem = s.mem ∧ (lineTake s key line).wlog = s.wlog ∧ free (lineTake s key line) = free s := by
  simp only [lineTake]
  split
  · split <;> exact ⟨rfl, rfl, rfl⟩
  · exact ⟨rfl, rfl, rfl⟩

theorem rdByte_congr {s t : State} (hm : t.mem = s.mem) (hw : t.wlog = s.wlog) {pa : Nat} (hd : inDevice pa = true) : rdByte t pa = rdByte s pa := by
  simp [rdByte, hd, hm, hw]

@[simp] theorem rdByte_lineTake (s : State) (key line pa : Nat) : rdByte (lineTake s key line) pa = rdByte s pa := by
  obtain ⟨hm, hw, hf⟩ := lineTake_mem s key line
  simp [rdByte, hm, hw, hf]

theorem rdByte_packagePut (s : State) (key pa : Nat) (b : Byte) (qa : Nat) : rdByte (packagePut s key pa b) qa = rdByte (wrByte (lineTake s key (lineOf pa)) pa b) qa := rfl

theorem rdByte_packagePut_self (s : State) (key : Nat) {pa : Nat} (b : Byte) (hd : inDevice pa = true) : rdByte (packagePut s key pa b) pa = b := by
  rw [rdByte_packagePut, rdByte_wrByte_self _ _ _ hd]

theorem rdByte_packagePut_ne (s : State) (key : Nat) {pa qa : Nat} (b : Byte) (h : qa ≠ pa) : rdByte (packagePut s key pa b) qa = rdByte s qa := by
  rw [rdByte_packagePut, rdByte_wrByte_ne _ _ h, rdByte_lineTake]

theorem rdByte_packagePutAll_ne (s : State) (key : Nat) {pa qa : Nat} (l : List Byte) (h : ¬ (pa ≤ qa ∧ qa < pa + l.length)) : rdByte (packagePutAll s key pa l) qa = rdByte s qa := by
  induction l generalizing s pa with
  | nil => rfl
  | cons b r ih =>
    simp only [List.length_cons] at h
    rw [packagePutAll, ih _ (by omega), rdByte_packagePut_ne s key b (by omega)]

theorem rdBytes_packagePutAll (s : State) (key : Nat) {pa : Nat} (l : List Byte) (hd : ∀ q < l.length, inDevice (pa + q) = true) : rdBytes (packagePutAll s key pa l) pa l.length = l := by
  induction l generalizing s pa with
  | nil => rfl
  | cons b r ih =>
    have h0 : inDevice pa = true := hd 0 (by simp)
    have hr : ∀ q < r.length, inDevice (pa + 1 + q) = true := fun q hq => by
      rw [show pa + 1 + q = pa + (q + 1) by omega]
      exact hd (q + 1) (by simpa using hq)
    rw [packagePutAll, List.length_cons, rdBytes, ih _ hr, rdByte_packagePutAll_ne _ key r (by omega), rdByte_packagePut_self s key b h0]

theorem rdByte_unlined (s : State) (core line pa : Nat) : rdByte (dropLine (invalidateOthers s none line) core line) pa = rdByte s pa := rfl

theorem lineOf_add_of_lt {pa n q : Nat} (h : pa / 64 = (pa + n - 1) / 64) (hq : q < n) : lineOf (pa + q) = lineOf pa := by
  simp only [lineOf]
  omega

/-- Settles O35: the copies of the line go, the home's bytes are what was read, and only the bytes of the new value are put. -/
theorem atomicAtHome : Obligations.AtomicAtHome := by
  unfold Obligations.AtomicAtHome
  intro s core op a b c x r pa hb hx hl hp hd hk n t
  have hpo : poisoned s pa = false := by simpa [poisoned] using hp
  have hold : homeBytes s x.attr.key pa 0 n = rdBytes s pa n := homeBytes_of_known 0 (fun q hq => (hd q hq).2) (fun q hq => by rw [lineOf_add_of_lt hl hq]; exact hk)
  have ht : t = match atomicNew op (8 * n) (leNat (rdBytes s pa n)) (b.toNat % 2 ^ (8 * n)) (c.toNat % 2 ^ (8 * n)) with
      | some y => (packagePutAll (dropLine (invalidateOthers s none (lineOf pa)) core (lineOf pa)) x.attr.key pa (leBytes n y), rdBytes s pa n)
      | none => (lineTake (dropLine (invalidateOthers s none (lineOf pa)) core (lineOf pa)) x.attr.key (lineOf pa), rdBytes s pa n) := by
    simp only [t, atomicHome]
    rw [hb]
    simp only [hx, Place.devAddr, Option.getD_some, hpo, ← hb, ← hold]
    rfl
  cases hn : atomicNew op (8 * n) (leNat (rdBytes s pa n)) (b.toNat % 2 ^ (8 * n)) (c.toNat % 2 ^ (8 * n)) with
  | none =>
    rw [hn] at ht
    refine ⟨by rw [ht], fun y hy => absurd hy (by simp), fun q _ _ => ?_⟩
    rw [ht, rdByte_lineTake, rdByte_unlined]
  | some z =>
    rw [hn] at ht
    refine ⟨by rw [ht], fun y hy => ?_, fun q _ hq => ?_⟩
    · obtain rfl := Option.some.inj hy
      have := rdBytes_packagePutAll (dropLine (invalidateOthers s none (lineOf pa)) core (lineOf pa)) x.attr.key (pa := pa) (leBytes n z) (by rw [leBytes_length]; exact fun q hq => (hd q hq).1)
      rw [leBytes_length] at this
      rw [ht, this]
    · rw [ht, rdByte_packagePutAll_ne _ _ _ (by rw [leBytes_length]; exact hq), rdByte_unlined]

end Sys2Proof.Machine
end

section
/-! PROOFS. Loads, stores and atomics at issue: the accesses that are queued, the faults of a request, the gap (R111, R175 to R178, R221, R224, R240, R250, R264 to R274, R402, R403). -/

namespace Sys2Proof.Machine

/-! The instructions whose body is a memory form. -/

theorem inSc_of_simt {e : Env} (h : e.slot = none) : inSc e = false := by simp [inSc, h]

/-- Each load, store and atomic form asks for its requests through the one memory form. -/
theorem exists_memForm {f : MEM} {g : ATM} {i : Instr} {flat : Bool} {k : Kind} {ord scope : Nat} {reqs : Env → List Req} (h : (i, flat, k, ord, scope, reqs) ∈ memoryForms f g) :
    ∃ body, (∀ s, exec i s = issue i body s) ∧ ∀ e s, e.slot = none → body e s = memForm e s flat k ord scope (reqs e) := by
  simp only [memoryForms, List.mem_cons, List.not_mem_nil, or_false, Prod.mk.injEq] at h
  rcases h with ⟨rfl, rfl, rfl, rfl, rfl, rfl⟩ | ⟨rfl, rfl, rfl, rfl, rfl, rfl⟩ | ⟨rfl, rfl, rfl, rfl, rfl, rfl⟩ | ⟨rfl, rfl, rfl, rfl, rfl, rfl⟩ | ⟨rfl, rfl, rfl, rfl, rfl, rfl⟩ | ⟨rfl, rfl, rfl, rfl, rfl, rfl⟩ | ⟨rfl, rfl, rfl, rfl, rfl, rfl⟩ | ⟨rfl, rfl, rfl, rfl, rfl, rfl⟩ | ⟨rfl, rfl, rfl, rfl, rfl, rfl⟩
  · exact ⟨bodySld f, fun _ => rfl, fun _ _ _ => rfl⟩
  · exact ⟨bodySst f, fun _ => rfl, fun _ _ _ => rfl⟩
  · exact ⟨bodyVld f, fun _ => rfl, fun _ _ _ => rfl⟩
  · exact ⟨bodyVst f, fun _ => rfl, fun _ _ _ => rfl⟩
  · exact ⟨bodyLds f, fun _ => rfl, fun e s he => by simp only [bodyLds, inSc_of_simt he]; rfl⟩
  · exact ⟨bodySts f, fun _ => rfl, fun e s he => by simp only [bodySts, inSc_of_simt he]; rfl⟩
  · exact ⟨bodyVunpk f, fun _ => rfl, fun _ _ _ => rfl⟩
  · exact ⟨bodyVatom g, fun _ => rfl, fun _ _ _ => rfl⟩
  · exact ⟨bodySatom g, fun _ => rfl, fun e s _ => by simp [bodySatom]⟩

/-! What is queued reaches the places of the checked requests. -/

theorem bytes_beginRelease (s : State) (die : Nat) (pre : List Acc) (a : Acc) : (beginRelease s die pre a).bytes = a.bytes := by
  simp only [beginRelease]
  split <;> rfl

/-- The two halves of a store hold bytes of the whole. -/
theorem mem_bytes_of_mem_splitStore {a c : Acc} (h : c ∈ splitStore a) {b : AByte} (hb : b ∈ c.bytes) : b ∈ a.bytes := by
  simp only [splitStore] at h
  split at h
  · split at h
    · rcases (List.mem_cons.1 h).imp_right List.mem_singleton.1 with rfl | rfl
      · exact List.mem_of_mem_take hb
      · exact List.mem_of_mem_drop hb
    · rwa [List.mem_singleton.1 h] at hb
  · rwa [List.mem_singleton.1 h] at hb

theorem mem_bytes_of_mem_prepAccs {e : Env} {s : State} {ord scope : Nat} {l : List Acc} {c : Acc} (h : c ∈ prepAccs e s ord scope l) {b : AByte} (hb : b ∈ c.bytes) : ∃ a ∈ l, b ∈ a.bytes := by
  obtain ⟨a1, h1, rfl⟩ := List.mem_map.1 h
  obtain ⟨l1, hl1, h1⟩ := List.mem_flatten.1 h1
  obtain ⟨a, ha, rfl⟩ := List.mem_map.1 hl1
  rw [bytes_beginRelease] at hb
  exact ⟨a, ha, mem_bytes_of_mem_splitStore h1 hb⟩

/-! How a memory form ends. -/

theorem relTrap_eq_none {e : Env} {ord : Nat} (c : Bool) (h : 2 ≤ ord → e.v.failed = []) : relTrap e (isRel ord && c) = none := by
  by_cases ho : 2 ≤ ord
  · simp [relTrap, failedTrap, h ho]
  · simp [relTrap, isRel, ho]

section
variable {e : Env} {s : State} {flat : Bool} {k : Kind} {ord scope : Nat} {rs : List Req} (hf : 2 ≤ ord → e.v.failed = [])
include hf

theorem memForm_of_error {b : ReqBad} (hb : checkReqs e s flat k rs = .error b) : memForm e s flat k ord scope rs = reqFail e s k b := by
  simp [memForm, relTrap_eq_none _ hf, hb]

theorem memForm_of_ok {l : List Acc} (hl : checkReqs e s flat k rs = .ok l) (hp : k = .store ∨ ∀ a ∈ l, ∀ b ∈ a.bytes, b.at_.isPeer = false) :
    memForm e s flat k ord scope rs = .done (served e s flat rs) { accs := prepAccs e (served e s flat rs) ord scope l } := by
  have hn : (decide (k ≠ .store) && e.slot.isNone && (prepAccs e (served e s flat rs) ord scope l).any (fun a => a.bytes.any (fun b => b.at_.isPeer))) = false := by
    rcases hp with rfl | hp
    · simp
    · have : (prepAccs e (served e s flat rs) ord scope l).any (fun a => a.bytes.any (fun b => b.at_.isPeer)) = false := by
        simp only [List.any_eq_false, Bool.not_eq_true]
        intro c hc b hb
        obtain ⟨a, ha, hb'⟩ := mem_bytes_of_mem_prepAccs hc hb
        exact hp a ha b hb'
      simp [this]
  simp only [memForm, relTrap_eq_none _ hf, hl, hn]
  rfl

end

/-- Settles O29: the body is the memory form, whose checked accesses are queued with order and scope. -/
theorem memoryFormsQueue : Obligations.MemoryFormsQueue := by
  unfold Obligations.MemoryFormsQueue
  intro f g i flat k ord scope reqs h s w x v u l hi e hl hf hp
  obtain ⟨body, hx, hb⟩ := exists_memForm h
  exact (hx s).trans (issue_done hi ((hb e s rfl).trans (memForm_of_ok hf hl hp)) nofun)

/-! The fault of a request. -/

/-- Only an unmapped page in a mirrored context is not a trap. -/
theorem reqFail_trap {e : Env} {s : State} {k : Kind} {lane : Nat} {m : MemFault} (h : m.cause = .page ∧ m.reason = 0 ∧ (ctxAt s e.v.ctx).t.mirrored = true → False) : reqFail e s k (.mem lane m) = .trap s (m.trap k lane) := by
  have : (m.isGap && (ctxAt s e.v.ctx).t.mirrored) = false := by
    simp only [MemFault.isGap, Bool.and_eq_false_iff, decide_eq_false_iff_not]
    grind
  simp [reqFail, this]

theorem reqFail_gap {e : Env} {s : State} {k : Kind} {lane : Nat} {m : MemFault} (he : e.slot = none) (hc : m.cause = .page) (hr : m.reason = 0) (hm : (ctxAt s e.v.ctx).t.mirrored = true) : reqFail e s k (.mem lane m) = .hold (startGap s e k m (m.trap k lane)) := by
  simp [reqFail, MemFault.isGap, hc, hr, hm, he]

theorem ofBool_mul (b : Bool) (n : Nat) : ofBool b * n = if b then n else 0 := by cases b <;> simp [ofBool]

theorem holdOf_modSub_self (v : Wave) {x : Nat} {u : Sub} (hu : tblFind v.subs x = some u) (f : Sub → Sub) : (v.modSub x f).holdOf x = (f u).hold := by
  simp [Wave.holdOf, Wave.modSub, tblFind_mod_self, hu]

/-- Settles O30: the lowest failing request's own fault, as a trap or as a gap. -/
theorem memoryFormFaults : Obligations.MemoryFormFaults := by
  unfold Obligations.MemoryFormFaults
  intro f g i flat k ord scope reqs h s w x v u hi e hf
  obtain ⟨body, hx, hb⟩ := exists_memForm h
  have hfail : ∀ b, checkReqs e s flat k (reqs e) = .error b → body e s = reqFail e s k b := fun b hc => (hb e s rfl).trans (memForm_of_error hf hc)
  refine ⟨fun lane hc => ?_, fun lane m hc hg => ?_, fun lane m hc hcause hr hm => ?_⟩
  · have := (hx s).trans (issue_trap hi (hfail _ hc))
    rwa [illegal_issueEnv] at this
  · have := (hx s).trans (issue_trap hi ((hfail _ hc).trans (reqFail_trap hg)))
    simpa only [MemFault.trap, MemFault.info, ofBool_mul] using this
  · have := (hx s).trans (issue_hold hi ((hfail _ hc).trans (reqFail_gap rfl hcause hr hm)))
    refine ⟨_, v.modSub x (fun u => { u with hold := .gap (ctxAt s v.ctx).gapSeq }), this, ?_, ?_, rfl, rfl, rfl, rfl, rfl⟩
    · rw [waveAt_finish, startGap, waveAt_tellHost]
      exact waveAt_modWave_of (s := modCtx s e.v.ctx _) hi.wave _
    · exact holdOf_modSub_self v hi.sub _

end Sys2Proof.Machine
end

section
/-! PROOFS. The other forms that queue, and the failed peer store that an `align` raises (R175, R176, R249 to R252, R269, R277, R281, R403). -/

namespace Sys2Proof.Machine

/-! A failed peer store: the record of lowest number is raised, wherever in the list it stands. -/

/-- A wave at an `align` whose failed peer stores are recorded in the order in which they failed, the later store first. -/
def failedLater : Wave :=
  { subs := [(1, { mask := 1 })], tvec := 64, failed := [{ order := 5, timeout := false, addr := 0x9000, rank := 0, fault := 0 }, { order := 3, timeout := false, addr := 0xA000, rank := 0, fault := 0 }] }

/-- The state in which that wave issues. -/
def failedLaterState : State := { State.reset with cur := some (0, 1), waves := [(0, failedLater)] }

theorem failedLater_issuing : Issuing failedLaterState (.align {}) 0 1 failedLater { mask := 1 } where
  cur := rfl
  wave := rfl
  sub := rfl
  may := by decide
  legal := by decide
  noCarry := by decide
  popBound := rfl
  pushBound := rfl
  open_ := by decide
  popReady := rfl
  pushReady := rfl
  released := rfl
  noDiverge := by decide
  noFailed := rfl

/-- The trap is that of the store numbered 3, whose address is 0xA000. -/
theorem failedLater_trap : exec (.align {}) failedLaterState = .next (trapped failedLaterState 0 1 (modWave failedLaterState 0 (fun v => { v with failed := [] })) { cause := .peerFault, addr := 0xA000, info := peerInfo 0 1 0 }) :=
  issue_trap (body := bodyAlign {}) failedLater_issuing rfl

/-- The TADDR that a wave of the counterexample is left with. -/
def taddrOf : Out → Option Word
  | .next t => (waveAt t 0).map (·.taddr)
  | _ => none

/-- Refutes O38: `failed` lists the stores as they failed, so its head need not be the earliest one; with the stores 5 and 3 recorded in that order `align` raises the fault of store 3, not of the head. -/
theorem not_failedPeerStoreTraps : ¬ Obligations.FailedPeerStoreTraps := by
  unfold Obligations.FailedPeerStoreTraps
  intro h
  have hs := h {} {} {} (.align {}) failedLaterState 0 1 failedLater { mask := 1 } _ _ failedLater_issuing rfl (.inl rfl)
  have ht := congrArg taddrOf (failedLater_trap.symm.trans hs)
  exact absurd ht (by decide)

/-! The forms that queue. -/

theorem relTrap_of_not {e : Env} {rel : Bool} (h : e.v.failed = [] ∨ rel = false) : relTrap e rel = none := by
  rcases h with h | rfl
  · simp [relTrap, failedTrap, h]
  · rfl

/-- A marker of SIMT code has its effect at once where nothing holds it, and is queued otherwise. -/
theorem marker_of_simt {e : Env} {s : State} {a0 : Acc} (he : e.slot = none) (hg : a0.gated = false) (hf : e.v.failed = [] ∨ (decide (a0.kind = .align) || isRel a0.ord) = false) :
    marker e s a0 = let a := beginRelease s e.die e.v.accs { a0 with issue := e.v.nextAcc }
      if markerDone s e.die a e.v.accs then .done (if a.kind = .fence then acqDrop s e.core a else s) {} else .done s { accs := [a] } := by
  have hr : inRegion e = false := by simp [inRegion, he]
  simp only [marker, relTrap_of_not hf, hr, he, hg.symm, Option.isNone_none, Bool.true_or, Bool.not_true]
  rw [hg]
  rfl

theorem stmElems_find {e : Env} {f : MEM} (h : ∀ y ∈ stmElems e f, stmOk e f y = true) : (stmElems e f).find? (fun x => !(stmOk e f x)) = none := by
  simpa using h

theorem bodyDiscard_of_ok {f : MEM} {e : Env} {s : State} {a : Nat} {l : List Acc} (ha : flatAddr e f = a) (h : checkReqs e s true .store [{ va := a, kind := .discard }] = .ok l) :
    bodyDiscard f e s = .done (served e s true [{ va := a, kind := .discard }]) { accs := l.filter (fun a => a.bytes.all (fun b => b.at_.devAddr.isSome)) } := by
  simp only [bodyDiscard, ha, h]

/-- Settles O37: each body with its check answered; the two markers have one proof. -/
theorem otherQueueForms : Obligations.OtherQueueForms := by
  unfold Obligations.OtherQueueForms
  intro f
  refine ⟨fun s w x v u bs hi hc => ?_, fun s w x v u m hi hc => ?_, ?_, fun s w x v u l hi hc => ?_, fun i a0 h s w x v u hi hf => ?_⟩
  · exact issue_done (body := bodyVpack f) hi (by simp only [bodyVpack, streamAddr]; rw [show checkSpad s (issueEnv s w x v u (.vpack f)).v .store _ _ = .ok bs from hc]) nofun
  · exact issue_trap (body := bodyVpack f) hi (by simp only [bodyVpack, streamAddr]; rw [show checkSpad s (issueEnv s w x v u (.vpack f)).v .store _ _ = .error m from hc])
  · refine yieldsIf_of_body (body := bodyStm f) (fun _ => rfl) ?_ fun s w x v u _ hc => by simp only [bodyStm, stmElems_find hc]
    exact fun _ _ _ _ h => Go.noConfusion h
  · exact issue_done (body := bodyDiscard f) hi (bodyDiscard_of_ok rfl hc) nofun
  · have hm : (∀ s, exec i s = issue i (fun e s => marker e s a0) s) ∧ a0.gated = false ∧ (v.failed = [] ∨ (decide (a0.kind = .align) || isRel a0.ord) = false) := by
      rcases (List.mem_cons.1 h).imp_right List.mem_singleton.1 with h | h <;> obtain ⟨rfl, rfl⟩ := Prod.mk.inj h
      · exact ⟨fun _ => rfl, rfl, hf.imp_right fun h => absurd rfl h.1⟩
      · exact ⟨fun _ => rfl, rfl, hf.imp_right fun h => by simpa [isRel] using h.2⟩
    obtain ⟨hx, hg, hf⟩ := hm
    intro e a
    have hb := marker_of_simt (e := e) (s := s) (a0 := a0) rfl hg hf
    by_cases hd : markerDone s (dieOf v.core) a v.accs = true
    · rw [if_pos hd]
      exact (hx s).trans (issue_done hi (hb.trans (if_pos hd)) nofun)
    · rw [if_neg hd]
      exact (hx s).trans (issue_done hi (hb.trans (if_neg hd)) nofun)

end Sys2Proof.Machine
end

section
/-! PROOFS. What an instruction leaves at its issue beside its effect: the tables it does not touch, and the replay record of a synchronising one, whose bytes wake those who wait on them (R29, R108, R279, R430). -/

namespace Sys2Proof.Machine

/-! Completion changes the waves, the cores and the cohorts alone. -/

/-- `t` differs from `s` in its waves, its cores and its cohorts alone. -/
def OnlyRuns (s t : State) : Prop := ∃ ws cs co, t = { s with waves := ws, cores := cs, cohorts := co }

theorem OnlyRuns.refl (s : State) : OnlyRuns s s := ⟨s.waves, s.cores, s.cohorts, rfl⟩

theorem OnlyRuns.trans {s t r : State} (h : OnlyRuns s t) (k : OnlyRuns t r) : OnlyRuns s r := by
  obtain ⟨_, _, _, rfl⟩ := h
  obtain ⟨ws, cs, co, rfl⟩ := k
  exact ⟨ws, cs, co, rfl⟩

theorem onlyRuns_modWave (s : State) (w : Nat) (f : Wave → Wave) : OnlyRuns s (modWave s w f) := ⟨_, s.cores, s.cohorts, rfl⟩
theorem onlyRuns_modCore (s : State) (p : Nat) (f : Core → Core) : OnlyRuns s (modCore s p f) := ⟨s.waves, _, s.cohorts, rfl⟩
theorem onlyRuns_modSect (s : State) (p k : Nat) (f : Sect → Sect) : OnlyRuns s (modSect s p k f) := onlyRuns_modCore s p _
theorem onlyRuns_modCohort (s : State) (c : Nat) (f : Cohort → Cohort) : OnlyRuns s (modCohort s c f) := ⟨s.waves, s.cores, _, rfl⟩

theorem onlyRuns_spadPut (s : State) (p : Place) (b : Byte) : OnlyRuns s (spadPut s p b) := by
  cases p with
  | spad cohort core off => unfold spadPut modAlloc; apply onlyRuns_modCohort
  | tile core ctx off => unfold spadPut modAlloc; apply onlyRuns_modCore
  | _ => exact OnlyRuns.refl s

theorem onlyRuns_landWr (s : State) (w : Nat) (y : Wr) : OnlyRuns s (landWr s w y) := by
  obtain ⟨d, x⟩ := y
  cases d with
  | chan core ch entry => unfold landWr chanPut; apply onlyRuns_modCore
  | mem p => exact onlyRuns_spadPut s p _
  | _ => exact onlyRuns_modWave s w _

theorem onlyRuns_landAll (w : Nat) (l : List Wr) (s : State) : OnlyRuns s (landAll s w l) := by
  induction l generalizing s with
  | nil => exact OnlyRuns.refl s
  | cons y r ih => exact (onlyRuns_landWr s w y).trans (ih _)

theorem onlyRuns_takePops (v : Wave) (l : List Nat) (s : State) : OnlyRuns s (takePops s v l) := by
  induction l generalizing s with
  | nil => exact OnlyRuns.refl s
  | cons q r ih => exact (onlyRuns_modCore s _ _).trans (ih _)

theorem onlyRuns_takePushes (v : Wave) (l : List Nat) (s : State) : OnlyRuns s (takePushes s v l) := by
  induction l generalizing s with
  | nil => exact OnlyRuns.refl s
  | cons q r ih => exact (onlyRuns_modCore s _ _).trans (ih _)

/-- The completion of an instruction. -/
theorem onlyRuns_complete (s : State) (e : Env) (pops pushes : List Nat) (f : Eff) : OnlyRuns s (complete s e pops pushes f) := by
  have h0 : OnlyRuns s (if f.waits then s else takePops s e.v pops) := by
    split
    · exact OnlyRuns.refl s
    · exact onlyRuns_takePops e.v pops s
  have h1 := (h0.trans (onlyRuns_takePushes e.v pushes _)).trans (onlyRuns_landAll e.w f.wr _)
  have h2 := h1.trans (onlyRuns_modWave _ e.w (fun v => (v.queue e.x f.accs).advance e.x e.next f e.v.wdlimit))
  have h3 := h2.trans (onlyRuns_modSect _ e.core e.v.sect (fun k => { k with last := some (e.w, f.last.getD e.x), issuedAt := some s.clock }))
  unfold complete
  dsimp only
  split
  · exact h3
  · exact h3.trans (onlyRuns_modCore _ e.core _)

/-- The completion of an instruction that records no replay. -/
theorem retire_eq_finish {s s1 : State} {w x : Nat} {v : Wave} {u : Sub} {i : Instr} {f : Eff} (hs : syncOp i = false) : ∃ t, OnlyRuns s1 t ∧ retire s w x v u i s1 f = finish s t := by
  refine ⟨_, onlyRuns_complete s1 (issueEnv s w x v u i) (popsOf none i) (pushesOf none i) f, ?_⟩
  unfold retire replayDone
  simp only [hs, Bool.false_eq_true, if_false]

/-! What the replay record does to a wave. -/

/-- Waits change in that a `callx` or a `waitv` is marked as woken. -/
def WakesOnly (g : Hold → Hold) : Prop :=
  ∀ h, g h = h ∨ (∃ a t c k k', h = .callx a t c k ∧ g h = .callx a t c k') ∨ ∃ q k, h = .waitv q ∧ g h = .waitv { q with woken := k }

theorem wakesOnly_id : WakesOnly id := fun _ => .inl rfl

theorem wakesOnly_wakeHold (line : Option Nat) (g : Nat) : WakesOnly (wakeHold line g) := by
  intro h
  cases h with
  | callx a t c k => exact .inr (.inl ⟨a, t, c, k, _, rfl, rfl⟩)
  | waitv q => exact .inr (.inr ⟨q, _, rfl, rfl⟩)
  | _ => exact .inl rfl

theorem WakesOnly.comp {f g : Hold → Hold} (hf : WakesOnly f) (hg : WakesOnly g) : WakesOnly (f ∘ g) := by
  intro h
  rcases hg h with h1 | ⟨a, t, c, k, k', rfl, h1⟩ | ⟨q, k, rfl, h1⟩
  · rw [Function.comp_apply, h1]
    exact hf h
  · rw [Function.comp_apply, h1]
    rcases hf (.callx a t c k') with h2 | ⟨_, _, _, _, k2, h2, h3⟩ | ⟨_, _, h2, _⟩
    · exact .inr (.inl ⟨a, t, c, k, k', rfl, h2⟩)
    · obtain ⟨rfl, rfl, rfl, rfl⟩ := Hold.callx.inj h2
      exact .inr (.inl ⟨_, _, _, k, k2, rfl, h3⟩)
    · exact Hold.noConfusion h2
  · rw [Function.comp_apply, h1]
    rcases hf (.waitv { q with woken := k }) with h2 | ⟨_, _, _, _, _, h2, _⟩ | ⟨q2, k2, h2, h3⟩
    · exact .inr (.inr ⟨q, k, rfl, h2⟩)
    · exact Hold.noConfusion h2
    · obtain rfl := Hold.waitv.inj h2
      exact .inr (.inr ⟨q, k2, rfl, h3⟩)

/-- A wave whose replay log has grown and whose waits a write may have woken. -/
def Wave.noted (a : Wave) (n : Nat) (g : Hold → Hold) : Wave := { a with replayPos := n, subs := a.subs.map (fun y => (y.1, { y.2 with hold := g y.2.hold })) }

theorem Wave.noted_id (a : Wave) : a.noted a.replayPos id = a := by simp [Wave.noted]

theorem Wave.noted_noted (a : Wave) (m n : Nat) (f g : Hold → Hold) : (a.noted m f).noted n g = a.noted n (g ∘ f) := by simp [Wave.noted, List.map_map, Function.comp_def]

theorem Wave.noted_sub (a : Wave) (n : Nat) (g : Hold → Hold) (x : Nat) : tblFind (a.noted n g).subs x = (tblFind a.subs x).map (fun u => { u with hold := g u.hold }) :=
  tblFind_map_snd (α := Sub) (β := Sub) a.subs (fun u => { u with hold := g u.hold }) x

/-- The waits of every wave may have been woken. -/
def Wakes (s t : State) : Prop := ∀ w a, waveAt s w = some a → ∃ g, WakesOnly g ∧ waveAt t w = some (a.noted a.replayPos g)

theorem Wakes.refl (s : State) : Wakes s s := fun _ a h => ⟨id, wakesOnly_id, by rw [Wave.noted_id, h]⟩

theorem Wakes.trans {s t r : State} (h : Wakes s t) (k : Wakes t r) : Wakes s r := by
  intro w a ha
  obtain ⟨f, hf, h1⟩ := h w a ha
  obtain ⟨g, hg, h2⟩ := k w _ h1
  exact ⟨g ∘ f, hg.comp hf, by rw [h2, Wave.noted_noted]; rfl⟩

theorem wakes_wakeAll (s : State) (line : Option Nat) (g : Nat) : Wakes s (wakeAll s line g) := by
  intro w a ha
  refine ⟨wakeHold line g, wakesOnly_wakeHold line g, ?_⟩
  have := tblFind_map_snd (α := Wave) (β := Wave) s.waves (fun v => { v with subs := v.subs.map (fun u => (u.1, { u.2 with hold := wakeHold line g u.2.hold })) }) w
  rw [show waveAt (wakeAll s line g) w = _ from this, show tblFind s.waves w = some a from ha]
  rfl

theorem waves_lineTake (s : State) (key line : Nat) : (lineTake s key line).waves = s.waves := by
  simp only [lineTake]
  split
  · split <;> rfl
  · rfl

theorem wakes_packagePut (s : State) (key pa : Nat) (b : Byte) : Wakes s (packagePut s key pa b) := by
  intro w a ha
  have h : waveAt (invalidateOthers (homePut s key pa b) none (lineOf pa)) w = some a := by
    rw [← ha]
    exact congrArg (tblFind · w) (waves_lineTake s key (lineOf pa))
  exact wakes_wakeAll _ _ _ w a h

theorem wakes_packagePutAll (key : Nat) (l : List Byte) (s : State) (pa : Nat) : Wakes s (packagePutAll s key pa l) := by
  induction l generalizing s pa with
  | nil => exact Wakes.refl s
  | cons b r ih => exact (wakes_packagePut s key pa b).trans (ih _ _)

/-- The replay record of an instruction of wave `w`. -/
theorem waveAt_replayDone {s : State} {w : Nat} {a : Wave} (v : Wave) (i : Instr) (ha : waveAt s w = some a) : ∃ n g, WakesOnly g ∧ waveAt (replayDone s w v i) w = some (a.noted n g) := by
  have same : ∃ n g, WakesOnly g ∧ waveAt s w = some (a.noted n g) := ⟨a.replayPos, id, wakesOnly_id, by rw [Wave.noted_id, ha]⟩
  have step : ∀ t, Wakes s t → ∃ n g, WakesOnly g ∧ waveAt (modWave t w (fun u => { u with replayPos := u.replayPos + 1 })) w = some (a.noted n g) := by
    intro t ht
    obtain ⟨g, hg, h⟩ := ht w a ha
    exact ⟨a.replayPos + 1, g, hg, waveAt_modWave_of h _⟩
  unfold replayDone replayNote
  dsimp only
  split
  · split
    · refine step _ ?_
      split
      · exact wakes_packagePutAll 0 _ s _
      · exact Wakes.refl s
    · split
      · exact step s (Wakes.refl s)
      · exact same
  · exact same

/-- The wave after a synchronising instruction. -/
theorem waveAt_retire_noted {s s1 : State} {w x : Nat} {v v1 : Wave} {u : Sub} {i : Instr} {e : Eff} (hv : waveAt s1 w = some v1) (hl : v1.wdlimit = v.wdlimit) :
    ∃ n g, WakesOnly g ∧ waveAt (retire s w x v u i s1 e) w = some ((v1.completed x (u.pc + BitVec.ofNat 64 (instrLen i)) e).noted n g) := by
  have h : waveAt (complete s1 (issueEnv s w x v u i) (popsOf none i) (pushesOf none i) e) w = some (v1.completed x (u.pc + BitVec.ofNat 64 (instrLen i)) e) := by
    have := waveAt_complete s1 (issueEnv s w x v u i) (popsOf none i) (pushesOf none i) e
    rw [issueEnv_w, hv] at this
    rw [this, Wave.completed, hl]
    rfl
  exact waveAt_replayDone v i h

/-- Where replay is not recorded, a synchronising instruction leaves the rest alone too. -/
theorem keeps_retire_unrecorded {s s1 : State} {w x : Nat} {v : Wave} {u : Sub} {i : Instr} {f : Eff} (h1 : KeepsRest w s s1) (hm : s1.mem = s.mem) (h : ∀ y ∈ f.wr, ∀ p, y.dst ≠ .mem p) (hd : (ctxAt s v.ctx).dbgWord.getLsbD 4 = false) :
    KeepsRest w s (retire s w x v u i s1 f) := by
  have h2 := h1.trans (keeps_complete s1 (issueEnv s w x v u i) (popsOf none i) (pushesOf none i) f h)
  have hc : bitAt (ctxAt (complete s1 (issueEnv s w x v u i) (popsOf none i) (pushesOf none i) f) v.ctx).dbgWord.toNat 4 = false := by
    simp only [ctxAt, h2.contexts]
    exact hd
  have h3 : ∀ t, KeepsRest w s t → t.mem = s.mem → bitAt (ctxAt t v.ctx).dbgWord.toNat 4 = false → KeepsRest w s (finish s (replayDone t w v i)) := by
    intro t ht hm hb
    unfold replayDone replayNote
    dsimp only
    rw [hb]
    split
    · split
      · exact absurd ‹_› Bool.false_ne_true
      · split
        · exact keeps_finish (ht.trans (keeps_modWave w t _)) hm
        · exact keeps_finish ht hm
    · exact keeps_finish ht hm
  exact h3 _ h2 ((mem_complete _ _ _ _ _).trans hm) hc

end Sys2Proof.Machine
end

section
/-! PROOFS. Engine instructions at their issue, and the token forms (R297, R299 to R301, R305 to R309). -/

namespace Sys2Proof.Machine

/-! The issue of an engine instruction. -/

/-- The entry an engine instruction stands under. -/
def engOp (e : Env) (s : State) (f : EN) (pay : EPay) : EngOp :=
  { wave := e.w, ctx := e.v.ctx, core := e.core, sect := e.v.sect, issue := e.now, deps := (consumed e f).map (depOf s e.w e.v), out := if f.produce then some (e.tokNo f.kout) else none, pay := pay, fences := fenceIds e.v, mark := e.v.nextAcc, gated := inRegion e && pay.commits,
    prior := match (if f.produce then some (e.tokNo f.kout) else none) with | some t => e.v.tok t | none => .done }

/-- The wave once the token is pending. -/
def engWave (e : Env) (f : EN) (v : Wave) : Wave := if f.produce then v.setTok (e.tokNo f.kout) (v.tok (e.tokNo f.kout)).restart else v

theorem engIssue_eq (e : Env) (s : State) (f : EN) (pay : EPay) : engIssue e s f pay = 
    if f.produce then modWave { s with eng := tblPut s.eng s.nextEng (engOp e s f pay), nextEng := s.nextEng + 1 } e.w (fun v => v.setTok (e.tokNo f.kout) (v.tok (e.tokNo f.kout)).restart)
    else { s with eng := tblPut s.eng s.nextEng (engOp e s f pay), nextEng := s.nextEng + 1 } := by
  unfold engIssue engOp
  cases f.produce <;> rfl

theorem waveAt_engIssue {e : Env} {s : State} {v : Wave} (f : EN) (pay : EPay) (hv : waveAt s e.w = some v) : waveAt (engIssue e s f pay) e.w = some (engWave e f v) := by
  rw [engIssue_eq, engWave]
  split
  · exact waveAt_modWave_of (s := { s with eng := _, nextEng := _ }) hv _
  · exact hv

theorem onlyRuns_engIssue (e : Env) (s : State) (f : EN) (pay : EPay) : OnlyRuns { s with eng := tblPut s.eng s.nextEng (engOp e s f pay), nextEng := s.nextEng + 1 } (engIssue e s f pay) := by
  rw [engIssue_eq]
  split
  · exact onlyRuns_modWave _ _ _
  · exact OnlyRuns.refl _

theorem keeps_engIssue (e : Env) (s : State) (f : EN) (pay : EPay) : KeepsRest e.w { s with eng := tblPut s.eng s.nextEng (engOp e s f pay), nextEng := s.nextEng + 1 } (engIssue e s f pay) := by
  rw [engIssue_eq]
  split
  · exact keeps_modWave _ _ _
  · exact KeepsRest.refl _ _

theorem restart_settled (t : Token) : t.restart.settled = false := by cases t <;> rfl

theorem tok_setTok_self (v : Wave) (k : Nat) (t : Token) : (v.setTok k t).tok k = t := tblGet_set_self Token.done v.toks k t
theorem tok_setTok_ne (v : Wave) {j k : Nat} (t : Token) (h : j ≠ k) : (v.setTok k t).tok j = v.tok j := tblGet_set_ne Token.done v.toks t h

theorem depOf_tok (s : State) (w : Nat) (v : Wave) (l : List Nat) : (l.map (depOf s w v)).map (·.tok) = l := by simp [Function.comp_def, depOf]

theorem engWave_toks (e : Env) (f : EN) (v : Wave) :
    (f.produce = true → ((engWave e f v).tok (e.tokNo f.kout)).settled = false) ∧ ∀ k, (f.produce = true → k ≠ e.tokNo f.kout) → (engWave e f v).tok k = v.tok k := by
  unfold engWave
  constructor
  · intro h
    rw [if_pos h, tok_setTok_self, restart_settled]
  · intro k hk
    split
    · next h => exact tok_setTok_ne v _ (hk h)
    · rfl

theorem engWave_eq (e : Env) (f : EN) (v : Wave) : engWave e f v = { v with toks := (engWave e f v).toks } := by
  unfold engWave
  split <;> rfl

/-- Settles O42: the entry is put under the next number, the token restarts, and completion touches no more. -/
theorem engineInstructionIssued : Obligations.EngineInstructionIssued := by
  unfold Obligations.EngineInstructionIssued
  intro s w x v u i f pay _ hv _ hs e t
  have ht : t = finish s (complete (engIssue e s f pay) e (popsOf none i) (pushesOf none i) {}) := by
    simp only [t, retire, replayDone, hs, Bool.false_eq_true, if_false]
    rfl
  obtain ⟨_, _, _, hq⟩ := (onlyRuns_engIssue e s f pay).trans (onlyRuns_complete _ e (popsOf none i) (pushesOf none i) {})
  have hk : KeepsRest w { s with eng := tblPut s.eng s.nextEng (engOp e s f pay), nextEng := s.nextEng + 1 } t := by
    rw [ht]
    exact keeps_finish ((keeps_engIssue e s f pay).trans (keeps_complete _ e _ _ {} nofun)) (by rw [hq])
  have hnext : t.nextEng = s.nextEng + 1 := by rw [ht, hq]; rfl
  have hw : waveAt t w = some ((engWave e f v).completed x (u.pc + BitVec.ofNat 64 (instrLen i)) {}) :=
    waveAt_retire_over (waveAt_engIssue f pay (e := e) hv) (by rw [engWave_eq]) hs
  obtain ⟨wd, as, hc⟩ := Wave.completed_plain (engWave e f v) x (u.pc + BitVec.ofNat 64 (instrLen i)) (e := {}) rfl rfl
  obtain ⟨hpend, hother⟩ := engWave_toks e f v
  have heng : ∀ k, tblFind t.eng k = tblFind (tblPut s.eng s.nextEng (engOp e s f pay)) k := fun k => by rw [hk.engines]
  refine ⟨⟨engOp e s f pay, by rw [heng, tblFind_put_self], rfl, rfl, rfl, rfl, rfl, rfl, rfl, depOf_tok s w v _⟩, fun k hne => by rw [heng, tblFind_put_ne _ _ hne], hnext,
    ⟨_, hw.trans (congrArg some hc), hpend, hother, ?_⟩, fun pa hd => ?_, hk.scratchpad, hk.waves, hk.contexts, hk.cohorts⟩
  · rw [engWave_eq]
    exact ⟨rfl, rfl, rfl, Nat.or_zero _, rfl, rfl, rfl⟩
  · exact hk.memory pa hd

/-! The token forms. -/

theorem engForm_done {e : Env} {s : State} {f : EN} {pay : EPay} (h : sectQueue s e.core e.v.sect < 64) : engForm e s f pay = .done (engIssue e s f pay) {} := by
  rw [engForm, if_neg (by omega)]

theorem engForm_hold {e : Env} {s : State} {f : EN} {pay : EPay} (he : e.slot = none) (h : ¬ sectQueue s e.core e.v.sect < 64) : engForm e s f pay = .hold s := by
  rw [engForm, if_pos (by omega), he]
  rfl

/-- An element of the copy is not reached in scratchpad, or lies outside the canonical addresses. -/
def CopyBad (s : State) (v : Wave) (r : TRec) (goff : Word) (soff : Nat) : Prop :=
  (∃ n < r.total, spadPlaces s v (r.saddr soff n) r.esz = none) ∨ ∃ n < r.total, r.clipped n = false ∧ (canonical (r.gaddr goff n) && canonical ((r.gaddr goff n + r.esz - 1) % 2 ^ 64)) = false

theorem tcopyBad_eq_none_iff (s : State) (v : Wave) (st : Bool) (r : TRec) (goff : Word) (soff : Nat) : tcopyBad s v st r goff soff = none ↔ ¬ CopyBad s v r goff soff := by
  unfold tcopyBad CopyBad
  split
  · next y hy =>
    have hm := List.mem_of_find?_eq_some hy
    have hp := List.find?_some hy
    simp only [reduceCtorEq, false_iff, Classical.not_not]
    exact .inl ⟨y, List.mem_range.1 hm, by simpa using hp⟩
  · next h1 =>
    rw [List.find?_eq_none] at h1
    split
    · next y hy =>
      have hm := List.mem_of_find?_eq_some hy
      have hp := List.find?_some hy
      simp only [reduceCtorEq, false_iff, Classical.not_not]
      simp only [Bool.and_eq_true, Bool.not_eq_true'] at hp
      exact .inr ⟨y, List.mem_range.1 hm, hp⟩
    · next h2 =>
      rw [List.find?_eq_none] at h2
      simp only [true_iff, not_or, not_exists, not_and]
      refine ⟨fun n hn hs => h1 n (List.mem_range.2 hn) (by simp [hs]), fun n hn hc hb => h2 n (List.mem_range.2 hn) ?_⟩
      rw [hc, hb]
      rfl

theorem tcopyBad_protection {s : State} {v : Wave} {st : Bool} {r : TRec} {goff : Word} {soff : Nat} {t : Trap} (h : tcopyBad s v st r goff soff = some t) : t.cause = .protection ∧ t.tpc = none := by
  unfold tcopyBad at h
  split at h
  · obtain rfl := Option.some.inj h
    exact ⟨rfl, rfl⟩
  · split at h
    · obtain rfl := Option.some.inj h
      exact ⟨rfl, rfl⟩
    · cases h

theorem bodyTcopy_of_rec {f : EN} {e : Env} {s : State} {r : TRec} (h : e.tensorRec (e.recNo (f.a % 16)) = some r) :
    bodyTcopy f e s = match tcopyBad s e.v (bitAt f.a 4) r (e.rdS f.b) (e.rdS f.c).toNat with
      | some t => .trap s t
      | none => engForm e s f (.tcopy (bitAt f.a 4) r (e.rdS f.b) (e.rdS f.c).toNat [] []) := by
  simp only [bodyTcopy, h] <;> rfl

theorem toksSettled_iff (v : Wave) (ks : List Nat) : toksSettled v ks = true ↔ ∀ k ∈ ks, (v.tok k).settled = true := by simp [toksSettled]

theorem firstFailed_of_done {v : Wave} {ks : List Nat} (h : ∀ k ∈ ks, v.tok k = .done) : firstFailed v ks = none := by
  simp only [firstFailed, List.findSome?_eq_none_iff]
  intro k hk
  rw [h k hk]

/-! A sub-wave that stays at its instruction and waits. -/

theorem WakesOnly.kwait {g : Hold → Hold} (hg : WakesOnly g) (l : List Nat) (n : Word) : g (.kwait l n) = .kwait l n := by
  rcases hg (.kwait l n) with h | ⟨_, _, _, _, _, h, _⟩ | ⟨_, _, h, _⟩
  · exact h
  · cases h
  · cases h

theorem WakesOnly.gate {g : Hold → Hold} (hg : WakesOnly g) (k : Nat) (n : Word) (b : Bool) : g (.gate k n b) = .gate k n b := by
  rcases hg (.gate k n b) with h | ⟨_, _, _, _, _, h, _⟩ | ⟨_, _, h, _⟩
  · exact h
  · cases h
  · cases h

/-- A wait that is no `callx` and no `waitv` leaves the sub-wave in it, whatever the replay record wakes. -/
theorem exec_waits {s : State} {i : Instr} {w x : Nat} {v : Wave} {u : Sub} {body : Env → State → Res} {h : Hold} (hx : ∀ s, exec i s = issue i body s) (hi : Issuing s i w x v u) (hh : ∀ g, WakesOnly g → g h = h)
    (hb : body (issueEnv s w x v u i) s = .done (modWave s w (fun v => v.modSub x (fun u => { u with hold := h }))) { go := .kept }) :
    ∃ t v', exec i s = .next t ∧ waveAt t w = some v' ∧ tblFind v'.subs x = some { u with hold := h, aged := 0 } ∧ (v'.s = v.s ∧ v'.v = v.v ∧ v'.p = v.p ∧ v'.toks = v.toks ∧ v'.wph = v.wph)
      ∧ ((ctxAt s v.ctx).dbgWord.getLsbD 4 = false → KeepsRest w s t) := by
  obtain ⟨n, g, hg, hw⟩ := waveAt_retire_noted (s := s) (x := x) (v := v) (u := u) (i := i) (e := { go := .kept }) (waveAt_modWave_of hi.wave (fun v => v.modSub x (fun u => { u with hold := h }))) rfl
  obtain ⟨wd, as, hc⟩ := Wave.completed_plain (v.modSub x (fun u => { u with hold := h })) x (u.pc + BitVec.ofNat 64 (instrLen i)) (e := { go := .kept }) rfl rfl
  rw [hc] at hw
  refine ⟨_, _, (hx s).trans (issue_done hi hb nofun), hw, ?_, ⟨rfl, rfl, rfl, rfl, rfl⟩, keeps_retire_unrecorded (keeps_modWave w s _) rfl nofun⟩
  rw [Wave.noted_sub]
  simp [Wave.modSub, tblFind_mod_self, hi.sub, hh g hg]

/-- Settles O41, form by form. -/
theorem tokenForms : Obligations.TokenForms := by
  unfold Obligations.TokenForms
  intro f
  refine ⟨?_, fun s w x v u l hi ha hl hp => ?_, ?_, fun s w x v u r hi hr => ?_, ?_, ?_, ?_, fun s w x v u k a info hi hf hs => ?_, fun s w x v u hi hk => ?_⟩
  · refine trapsIf_of_body (body := bodyTrec f) (fun _ => rfl) fun s w x v u _ hc => ?_
    rw [bodyTrec, if_pos hc, illegal_issueEnv]
    rfl
  · refine issue_done (body := bodyTrec f) hi ?_ nofun
    rw [bodyTrec, if_neg (Classical.not_not.2 ha)]
    exact memForm_of_ok (fun h => absurd h (by decide)) hl (.inr hp)
  · refine trapsIf_of_body (body := bodyTcopy f) (fun _ => rfl) fun s w x v u _ hc => ?_
    simp only [bodyTcopy, hc, illegal_issueEnv]
    rfl
  · have hb := bodyTcopy_of_rec (s := s) hr
    refine ⟨fun hn hq => ?_, fun hn hq => ?_, fun hbad => ?_⟩
    · rw [(tcopyBad_eq_none_iff s _ _ r _ _).2 hn] at hb
      exact issue_done (body := bodyTcopy f) hi (hb.trans (engForm_done hq)) nofun
    · rw [(tcopyBad_eq_none_iff s _ _ r _ _).2 hn] at hb
      exact issue_hold (body := bodyTcopy f) hi (hb.trans (engForm_hold rfl hq))
    · cases ht : tcopyBad s (issueEnv s w x v u (.tcopy f)).v (bitAt f.a 4) r ((issueEnv s w x v u (.tcopy f)).rdS f.b) ((issueEnv s w x v u (.tcopy f)).rdS f.c).toNat with
      | none => exact absurd hbad ((tcopyBad_eq_none_iff s _ _ r _ _).1 ht)
      | some t =>
        rw [ht] at hb
        obtain ⟨hcause, htpc⟩ := tcopyBad_protection ht
        exact ⟨t, hcause, htpc, issue_trap (body := bodyTcopy f) hi hb⟩
  · exact yieldsIf_of_body (body := bodyKjoin f) (fun _ => rfl) (fun _ _ _ _ h => Go.noConfusion h) fun _ _ _ _ _ _ hc => engForm_done hc
  · exact waitsIf_of_body (body := bodyKjoin f) (fun _ => rfl) fun _ _ _ _ _ _ hc => engForm_hold rfl hc
  · refine yieldsIf_of_body (body := bodyKwait f) (fun _ => rfl) (fun _ _ _ _ h => Go.noConfusion h) fun s w x v u _ hc => ?_
    have hs : toksSettled v (consumed (issueEnv s w x v u (.kwait f)) f) = true := (toksSettled_iff _ _).2 fun k hk => by rw [show v.tok k = .done from hc k hk]; rfl
    have hf : firstFailed v (consumed (issueEnv s w x v u (.kwait f)) f) = none := firstFailed_of_done hc
    simp only [bodyKwait, issueEnv_v, hs, hf, if_true]
  · refine issue_trap (body := bodyKwait f) hi ?_
    simp only [bodyKwait, issueEnv_v, (toksSettled_iff _ _).2 hs, hf, if_true]
    rfl
  · have hs : toksSettled v (consumed (issueEnv s w x v u (.kwait f)) f) = false := by
      rw [Bool.eq_false_iff, ne_eq, toksSettled_iff]
      obtain ⟨k, hk, hp⟩ := hk
      exact fun h => by rw [h k hk] at hp; cases hp
    obtain ⟨t, v', ht, hw, hu, hkeep, hrest⟩ := exec_waits (body := bodyKwait f) (h := .kwait (consumed (issueEnv s w x v u (.kwait f)) f) (u.pc + 8)) (fun _ => rfl) hi (fun g hg => hg.kwait _ _) (by
      simp only [bodyKwait, issueEnv_v, hs, next_issueEnv_of_noLit hi rfl]
      rfl)
    exact ⟨t, v', ht, hw, hu, hkeep.1, hkeep.2.1, hkeep.2.2.2.1, hrest⟩

end Sys2Proof.Machine
end

section
/-! PROOFS. A gate whose phase is over while the release of an arrival in it has no effect yet (R260, R313, R314; log 103). -/

namespace Sys2Proof.Machine

/-- A wave at a `gwait` of gate 0, in no phase yet. -/
def gateWaiter : Wave := { subs := [(1, { mask := 1 })], cohort := 0 }

/-- The gate has completed phase 0; an arrival of the cohort made in a bundle in phase 0 still has its release before it. -/
def gateWaiterState : State :=
  { State.reset with cur := some (0, 1), waves := [(0, gateWaiter)], cohorts := [(0, { gates := [(0, { phase := 1 })] })], eng := [(0, { pay := .arr 0 0, wave := 0 })] }

theorem gateWaiter_issuing : Issuing gateWaiterState (.gwait {}) 0 1 gateWaiter { mask := 1 } where
  cur := rfl
  wave := rfl
  sub := rfl
  may := by decide
  legal := by decide
  noCarry := by decide
  popBound := rfl
  pushBound := rfl
  open_ := by decide
  popReady := rfl
  pushReady := rfl
  released := rfl
  noDiverge := by decide
  noFailed := rfl

/-- What a sub-wave of the counterexample waits for. -/
def holdAfter : Out → Option Hold
  | .next t => (waveAt t 0).map (·.holdOf 1)
  | _ => none

/-- The wait at the gate is not over: the release of the arrival holds it. -/
theorem gateWaiter_waits : holdAfter (exec (.gwait {}) gateWaiterState) = some (.gate 0 8 false) := by
  decide

/-- Refutes O43: `gwait` at a gate that has left the wave's phase is said to complete, but an arrival whose release has no effect yet still holds it (`relWaits`), and the sub-wave waits. -/
theorem not_gateForms : ¬ Obligations.GateForms := by
  unfold Obligations.GateForms
  intro h
  obtain ⟨_, _, _, _, _, _, _, _, _, hwait, _⟩ := h.1 {}
  have hs := hwait gateWaiterState 0 1 gateWaiter { mask := 1 } gateWaiter_issuing ⟨rfl, by decide, rfl⟩
  have ht := gateWaiter_waits.symm.trans (congrArg holdAfter hs)
  exact absurd ht (by decide)

end Sys2Proof.Machine
end

section
/-! PROOFS. A call through a slot that a watchpoint covers (R107, R416, R417). -/

namespace Sys2Proof.Machine

/-- `callx` through the slot at the address in scalar register 1. -/
def linkForm : MEM := { d := 95, a := 1, b := 110, c := 96 }

/-- The wave that issues it. -/
def linkCaller : Wave := { subs := [(1, { mask := 1 })], s := [(1, 0x8000)] }

/-- The slot at 0x8000 holds the target 0x40; watchpoint 0 of die 0 covers it and has a ring at 0x10000. -/
def linkState : State :=
  { State.reset with cur := some (0, 1), waves := [(0, linkCaller)], ctxs := [(0, { t := { root := 0x1000 } })], mem := memApply [] ((0x8000, 0x40) :: loadTables), dies := [(0, { watch := { wctl := [(0, 0x8400000000000000)], waddr := [(0, 0x8000)], base := 0x10000, size := 8 } })] }

/-- Byte `i` of the slot. -/
def linkByte (i : Nat) : AByte := { at_ := .dev (0x8000 + i), attr := { key := 0, part := 0, pol := 0, ro := false }, gran := 1025 }

theorem linkCaller_issuing : Issuing linkState (.callx linkForm) 0 1 linkCaller { mask := 1 } where
  cur := rfl
  wave := rfl
  sub := rfl
  may := by decide
  legal := by decide
  noCarry := by decide
  popBound := by decide
  pushBound := by decide
  open_ := by decide
  popReady := by decide
  pushReady := by decide
  released := by decide
  noDiverge := by decide
  noFailed := rfl

/-- Whether a check answers the value `y`. -/
def answersOk {ε α : Type} [DecidableEq α] (x : Except ε α) (y : α) : Bool :=
  match x with
  | .ok z => decide (z = y)
  | .error _ => false

theorem eq_ok_of_answersOk {ε α : Type} [DecidableEq α] {x : Except ε α} {y : α} (h : answersOk x y = true) : x = .ok y := by
  cases x with
  | ok z => exact congrArg Except.ok (of_decide_eq_true h)
  | error e => exact nomatch h

/-- Memory after a step. -/
def memAfter : Out → Option (List Host.Cell)
  | .next t => some t.mem
  | _ => none

/-- The watch record of the read stands in the ring. -/
theorem linkCaller_records : memAfter (exec (.callx linkForm) linkState) ≠ some (memApply linkState.mem []) := by
  decide +kernel

/-- Refutes O40: the call through a slot with another value is said to write no byte, but its read is matched against the watchpoints, and a match writes a record into the die's ring. -/
theorem not_linkageCall : ¬ Obligations.LinkageCall := by
  unfold Obligations.LinkageCall
  intro h
  obtain ⟨_, hcall⟩ := h linkForm linkState 0 1 linkCaller { mask := 1 } 0x8000 (linkByte 0) ((List.range 7).map (fun i => linkByte (i + 1))) rfl linkCaller_issuing
  obtain ⟨_, _, hjump⟩ := hcall (by decide +kernel) (eq_ok_of_answersOk (by decide +kernel)) (by decide +kernel) (by decide +kernel) (by decide +kernel)
  obtain ⟨s1, hx, _, hlog, _⟩ := hjump (by decide +kernel) (by decide +kernel)
  obtain ⟨t, ⟨_, _, _, ht⟩, hr⟩ := retire_eq_finish (s := linkState) (s1 := s1) (w := 0) (x := 1) (v := linkCaller) (u := { mask := 1 }) (i := .callx linkForm) rfl
  rw [hr, ht] at hx
  refine linkCaller_records ?_
  rw [hx]
  exact congrArg (fun l => some (memApply linkState.mem l)) hlog

end Sys2Proof.Machine
end

section
/-! PROOFS. `pin`, `unpin`, `prefetch` and `waitv` (R226 to R231, R278 to R280, R282). -/

namespace Sys2Proof.Machine

/-! Without watchpoints an access matches none. -/

theorem mem_of_tblFind {α : Type} {t : Tbl α} {k : Nat} {a : α} (h : tblFind t k = some a) : (k, a) ∈ t := by
  induction t with
  | nil => cases h
  | cons e r ih =>
    simp only [tblFind] at h
    split at h
    · next hk =>
      obtain rfl := Option.some.inj h
      rw [hk]
      exact List.mem_cons_self
    · exact List.mem_cons_of_mem _ (ih h)

theorem wctl_of_unwatched {s : State} (h : ∀ d ∈ s.dies, d.2.watch.wctl = []) (d : Nat) : (dieAt s d).watch.wctl = [] := by
  unfold dieAt tblGet
  cases hd : tblFind s.dies d with
  | none => rfl
  | some x => exact h _ (mem_of_tblFind hd)

theorem foldl_keeps {α β : Type} (l : List α) (s : β) : l.foldl (fun t _ => t) s = s := by
  induction l with
  | nil => rfl
  | cons _ _ ih => exact ih

theorem matchAccess_of_unwatched {s : State} (h : ∀ d ∈ s.dies, d.2.watch.wctl = []) (a : Seen) : matchAccess s a = s := by
  simp [matchAccess, wctl_of_unwatched h, tblKeys, foldl_keeps]

/-! `pin` and `unpin`. -/

/-- A request that reaches a byte of device memory goes on with its line. -/
theorem pinForm_of_dev {f : MEM} {e : Env} {s : State} {act : State → AByte → Nat → Res} {va pa : Nat} {a : Acc} {b : AByte} (hva : flatAddr e f = va) (hb : b.at_ = .dev pa) (ha : a.bytes = [b])
    (hc : checkReqs e s true .load [{ va := va, kind := .poll }] = .ok [a]) : pinForm f e s act = act (served e s true [{ va := va, kind := .poll }]) b (lineOf pa) := by
  simp [pinForm, hva, hc, ha, hb, Place.devAddr]

theorem mem_pinWays {s : State} {part line y : Nat} (h : y ∈ pinWays s part line) : y < 16 ∧ y ∉ pinnedWays s line := by
  have hf : ∀ z ∈ (List.range 16).filter (fun i => decide (i ∉ pinnedWays s line)), z < 16 ∧ z ∉ pinnedWays s line := fun z hz => by simpa using hz
  unfold pinWays at h
  dsimp only at h
  split at h
  · exact hf y (List.mem_filter.1 h).1
  · split at h
    · exact hf y h
    · exact hf y (List.mem_filter.1 h).1

section
variable {s : State} {ctx part line : Nat}

theorem pinCode_of_pinned {r : PinRec} (h : tblFind s.pins line = some r) : pinCode s ctx part line = if r.ctx = ctx then 0 else 3 := by simp [pinCode, h]

theorem pinApply_of_pinned {r : PinRec} (h : tblFind s.pins line = some r) : pinApply s ctx part line = s := by simp [pinApply, h]

theorem pinApply_of_refused (h : pinCode s ctx part line ≠ 0) : pinApply s ctx part line = s := by simp [pinApply, h]

theorem pinCode_of_quota (h : tblFind s.pins line = none) (hq : pinCount s ctx = (ctxAt s ctx).t.pinQuota) : pinCode s ctx part line = 2 := by simp [pinCode, h, hq]

theorem pinCode_of_full (h : tblFind s.pins line = none) (hq : pinCount s ctx ≠ (ctxAt s ctx).t.pinQuota) (hw : 12 ≤ (pinnedWays s line).length ∨ pinWays s part line = []) : pinCode s ctx part line = 1 := by
  simp only [pinCode, h, if_neg hq]
  split
  · rfl
  · next h12 => rw [hw.resolve_left h12]; rfl

theorem pinCode_of_room (h : tblFind s.pins line = none) (hq : pinCount s ctx ≠ (ctxAt s ctx).t.pinQuota) (h12 : (pinnedWays s line).length < 12) (hw : pinWays s part line ≠ []) : pinCode s ctx part line = 0 := by
  simp only [pinCode, h, if_neg hq]
  rw [if_neg (by omega), if_neg (by simpa using hw)]

end

/-- The way a new pin takes. -/
def pinWay (s : State) (part line : Nat) : Nat := (pinWays s part line).getD (free s (2 ^ 72 + 2 * line + 1) % (pinWays s part line).length) 0

theorem pinWay_mem {s : State} {part line : Nat} (h : pinWays s part line ≠ []) : pinWay s part line ∈ pinWays s part line := by
  have hl : free s (2 ^ 72 + 2 * line + 1) % (pinWays s part line).length < (pinWays s part line).length := Nat.mod_lt _ (List.length_pos_iff.2 h)
  unfold pinWay
  rw [List.getD_eq_getElem?_getD, List.getElem?_eq_getElem hl, Option.getD_some]
  exact List.getElem_mem hl

theorem pinApply_of_new {s : State} {ctx part line : Nat} (h : tblFind s.pins line = none) (hc : pinCode s ctx part line = 0) : pinApply s ctx part line = { s with pins := tblPut s.pins line { ctx := ctx, part := part, way := pinWay s part line } } := by
  simp only [pinApply, h, hc]
  rfl

/-! `prefetch`. -/

/-- `t` has the waves, the bytes, the pins and the cohorts of `s`. -/
def OnlyCaches (s t : State) : Prop := t.waves = s.waves ∧ t.mem = s.mem ∧ t.wlog = s.wlog ∧ t.pins = s.pins ∧ t.cohorts = s.cohorts

theorem OnlyCaches.refl (s : State) : OnlyCaches s s := ⟨rfl, rfl, rfl, rfl, rfl⟩

theorem OnlyCaches.trans {s t r : State} (h : OnlyCaches s t) (k : OnlyCaches t r) : OnlyCaches s r := by
  obtain ⟨hw, hm, hl, hp, hc⟩ := h
  obtain ⟨kw, km, kl, kp, kc⟩ := k
  exact ⟨kw.trans hw, km.trans hm, kl.trans hl, kp.trans hp, kc.trans hc⟩

theorem onlyCaches_fillRemote (s : State) (die : Nat) (at_ : Attr) (line tag : Nat) : OnlyCaches s (fillRemote s die at_ line tag) := by
  unfold fillRemote
  split
  · exact OnlyCaches.refl s
  · exact ⟨rfl, rfl, rfl, rfl, rfl⟩

theorem onlyCaches_fillL1 (s : State) (core die : Nat) (at_ : Attr) (line tag : Nat) : OnlyCaches s (fillL1 s core die at_ line tag) := by
  unfold fillL1
  split
  · exact OnlyCaches.refl s
  · exact ⟨rfl, rfl, rfl, rfl, rfl⟩

theorem onlyCaches_lineTake (s : State) (key line : Nat) : OnlyCaches s (lineTake s key line) := by
  unfold lineTake
  split
  · split
    · exact OnlyCaches.refl s
    · exact ⟨rfl, rfl, rfl, rfl, rfl⟩
  · exact ⟨rfl, rfl, rfl, rfl, rfl⟩

/-- Filling caches changes no wave, no byte, no pin and no cohort. -/
theorem onlyCaches_fillRead (s : State) (core : Option Nat) (die : Nat) (at_ : Attr) (line : Nat) : OnlyCaches s (fillRead s core die at_ line) := by
  have h : OnlyCaches s (match core with | some c => fillL1 (fillRemote s die at_ line 0) c die at_ line 0 | none => fillRemote s die at_ line 0) := by
    cases core with
    | none => exact onlyCaches_fillRemote s die at_ line 0
    | some c => exact (onlyCaches_fillRemote s die at_ line 0).trans (onlyCaches_fillL1 _ c die at_ line 0)
  unfold fillRead
  dsimp only
  split
  · exact h
  · exact h.trans (onlyCaches_lineTake _ _ _)

/-- The prefetch completes over a state in which only caches may have changed. -/
theorem bodyPrefetch_done (f : MEM) (e : Env) (s : State) : ∃ t, bodyPrefetch f e s = .done t {} ∧ OnlyCaches s t := by
  unfold bodyPrefetch
  split
  · exact ⟨s, rfl, OnlyCaches.refl s⟩
  · refine ⟨_, rfl, ?_⟩
    split
    · exact OnlyCaches.refl s
    · exact onlyCaches_fillRead s _ _ _ _

/-! `waitv`. -/

theorem waitvOf_ends (f : RRR) (e : Env) (val : Nat) : (waitvOf f e).ends e.now val = true ↔ (f.fn.testBit 0 = true ↔ val = (e.rdS f.b).toNat % 2 ^ (8 * (if f.ty = .n32 then 4 else 8))) := by
  have hl : (decide ((waitvOf f e).limit ≠ 0) && decide ((waitvOf f e).limit ≤ e.now - (waitvOf f e).t0)) = false := by
    have : e.now - (waitvOf f e).t0 = 0 := Nat.sub_self _
    rw [this]
    by_cases h : (waitvOf f e).limit = 0 <;> simp [h]
  unfold WaitV.ends
  rw [hl, Bool.or_false, beq_iff_eq, show (waitvOf f e).eq = f.fn.testBit 0 from rfl, show (waitvOf f e).cmp = (e.rdS f.b).toNat % 2 ^ (8 * (if f.ty = .n32 then 4 else 8)) from rfl]
  cases f.fn.testBit 0 <;> simp

/-- A `waitv` as it waits: what it watches, and what it has popped. -/
def waitvBegun (f : RRR) (e : Env) (t : State) (a : Acc) : WaitV := { waitvOf f e with granule := a.bytes.head?.map (fun b => granuleOf b.at_), pops := popIds t e.v (tblKeys e.pops) }

/-- The body of a `waitv` whose read may perform at once. -/
theorem bodyWaitv_ready {f : RRR} {e : Env} {s t : State} {a : Acc} (hal : (waitvOf f e).addr % (waitvOf f e).n = 0) (ha : waitvAcc e s (waitvOf f e) = .ok a) (hh : ∀ b ∈ a.bytes, b.at_.isAway = false)
    (ht : t = served e s (waitvOf f e).flat [(waitvOf f e).req]) (hr : waitvReady e t a = true) (hc : t.clock = e.now) :
    bodyWaitv f e s = if (waitvOf f e).ends e.now (waitvValue e t a) then .done (waitvSeen e t a) { wr := (waitvOf f e).dst.map (fun d => ⟨d, waitvValue e t a⟩) } else waitvWait e (waitvSeen e t a) [] (waitvBegun f e t a) := by
  have hn : (a.bytes.any (fun b => b.at_.isAway)) = false := by simpa using hh
  subst ht
  simp only [bodyWaitv, hal, ha, hn, hr, ne_eq, not_true, if_false, if_true, Bool.false_eq_true, hc]
  rfl

/-- Without watchpoints a read leaves the waves and the dies as they were. -/
theorem waitvSeen_leaves {e : Env} {s : State} {a : Acc} (h : ∀ d ∈ s.dies, d.2.watch.wctl = []) : waitvSeen e s a = acqDrop s e.core a := by
  have hd : (acqDrop s e.core a).dies = s.dies := by
    unfold acqDrop
    split <;> rfl
  exact matchAccess_of_unwatched (by rw [hd]; exact h) _

theorem waves_acqDrop (s : State) (core : Nat) (a : Acc) : (acqDrop s core a).waves = s.waves := by
  unfold acqDrop
  split <;> rfl

theorem WakesOnly.waitv {g : Hold → Hold} (hg : WakesOnly g) (q : WaitV) : ∃ q', g (.waitv q) = .waitv q' ∧ q'.addr = q.addr := by
  rcases hg (.waitv q) with h | ⟨_, _, _, _, _, h, _⟩ | ⟨q1, k, h1, h⟩
  · exact ⟨q, h, rfl⟩
  · cases h
  · obtain rfl := Hold.waitv.inj h1
    exact ⟨_, h, rfl⟩

theorem waves_served (e : Env) (s : State) (flat : Bool) (rs : List Req) : (served e s flat rs).waves = s.waves ∧ (served e s flat rs).dies = s.dies ∧ (served e s flat rs).clock = s.clock := by
  unfold served
  split <;> exact ⟨rfl, rfl, rfl⟩

theorem WaitV.n_waitvOf (f : RRR) (e : Env) : (waitvOf f e).n = if f.ty = .n32 then 4 else 8 := rfl

/-- The wave that a `waitv` leaves waiting. -/
theorem waveAt_waitv {s s1 : State} {w x : Nat} {v : Wave} {u : Sub} {i : Instr} (q : WaitV) (hv : waveAt s1 w = some v) (hu : tblFind v.subs x = some u) :
    ∃ v' q', waveAt (retire s w x v u i (modWave s1 w (fun v => (v.queue x []).modSub x (fun u => { u with hold := .waitv q }))) { go := .kept, waits := true }) w = some v'
      ∧ v'.holdOf x = .waitv q' ∧ q'.addr = q.addr ∧ v'.s = v.s ∧ (tblFind v'.subs x).map (·.pc) = some u.pc := by
  obtain ⟨n, g, hg, hw⟩ := waveAt_retire_noted (s := s) (x := x) (v := v) (u := u) (i := i) (e := { go := .kept, waits := true }) (waveAt_modWave_of hv (fun v => (v.queue x []).modSub x (fun u => { u with hold := .waitv q }))) rfl
  obtain ⟨wd, as, hc⟩ := Wave.completed_plain ((v.queue x []).modSub x (fun u => { u with hold := .waitv q })) x (u.pc + BitVec.ofNat 64 (instrLen i)) (e := { go := .kept, waits := true }) rfl rfl
  obtain ⟨q', hq, haddr⟩ := hg.waitv q
  rw [hc] at hw
  refine ⟨_, q', hw, ?_, haddr, rfl, ?_⟩
  · rw [Wave.holdOf, Wave.noted_sub]
    simp [Wave.modSub, Wave.queue, tblFind_mod_self, hu, hq]
  · rw [Wave.noted_sub]
    simp [Wave.modSub, Wave.queue, tblFind_mod_self, hu]

/-- Settles O39: `pin` by the row of its table, the others by their bodies. -/
theorem pinAndWaitForms : Obligations.PinAndWaitForms := by
  unfold Obligations.PinAndWaitForms
  refine ⟨fun f s w x v u => ?_, fun f s w x v u acc hi => ?_⟩
  · refine ⟨?_, ?_, ?_⟩
    · rintro b pa ⟨hi, hb, hc⟩ line t0 give
      have hbody : bodyPin f (issueEnv s w x v u (.pin f)) s = .done (pinApply t0 v.ctx b.attr.part line) { wr := (issueEnv s w x v u (.pin f)).wrS f.d (BitVec.ofNat 64 (pinCode s v.ctx b.attr.part line)) } :=
        pinForm_of_dev rfl hb rfl hc
      have hgive : ∀ c, pinCode s v.ctx b.attr.part line = c → ∀ t, pinApply t0 v.ctx b.attr.part line = t → give (BitVec.ofNat 64 c) t := by
        rintro c rfl t rfl
        exact issue_done (body := bodyPin f) hi hbody nofun
      have hcode : pinCode t0 v.ctx b.attr.part line = pinCode s v.ctx b.attr.part line := rfl
      have hrefuse : ∀ c, c ≠ 0 → pinCode s v.ctx b.attr.part line = c → give (BitVec.ofNat 64 c) t0 := fun c hz hcc => hgive c hcc t0 (pinApply_of_refused (by rw [hcode, hcc]; exact hz))
      refine ⟨fun r hr hctx => ?_, fun r hr hctx => ?_, fun hn hq => ?_, fun hn hq hw => ?_, fun hn hq h12 hw => ?_⟩
      · exact hgive 0 (by rw [pinCode_of_pinned hr, if_pos hctx]) t0 (pinApply_of_pinned (s := t0) hr)
      · exact hrefuse 3 (by decide) (by rw [pinCode_of_pinned hr, if_neg hctx])
      · exact hrefuse 2 (by decide) (pinCode_of_quota hn hq)
      · exact hrefuse 1 (by decide) (pinCode_of_full hn hq hw)
      · have h0 := pinCode_of_room hn hq h12 hw
        obtain ⟨hlt, hfree⟩ := mem_pinWays (pinWay_mem hw)
        have happ : pinApply t0 v.ctx b.attr.part line = { t0 with pins := tblPut t0.pins line { ctx := v.ctx, part := b.attr.part, way := pinWay s b.attr.part line } } := pinApply_of_new (s := t0) hn h0
        exact ⟨_, _, hgive 0 h0 _ happ, tblFind_put_self _ _ _, hlt, hfree, rfl, rfl, rfl⟩
    · rintro b pa ⟨hi, hb, hc⟩ line t0
      have hbody : bodyUnpin f (issueEnv s w x v u (.unpin f)) s = if pinnedBy s v.ctx line then .done { t0 with pins := tblErase t0.pins line } { wr := (issueEnv s w x v u (.unpin f)).wrS f.d 0 } else .done t0 { wr := (issueEnv s w x v u (.unpin f)).wrS f.d 1 } :=
        pinForm_of_dev rfl hb rfl hc
      refine ⟨?_, fun hn => ?_⟩
      · rintro ⟨r, hr, hctx⟩
        rw [if_pos (by simp [pinnedBy, hr, hctx])] at hbody
        exact issue_done (body := bodyUnpin f) hi hbody nofun
      · have hp : pinnedBy s v.ctx line = false := by
          unfold pinnedBy
          split
          · next r hr => exact decide_eq_false (hn r hr)
          · rfl
        rw [hp] at hbody
        exact issue_done (body := bodyUnpin f) hi hbody nofun
    · intro hi
      obtain ⟨t, ht, hw, hm, hl, hp, hc⟩ := bodyPrefetch_done f (issueEnv s w x v u (.prefetch f)) s
      exact ⟨t, issue_done (body := bodyPrefetch f) hi ht nofun, hw, hm, hl, hp, hc⟩
  · intro e q n s0 val
    refine ⟨fun hal => ?_, fun hal ha hh hr => ?_⟩
    · exact issue_illegal (body := bodyWaitv f) hi (by rw [bodyWaitv]; exact if_pos hal)
    · have hbody := bodyWaitv_ready (f := f) (e := e) (s := s) (t := s0) hal ha hh rfl hr (waves_served e s q.flat [q.req]).2.2
      have hends := waitvOf_ends f e val
      refine ⟨fun hv => ?_, fun hv hd => ?_⟩
      · rw [if_pos (hends.2 hv)] at hbody
        exact ⟨_, issue_done (body := bodyWaitv f) hi hbody nofun⟩
      · rw [if_neg (mt hends.1 hv), waitvSeen_leaves (by rw [(waves_served e s q.flat [q.req]).2.1]; exact hd)] at hbody
        have hw : waveAt (acqDrop s0 e.core acc) w = some v := by
          rw [waveAt, waves_acqDrop, (waves_served e s q.flat [q.req]).1]
          exact hi.wave
        obtain ⟨v', q', hwave, hhold, haddr, hs, hpc⟩ := waveAt_waitv (s := s) (i := .waitv f) (waitvBegun f e s0 acc) hw hi.sub
        exact ⟨_, v', q', issue_done (body := bodyWaitv f) hi hbody nofun, hwave, hhold, haddr, hs, hpc⟩

end Sys2Proof.Machine
end

section
/-! PROOFS. `fset` and the matrix forms at their issue (R75, R319, R326 to R332, R335). -/

namespace Sys2Proof.Machine

/-! The gate before every matrix instruction. -/

/-- A matrix instruction of the sub-wave is ready: no other thread holds the claim, and the section's queue has room. -/
def MxRoom (e : Env) (s : State) : Prop := claimed s e.core e.w = false ∧ mxQueue s e.core e.v.sect < 64

section
variable {e : Env} {s : State} {r : Res}

theorem mxGate_of_noMtx (hm : e.v.kernel.mtx = false) : mxGate e s r = .trap s (e.modeTrap 10) := by simp [mxGate, hm]

theorem mxGate_of_busy (he : e.slot = none) (hm : e.v.kernel.mtx = true) (hr : ¬ MxRoom e s) : mxGate e s r = .hold s := by
  have hh : mxHeld e s = true := by
    simp only [mxHeld, he, Option.isNone_none, Bool.true_and, Bool.or_eq_true, decide_eq_true_eq]
    by_cases hc : claimed s e.core e.w = true
    · exact .inl hc
    · exact .inr (by simpa [MxRoom, hc] using hr)
  simp [mxGate, hm, hh]

theorem mxGate_of_room (hm : e.v.kernel.mtx = true) (hr : MxRoom e s) : mxGate e s r = r := by
  have hh : mxHeld e s = false := by
    obtain ⟨hc, hq⟩ := hr
    simp only [mxHeld, hc, Bool.false_or, Bool.and_eq_false_iff, decide_eq_false_iff_not]
    exact .inr (by omega)
  simp [mxGate, hm, hh]

end

theorem mxForm_of_simt {e : Env} (he : e.slot = none) (s : State) (f : EN) (m : MxOp) : mxForm e s f m = .done (mxRank (engIssue e s f (.mx m)) e.core e.v.work m) {} := by
  simp only [mxForm, he]
  rfl

/-- Only a `jld` gives its buffer a rank. -/
theorem mxRank_of_ne {m : MxOp} (s : State) (core work : Nat) (h : m.k ≠ 5) : mxRank s core work m = s := if_neg h

/-! The checks of the addresses. -/

theorem firstFail_of_reached {s : State} {v : Wave} {l : List (Nat × Nat)} (h : ∀ y ∈ l, (spadPlaces s v y.1 y.2).isSome = true) : firstFail s v l = none := by
  have : l.find? (fun x => (spadPlaces s v x.1 x.2).isNone) = none := by
    rw [List.find?_eq_none]
    intro y hy
    simpa [Option.isSome_iff_ne_none] using h y hy
  rw [firstFail, this]
  rfl

theorem spanFail_of_reached {s : State} {v : Wave} {l : List (Nat × Nat)} (h : ∀ y ∈ l, (spadPlaces s v y.1 y.2).isSome = true) : spanFail s v l = none := by
  have : l.filter (fun x => (spadPlaces s v x.1 x.2).isNone) = [] := by
    rw [List.filter_eq_nil_iff]
    intro y hy
    simpa [Option.isSome_iff_ne_none] using h y hy
  rw [spanFail, this]
  rfl

/-- Every address of a load is reached: canonical in the flat space, within the wave's windows in scratchpad. -/
def LoadReached (e : Env) (s : State) (m : MxOp) (n : Nat) (l : List Nat) : Prop :=
  if m.ctl.testBit 2 then ∀ a ∈ l, canonical a = true ∧ canonical ((a + n - 1) % 2 ^ 64) = true else ∀ y ∈ l.map (fun a => (a, n)), (spadPlaces s e.v y.1 y.2).isSome = true

theorem loadCheck_of_reached {e : Env} {s : State} {m : MxOp} {n : Nat} {l : List Nat} (h : LoadReached e s m n l) : loadCheck e s m n l = none := by
  unfold LoadReached at h
  unfold loadCheck bitAt
  split at h
  · next hb =>
    have : l.find? (fun a => !(canonical a && canonical ((a + n - 1) % 2 ^ 64))) = none := by
      rw [List.find?_eq_none]
      intro a ha
      obtain ⟨h1, h2⟩ := h a ha
      rw [h1, h2]
      decide
    rw [if_pos hb, this]
    rfl
  · next hb =>
    rw [if_neg hb, firstFail_of_reached h]
    rfl

/-! The forms. -/

/-- The six forms that use the matrix engine stand behind its gate. -/
theorem exists_mxGate {f : EN} {i : Instr} (h : i ∈ ([.mbld f, .mma f, .mclr f, .mst f, .mlat f, .jld f] : List Instr)) : ∃ body r : Env → State → Res, (∀ s, exec i s = issue i body s) ∧ ∀ e s, body e s = mxGate e s (r e s) := by
  simp only [List.mem_cons, List.not_mem_nil, or_false] at h
  rcases h with rfl | rfl | rfl | rfl | rfl | rfl
  · exact ⟨bodyMbld f, _, fun _ => rfl, fun _ _ => rfl⟩
  · exact ⟨bodyMma f, _, fun _ => rfl, fun _ _ => rfl⟩
  · exact ⟨bodyMclr f, _, fun _ => rfl, fun _ _ => rfl⟩
  · exact ⟨bodyMst f, _, fun _ => rfl, fun _ _ => rfl⟩
  · exact ⟨bodyMlat f, _, fun _ => rfl, fun _ _ => rfl⟩
  · exact ⟨bodyJld f, _, fun _ => rfl, fun _ _ => rfl⟩

section
variable {f : EN} {e : Env} {s : State} (hm : e.v.kernel.mtx = true) (hr : MxRoom e s)
include hm hr

theorem bodyMclr_done : bodyMclr f e s = mxForm e s f { k := 2, ctl := f.a } := by
  rw [bodyMclr, mxGate_of_room hm hr]

theorem bodyMbld_done {r : TRec} (ht : e.tensorRec (e.recNo f.b) = some r) (hl : LoadReached e s { k := 0, ctl := f.a, r := r, c := e.rdS f.c } 32 ((List.range 128).map (mbldAddr { k := 0, ctl := f.a, r := r, c := e.rdS f.c }))) :
    bodyMbld f e s = mxForm e s f { k := 0, ctl := f.a, r := r, c := e.rdS f.c } := by
  rw [bodyMbld, mxGate_of_room hm hr]
  simp only [ht, loadCheck_of_reached hl]

theorem bodyJld_done {r : TRec} (ht : e.tensorRec (e.recNo f.b) = some r) (hk : ¬ ((e.rdS f.c).toNat < 16 ∨ 512 < (e.rdS f.c).toNat ∨ (e.rdS f.c).toNat % 16 ≠ 0))
    (hl : LoadReached e s { k := 5, ctl := f.a, r := r, c := e.rdS f.c, rank := (e.rdS f.c).toNat, f16 := f.a.testBit 3 } 256 ((List.range (e.rdS f.c).toNat).map (jldAddr { k := 5, ctl := f.a, r := r, c := e.rdS f.c, rank := (e.rdS f.c).toNat, f16 := f.a.testBit 3 }))) :
    bodyJld f e s = mxForm e s f { k := 5, ctl := f.a, r := r, c := e.rdS f.c, rank := (e.rdS f.c).toNat, f16 := f.a.testBit 3 } := by
  rw [bodyJld, mxGate_of_room hm hr]
  simp only [ht, if_neg hk, bitAt, loadCheck_of_reached hl]

theorem bodyJld_illegal (hk : (e.rdS f.c).toNat < 16 ∨ 512 < (e.rdS f.c).toNat ∨ (e.rdS f.c).toNat % 16 ≠ 0) : bodyJld f e s = .trap s (e.illegal 10) := by
  rw [bodyJld, mxGate_of_room hm hr]
  dsimp only
  split
  · rfl
  · rw [if_pos hk]

theorem bodyMst_done {r : TRec} {ty : Ty} (ht : e.tensorRec (e.recNo f.b) = some r) (hty : mstTy (e.rdS f.c).toNat (e.fmtReg (bits (e.rdS f.c).toNat 4 3)) = some ty)
    (hl : ∀ y ∈ mstSpans { k := 3, ctl := f.a, r := r, c := e.rdS f.c, fa := e.fmtReg (bits (e.rdS f.c).toNat 4 3) } (mstWidth ty (nfmtOf (e.fmtReg (bits (e.rdS f.c).toNat 4 3)))), (spadPlaces s e.v y.1 y.2).isSome = true) :
    bodyMst f e s = mxForm e s f { k := 3, ctl := f.a, r := r, c := e.rdS f.c, fa := e.fmtReg (bits (e.rdS f.c).toNat 4 3) } := by
  rw [bodyMst, mxGate_of_room hm hr]
  simp only [ht, hty, firstFail_of_reached hl]

theorem bodyMlat_of_rec {r : TRec} (ht : e.tensorRec (e.recNo f.b) = some r) {b : Nat × Bool} (hb : b = mxRankOf s e.core e.v.work (fun k => e.free k) (bits f.a 2 2)) {m : MxOp}
    (h : m = { k := 4, ctl := f.a, r := r, c := e.rdS f.c, fa := e.fmtReg (bits (e.rdS f.c).toNat 9 3), rank := b.1, f16 := b.2 }) :
    (mlatOk f.a (e.rdS f.c).toNat b.1 m.fa = false → bodyMlat f e s = .trap s (e.illegal 10))
      ∧ (mlatOk f.a (e.rdS f.c).toNat b.1 m.fa = true → (∀ y ∈ mlatSpans m, (spadPlaces s e.v y.1 y.2).isSome = true) → bodyMlat f e s = mxForm e s f m) := by
  subst hb h
  rw [bodyMlat, mxGate_of_room hm hr]
  simp only [ht]
  refine ⟨fun hk => ?_, fun hk hs => ?_⟩
  · rw [hk]
    rfl
  · rw [hk, firstFail_of_reached hs]
    rfl

theorem bodyMma_of_rec {r : TRec} (ht : (if bits f.a 6 2 = 0 then e.tensorRec (e.recNo f.b) else some { spbase := if bits f.a 6 2 = 2 then f.b else 0 }) = some r) {b : FmtBlock} (hb : b = fmtBlock (e.rdS f.c).toNat) {m : MxOp}
    (h : m = { k := 1, ctl := f.a, r := r, c := e.rdS f.c, fa := e.fmtReg b.afmt, fb := e.fmtReg b.bfmt, reg := if bits f.a 6 2 = 1 then (List.range 64).map (regRow e f.b) else [] }) :
    (blockOk b m.fa m.fb (bits f.a 6 2) = false → bodyMma f e s = .trap s (e.illegal 10))
      ∧ (blockOk b m.fa m.fb (bits f.a 6 2) = true → (∀ y ∈ mmaSpans m, (spadPlaces s e.v y.1 y.2).isSome = true) → bodyMma f e s = mxForm e s f m) := by
  subst hb h
  rw [bodyMma, mxGate_of_room hm hr]
  simp only [ht]
  refine ⟨fun hk => ?_, fun hk hs => ?_⟩
  · rw [hk]
    rfl
  · rw [hk, spanFail_of_reached hs]
    rfl

theorem bodyMx_noRec (ht : e.tensorRec (e.recNo f.b) = none) : bodyMbld f e s = .trap s (e.illegal 10) ∧ bodyMst f e s = .trap s (e.illegal 10) ∧ bodyMlat f e s = .trap s (e.illegal 10) ∧ bodyJld f e s = .trap s (e.illegal 10) := by
  refine ⟨?_, ?_, ?_, ?_⟩
  · rw [bodyMbld, mxGate_of_room hm hr, ht]
  · rw [bodyMst, mxGate_of_room hm hr, ht]
  · rw [bodyMlat, mxGate_of_room hm hr, ht]
  · rw [bodyJld, mxGate_of_room hm hr, ht]

end

/-- A form that comes to the issue of one matrix instruction completes over the state it leaves. -/
theorem yieldsIf_of_mxForm {f : EN} {i : Instr} {body : Env → State → Res} {c : Env → State → Prop} {m : Env → MxOp} (hx : ∀ s, exec i s = issue i body s)
    (hb : ∀ e s, e.slot = none → e.v.kernel.mtx = true → c e s → MxRoom e s → body e s = mxForm e s f (m e)) :
    YieldsIf i (fun e s => e.v.kernel.mtx = true ∧ c e s ∧ MxRoom e s) (fun e s => mxRank (engIssue e s f (.mx (m e))) e.core e.v.work (m e)) (fun _ _ => {}) := by
  refine yieldsIf_of_body hx (fun _ _ _ _ h => Go.noConfusion h) fun s w x v u _ hc => ?_
  obtain ⟨hm, hc, hr⟩ := hc
  exact (hb _ s rfl hm hc hr).trans (mxForm_of_simt rfl s f _)

/-- Settles O44, form by form, each behind the gate of the matrix engine. -/
theorem matrixForms : Obligations.MatrixForms := by
  unfold Obligations.MatrixForms
  intro f ill rec_ room goes reach loads mb mj ms
  have hsome : ∀ e : Env, (e.tensorRec (e.recNo f.b)).isSome = true → e.tensorRec (e.recNo f.b) = some (rec_ e) := fun e h => by
    obtain ⟨r, hr⟩ := Option.isSome_iff_exists.1 h
    rw [hr, show rec_ e = r by simp [rec_, hr]]
  refine ⟨?_, ?_, fun i hi => ⟨?_, ?_⟩, fun i hi => ?_, ?_, ?_, ?_, ?_, fun ty => ?_, fun s w x v u r hi => ?_, fun s w x v u r hi => ?_⟩
  · refine yieldsIf_of_body (body := bodyFset f) (fun _ => rfl) (fun _ _ _ _ h => Go.noConfusion h) fun s w x v u _ hc => ?_
    rw [bodyFset, if_neg (by omega)]
  · refine trapsIf_of_body (body := bodyFset f) (fun _ => rfl) fun s w x v u _ hc => ?_
    rw [bodyFset, if_pos hc]
    rfl
  · obtain ⟨body, r, hx, hb⟩ := exists_mxGate hi
    exact trapsIf_of_body hx fun s w x v u _ hc => (hb _ s).trans (mxGate_of_noMtx hc)
  · obtain ⟨body, r, hx, hb⟩ := exists_mxGate hi
    exact waitsIf_of_body hx fun s w x v u _ hc => (hb _ s).trans (mxGate_of_busy rfl hc.1 hc.2)
  · simp only [List.mem_cons, List.not_mem_nil, or_false] at hi
    rcases hi with rfl | rfl | rfl | rfl
    · exact trapsIf_of_body (body := bodyMbld f) (fun _ => rfl) fun s w x v u _ hc => (bodyMx_noRec hc.1 hc.2.1 hc.2.2).1
    · exact trapsIf_of_body (body := bodyMst f) (fun _ => rfl) fun s w x v u _ hc => (bodyMx_noRec hc.1 hc.2.1 hc.2.2).2.1
    · exact trapsIf_of_body (body := bodyMlat f) (fun _ => rfl) fun s w x v u _ hc => (bodyMx_noRec hc.1 hc.2.1 hc.2.2).2.2.1
    · exact trapsIf_of_body (body := bodyJld f) (fun _ => rfl) fun s w x v u _ hc => (bodyMx_noRec hc.1 hc.2.1 hc.2.2).2.2.2
  · exact yieldsIf_of_mxForm (body := bodyMclr f) (fun _ => rfl) fun e s _ hm _ hr => bodyMclr_done hm hr
  · exact yieldsIf_of_mxForm (body := bodyMbld f) (fun _ => rfl) fun e s _ hm hc hr => bodyMbld_done hm hr (hsome e hc.1) hc.2
  · refine yieldsIf_of_mxForm (body := bodyJld f) (fun _ => rfl) fun e s _ hm hc hr => ?_
    obtain ⟨h1, h2, h3, h4, h5⟩ := hc
    exact bodyJld_done hm hr (hsome e h1) (by simp only [mj] at h2 h3 h4; omega) h5
  · exact trapsIf_of_body (body := bodyJld f) (fun _ => rfl) fun s w x v u _ hc => bodyJld_illegal hc.1 hc.2.1 hc.2.2
  · refine yieldsIf_of_mxForm (body := bodyMst f) (fun _ => rfl) fun e s _ hm hc hr => ?_
    obtain ⟨h1, h2, h3⟩ := hc
    exact bodyMst_done hm hr (hsome e h1) h2 h3
  · intro e b m hm hr ht
    obtain ⟨hbad, hok⟩ := bodyMlat_of_rec (e := e) (s := s) hm hr ht (b := b) rfl (m := m) rfl
    refine ⟨fun hk => issue_illegal (body := bodyMlat f) hi (hbad hk), fun hk hs => ?_⟩
    exact issue_done (body := bodyMlat f) hi ((hok hk hs).trans (mxForm_of_simt rfl s f m)) nofun
  · intro e src b m hm hr ht
    have ht' : (if bits f.a 6 2 = 0 then e.tensorRec (e.recNo f.b) else some { spbase := if bits f.a 6 2 = 2 then f.b else 0 }) = some r := by
      split
      · next h => exact (if_pos h).mp ht
      · next h => rw [(if_neg h).mp ht]
    obtain ⟨hbad, hok⟩ := bodyMma_of_rec (e := e) (s := s) hm hr ht' (b := b) rfl (m := m) rfl
    refine ⟨fun hk => issue_illegal (body := bodyMma f) hi (hbad hk), fun hk hs => ?_⟩
    exact issue_done (body := bodyMma f) hi ((hok hk hs).trans (mxForm_of_simt rfl s f m)) nofun

end Sys2Proof.Machine
end

section
/-! PROOFS. The census, range, port, card, collective and remap forms (R270, R271, R349, R350, R356 to R359, R377, R378, R380, R446, R452). -/

namespace Sys2Proof.Machine

/-! What completion leaves of a core's census slots. -/

theorem slots_modCore {s : State} {q : Nat} {f : Core → Core} (h : (f (coreAt s q)).slots = (coreAt s q).slots) (p : Nat) : (coreAt (modCore s q f) p).slots = (coreAt s p).slots := by
  by_cases hp : p = q
  · subst hp
    rw [coreAt_modCore_self, h]
  · rw [coreAt_modCore_ne s _ hp]

theorem slots_takePops (v : Wave) (l : List Nat) (s : State) (p : Nat) : (coreAt (takePops s v l) p).slots = (coreAt s p).slots := by
  induction l generalizing s with
  | nil => rfl
  | cons q r ih =>
    rw [takePops, ih]
    apply slots_modCore
    rfl

theorem slots_takePushes (v : Wave) (l : List Nat) (s : State) (p : Nat) : (coreAt (takePushes s v l) p).slots = (coreAt s p).slots := by
  induction l generalizing s with
  | nil => rfl
  | cons q r ih =>
    rw [takePushes, ih]
    apply slots_modCore
    rfl

/-- An instruction that writes no result leaves the census slots. -/
theorem slots_complete {s : State} {e : Env} {pops pushes : List Nat} {f : Eff} (hw : f.wr = []) (p : Nat) : (coreAt (complete s e pops pushes f) p).slots = (coreAt s p).slots := by
  have h1 : (coreAt (landAll (takePushes (if f.waits then s else takePops s e.v pops) e.v pushes) e.w f.wr) p).slots = (coreAt s p).slots := by
    rw [hw]
    refine (slots_takePushes e.v pushes _ p).trans ?_
    split
    · rfl
    · exact slots_takePops e.v pops s p
  have h2 : ∀ t : State, (coreAt (modSect t e.core e.v.sect (fun k => { k with last := some (e.w, f.last.getD e.x), issuedAt := some s.clock })) p).slots = (coreAt t p).slots := fun t => by
    unfold modSect
    apply slots_modCore
    rfl
  have h3 : ∀ t : State, (coreAt (dropL1 t e.core) p).slots = (coreAt t p).slots := fun t => by
    unfold dropL1
    apply slots_modCore
    rfl
  unfold complete
  dsimp only
  split
  · exact (h2 _).trans h1
  · exact (h3 _).trans ((h2 _).trans h1)

/-- An instruction that records no replay and writes no result leaves the wave it changed beforehand as completion leaves it. -/
theorem exec_done_over {s s1 : State} {i : Instr} {w x : Nat} {v v1 : Wave} {u : Sub} {body : Env → State → Res} {e : Eff} (hx : ∀ s, exec i s = issue i body s) (hi : Issuing s i w x v u)
    (hb : body (issueEnv s w x v u i) s = .done s1 e) (hv1 : waveAt s1 w = some v1) (hl : v1.wdlimit = v.wdlimit) (hgo : e.go = .seq ∨ e.go = .kept) (hs : syncOp i = false) (hw : e.wr = []) (ha : e.accs = []) :
    ∃ t wd as, exec i s = .next t ∧ t = retire s w x v u i s1 e
      ∧ waveAt t w = some { v1 with flags := v1.flags ||| e.flags, retired := v1.retired + 1, subs := tblMod v1.subs x (fun u' => { u' with pc := if e.go = .kept then u'.pc else goPc e.go (u.pc + BitVec.ofNat 64 (instrLen i)), aged := 0 }), wd := wd, async := as } := by
  have hbr : ∀ t, e.go = .br t → brOut t = false := fun t ht => by rcases hgo with h | h <;> rw [h] at ht <;> cases ht
  obtain ⟨wd, as, hc⟩ := Wave.completed_plain v1 x (u.pc + BitVec.ofNat 64 (instrLen i)) hw ha
  exact ⟨_, wd, as, (hx s).trans (issue_done hi hb hbr), rfl, by rw [waveAt_retire_over hv1 hl hs, hc]⟩

/-! `solicit`, `answer` and `cwait`. -/

theorem any_open_iff (o : Option CSlot) : (o.any (fun c => !c.done)) = true ↔ ∃ c, o = some c ∧ c.done = false := by
  cases o <;> simp

/-- The census a `solicit` leaves behind. -/
def solicited (f : EN) (e : Env) (s : State) : Census :=
  { so := { ctx := e.v.ctx, core := e.v.core, scope := bits f.c 4 2, key := e.rdS f.b, mask := e.rdS (f.b + 1), arg := e.rdS (f.b + 2), hdr := e.rdS (f.b + 3) }, slot := f.a, comb := bits f.c 0 4, opener := some e.w, mark := e.v.nextAcc, issue := e.now, prior := slotOf s e.core e.v.ctx f.a, gated := inRegion e }

/-- What refuses a `solicit`. -/
def SolicitBad (f : EN) (e : Env) (s : State) : Prop :=
  (e.rdS (f.b + 3)).toNat % 8 ≠ 0 ∨ canonical (e.rdS (f.b + 3)).toNat = false ∨ (∃ c, slotOf s e.core e.v.ctx f.a = some c ∧ c.done = false) ∨ (bits f.c 4 2 = 3 ∧ (ctxAt s e.v.ctx).t.inDomain = false)

theorem bodySolicit_illegal {f : EN} {e : Env} {s : State} (hb : SolicitBad f e s) : bodySolicit f e s = .trap s (e.illegal 10) := by
  unfold SolicitBad at hb
  rw [← any_open_iff] at hb
  simp only [bodySolicit, if_pos hb]

theorem bodySolicit_done {f : EN} {e : Env} {s : State} (hf : e.v.failed = []) (hb : ¬ SolicitBad f e s) :
    bodySolicit f e s = .done (openSlot { s with censuses := s.censuses ++ [solicited f e s] } e.core e.v.ctx f.a { cohort := e.v.cohort, scope := bits f.c 4 2, wave := some e.w }) {} := by
  unfold SolicitBad at hb
  rw [← any_open_iff] at hb
  simp only [bodySolicit, if_neg hb, failedTrap, hf]
  rfl

theorem slotOf_retire_openSlot {s s0 : State} {w x : Nat} {v : Wave} {u : Sub} {i : Instr} (hs : syncOp i = false) (p ctx n : Nat) (c : CSlot) : slotOf (retire s w x v u i (openSlot s0 p ctx n c) {}) p ctx n = some c := by
  have h : (coreAt (complete (openSlot s0 p ctx n c) (issueEnv s w x v u i) (popsOf none i) (pushesOf none i) {}) p).slots = tblPut (coreAt s0 p).slots (16 * ctx + n) c := by
    rw [slots_complete rfl, openSlot, coreAt_modCore_self]
  unfold slotOf retire replayDone
  simp only [hs, Bool.false_eq_true, if_false]
  rw [show (coreAt (finish s _) p).slots = _ from h]
  exact tblFind_put_self _ _ _

theorem bodyAnswer_done {f : EN} {e : Env} (s : State) (hr : e.v.isResponder = true) (hu : e.v.unsplit = true) (hf : e.v.failed = []) :
    bodyAnswer f e s = .done (modWave s e.w (fun v => { v.stopIssue s.clock with answer := some (e.rdS f.a) })) { go := .kept } := by
  simp [bodyAnswer, hr, hu, failedTrap, hf]

theorem bodyAnswer_mode {f : EN} {e : Env} (s : State) (h : e.v.isResponder = false ∨ e.v.unsplit = false) : bodyAnswer f e s = .trap s (e.modeTrap 10) := by
  rcases h with h | h <;> simp [bodyAnswer, h]

/-! `rnext` and `qbind`. -/

theorem bodyRnext_range {f : EN} {e : Env} {s : State} {k n : Nat} {c : Card} {r : Nat × Nat × Nat} (ho : e.v.origin = .card k n) (hk : tblFind s.cards k = some c) (hr : c.range = some r) :
    bodyRnext f e s = .done { s with cards := tblPut s.cards k { c with range := some (nextGrain r).2.2 } } { wr := e.wrS f.a (BitVec.ofNat 64 (nextGrain r).1) ++ e.wrS (f.a + 1) (BitVec.ofNat 64 (nextGrain r).2.1) } := by
  simp only [bodyRnext, ho, hk, hr]

theorem bodyRnext_illegal {f : EN} {e : Env} {s : State} (h : ∀ k n c r, e.v.origin = .card k n → tblFind s.cards k = some c → c.range = some r → False) : bodyRnext f e s = .trap s (e.illegal 10) := by
  unfold bodyRnext
  split
  · next k n ho =>
    split
    · next c hc =>
      split
      · next r hr => exact (h k n c r ho hc hr).elim
      · rfl
    · rfl
  · rfl

theorem waveAt_unbind {s : State} {w : Nat} {v : Wave} (hv : waveAt s w = some v) (q : Nat) :
    ∃ ps, waveAt (unbind s w q) w = some { v with ports := ps } ∧ tblFind ps q = none ∧ ∀ r, r ≠ q → tblFind ps r = tblFind v.ports r := by
  unfold unbind
  rw [hv]
  dsimp only [Option.bind_some]
  split
  · next hn => exact ⟨v.ports, hv, hn, fun _ _ => rfl⟩
  · next b hb =>
    refine ⟨tblErase v.ports q, ?_, tblFind_erase_self _ _, fun r hr => tblFind_erase_ne _ hr⟩
    rw [waveAt, waves_freeChans]
    exact waveAt_modWave_of hv _

/-- What refuses the binding of a port to the channel that `y` names. -/
def BindBad (f : EN) (e : Env) (s : State) : Prop :=
  let y := (e.rdS f.b).toNat
  let p := physCore s (bits y 8 9)
  bits y 3 5 ≠ 0 ∨ bits y 17 47 ≠ 0 ∨ 319 < bits y 8 9 ∨ (∃ c ∈ chanHolders s p (bits y 0 3), c ≠ e.v.ctx) ∨ (f.c = 0 ∧ (p ≠ e.core ∨ chanRead s p (bits y 0 3) e.w = true))

/-- The binding made, and the channel of the old one freed. -/
def bound (f : EN) (e : Env) (s : State) : State :=
  let s1 := modWave s e.w (fun v => { v with ports := tblPut v.ports f.a { core := bits (e.rdS f.b).toNat 8 9, chan := bits (e.rdS f.b).toNat 0 3, write := decide (f.c = 1) } })
  match tblFind e.v.ports f.a with
  | some b => freeChans s1 [(f.a, b)]
  | none => s1

theorem bodyQbind_eq {f : EN} {e : Env} {s : State} (hc : f.c ≠ 2) : (BindBad f e s → bodyQbind f e s = .trap s (e.illegal 10)) ∧ (¬ BindBad f e s → bodyQbind f e s = .done (bound f e s) {}) := by
  have hany : ∀ p ch, ((chanHolders s p ch).any (fun c => decide (c ≠ e.v.ctx)) = true) ↔ ∃ c ∈ chanHolders s p ch, c ≠ e.v.ctx := fun p ch => by simp
  unfold BindBad bodyQbind
  dsimp only
  rw [if_neg hc, ← hany]
  refine ⟨fun hb => ?_, fun hb => ?_⟩
  · rcases hb with h | h | h | h | h
    · rw [if_pos (.inl h)]
    · rw [if_pos (.inr (.inl h))]
    · rw [if_pos (.inr (.inr h))]
    · rw [if_pos h, ite_self]
    · rw [if_pos h, ite_self, ite_self]
  · simp only [not_or] at hb
    obtain ⟨h1, h2, h3, h4, h5⟩ := hb
    rw [if_neg (by simp only [not_or]; exact ⟨h1, h2, h3⟩), if_neg h4, if_neg h5]
    rfl

theorem waveAt_bound {f : EN} {e : Env} {s : State} {v : Wave} (hv : waveAt s e.w = some v) :
    waveAt (bound f e s) e.w = some { v with ports := tblPut v.ports f.a { core := bits (e.rdS f.b).toNat 8 9, chan := bits (e.rdS f.b).toNat 0 3, write := decide (f.c = 1) } } := by
  unfold bound
  dsimp only
  split
  · rw [waveAt, waves_freeChans]
    exact waveAt_modWave_of hv _
  · exact waveAt_modWave_of hv _

/-! The forms of the copy engine and of the dispatcher. -/

theorem bodyPost_of_ok {f : EN} {e : Env} {s : State} {l : List Acc} (he : e.slot = none) (ha : (e.rdS f.b).toNat % 128 = 0) (hf : e.v.failed = []) (hl : checkReqs e s true .load [{ va := (e.rdS f.b).toNat, n := 128, kind := .load [] }] = .ok l) :
    bodyPost f e s = if postReady s e.v e.v.nextAcc e.now then
        match winWait e s (e.rdS f.b).toNat (l.map (·.bytes)).flatten with
        | some r => r
        | none => .done (postDo (postRead e s (e.rdS f.b).toNat (l.map (·.bytes)).flatten).1 e.v.ctx (postRead e s (e.rdS f.b).toNat (l.map (·.bytes)).flatten).2).1
            { wr := e.wrS f.a (BitVec.ofNat 64 (postDo (postRead e s (e.rdS f.b).toNat (l.map (·.bytes)).flatten).1 e.v.ctx (postRead e s (e.rdS f.b).toNat (l.map (·.bytes)).flatten).2).2) }
      else .hold s := by
  simp only [bodyPost, ha, failedTrap, hf, hl, he]
  rfl

/-- The post itself, row by row. -/
theorem postDo_rows (s : State) (ctx : Nat) (img : List Byte) : let kind := leNat img % 256
    (kind ≠ 2 → kind ≠ 3 → postDo s ctx img = (s, 2)) ∧ (kind = 2 ∨ kind = 3 → (ctxAt s ctx).t.postQueue ≤ (ctxAt s ctx).posts.length → postDo s ctx img = (s, 1))
      ∧ (kind = 2 ∨ kind = 3 → (ctxAt s ctx).posts.length < (ctxAt s ctx).t.postQueue → (tblFind s.ctxs ctx).isSome = true → (postDo s ctx img).2 = 0 ∧ (ctxAt (postDo s ctx img).1 ctx).posts = (ctxAt s ctx).posts ++ [(s.order, img)] ∧ (postDo s ctx img).1.order = s.order + 1 ∧ (postDo s ctx img).1.waves = s.waves) := by
  intro kind
  have hk : bits (leNat img) 0 8 = kind := by simp [bits, kind]
  unfold postDo
  rw [hk]
  refine ⟨fun h2 h3 => if_pos ⟨h2, h3⟩, fun h hq => ?_, fun h hq hc => ?_⟩
  · rw [if_neg (by omega), if_pos hq]
  · rw [if_neg (by omega), if_neg (by omega)]
    obtain ⟨c, hc⟩ := Option.isSome_iff_exists.1 hc
    refine ⟨rfl, ?_, rfl, rfl⟩
    simp [ctxAt, modCtx, tblGet, tblFind_mod_self, hc]

/-- The descriptor's access of a `creduce`. -/
def collAcc (e : Env) (l : List Acc) : Acc := { l.headD { kind := .load [] } with issue := e.v.nextAcc, id := e.v.nextAcc }

theorem bodyCreduce_of_ok {f : EN} {e : Env} {s : State} {l : List Acc} (ha : (e.rdS f.a).toNat % 8 = 0) (hl : checkReqs e s true .load [{ va := (e.rdS f.a).toNat, n := 64, kind := .load [] }] = .ok l) :
    bodyCreduce f e s = if !(collReads e s (collAcc e l)) then .hold s
      else match winWait e s (e.rdS f.a).toNat (collAcc e l).bytes with
      | some r => r
      | none =>
        let r := collRead e (served e s true [{ va := (e.rdS f.a).toNat, n := 64 }]) (collAcc e l)
        if collBad (leNat r.2) (collOf (e.rdS f.a) (leNat r.2)) s.net.rank then .trap (winDrop s (.sub e.w e.x)) (e.illegal 10)
        else match engForm e r.1 f (.coll (collOf (e.rdS f.a) (leNat r.2))) with
          | .hold _ | .issued _ => .hold s
          | x => x := by
  simp only [bodyCreduce, ha, hl]
  rfl

theorem bodyCreduce_there {f : EN} {e : Env} {s : State} {l : List Acc} {y : State × List Byte} {at_ : Word} (hat : at_ = e.rdS f.a) (hy : y = collRead e (served e s true [{ va := at_.toNat, n := 64 }]) (collAcc e l)) (ha : at_.toNat % 8 = 0)
    (hl : checkReqs e s true .load [{ va := at_.toNat, n := 64, kind := .load [] }] = .ok l) (hr : collReads e s (collAcc e l) = true) (hw : winWait e s at_.toNat (collAcc e l).bytes = none) :
    bodyCreduce f e s = if collBad (leNat y.2) (collOf at_ (leNat y.2)) s.net.rank then .trap (winDrop s (.sub e.w e.x)) (e.illegal 10)
      else match engForm e y.1 f (.coll (collOf at_ (leNat y.2))) with
        | .hold _ | .issued _ => .hold s
        | x => x := by
  subst hat hy
  rw [bodyCreduce_of_ok ha hl, hr, hw]
  rfl

theorem gateBad_iff (e : Env) (s : State) (g : Nat) : gateBad e s g = true ↔ e.v.isResponder = true ∨ (gateOf s e.v.cohort g).expect = 0 := by simp [gateBad]

/-! `remap`. -/

theorem tblGet_remapSet (t : Tbl Nat) (c p k : Nat) : tblGet k (remapSet t c p) k = if k = c then p else tblGet k t k := by
  unfold remapSet
  by_cases hk : k = c
  · subst hk
    by_cases hp : p = k
    · rw [if_pos hp, if_pos rfl, hp]
      simp [tblGet, tblFind_erase_self]
    · rw [if_neg hp, if_pos rfl, tblGet_put_self]
  · rw [if_neg hk]
    split
    · simp [tblGet, tblFind_erase_ne t hk]
    · rw [tblGet_put_ne _ _ _ hk]

theorem physCore_remapDo (s : State) (co : Nat) (c : Cohort) (a b k : Nat) : physCore (remapDo s co c a b) k = if k = b then physCore s a else if k = a then physCore s b else physCore s k := by
  have h : (remapDo s co c a b).remap = remapSet (remapSet s.remap a (physCore s b)) b (physCore s a) := rfl
  rw [physCore, h, tblGet_remapSet, tblGet_remapSet]
  rfl

/-- The waves of a cohort on a logical core. -/
def cohortOn (s : State) (co a : Nat) : List Wave := (tblVals s.waves).filter (fun y => decide (y.cohort = co) && !y.isResponder && decide (y.core = a))

section
variable {r : RRR} {e : Env} {s : State} {v : Wave} {w a b : Nat} {h : Handler} (hv : v = e.v) (hw : w = e.w) (ha : a = (e.rdS r.a).toNat) (hb : b = (e.rdB r).toNat) (hh : v.handler = some h) (hm : h.migrate = true)
include hv ha hb hh hm

theorem bodyRemap_illegal (hbad : a ≠ v.core ∨ 319 < b ∨ b = a ∨ b / 80 ≠ v.core / 80) : bodyRemap r e s = .trap s (e.illegal 10) := by
  subst hv ha hb
  have hg : (!(e.v.handler.any (·.migrate))) = false := by simp [hh, hm]
  simp only [bodyRemap, hg]
  exact if_pos hbad

include hw

/-- The body of a `remap` of a MIGRATE handler to another core of the die. -/
theorem bodyRemap_within {c : Cohort} (h1 : a = v.core) (h2 : b ≤ 319) (h3 : b ≠ a) (h4 : b / 80 = v.core / 80) (hc : tblFind s.cohorts v.cohort = some c) :
    bodyRemap r e s = if remapBound s c (cohortOn s v.cohort a) then .done s { wr := e.wrS r.d 3 }
      else if !(piecesMoved s v.cohort a b) then .done s { wr := e.wrS r.d 1 }
      else if !(remapFree s v.cohort v.ctx a b) then .done s { wr := e.wrS r.d 2 }
      else if !(s.waves.all (fun x => decide (x.1 = w) || decide (x.2.cohort ≠ v.cohort) || x.2.isResponder || decide (x.2.core ≠ a) || decide (x.2.phase ≠ .simt) || atBoundary s x.2)) then .hold s
      else .done (remapDo s v.cohort c a b) { wr := e.wrS r.d 0 } := by
  subst hv hw ha hb
  have hg : (!(e.v.handler.any (·.migrate))) = false := by simp [hh, hm]
  have hok : ¬ ((e.rdS r.a).toNat ≠ e.v.core ∨ 319 < (e.rdB r).toNat ∨ (e.rdB r).toNat = (e.rdS r.a).toNat ∨ dieOf (e.rdB r).toNat ≠ dieOf e.v.core) := by
    simp only [not_or, Classical.not_not]
    exact ⟨h1, by omega, h3, h4⟩
  simp only [bodyRemap, hg, if_neg hok, hc]
  rfl

end

theorem bodyRemap_mode {r : RRR} {e : Env} (s : State) (h : ∀ y, e.v.handler = some y → y.migrate = false) : bodyRemap r e s = .trap s (e.modeTrap 10) := by
  have hg : (!(e.v.handler.any (·.migrate))) = true := by
    cases hh : e.v.handler with
    | none => rfl
    | some y => simp [h y hh]
  simp only [bodyRemap, hg]
  rfl

/-- Settles O46, form by form. -/
theorem censusAndCardForms : Obligations.CensusAndCardForms := by
  unfold Obligations.CensusAndCardForms
  refine ⟨fun f => ?_, fun f m r => ?_⟩
  · intro ill hdr bad
    refine ⟨?_, fun s w x v u hi => ?_, ?_, fun s w x v u hi hr hu hf => ?_, ?_, fun s w x v u c hi => ?_, fun s w x v u hi => ?_, fun s w x v u hi => ?_⟩
    · exact trapsIf_of_body (body := bodySolicit f) (fun _ => rfl) fun s w x v u _ hc => bodySolicit_illegal hc
    · intro e hb hf
      refine ⟨_, solicited f e s, issue_done (body := bodySolicit f) hi (bodySolicit_done hf hb) nofun, ?_, rfl, rfl, rfl, rfl, rfl, _, slotOf_retire_openSlot rfl _ _ _ _, rfl⟩
      obtain ⟨t, ⟨_, _, _, ht⟩, hr⟩ := retire_eq_finish (s := s) (w := w) (x := x) (v := v) (u := u) (i := .solicit f) (f := {}) (s1 := openSlot { s with censuses := s.censuses ++ [solicited f e s] } e.core v.ctx f.a { cohort := v.cohort, scope := bits f.c 4 2, wave := some w }) rfl
      exact (congrArg State.censuses (hr.trans (by rw [ht]))).trans rfl
    · exact trapsIf_of_body (body := bodyAnswer f) (fun _ => rfl) fun s w x v u _ hc => bodyAnswer_mode s hc
    · obtain ⟨t, wd, as, ht, hre, hw⟩ := exec_done_over (body := bodyAnswer f) (fun _ => rfl) hi (bodyAnswer_done s hr hu hf) (waveAt_modWave_of hi.wave _) rfl (.inr rfl) rfl rfl rfl
      refine ⟨t, _, ht, hw, rfl, rfl, rfl, rfl, rfl, rfl, ?_⟩
      rw [hre]
      exact keeps_retire (keeps_modWave w s _) rfl rfl nofun
    · refine trapsIf_of_body (body := bodyCwait f) (fun _ => rfl) fun s w x v u _ hc => ?_
      simp only [bodyCwait, hc]
      rfl
    · intro e hs
      refine ⟨fun hd => ?_, fun hd => ?_⟩
      · refine issue_done (body := bodyCwait f) hi ?_ nofun
        simp only [bodyCwait, show slotOf s (issueEnv s w x v u (.cwait f)).core (issueEnv s w x v u (.cwait f)).v.ctx f.b = some c from hs, hd]
        rfl
      · have hb : bodyCwait f e s = .hold (modWave s w (fun v => v.modSub x (fun u => { u with hold := .cwait f.b }))) := by
          simp only [bodyCwait, show slotOf s e.core e.v.ctx f.b = some c from hs, hd]
          rfl
        refine ⟨_, _, issue_hold (body := bodyCwait f) hi hb, waveAt_modWave_of hi.wave _, ?_, rfl, rfl, keeps_finish (keeps_modWave w s _) rfl⟩
        simp [Wave.modSub, tblFind_mod_self, hi.sub]
    · intro e
      refine ⟨fun h => issue_illegal (body := bodyRnext f) hi (bodyRnext_illegal h), fun k n lo hi' g c ho hk hr => ?_⟩
      have hb := bodyRnext_range (f := f) (e := e) (s := s) ho hk hr
      intro m
      by_cases hlt : lo < hi'
      · rw [show nextGrain (lo, hi', g) = (lo, m, (lo + m, hi', g)) from if_pos hlt] at hb
        rw [if_pos hlt]
        exact issue_done (body := bodyRnext f) hi hb nofun
      · rw [show nextGrain (lo, hi', g) = (hi', 0, (lo, hi', g)) from if_neg hlt, show ({ c with range := some (lo, hi', g) } : Card) = c by rw [← hr]] at hb
        rw [if_neg hlt]
        exact issue_done (body := bodyRnext f) hi hb nofun
    · intro e y p no
      refine ⟨fun hc hn => issue_illegal (body := bodyQbind f) hi ((bodyQbind_eq hc).1 hn), fun hc hn => ?_, fun hc => ?_⟩
      · obtain ⟨t, wd, as, ht, _, hw⟩ := exec_done_over (body := bodyQbind f) (fun _ => rfl) hi ((bodyQbind_eq hc).2 hn) (waveAt_bound hi.wave) rfl (.inl rfl) rfl rfl rfl
        exact ⟨t, _, ht, hw, tblFind_put_self _ _ _, fun q hq => tblFind_put_ne _ _ hq, rfl, rfl⟩
      · obtain ⟨ps, hv, hn, ho⟩ := waveAt_unbind hi.wave f.a
        obtain ⟨t, wd, as, ht, _, hw⟩ := exec_done_over (body := bodyQbind f) (e := {}) (fun _ => rfl) hi (by rw [bodyQbind, if_pos hc]; rfl) hv rfl (.inl rfl) rfl rfl rfl
        exact ⟨t, _, ht, hw, hn, ho, rfl, rfl⟩
  · intro ill pa
    refine ⟨?_, fun s w x v u l hi => ?_, postDo_rows, ?_, fun s w x v u l hi => ?_, ?_, fun s w x v u hi => ?_, ?_, fun s w x v u h hi => ?_⟩
    · refine trapsIf_of_body (body := bodyPost f) (fun _ => rfl) fun s w x v u _ hc => ?_
      rw [bodyPost, if_pos hc]
      rfl
    · intro e ha hf hl
      have hb := bodyPost_of_ok (f := f) (e := e) (s := s) rfl ha hf hl
      refine ⟨fun hp => ?_, fun s1 hp hw => ?_, fun s1 t hp hw => ?_, fun hp hw => ?_⟩
      · rw [show postReady s e.v e.v.nextAcc e.now = false from hp] at hb
        exact issue_hold (body := bodyPost f) hi hb
      · rw [show postReady s e.v e.v.nextAcc e.now = true from hp, hw] at hb
        exact issue_hold (body := bodyPost f) hi hb
      · rw [show postReady s e.v e.v.nextAcc e.now = true from hp, hw] at hb
        exact issue_trap (body := bodyPost f) hi hb
      · rw [show postReady s e.v e.v.nextAcc e.now = true from hp, hw] at hb
        exact ⟨_, rfl, issue_done (body := bodyPost f) hi hb nofun⟩
    · refine trapsIf_of_body (body := bodyCreduce f) (fun _ => rfl) fun s w x v u _ hc => ?_
      rw [bodyCreduce, if_pos hc]
      rfl
    · intro e at_ a y reads ha hl there
      have hb := bodyCreduce_of_ok (f := f) (e := e) (s := s) ha hl
      have hthere : there = true → collReads e s (collAcc e l) = true ∧ winWait e s at_.toNat (collAcc e l).bytes = none := fun h => by
        simp only [there, reads, Bool.and_eq_true, Option.isNone_iff_eq_none] at h
        exact h
      refine ⟨fun hr => ?_, fun s1 hr hw => ?_, fun s1 t hr hw => ?_, fun ht hc => ?_, fun ht hc hq => ?_, fun ht hc hq => ?_⟩
      · rw [show collReads e s (collAcc e l) = false from hr] at hb
        exact issue_hold (body := bodyCreduce f) hi hb
      · rw [show collReads e s (collAcc e l) = true from hr, show winWait e s (e.rdS f.a).toNat (collAcc e l).bytes = _ from hw] at hb
        exact issue_hold (body := bodyCreduce f) hi hb
      · rw [show collReads e s (collAcc e l) = true from hr, show winWait e s (e.rdS f.a).toNat (collAcc e l).bytes = _ from hw] at hb
        exact issue_trap (body := bodyCreduce f) hi hb
      all_goals
        obtain ⟨hr, hw⟩ := hthere ht
        have hb := bodyCreduce_there (f := f) (y := y) (at_ := at_) rfl rfl ha hl hr hw
        rw [hc] at hb
      · exact issue_trap (body := bodyCreduce f) hi hb
      · rw [engForm_hold rfl (show ¬ sectQueue y.1 e.core e.v.sect < 64 from Nat.not_lt.2 hq)] at hb
        exact issue_hold (body := bodyCreduce f) hi hb
      · rw [engForm_done (show sectQueue y.1 e.core e.v.sect < 64 from hq)] at hb
        exact issue_done (body := bodyCreduce f) hi hb nofun
    · refine trapsIf_of_body (body := bodyVlds m) (fun _ => rfl) fun s w x v u _ hc => ?_
      rw [bodyVlds, if_pos ((gateBad_iff _ _ _).2 hc)]
      rfl
    · intro e hr hx
      have hg : ¬ gateBad e s m.d = true := by
        rw [gateBad_iff]
        rintro (h | h)
        · rw [show e.v.isResponder = false from hr] at h
          cases h
        · exact hx h
      refine ⟨fun l hl => ?_, fun k lane b hl hm => ?_⟩
      · refine issue_done (body := bodyVlds m) hi ?_ nofun
        rw [bodyVlds, if_neg hg, show vldsCheck m (issueEnv s w x v u (.vlds m)) s (maskLanes (issueEnv s w x v u (.vlds m)).mask) = .ok l from hl]
      · refine issue_trap (body := bodyVlds m) hi ?_
        rw [bodyVlds, if_neg hg, show vldsCheck m (issueEnv s w x v u (.vlds m)) s (maskLanes (issueEnv s w x v u (.vlds m)).mask) = .error (k, .mem lane b) from hl]
        exact reqFail_trap fun h => by rw [show (ctxAt s (issueEnv s w x v u (.vlds m)).v.ctx).t.mirrored = false from hm] at h; exact Bool.false_ne_true h.2.2
    · exact trapsIf_of_body (body := bodyRemap r) (fun _ => rfl) fun s w x v u _ hc => bodyRemap_mode s hc
    · intro e a b done hh hm
      have hdone : ∀ s1 k, bodyRemap r e s = .done s1 { wr := e.wrS r.d (BitVec.ofNat 64 k) } → done s1 k := fun s1 k h => issue_done (body := bodyRemap r) hi h nofun
      refine ⟨fun hbad => issue_illegal (body := bodyRemap r) hi (bodyRemap_illegal (v := v) (a := a) (b := b) rfl rfl rfl hh hm hbad), fun h1 h2 h3 h4 c hc => ?_⟩
      have hb := bodyRemap_within (r := r) (e := e) (s := s) (v := v) (w := w) (a := a) (b := b) rfl rfl rfl rfl hh hm h1 h2 h3 h4 hc
      intro here
      rw [show cohortOn s v.cohort a = here from rfl] at hb
      refine ⟨fun hbound => ?_, fun hbound hp => ?_, fun hbound hp hfree => ?_, fun hbound hp hfree hat => ⟨?_, ?_, ?_, fun k hka hkb => ?_⟩⟩
      · rw [hbound] at hb
        exact hdone _ 3 hb
      · rw [hbound, hp] at hb
        exact hdone _ 1 hb
      · rw [hbound, hp, hfree] at hb
        exact hdone _ 2 hb
      · have hall : s.waves.all (fun x => decide (x.1 = w) || decide (x.2.cohort ≠ v.cohort) || x.2.isResponder || decide (x.2.core ≠ a) || decide (x.2.phase ≠ .simt) || atBoundary s x.2) = true := by
          simp only [List.all_eq_true, Bool.or_eq_true, decide_eq_true_eq]
          exact fun y hy => by simpa only [or_assoc] using hat y hy
        rw [hbound, hp, hfree, hall] at hb
        exact hdone _ 0 hb
      · rw [physCore_remapDo, if_neg (Ne.symm h3), if_pos rfl]
      · rw [physCore_remapDo, if_pos rfl]
      · rw [physCore_remapDo, if_neg hkb, if_neg hka]

end Sys2Proof.Machine
end

section
/-! PROOFS. Markers settled and ended waves released: what that leaves of a wave that goes on (R132, R208, R251, R355, R356). -/

namespace Sys2Proof.Machine

/-! A wave that settles, or is released, changes no other wave, and of itself its queue alone. -/

theorem waveAt_settleWave (s : State) (y : Nat) {w : Nat} {v : Wave} (hv : waveAt s w = some v) : ∃ as, waveAt (settleWave s y) w = some { v with accs := as } := by
  unfold settleWave
  split
  · exact ⟨v.accs, hv⟩
  · next a ha =>
    split
    · exact ⟨v.accs, hv⟩
    · have h : ∃ as, waveAt (modWave s y (fun u => { u with accs := (settleAccs s (dieOf a.core) a [] a.accs).1 })) w = some { v with accs := as } := by
        by_cases hy : w = y
        · subst hy
          exact ⟨_, waveAt_modWave_of hv _⟩
        · exact ⟨v.accs, (waveAt_modWave_ne s _ hy).trans hv⟩
      dsimp only
      split <;> exact h

theorem clock_settleWave (s : State) (y : Nat) : (settleWave s y).clock = s.clock := by
  unfold settleWave
  split
  · rfl
  · split
    · rfl
    · dsimp only
      split <;> rfl

theorem waves_answerMatch (s : State) (m : Match) (v : Wave) : (answerMatch s m v).waves = s.waves := by
  unfold answerMatch
  split <;> rfl

theorem clock_answerMatch (s : State) (m : Match) (v : Wave) : (answerMatch s m v).clock = s.clock := by
  unfold answerMatch
  split <;> rfl

theorem answerMatches_leaves (v : Wave) (l : List Match) (s : State) : (l.foldl (fun t m => answerMatch t m v) s).waves = s.waves ∧ (l.foldl (fun t m => answerMatch t m v) s).clock = s.clock := by
  induction l generalizing s with
  | nil => exact ⟨rfl, rfl⟩
  | cons m r ih =>
    rw [List.foldl_cons, (ih _).1, (ih _).2, waves_answerMatch, clock_answerMatch]
    exact ⟨rfl, rfl⟩

theorem waveAt_releaseResponder (s : State) {y : Nat} (a : Wave) {w : Nat} (h : w ≠ y) : waveAt (releaseResponder s y a) w = waveAt s w := tblFind_erase_ne _ h

theorem clock_releaseResponder (s : State) (y : Nat) (a : Wave) : (releaseResponder s y a).clock = s.clock := (answerMatches_leaves a _ s).2

theorem waveAt_answerRelease (s : State) {y : Nat} (a : Wave) {w : Nat} (h : w ≠ y) : waveAt (answerRelease s y a) w = waveAt s w := by
  unfold answerRelease
  dsimp only
  split
  · exact waveAt_releaseResponder s a h
  · exact waveAt_modWave_ne s _ h
  · split
    · exact waveAt_releaseResponder s a h
    · rfl

theorem clock_answerRelease (s : State) (y : Nat) (a : Wave) : (answerRelease s y a).clock = s.clock := by
  unfold answerRelease
  dsimp only
  split
  · exact clock_releaseResponder s y a
  · rfl
  · split
    · exact clock_releaseResponder s y a
    · rfl

theorem clock_freeChans (l : List (Nat × PortBind)) (s : State) : (freeChans s l).clock = s.clock := by
  induction l generalizing s with
  | nil => rfl
  | cons b r ih =>
    rw [freeChans, ih]
    split <;> rfl

theorem clock_placeFreed (s : State) (core k regs : Nat) : (placeFreed s core k regs).clock = s.clock := by
  unfold placeFreed
  split
  · split <;> rfl
  · rfl

theorem clock_cohortEnd (s : State) (co : Nat) (c : Cohort) : (cohortEnd s co c).clock = s.clock := by
  unfold cohortEnd
  dsimp only
  split
  · unfold cardEnd
    split <;> rfl
  · rfl

theorem waveAt_releaseWave_ne (s : State) {y w : Nat} (h : w ≠ y) : waveAt (releaseWave s y) w = waveAt s w := by
  unfold releaseWave
  split
  · rfl
  · next v hv =>
    have hkept : tblFind (freeChans { s with waves := tblErase s.waves y } v.ports).waves w = waveAt s w := by
      rw [waves_freeChans]
      exact tblFind_erase_ne _ h
    dsimp only
    split
    · exact hkept
    · unfold waveAt at hkept ⊢
      rw [waves_placeFreed]
      split
      · rw [waves_cohortEnd, hkept]
      · exact hkept

theorem clock_releaseWave (s : State) (y : Nat) : (releaseWave s y).clock = s.clock := by
  unfold releaseWave
  split
  · rfl
  · dsimp only
    split
    · exact clock_freeChans _ _
    · rw [clock_placeFreed]
      split
      · rw [clock_cohortEnd, clock_freeChans]
      · exact clock_freeChans _ _

theorem clock_reapWave (s : State) (y : Nat) : (reapWave s y).clock = s.clock := by
  unfold reapWave
  split
  · rfl
  · split
    · split
      · exact clock_answerRelease s y _
      · exact clock_releaseWave s y
    · rfl

theorem waveAt_reapWave_ne (s : State) {y w : Nat} (h : w ≠ y) : waveAt (reapWave s y) w = waveAt s w := by
  unfold reapWave
  split
  · rfl
  · split
    · split
      · exact waveAt_answerRelease s _ h
      · exact waveAt_releaseWave_ne s h
    · rfl

/-- A wave that has not ended before this cycle keeps its place. -/
theorem waveAt_reapWave_live {s : State} {w : Nat} {v : Wave} (hv : waveAt s w = some v) (hl : v.ended = false ∨ s.clock ≤ v.endedAt) (y : Nat) : waveAt (reapWave s y) w = some v := by
  by_cases hy : w = y
  · subst hy
    have hc : (v.ended && decide (v.endedAt < s.clock)) = false := by
      rcases hl with h | h
      · rw [h, Bool.false_and]
      · rw [decide_eq_false (by omega), Bool.and_false]
    unfold reapWave
    simp only [hv, hc, Bool.false_and, Bool.false_eq_true, if_false]
  · rw [waveAt_reapWave_ne s hy, hv]

theorem waveAt_settleWaves (l : List Nat) {s : State} {w : Nat} {v : Wave} (hv : waveAt s w = some v) : (∃ as, waveAt (l.foldl settleWave s) w = some { v with accs := as }) ∧ (l.foldl settleWave s).clock = s.clock := by
  induction l generalizing s v with
  | nil => exact ⟨⟨v.accs, hv⟩, rfl⟩
  | cons y r ih =>
    obtain ⟨as, h⟩ := waveAt_settleWave s y hv
    obtain ⟨⟨bs, h2⟩, hc⟩ := ih h
    exact ⟨⟨bs, h2⟩, hc.trans (clock_settleWave s y)⟩

theorem waveAt_reapWaves (l : List Nat) {s : State} {w : Nat} {v : Wave} (hv : waveAt s w = some v) (hl : v.ended = false ∨ s.clock ≤ v.endedAt) : waveAt (l.foldl reapWave s) w = some v := by
  induction l generalizing s with
  | nil => exact hv
  | cons y r ih => exact ih (waveAt_reapWave_live hv hl y) (by rw [clock_reapWave]; exact hl)

/-- Settling leaves a wave that has not ended before this cycle as it is but for its queue. -/
theorem waveAt_settle {s : State} {w : Nat} {v : Wave} (hv : waveAt s w = some v) (hl : v.ended = false ∨ s.clock ≤ v.endedAt) : ∃ as, waveAt (settle s) w = some { v with accs := as } := by
  obtain ⟨⟨as, h⟩, hc⟩ := waveAt_settleWaves (tblKeys s.waves) hv
  exact ⟨as, waveAt_reapWaves (tblKeys ((tblKeys s.waves).foldl settleWave s).waves) h (by rw [hc]; exact hl)⟩

end Sys2Proof.Machine
end

section
/-! PROOFS. A bundle with a hazard that one of its words holds back (R190, R198, R314). -/

namespace Sys2Proof.Machine

/-- The header of a bundle of a matrix word and a copy-engine word. -/
def heldHeader : BundleHeader := { lanes := 0, psc := false, pmx := true, pcp := true, pxq := false, spread := false, latch := 0, len := 3, stamp := 0, ver := 1 }

/-- A multiply-accumulate, and the wait on token 0. -/
def heldOps : List BundleOp := [{ slot := .mx, clusters := 0, i := .mma { a := 128, c := 1, last := true, first := true } }, { slot := .cp, clusters := 0, i := .kwait { ncons := 1 } }]

/-- The words of the bundle. -/
def heldBundle : List Word := encodeHeader heldHeader :: encodeIn true (.mma { a := 128, c := 1, last := true, first := true }) ++ encodeIn true (.kwait { ncons := 1 })

/-- A bundle thread with the claim, whose token 0 is PENDING. -/
def heldThread : Wave := { phase := .bundle, subs := [(1, { mask := 1 })], toks := [(0, .pending none)], bun := { claim := true }, kernel := { mtx := true } }

/-- The core's last multiply-accumulate began in this cycle: hazard 1. -/
def heldState : State := { State.reset with cur := some (0, 1), waves := [(0, heldThread)], cores := [(0, { mx := { lastMma := some 0 } })] }

theorem heldThread_ready : BundleReady heldState 0 heldThread 0 where
  cur := rfl
  wave := rfl
  phase := rfl
  may := by decide
  stands := ⟨_, rfl, rfl, rfl⟩
  noFault := rfl
  noWait := by decide

/-- The phase of the thread after a step. -/
def phaseAfter : Out → Option Phase
  | .next t => (waveAt t 0).map (·.phase)
  | _ => none

/-- The bundle is held back: its `kwait` waits. -/
theorem heldBundle_holds : phaseAfter (exec (.bundleIssue heldBundle) heldState) = some .bundle := by
  decide +kernel

/-- Refutes O48: a hazard is said to drain the thread, but a word that holds the bundle back is found first; with the `mma` of hazard 1 and a `kwait` on a PENDING token the bundle only waits. -/
theorem not_bundleIssues : ¬ Obligations.BundleIssues := by
  unfold Obligations.BundleIssues
  intro h
  obtain ⟨_, _, hok⟩ := h heldState 0 heldThread 0 heldBundle heldThread_ready
  obtain ⟨_, hgo⟩ := hok heldHeader heldOps (eq_ok_of_answersOk (by decide +kernel)) rfl rfl rfl (by decide +kernel) (by decide +kernel) (by decide +kernel) (by decide +kernel)
  obtain ⟨hhaz, _⟩ := hgo (by decide +kernel) (by decide +kernel)
  obtain ⟨t1, v', hx, hw, hp, _⟩ := hhaz 1 (by decide +kernel)
  have hph : phaseAfter (exec (.bundleIssue heldBundle) heldState) = some v'.phase := by
    rw [hx]
    exact congrArg (Option.map (·.phase)) hw
  rw [heldBundle_holds, hp] at hph
  cases Option.some.inj hph

end Sys2Proof.Machine
end

section
/-! PROOFS. Mode changes, and the one word of a bundle (R60, R64, R184 to R187, R190, R195, R196, R199 to R203). -/

namespace Sys2Proof.Machine

/-! A bundle of one word. -/

theorem mem_nub {l : List Nat} {a : Nat} (h : a ∈ nub l) : a ∈ l := by
  induction l with
  | nil => exact h
  | cons b r ih =>
    rcases List.mem_cons.1 h with rfl | h
    · exact List.mem_cons_self
    · exact List.mem_cons_of_mem _ (ih (List.mem_filter.1 h).1)

theorem all_nub {l : List Nat} {p : Nat → Bool} (h : l.all p = true) : (nub l).all p = true := by
  simp only [List.all_eq_true] at h ⊢
  exact fun a ha => h a (mem_nub ha)

/-- The word of such a bundle. -/
def loneWord (sl : Slot) (i : Instr) : BWord := { pos := 1, slot := sl, clusters := BitVec.allOnes 32, i := i }

theorem bunPops_lone (sl : Slot) (i : Instr) : bunPops [loneWord sl i] = nub (popsOf (some sl) i) := by simp [bunPops, loneWord]
theorem bunPushes_lone (sl : Slot) (i : Instr) : bunPushes [loneWord sl i] = pushesOf (some sl) i := by simp [bunPushes, loneWord]

/-- What the bundle itself sees. -/
def loneEnv (s : State) (w : Nat) (v : Wave) (p : Word) (sl : Slot) (i : Instr) : Env :=
  bunEnv s w v (aloneHeader sl) p (p + 16) (popAll s v (nub (popsOf (some sl) i))) (pushAll s v (pushesOf (some sl) i)) { pos := 0, slot := .sc, clusters := 0, i := .nop {} }

section
variable {s : State} {w : Nat} {v : Wave} {p : Word} {sl : Slot} {i : Instr} (h : AloneReady s w v p sl i)
include h

theorem bunIssue_lone (hi : issues v.bun.loops i = true) (hm : hazardOf s v [loneWord sl i] = none) (hs : syncOp i = false) (hmx : sl ≠ .mx) {r : BunRes} (hr : runWord s (loneWord sl i) (aloneEnv s w v p sl i) { s := s } = r) :
    bunIssue s w v (aloneHeader sl) p [{ slot := sl, clusters := BitVec.allOnes 32, i := i }] = match (generalizing := false) r with
      | .hold => bunHold s w v
      | .trap s1 t => nextOf s (bunTrap s1 w p t)
      | .gap s1 => nextOf s s1
      | .done b => match b.go with
        | .br t => if brOut t then nextOf s (bunTrap s w p (brTrap t)) else nextOf s (settle (bunDone s w v (aloneHeader sl) p (p + 16) [loneWord sl i] (loneEnv s w v p sl i) b))
        | _ => nextOf s (settle (bunDone s w v (aloneHeader sl) p (p + 16) [loneWord sl i] (loneEnv s w v p sl i) b)) := by
  obtain ⟨hreg, hpure⟩ := h.impure
  have hclaim : claimBad v (aloneHeader sl) p = none := by simp [claimBad, aloneHeader, hmx]
  have hbad : [loneWord sl i].findSome? (wordBad s v p) = none := by
    have : wordBad s v p (loneWord sl i) = none := by simp [wordBad, loneWord, hpure, h.popBound, h.pushBound]
    simp [this]
  have hbefore : bunBefore s v p [loneWord sl i] = none := by
    simp only [bunBefore, hm]
    simp [replayTraps, loneWord, hs]
  have hcarry : (seqCarries p (8 * (aloneHeader sl).len) && [loneWord sl i].all (fun o => goesOn o.i (bunEnv s w v (aloneHeader sl) p (p + 16) (popAll s v (nub (popsOf (some sl) i))) (pushAll s v (pushesOf (some sl) i)) o))) = false := by
    rw [List.all_cons, List.all_nil, Bool.and_true]
    exact h.noCarry
  have hover : ∀ fl g, overflows v fl g = false := fun fl g => by simp [overflows, hreg]
  have hrun : runWords s (bunEnv s w v (aloneHeader sl) p (p + 16) (popAll s v (nub (popsOf (some sl) i))) (pushAll s v (pushesOf (some sl) i))) { s := s } [loneWord sl i] = r := by
    rw [← hr]
    unfold runWords
    rw [show bunEnv s w v (aloneHeader sl) p (p + 16) _ _ (loneWord sl i) = aloneEnv s w v p sl i from rfl]
    cases runWord s (loneWord sl i) (aloneEnv s w v p sl i) { s := s } <;> rfl
  unfold bunIssue
  extract_lets next src v1 ws pops pushes env e
  have hv : v1 = v := rfl
  have hws : ws = [loneWord sl i] := by
    simp only [ws, hv, hi, List.zipIdx_cons, List.zipIdx_nil, List.map_cons, List.map_nil, List.filter_cons, if_true, List.filter_nil]
    rfl
  have hpops : pops = nub (popsOf (some sl) i) := by rw [show pops = bunPops ws from rfl, hws, bunPops_lone]
  have hpushes : pushes = pushesOf (some sl) i := by rw [show pushes = bunPushes ws from rfl, hws, bunPushes_lone]
  have henv : env = bunEnv s w v (aloneHeader sl) p (p + 16) (popAll s v (nub (popsOf (some sl) i))) (pushAll s v (pushesOf (some sl) i)) := by
    rw [← hpops, ← hpushes]
    rfl
  have he : e = loneEnv s w v p sl i := by rw [show e = env _ from rfl, henv]; rfl
  have hn : next = p + 16 := rfl
  clear_value e env pops pushes ws v1 next
  subst hv hws hpops hpushes henv he hn
  rw [h.inBody, hclaim, hbad, all_nub h.popReady, h.pushReady, hcarry, hbefore, hrun]
  cases r with
  | done b =>
    simp only [hover]
    cases hgo : b.go <;> rfl
  | _ => rfl

end

/-- A thread after a bundle: where it stands, its levels and the results on their way. -/
structure AfterBundle (v1 v' : Wave) (n : Word × List LoopLevel × List Nat) (phase : Phase) (fl : List Flight) : Prop where
  stands : ∃ u, tblFind v'.subs rootSub = some u ∧ u.pc = n.1
  registers : v'.s = v1.s ∧ v'.v = v1.v ∧ v'.p = v1.p
  phase : v'.phase = phase
  loops : v'.bun.loops = n.2.1
  flights : v'.bun.flights = v1.bun.flights ++ fl
  ended : v'.ended = v1.ended

theorem AfterBundle.settled {v1 v' : Wave} {n : Word × List LoopLevel × List Nat} {phase : Phase} {fl : List Flight} (h : AfterBundle v1 v' n phase fl) (as : List Acc) : AfterBundle v1 { v' with accs := as } n phase fl :=
  ⟨h.stands, h.registers, h.phase, h.loops, h.flights, h.ended⟩

theorem AfterBundle.counted {v1 v' : Wave} {n : Word × List LoopLevel × List Nat} {phase : Phase} {fl : List Flight} (h : AfterBundle v1 v' n phase fl) (x : Nat) (reset : Bool) (limit : Word) : AfterBundle v1 (v'.countIssue x reset limit) n phase fl := by
  obtain ⟨wd, as, hc⟩ := countIssue_eq v' x reset limit
  rw [hc]
  exact ⟨h.stands, h.registers, h.phase, h.loops, h.flights, h.ended⟩

/-- The thread after a bundle of one word that is no synchronising operation and queues nothing. -/
theorem waveAt_bunDone {s : State} {w : Nat} {v v1 : Wave} {hd : BundleHeader} {p next : Word} {sl : Slot} {i : Instr} {e : Env} {b : BunRun} {u : Sub} (hv : waveAt b.s w = some v1) (hu : tblFind v1.subs rootSub = some u) (hs : syncOp i = false) (ha : b.accs = []) (hp : b.post = none) :
    ∃ v', waveAt (bunDone s w v hd p next [loneWord sl i] e b) w = some v'
      ∧ AfterBundle v1 v' (bunNext v v1.bun.loops b.go next) (bunPhase [loneWord sl i] (bunNext v v1.bun.loops b.go next).1 v1.phase) (byBounds b.flights ++ strideFlights e (bunNext v v1.bun.loops b.go next).2.2) := by
  have h1 : waveAt (takePushes (takePops b.s v (bunPops [loneWord sl i])) v (bunPushes [loneWord sl i])) w = some v1 := by
    rw [waveAt, waves_takePushes, waves_takePops]
    exact hv
  have hnote : ∀ t, replayNotes t w v [loneWord sl i] = t := fun t => by
    simp only [replayNotes, replayDone, loneWord, hs]
    rfl
  unfold bunDone
  extract_lets cur n fl engs slots ends s1 s2 s3 s4 s5 s6
  have h2 : waveAt s2 w = some v1 := by
    rw [show s2 = s1 by simp only [s2, ha, List.foldl_nil]]
    exact h1
  have hn : n = bunNext v v1.bun.loops b.go next := by simp only [n, cur, hv]
  have h5 : waveAt s5 w = waveAt s3 w := by
    simp only [s5]
    split <;> rfl
  rw [hp]
  refine ⟨_, (congrArg (waveAt · w) (hnote s5)).trans (h5.trans (waveAt_modWave_of h2 _)), ?_⟩
  rw [← hn]
  refine AfterBundle.counted ?_ _ _ _
  exact ⟨⟨{ u with pc := n.1, aged := 0 }, (tblFind_mod_self _ _ _).trans (congrArg _ hu), rfl⟩, ⟨rfl, rfl, rfl⟩, rfl, rfl, rfl, rfl⟩

/-- What an instruction that only bundle code holds comes to as the one word of a bundle. -/
theorem exec_alone {s : State} {w : Nat} {v : Wave} {p : Word} {sl : Slot} {i : Instr} (h : AloneReady s w v p sl i) (hx : exec i s = issueAlone sl i s) :
    exec i s = bunIssue s w v (aloneHeader sl) p [{ slot := sl, clusters := BitVec.allOnes 32, i := i }] := by
  obtain ⟨u, hu, hrun, hpc⟩ := h.stands
  have hf : faultFound s v = false := by simp [faultFound, h.noFault]
  rw [hx, issueAlone, h.cur]
  simp only [Option.bind_some, h.wave, h.phase, if_true]
  unfold bundleCur
  simp only [h.cur, h.wave, hu, h.may, hrun, decide_true, Bool.and_self, if_true, hf, Bool.false_eq_true, if_false, h.noWait, h.legal, hpc]
  cases sl <;> rfl

/-- Neither a matrix multiplication nor a store from the accumulators. -/
def noMatrix (i : Instr) : Bool := match i with | .mma _ | .mst _ => false | _ => true

section
variable {s : State} {w : Nat} {v : Wave} {p : Word} {sl : Slot} {i : Instr} (h : AloneReady s w v p sl i)
include h

theorem hazardOf_lone (hm : noMatrix i = true) : hazardOf s v [loneWord sl i] = none := by
  have hpush : (bunPushes [loneWord sl i]).length = (nub (bunPushes [loneWord sl i])).length := by
    rw [bunPushes_lone]
    exact h.single
  unfold hazardOf
  dsimp only
  rw [if_neg (Classical.not_not.2 hpush)]
  cases i
  case mma => exact absurd hm Bool.false_ne_true
  case mst => exact absurd hm Bool.false_ne_true
  all_goals rfl

/-- One word that writes registers or turns the thread aside, as a bundle of its own. -/
theorem alone_done {s1 : State} {v1 : Wave} {u : Sub} {eff : Eff} (hx : exec i s = issueAlone sl i s) (hi : issues v.bun.loops i = true) (hm : noMatrix i = true) (hs : syncOp i = false) (hmx : sl ≠ .mx)
    (hb : slotBody sl i (aloneEnv s w v p sl i) s = .done s1 eff) (ha : eff.accs = []) (hp : placeAccs s v i [] = ([], [], [])) (hg : ∀ t, eff.go ≠ .br t) (hv1 : waveAt s1 w = some v1) (hu : tblFind v1.subs rootSub = some u) (hl : v1.ended = false) :
    ∃ t v', exec i s = .next t ∧ waveAt t w = some v'
      ∧ AfterBundle v1 v' (bunNext v v1.bun.loops eff.go (p + 16)) (bunPhase [loneWord sl i] (bunNext v v1.bun.loops eff.go (p + 16)).1 v1.phase) (byBounds (wrFlights s.clock i eff) ++ strideFlights (loneEnv s w v p sl i) (bunNext v v1.bun.loops eff.go (p + 16)).2.2) := by
  have hrun : runWord s (loneWord sl i) (aloneEnv s w v p sl i) { s := s } = .done { s := s1, flights := wrFlights s.clock i eff, go := eff.go, reset := eff.wdReset } := by
    unfold runWord
    rw [show slotBody (loneWord sl i).slot (loneWord sl i).i (aloneEnv s w v p sl i) ({ s := s } : BunRun).s = .done s1 eff from hb]
    dsimp only [loneWord]
    rw [ha, show (aloneEnv s w v p sl i).v = v from rfl, hp]
    cases hgo : eff.go <;> simp only [List.nil_append, List.filter_nil, List.append_nil, List.isEmpty_nil, if_true, Bool.false_or] <;> rfl
  obtain ⟨v', hv', haf⟩ := waveAt_bunDone (s := s) (v := v) (hd := aloneHeader sl) (p := p) (next := p + 16) (sl := sl) (i := i) (e := loneEnv s w v p sl i)
    (b := { s := s1, flights := wrFlights s.clock i eff, go := eff.go, reset := eff.wdReset }) hv1 hu hs rfl rfl
  obtain ⟨as, has⟩ := waveAt_settle hv' (.inl (haf.ended.trans hl))
  refine ⟨finish s _, _, ?_, has, haf.settled as⟩
  rw [exec_alone h hx, bunIssue_lone h hi (hazardOf_lone h hm) hs hmx hrun]
  cases hgo : eff.go with
  | br t => exact absurd hgo (hg t)
  | _ => rfl

/-- One word that fails its own check, as a bundle of its own: the thread drains for the trap. -/
theorem alone_trap {t : Trap} (hx : exec i s = issueAlone sl i s) (hi : issues v.bun.loops i = true) (hm : noMatrix i = true) (hs : syncOp i = false) (hmx : sl ≠ .mx) (hpost : postTrap i = false) (hlate : lateWord i = false)
    (hb : slotBody sl i (aloneEnv s w v p sl i) s = .trap s t) :
    exec i s = nextOf s (bunTrap s w p t) := by
  have hrun : runWord s (loneWord sl i) (aloneEnv s w v p sl i) { s := s } = .trap s t := by
    unfold runWord
    rw [show slotBody (loneWord sl i).slot (loneWord sl i).i (aloneEnv s w v p sl i) ({ s := s } : BunRun).s = .trap s t from hb]
    simp only [loneWord, hpost, lateFault, hlate, Bool.false_and, Bool.false_eq_true, if_false]
  rw [exec_alone h hx, bunIssue_lone h hi (hazardOf_lone h hm) hs hmx hrun]

end

/-- Flights that store nothing have no other's bound. -/
theorem byBounds_of_plain {l : List Flight} (h : ∀ f ∈ l, f.st = []) : byBounds l = l := by
  induction l with
  | nil => rfl
  | cons f r ih =>
    have hr := ih fun g hg => h g (List.mem_cons_of_mem _ hg)
    have hnone : r.filter (fun g => !f.exact && !g.exact && f.meets g) = [] := by
      refine List.filter_eq_nil_iff.2 fun g hg => ?_
      simp [Flight.meets, h g (List.mem_cons_of_mem _ hg)]
    rw [byBounds, hr, hnone]
    rfl

theorem st_of_mem_wrFlights {now : Nat} {i : Instr} {e : Eff} {f : Flight} (h : f ∈ wrFlights now i e) : f.st = [] := by
  unfold wrFlights at h
  rcases List.mem_append.1 h with h | h
  · obtain ⟨l, -, rfl⟩ := List.mem_map.1 h
    rfl
  · split at h
    · cases h
    · rw [List.mem_singleton.1 h]

/-! The conversion into bundle mode and its way back. -/

/-- What refuses the conversion, as the statement lists it. -/
theorem convertBad_iff (e : Env) (s : State) (mx : Bool) :
    convertBad e s mx = true ↔ e.v.kernel.conv = false ∨ e.v.conv = false ∨ (∃ y ∈ s.waves, y.1 ≠ e.w ∧ physCore s y.2.core = e.core ∧ y.2.sect = e.v.sect) ∨ e.v.subs.length ≠ 1 ∨ (mx = true ∧ (e.v.kernel.mtx = false ∨ claimed s e.core e.w = true)) := by
  simp [convertBad, or_assoc, and_assoc]

/-- The lanes that a conversion leaves unspecified. -/
theorem mem_outside {m : Lane32} {l j : Nat} (hl : m.getLsbD l = true) (hj : j ∈ lanes.filter (fun l => !(m.getLsbD l))) : j ≠ l := by
  rintro rfl
  simp [hl] at hj

/-- What a conversion keeps of a wave: its scalars and FLAGS, and the registers and predicates of the lanes of `m`. -/
structure KeepsLanes (m : Lane32) (v v' : Wave) : Prop where
  scalars : v'.s = v.s
  flags : v'.flags = v.flags
  lanes : ∀ r l, m.getLsbD l = true → v'.getV r l = v.getV r l
  predicates : ∀ k l, m.getLsbD l = true → (v'.getP k).getLsbD l = (v.getP k).getLsbD l

theorem KeepsLanes.refl (m : Lane32) (v : Wave) : KeepsLanes m v v := ⟨rfl, rfl, fun _ _ _ => rfl, fun _ _ _ => rfl⟩

theorem KeepsLanes.trans {m : Lane32} {a b c : Wave} (h : KeepsLanes m a b) (g : KeepsLanes m b c) : KeepsLanes m a c :=
  ⟨g.scalars.trans h.scalars, g.flags.trans h.flags, fun r l hl => (g.lanes r l hl).trans (h.lanes r l hl), fun k l hl => (g.predicates k l hl).trans (h.predicates k l hl)⟩

theorem KeepsLanes.foldl {α : Type} {m : Lane32} {f : Wave → α → Wave} {xs : List α} (h : ∀ v, ∀ x ∈ xs, KeepsLanes m v (f v x)) (v : Wave) : KeepsLanes m v (xs.foldl f v) := by
  induction xs generalizing v with
  | nil => exact .refl m v
  | cons x r ih => exact (h v x List.mem_cons_self).trans (ih (fun v y hy => h v y (List.mem_cons_of_mem _ hy)) _)

theorem keepsLanes_setV {m : Lane32} {j : Nat} (hj : j < 32) (hne : ∀ l, m.getLsbD l = true → j ≠ l) (v : Wave) (r : Nat) (x : Lane32) : KeepsLanes m v (v.setV r j x) :=
  ⟨rfl, rfl, fun _ l hl => getV_setV_ne v x hj (BitVec.lt_of_getLsbD hl) (fun h => hne l hl (congrArg Prod.snd h).symm), fun _ _ _ => rfl⟩

theorem keepsLanes_setPBit {m : Lane32} {j : Nat} (hne : ∀ l, m.getLsbD l = true → j ≠ l) (v : Wave) (k : Nat) (b : Bool) : KeepsLanes m v (v.setPBit k j b) := by
  obtain ⟨p, hp⟩ : ∃ p, v.setPBit k j b = { v with p := p } := by
    unfold Wave.setPBit Wave.setP
    split
    · exact ⟨v.p, rfl⟩
    · exact ⟨_, rfl⟩
  exact ⟨by rw [hp], by rw [hp], fun r l _ => by rw [hp]; rfl, fun q l hl => getP_setPBit_ne v b (BitVec.lt_of_getLsbD hl) (fun h => hne l hl (congrArg Prod.snd h).symm)⟩

/-- R185: the lanes of the active mask, the scalars and FLAGS are what they were. -/
theorem keepsLanes_converted (v : Wave) (g : Nat → Nat) : KeepsLanes v.rootMask v (v.converted g) := by
  have hj : ∀ j ∈ lanes.filter (fun l => !(v.rootMask.getLsbD l)), j < 32 ∧ ∀ l, v.rootMask.getLsbD l = true → j ≠ l := fun j h => ⟨List.mem_range.1 (List.mem_filter.1 h).1, fun l hl => mem_outside hl h⟩
  have hv := KeepsLanes.foldl (m := v.rootMask) (xs := List.range v.kernel.alloc) (f := fun t r => (lanes.filter (fun l => !(v.rootMask.getLsbD l))).foldl (fun u l => u.setV r l (BitVec.ofNat 32 (g (64 * r + l)))) t)
    (fun t r _ => .foldl (fun u j h => keepsLanes_setV (hj j h).1 (hj j h).2 u r _) t) v
  have hp := fun v1 => KeepsLanes.foldl (m := v.rootMask) (xs := List.range 7) (f := fun t k => (lanes.filter (fun l => !(v.rootMask.getLsbD l))).foldl (fun u l => u.setPBit k l (decide (g (2 ^ 20 + 64 * k + l) % 2 = 1))) t)
    (fun t k _ => .foldl (fun u j h => keepsLanes_setPBit (hj j h).2 u k _) t) v1
  have h := hv.trans (hp _)
  exact ⟨h.scalars, h.flags, h.lanes, h.predicates⟩

/-- R184: the two forms of the conversion. -/
theorem xmodeB_forms {f : RRR} {i : Instr} {mx : Bool} (h : (i, mx) ∈ ([(.xmodeB f, false), (.xmodeBMx f, true)] : List (Instr × Bool))) :
    (∀ s, exec i s = issue i (bodyXmodeB mx) s) ∧ syncOp i = false ∧ (∀ s w x v u, Issuing s i w x v u → u.pc + BitVec.ofNat 64 (instrLen i) = u.pc + 8) := by
  simp only [List.mem_cons, Prod.mk.injEq, List.not_mem_nil, or_false] at h
  rcases h with ⟨rfl, rfl⟩ | ⟨rfl, rfl⟩
  · exact ⟨fun _ => rfl, rfl, fun _ _ _ _ _ hi => next_issueEnv_of_noLit hi rfl⟩
  · exact ⟨fun _ => rfl, rfl, fun _ _ _ _ _ hi => next_issueEnv_of_noLit hi rfl⟩

theorem xmodeB_converts {f : RRR} {i : Instr} {mx : Bool} (h : (i, mx) ∈ ([(.xmodeB f, false), (.xmodeBMx f, true)] : List (Instr × Bool))) {s : State} {w x : Nat} {v : Wave} {u : Sub} (hi : Issuing s i w x v u)
    (hw : writesPending v = false) (hb : convertBad (issueEnv s w x v u i) s mx = false) :
    ∃ t v', exec i s = .next t ∧ waveAt t w = some v' ∧ v'.phase = .converting (s.clock + 16) ∧ v'.bun.claim = (mx || v.handler.any (·.claim)) ∧ v'.bun.loops = [] ∧ v'.bun.regions = [] ∧ (∃ u', tblFind v'.subs x = some u' ∧ u'.pc = u.pc + 8) ∧ v'.wd = 0
      ∧ v'.s = v.s ∧ v'.v = v.v ∧ v'.p = v.p ∧ v'.flags = v.flags ∧ KeepsRest w s t := by
  obtain ⟨hx, hs, hn⟩ := xmodeB_forms h
  have hbody : bodyXmodeB mx (issueEnv s w x v u i) s = .done (modWave s w (fun v => { v with phase := .converting (s.clock + 16), bun := { claim := mx || v.keptClaim, claimWait := mx, firstAt := s.clock + 16, lastHdr := v.bun.lastHdr, lastStamp := v.bun.lastStamp } })) { wdReset := true } := by
    unfold bodyXmodeB
    rw [hb, show writesPending (issueEnv s w x v u i).v = false from hw]
    rfl
  obtain ⟨t, ht, hk, hv'⟩ := exec_done_reset hx hi hbody (keeps_modWave _ _ _) rfl (waveAt_modWave_of hi.wave _) rfl (.inl rfl) hs rfl rfl rfl
  refine ⟨t, _, ht, hv', rfl, rfl, rfl, rfl, ⟨_, (tblFind_mod_self _ _ _).trans (congrArg _ hi.sub), hn s w x v u hi⟩, rfl, rfl, rfl, rfl, ?_, hk⟩
  exact Nat.or_zero _

theorem xmodeConvert_converts {s : State} {w : Nat} {v : Wave} {t0 : Nat} (hv : waveAt s w = some v) (hp : v.phase = .converting t0) :
    ∃ t v', exec (.xmodeConvert w) s = .next t ∧ waveAt t w = some v' ∧ v'.phase = .bundle ∧ (∀ x u, v.subs = [(x, u)] → v'.subs = [(rootSub, { u with mask := v.rootMask })]) ∧ v'.hinge = [] ∧ v'.s = v.s ∧ v'.flags = v.flags
      ∧ (∀ r l, v.rootMask.getLsbD l = true → v'.getV r l = v.getV r l) ∧ (∀ k l, l < 32 → v.rootMask.getLsbD l = true → (v'.getP k).getLsbD l = (v.getP k).getLsbD l) ∧ KeepsRest w s t := by
  have hx : exec (.xmodeConvert w) s = nextOf s (modWave s w (fun v => v.converted (free s))) := by
    show execXmodeConvert w s = _
    simp only [execXmodeConvert, hv, hp]
  have hk := keepsLanes_converted v (free s)
  exact ⟨_, _, hx, waveAt_modWave_of hv _, rfl, fun x u h => by simp only [Wave.converted, h]; rfl, rfl, hk.scalars, hk.flags, hk.lanes, fun k l _ => hk.predicates k l, keeps_finish (keeps_modWave _ _ _) rfl⟩

/-! The instructions that only a bundle holds. -/

/-- R60, R64: SIMT code refuses them. -/
theorem check_bundleOnly {f : RRR} {g : LP} {i : Instr} (h : i ∈ ([.xmodeS f, .xmov f, .xbcast f, .loop g, .lexit f] : List Instr)) {v : Wave} (hv : v.kernel.w16 = false ∨ v.inHandler = true) : check (simtDec v) i = some (.mode 9) := by
  have h16 : (simtDec v).w16 = false := by
    rcases hv with hv | hv <;> simp [simtDec, hv]
  have hm : modeOk (simtDec v) i = false := by
    simp only [List.mem_cons, List.not_mem_nil, or_false] at h
    rcases h with rfl | rfl | rfl | rfl | rfl <;> rfl
  simp only [check, h16, hm, Bool.false_and, Bool.false_eq_true, if_false, Bool.not_false, if_true]

theorem exec_bundleOnly {f : RRR} {g : LP} {i : Instr} (h : i ∈ ([.xmodeS f, .xmov f, .xbcast f, .loop g, .lexit f] : List Instr)) : ∃ sl, ∀ s, exec i s = issueAlone sl i s := by
  simp only [List.mem_cons, List.not_mem_nil, or_false] at h
  rcases h with rfl | rfl | rfl | rfl | rfl
  · exact ⟨.sc, fun _ => rfl⟩
  · exact ⟨.ln, fun _ => rfl⟩
  · exact ⟨.xq, fun _ => rfl⟩
  · exact ⟨.sc, fun _ => rfl⟩
  · exact ⟨.sc, fun _ => rfl⟩

theorem bundleOnly_refused {f : RRR} {g : LP} {i : Instr} (h : i ∈ ([.xmodeS f, .xmov f, .xbcast f, .loop g, .lexit f] : List Instr)) {s : State} {w x : Nat} {v : Wave} {u : Sub} (hc : Chosen s w x v u) (hv : v.kernel.w16 = false ∨ v.inHandler = true) :
    exec i s = .next (trapped s w x s { cause := .mode, addr := u.pc, info := 9 }) := by
  obtain ⟨sl, hx⟩ := exec_bundleOnly h
  have hp : v.phase ≠ .bundle := by
    rw [(mayIssue_phase hc.may).1]
    exact nofun
  rw [hx, issueAlone, hc.cur]
  simp only [Option.bind_some, hc.wave, hp, if_false]
  rw [issue_chosen hc, issueAt_refused (hc := check_bundleOnly h hv), decTrap_mode]
  rfl

/-- The words that only turn their thread aside, change its levels or write registers. -/
def plainWord (i : Instr) : Bool := match i with | .xmodeS _ | .xmov _ | .xbcast _ | .loop _ | .lexit _ => true | _ => false

/-- Where such a word, a bundle of its own, has left its thread: at `q`, in phase `phase`, with levels `loops` and results `fl` added to those on their way. -/
def GoesTo (i : Instr) (s : State) (w : Nat) (v : Wave) (q : Word) (phase : Phase) (loops : List LoopLevel) (fl : List Flight) : Prop :=
  ∃ v', (∃ t, exec i s = .next t ∧ waveAt t w = some v' ∧ (∃ u', tblFind v'.subs rootSub = some u' ∧ u'.pc = q) ∧ v'.s = v.s ∧ v'.v = v.v ∧ v'.p = v.p)
    ∧ v'.phase = phase ∧ v'.bun.loops = loops ∧ v'.bun.flights = v.bun.flights ++ fl

section
variable {s : State} {w : Nat} {v : Wave} {p : Word} {sl : Slot} {i : Instr} (h : AloneReady s w v p sl i)
include h

/-- A plain word that completes over a state in which its thread has levels `cur`. -/
theorem alone_goes {s1 : State} {cur : List LoopLevel} {eff : Eff} (hplain : plainWord i = true) (hx : exec i s = issueAlone sl i s) (hi : issues v.bun.loops i = true) (hmx : sl ≠ .mx)
    (hb : slotBody sl i (aloneEnv s w v p sl i) s = .done s1 eff) (ha : eff.accs = []) (hg : ∀ t, eff.go ≠ .br t) (hv1 : waveAt s1 w = some { v with bun := { v.bun with loops := cur } }) :
    GoesTo i s w v (bunNext v cur eff.go (p + 16)).1 (bunPhase [loneWord sl i] (bunNext v cur eff.go (p + 16)).1 .bundle) (bunNext v cur eff.go (p + 16)).2.1
      (wrFlights s.clock i eff ++ strideFlights (loneEnv s w v p sl i) (bunNext v cur eff.go (p + 16)).2.2) := by
  obtain ⟨u, hu, -, -⟩ := h.stands
  have hl : v.ended = false := by
    have hmay := h.may
    simp only [mayBundle, Bool.and_eq_true, Bool.not_eq_true'] at hmay
    exact hmay.1.1.1.2
  have hm : noMatrix i = true ∧ syncOp i = false ∧ placeAccs s v i [] = ([], [], []) := by
    cases i
    case xmodeS => exact ⟨rfl, rfl, rfl⟩
    case xmov => exact ⟨rfl, rfl, rfl⟩
    case xbcast => exact ⟨rfl, rfl, rfl⟩
    case loop => exact ⟨rfl, rfl, rfl⟩
    case lexit => exact ⟨rfl, rfl, rfl⟩
    all_goals exact absurd hplain Bool.false_ne_true
  obtain ⟨hmat, hs, hp⟩ := hm
  obtain ⟨t, v', ht, hv', haf⟩ := alone_done h hx hi hmat hs hmx hb ha hp hg hv1 hu hl
  obtain ⟨hr1, hr2, hr3⟩ := haf.registers
  have hfl := haf.flights
  rw [byBounds_of_plain fun f hf => st_of_mem_wrFlights hf] at hfl
  exact ⟨v', ⟨t, ht, hv', haf.stands, hr1, hr2, hr3⟩, haf.phase.trans (by rw [← h.phase]), haf.loops, hfl⟩

end

section
variable {s : State} {w : Nat} {v : Wave} {p : Word}

theorem xmodeS_returns {f : RRR} (h : AloneReady s w v p .sc (.xmodeS f)) (hl : v.bun.loops = []) : GoesTo (.xmodeS f) s w v (p + 16) (.ret (p + 16)) [] [] := by
  have hb : slotBody .sc (.xmodeS f) (aloneEnv s w v p .sc (.xmodeS f)) s = .done s {} := by
    show bodyXmodeS _ s = _
    rw [bodyXmodeS, show (aloneEnv s w v p .sc (.xmodeS f)).v.bun.loops = [] from hl]
    rfl
  have hg := alone_goes h rfl rfl (by rw [hl]; rfl) nofun hb rfl nofun h.wave
  simp only [bunNext, hl] at hg
  exact hg

theorem xmodeS_traps {f : RRR} (h : AloneReady s w v p .sc (.xmodeS f)) (hl : v.bun.loops ≠ []) (hi : issues v.bun.loops (.xmodeS f) = true) :
    ∃ t v', exec (.xmodeS f) s = .next t ∧ waveAt t w = some v' ∧ v'.phase = .drain { cause := .mode, tpc := some p, addr := p, info := BitVec.ofNat 64 (10 + 65536) } false := by
  have hb : slotBody .sc (.xmodeS f) (aloneEnv s w v p .sc (.xmodeS f)) s = .trap s ((aloneEnv s w v p .sc (.xmodeS f)).modeTrap 10) := by
    show bodyXmodeS _ s = _
    rw [bodyXmodeS, if_neg]
    simpa [aloneEnv, bunEnv] using hl
  exact ⟨_, _, alone_trap h rfl hi rfl rfl nofun rfl rfl hb, waveAt_modWave_of h.wave _, rfl⟩

theorem loop_opens {g : LP} (h : AloneReady s w v p .sc (.loop g)) (hlen : g.len ≤ 2048) (hdeep : v.bun.loops.length < 6) (hin : ∀ l, v.bun.loops.head? = some l → (p + 16 + BitVec.ofNat 64 (8 * g.len)).toNat ≤ l.stop.toNat) :
    let n := ((aloneEnv s w v p .sc (.loop g)).rdS g.a).toNat % 2 ^ 32
    (n = 0 → GoesTo (.loop g) s w v (p + 16 + BitVec.ofNat 64 (8 * g.len)) .bundle v.bun.loops [])
      ∧ (n ≠ 0 → GoesTo (.loop g) s w v (p + 16) .bundle ({ firstit := true, start := p + 16, remain := n, len := g.len, dreg := g.d, breg := g.b } :: v.bun.loops) []) := by
  intro n
  have hi : issues v.bun.loops (.loop g) = true := by
    unfold issues
    split <;> rfl
  have hout : (decide (2048 < g.len) || v.bun.loops.head?.any (fun l => decide (l.stop.toNat < (p + 16 + BitVec.ofNat 64 (8 * g.len)).toNat))) = false := by
    have h1 : v.bun.loops.head?.any (fun l => decide (l.stop.toNat < (p + 16 + BitVec.ofNat 64 (8 * g.len)).toNat)) = false := by
      cases hh : v.bun.loops.head? with
      | none => rfl
      | some l => exact decide_eq_false (Nat.not_lt.2 (hin l hh))
    rw [h1, decide_eq_false (Nat.not_lt.2 hlen)]
    rfl
  have hb : slotBody .sc (.loop g) (aloneEnv s w v p .sc (.loop g)) s = if n = 0 then .done s { go := .abs (p + 16 + BitVec.ofNat 64 (8 * g.len)) }
      else .done (modWave s w (fun v => { v with bun := { v.bun with loops := { firstit := true, start := p + 16, remain := n, len := g.len, dreg := g.d, breg := g.b } :: v.bun.loops } })) { go := .abs (p + 16) } := by
    show bodyLoop g (aloneEnv s w v p .sc (.loop g)) s = _
    unfold bodyLoop
    dsimp only
    rw [show ((aloneEnv s w v p .sc (.loop g)).v.bun.loops) = v.bun.loops from rfl, show (aloneEnv s w v p .sc (.loop g)).next = p + 16 from rfl, hout, if_neg Bool.false_ne_true, if_neg (Nat.ne_of_lt hdeep)]
    rfl
  constructor
  · intro hn
    rw [if_pos hn] at hb
    exact alone_goes h rfl rfl hi nofun hb rfl nofun h.wave
  · intro hn
    rw [if_neg hn] at hb
    exact alone_goes h rfl rfl hi nofun hb rfl nofun (waveAt_modWave_of h.wave _)

theorem lexit_leaves {f : RRR} (h : AloneReady s w v p .sc (.lexit f)) {l : LoopLevel} {r : List LoopLevel} (hl : v.bun.loops = l :: r) (hi : issues v.bun.loops (.lexit f) = true) (ha : (aloneEnv s w v p .sc (.lexit f)).rdS f.a ≠ 0) :
    GoesTo (.lexit f) s w v l.stop .bundle r [] := by
  have hb : slotBody .sc (.lexit f) (aloneEnv s w v p .sc (.lexit f)) s = .done (modWave s w (fun v => { v with bun := { v.bun with loops := r } })) { go := .abs l.stop } := by
    show bodyLexit f (aloneEnv s w v p .sc (.lexit f)) s = _
    unfold bodyLexit
    rw [if_neg ha, show (aloneEnv s w v p .sc (.lexit f)).v.bun.loops = l :: r from hl]
    rfl
  exact alone_goes h rfl rfl hi nofun hb rfl nofun (waveAt_modWave_of h.wave _)

/-- R195, R196: one cluster's register sent to the executing clusters. -/
theorem xmov_sends {f : RRR} {sl : Slot} {i : Instr} (hf : (sl, i) ∈ ([(.ln, .xmov f), (.xq, .xbcast f)] : List (Slot × Instr))) (h : AloneReady s w v p sl i) (hl : v.bun.loops = []) :
    GoesTo i s w v (p + 16) .bundle [] (wrFlights s.clock i { wr := (aloneEnv s w v p sl i).lanes.flatMap (fun l => (aloneEnv s w v p sl i).wrV (if f.ty.is64 then 64 else 32) f.d l ((aloneEnv s w v p sl i).rdVec false (if f.ty.is64 then 64 else 32) f.a f.b)) }) := by
  have hform : plainWord i = true ∧ exec i s = issueAlone sl i s ∧ sl ≠ .mx ∧ slotBody sl i = bodyXmov f := by
    simp only [List.mem_cons, Prod.mk.injEq, List.not_mem_nil, or_false] at hf
    rcases hf with ⟨rfl, rfl⟩ | ⟨rfl, rfl⟩
    · exact ⟨rfl, rfl, nofun, rfl⟩
    · exact ⟨rfl, rfl, nofun, rfl⟩
  obtain ⟨hplain, hx, hmx, hbody⟩ := hform
  have hb : slotBody sl i (aloneEnv s w v p sl i) s = .done s { wr := (aloneEnv s w v p sl i).lanes.flatMap (fun l => (aloneEnv s w v p sl i).wrV (if f.ty.is64 then 64 else 32) f.d l ((aloneEnv s w v p sl i).rdVec false (if f.ty.is64 then 64 else 32) f.a f.b)) } := by
    rw [hbody]
    simp only [bodyXmov, List.flatMap_def]
  have hg := alone_goes h hplain hx (by rw [hl]; rfl) hmx hb rfl nofun h.wave
  have hph : ∀ q, bunPhase [loneWord sl i] q .bundle = .bundle := by
    intro q
    simp only [List.mem_cons, Prod.mk.injEq, List.not_mem_nil, or_false] at hf
    rcases hf with ⟨rfl, rfl⟩ | ⟨rfl, rfl⟩ <;> rfl
  rw [hph] at hg
  simp only [bunNext, hl, iterationEnd, strideFlights, List.map_nil, List.append_nil, Option.getD_none] at hg
  exact hg

end

/-- Settles O47: the conversion through its body, the bundle-only words through the bundle of one word. -/
theorem bundleForms : Obligations.BundleForms := by
  unfold Obligations.BundleForms
  refine ⟨fun f => ⟨fun i mx h => ?_, fun s w v t0 hv hp => xmodeConvert_converts hv hp⟩, fun f g s v p w => ?_⟩
  · obtain ⟨hx, -, -⟩ := xmodeB_forms h
    refine ⟨waitsIf_of_body hx fun s w x v u hi hc => ?_, trapsIf_of_body hx fun s w x v u hi hc => ?_, fun s w x v u hi hw hb => ?_⟩
    · rw [bodyXmodeB, if_pos hc]
    · obtain ⟨hw, hb⟩ := hc
      rw [bodyXmodeB, hw, if_neg Bool.false_ne_true, if_pos ((convertBad_iff _ _ _).2 hb)]
      rfl
    · exact xmodeB_converts h hi hw (Bool.eq_false_iff.2 (mt (convertBad_iff _ _ _).1 hb))
  · intro plain e after
    refine ⟨fun i h x u hc hv => bundleOnly_refused h hc hv, fun h hl => ?_, fun h hl hi => xmodeS_traps h hl hi, fun h hlen hdeep hin => ⟨fun hn => ?_, fun hn => ?_⟩, fun h l r hl hi ha => ?_, fun sl i hf h hl => ?_⟩
    · obtain ⟨v', hafter, hp, -⟩ := xmodeS_returns h hl
      exact ⟨v', hafter, hp⟩
    · obtain ⟨v', hafter, -, hloops, -⟩ := (loop_opens h hlen hdeep hin).1 hn
      exact ⟨v', hafter, hloops⟩
    · obtain ⟨v', hafter, -, hloops, -⟩ := (loop_opens h hlen hdeep hin).2 hn
      exact ⟨v', hafter, hloops⟩
    · obtain ⟨v', hafter, -, hloops, -⟩ := lexit_leaves h hl hi ha
      exact ⟨v', hafter, hloops⟩
    · obtain ⟨v', hafter, -, -, hfl⟩ := xmov_sends hf h hl
      exact ⟨v', hafter, hfl⟩

end Sys2Proof.Machine
end

section
/-! PROOFS. Queued accesses performing (R237, R241 to R251, R256, R276). -/

namespace Sys2Proof.Machine

/-! What the caches and the waves' queues leave as it was. -/

/-- Between `s` and `t` no byte of memory or scratchpad has changed, and no watchpoint. -/
structure KeepsBytes (s t : State) : Prop where
  memory : ∀ q, rdByte t q = rdByte s q
  scratchpad : ∀ q, spadByte t q = spadByte s q
  watch : ∀ d, (dieAt t d).watch = (dieAt s d).watch

theorem KeepsBytes.refl (s : State) : KeepsBytes s s := ⟨fun _ => rfl, fun _ => rfl, fun _ => rfl⟩

theorem KeepsBytes.trans {a b c : State} (h : KeepsBytes a b) (g : KeepsBytes b c) : KeepsBytes a c :=
  ⟨fun q => (g.memory q).trans (h.memory q), fun q => (g.scratchpad q).trans (h.scratchpad q), fun d => (g.watch d).trans (h.watch d)⟩

theorem KeepsBytes.rdBytes {s t : State} (h : KeepsBytes s t) (pa n : Nat) : rdBytes t pa n = rdBytes s pa n := by
  rw [rdBytes_eq_map, rdBytes_eq_map]
  exact List.map_congr_left fun i _ => h.memory (pa + i)

theorem KeepsBytes.foldl {α : Type} {f : State → α → State} {xs : List α} (h : ∀ s, ∀ x ∈ xs, KeepsBytes s (f s x)) (s : State) : KeepsBytes s (xs.foldl f s) := by
  induction xs generalizing s with
  | nil => exact .refl s
  | cons x r ih => exact (h s x List.mem_cons_self).trans (ih (fun s y hy => h s y (List.mem_cons_of_mem _ hy)) _)

theorem keepsBytes_modWave (s : State) (w : Nat) (f : Wave → Wave) : KeepsBytes s (modWave s w f) := ⟨fun _ => rfl, fun q => by cases q <;> rfl, fun _ => rfl⟩

theorem keepsBytes_wakeAll (s : State) (l : Option Nat) (g : Nat) : KeepsBytes s (wakeAll s l g) := ⟨fun _ => rfl, fun q => by cases q <;> rfl, fun _ => rfl⟩

theorem keepsBytes_modCore (s : State) (c : Nat) {f : Core → Core} (hf : ∀ y, (f y).tiles = y.tiles) : KeepsBytes s (modCore s c f) := by
  have ht : ∀ k, (coreAt (modCore s c f) k).tiles = (coreAt s k).tiles := by
    intro k
    by_cases h : k = c
    · rw [h, coreAt_modCore_self, hf]
    · rw [coreAt_modCore_ne _ _ h]
  refine ⟨fun _ => rfl, fun q => ?_, fun _ => rfl⟩
  cases q with
  | tile k ctx off => simp only [spadByte, ht]
  | _ => rfl

theorem dieAt_modDie (s : State) (d k : Nat) (f : Die → Die) : dieAt (modDie s d f) k = if k = d then f (dieAt s d) else dieAt s k := by
  by_cases h : k = d
  · subst h
    simp [dieAt, modDie, tblGet, tblFind_put_self]
  · simp [dieAt, modDie, tblGet, tblFind_put_ne _ _ h, h]

theorem keepsBytes_modDie (s : State) (d : Nat) {f : Die → Die} (hf : ∀ y, (f y).watch = y.watch) : KeepsBytes s (modDie s d f) := by
  refine ⟨fun _ => rfl, fun q => by cases q <;> rfl, fun k => ?_⟩
  rw [dieAt_modDie]
  split
  · next h => rw [hf, h]
  · rfl

theorem keepsBytes_lineTake (s : State) (key line : Nat) : KeepsBytes s (lineTake s key line) := by
  unfold lineTake
  split
  · split
    · exact .refl s
    · exact ⟨fun _ => rfl, fun q => by cases q <;> rfl, fun _ => rfl⟩
  · exact ⟨fun _ => rfl, fun q => by cases q <;> rfl, fun _ => rfl⟩

theorem tblFind_map_keyed {α β : Type} (t : Tbl α) (g : Nat → α → β) (k : Nat) : tblFind (t.map (fun e => (e.1, g e.1 e.2))) k = (tblFind t k).map (g k) := by
  induction t with
  | nil => rfl
  | cons e r ih =>
    obtain ⟨j, a⟩ := e
    by_cases h : k = j
    · subst h
      simp [tblFind]
    · simpa [tblFind, h] using ih

/-- What a die is after other dies' copies of a line have gone. -/
def keptDie (keep : Option Nat) (line k : Nat) (d : Die) : Die := if keep = some k then d else { d with remote := tblErase d.remote line }

theorem dieAt_invalidateOthers (s : State) (keep : Option Nat) (line k : Nat) : dieAt (invalidateOthers s keep line) k = keptDie keep line k (dieAt s k) := by
  have hm : (invalidateOthers s keep line).dies = s.dies.map (fun e => (e.1, keptDie keep line e.1 e.2)) := by
    refine List.map_congr_left fun e _ => ?_
    unfold keptDie
    split <;> rfl
  unfold dieAt tblGet
  rw [hm, tblFind_map_keyed]
  cases tblFind s.dies k with
  | some d => rfl
  | none =>
    unfold keptDie
    split <;> rfl

theorem keepsBytes_invalidateOthers (s : State) (keep : Option Nat) (line : Nat) : KeepsBytes s (invalidateOthers s keep line) := by
  refine ⟨fun _ => rfl, fun q => by cases q <;> rfl, fun d => ?_⟩
  rw [dieAt_invalidateOthers, keptDie]
  split <;> rfl

theorem keepsBytes_evict (s : State) (core die line tag : Nat) : KeepsBytes s (evict s core die line tag) := by
  unfold evict
  have h1 : KeepsBytes s (if freeBool s tag then modCore s core (fun c => { c with l1 := tblErase c.l1 line }) else s) := by
    split
    · exact keepsBytes_modCore s core fun _ => rfl
    · exact .refl s
  dsimp only
  split
  · exact h1.trans (keepsBytes_modDie _ _ fun _ => rfl)
  · exact h1

theorem keepsBytes_fillRead (s : State) (core : Option Nat) (die : Nat) (at_ : Attr) (line : Nat) : KeepsBytes s (fillRead s core die at_ line) := by
  have h1 : KeepsBytes s (fillRemote s die at_ line 0) := by
    unfold fillRemote
    split
    · exact .refl s
    · exact keepsBytes_modDie _ _ fun _ => rfl
  have h2 : ∀ t c, KeepsBytes t (fillL1 t c die at_ line 0) := by
    intro t c
    unfold fillL1
    split
    · exact .refl t
    · exact keepsBytes_modCore _ _ fun _ => rfl
  unfold fillRead
  dsimp only
  have h3 : KeepsBytes s (match core with | some c => fillL1 (fillRemote s die at_ line 0) c die at_ line 0 | none => fillRemote s die at_ line 0) := by
    cases core with
    | none => exact h1
    | some c => exact h1.trans (h2 _ c)
  split
  · exact h3
  · exact h3.trans (keepsBytes_lineTake _ _ _)

/-! A load reads. -/

/-- What a lookup that may have evicted copies leaves: no bytes, no stores and no copies more than before. -/
structure Evicted (s t : State) : Prop where
  keeps : KeepsBytes s t
  waves : t.waves = s.waves
  drawn : free t = free s
  unspec : t.unspec = s.unspec
  lineKey : t.lineKey = s.lineKey
  poison : t.poison = s.poison
  cohorts : t.cohorts = s.cohorts
  pend : ∀ d, (dieAt t d).pend = (dieAt s d).pend
  l1 : ∀ c n, tblFind (coreAt s c).l1 n = none → tblFind (coreAt t c).l1 n = none
  remote : ∀ d n, tblFind (dieAt s d).remote n = none → tblFind (dieAt t d).remote n = none

theorem Evicted.refl (s : State) : Evicted s s := ⟨.refl s, rfl, rfl, rfl, rfl, rfl, rfl, fun _ => rfl, fun _ _ h => h, fun _ _ h => h⟩

theorem Evicted.trans {a b c : State} (h : Evicted a b) (g : Evicted b c) : Evicted a c :=
  ⟨h.keeps.trans g.keeps, g.waves.trans h.waves, g.drawn.trans h.drawn, g.unspec.trans h.unspec, g.lineKey.trans h.lineKey, g.poison.trans h.poison, g.cohorts.trans h.cohorts, fun d => (g.pend d).trans (h.pend d), fun k n hn => g.l1 k n (h.l1 k n hn), fun d n hn => g.remote d n (h.remote d n hn)⟩

theorem tblFind_erase_none {α : Type} {t : Tbl α} {k : Nat} (j : Nat) (h : tblFind t k = none) : tblFind (tblErase t j) k = none := by
  by_cases hk : k = j
  · subst hk
    exact tblFind_erase_self _ _
  · rw [tblFind_erase_ne _ hk, h]

theorem evicted_modCore (s : State) (c : Nat) {f : Core → Core} (ht : ∀ y, (f y).tiles = y.tiles) (hl : ∀ y n, tblFind y.l1 n = none → tblFind (f y).l1 n = none) : Evicted s (modCore s c f) := by
  refine ⟨keepsBytes_modCore s c ht, rfl, rfl, rfl, rfl, rfl, rfl, fun _ => rfl, fun k n h => ?_, fun _ _ h => h⟩
  by_cases hk : k = c
  · subst hk
    rw [coreAt_modCore_self]
    exact hl _ n h
  · rw [coreAt_modCore_ne _ _ hk]
    exact h

theorem evicted_modDie (s : State) (d line : Nat) : Evicted s (modDie s d (fun y => { y with remote := tblErase y.remote line })) := by
  refine ⟨keepsBytes_modDie s d fun _ => rfl, rfl, rfl, rfl, rfl, rfl, rfl, fun k => ?_, fun _ _ h => h, fun k n h => ?_⟩
  · rw [dieAt_modDie]
    split
    · next hk => rw [hk]
    · rfl
  · rw [dieAt_modDie]
    split
    · next hk =>
      subst hk
      exact tblFind_erase_none _ h
    · exact h

theorem evicted_evict (s : State) (core die line tag : Nat) : Evicted s (evict s core die line tag) := by
  have h1 : Evicted s (if freeBool s tag then modCore s core (fun c => { c with l1 := tblErase c.l1 line }) else s) := by
    split
    · exact evicted_modCore s core (fun _ => rfl) fun _ n h => tblFind_erase_none _ h
    · exact .refl s
  unfold evict
  dsimp only
  split
  · exact h1.trans (evicted_modDie _ _ _)
  · exact h1

theorem evicted_evictLines (s : State) (core die : Nat) (l : List Nat) : Evicted s (evictLines s core die l) := by
  unfold evictLines
  induction l generalizing s with
  | nil => exact .refl s
  | cons n r ih => exact (evicted_evict s core die n _).trans (ih _)

theorem evicted_serveCore (s : State) (core ctx : Nat) : Evicted s (modCore s core (fun c => serveCore c ctx)) := by
  refine evicted_modCore s core (fun c => ?_) fun c n h => ?_
  · unfold serveCore
    split <;> rfl
  · unfold serveCore
    split
    · exact h
    · rfl

/-- Putting values one after another under rising numbers appends them. -/
theorem tblIns_above {α : Type} {t : Tbl α} {k : Nat} (x : α) (h : ∀ e ∈ t, e.1 < k) : tblIns (tblErase t k) k x = t ++ [(k, x)] := by
  induction t with
  | nil => rfl
  | cons e r ih =>
    obtain ⟨j, y⟩ := e
    have hj : j < k := h (j, y) List.mem_cons_self
    have hr := ih fun e he => h e (List.mem_cons_of_mem _ he)
    simp only [tblErase, if_neg (Nat.ne_of_gt hj), tblIns, if_neg (Nat.not_lt.2 (Nat.le_of_lt hj)), hr, List.cons_append]

theorem foldl_tblPut_zipIdx {α β : Type} (f : α → β) (l : List α) (k : Nat) (t : Tbl β) (h : ∀ e ∈ t, e.1 < k) :
    (l.zipIdx k).foldl (fun g x => tblPut g x.2 (f x.1)) t = t ++ (l.zipIdx k).map (fun x => (x.2, f x.1)) := by
  induction l generalizing k t with
  | nil => simp
  | cons a r ih =>
    have hn : ∀ e ∈ t ++ [(k, f a)], e.1 < k + 1 := by
      intro e he
      rcases List.mem_append.1 he with he | he
      · exact Nat.lt_succ_of_lt (h e he)
      · rw [List.mem_singleton.1 he]
        exact Nat.lt_succ_self k
    rw [List.zipIdx_cons, List.foldl_cons, tblPut, tblIns_above _ h, ih (k + 1) _ hn, List.map_cons, List.append_assoc]
    rfl

/-- The state in which a load looks its bytes up. -/
def looked (s : State) (v : Wave) (a : Acc) : State := evictLines (modCore s (physCore s v.core) (fun c => serveCore c v.ctx)) (physCore s v.core) (dieOf v.core) a.lines

theorem evicted_looked (s : State) (v : Wave) (a : Acc) : Evicted s (looked s v a) := (evicted_serveCore s _ _).trans (evicted_evictLines _ _ _ _)

/-- What such a load reads. -/
def lookedBytes (s : State) (v : Wave) (a : Acc) : List Byte := a.bytes.map (fun b => readPlace (looked s v a) (physCore s v.core) (dieOf v.core) a.skipL1 [] b none 0)

theorem readTaken_whole {s : State} {core die : Nat} {a : Acc} (hg : a.got = []) : readTaken s core die [] a a.bytes.zipIdx = a.bytes.zipIdx.map (fun x => (x.2, readPlace s core die a.skipL1 [] x.1 none 0)) := by
  rw [readTaken, hg]
  exact foldl_tblPut_zipIdx (fun b => readPlace s core die a.skipL1 [] b none 0) a.bytes 0 [] nofun

theorem spoiled_of_sound {s : State} {bs : List AByte} {l : List Byte} (h : ∀ b ∈ bs, bytePoisoned s b = false) (hn : l.length = bs.length) : spoiled s bs l = l := by
  have hb : ∀ x ∈ (bs.zip l).zipIdx, (if bytePoisoned s x.1.1 then BitVec.ofNat 8 (free s (2 ^ 42 + x.2)) else x.1.2) = x.1.2 := by
    intro x hx
    have hm : x.1 ∈ bs.zip l := List.fst_mem_of_mem_zipIdx hx
    rw [h x.1.1 (List.of_mem_zip hm).1]
    rfl
  have hfst : (bs.zip l).zipIdx.map (fun x => x.1.2) = ((bs.zip l).zipIdx.map Prod.fst).map Prod.snd := by
    rw [List.map_map]
    rfl
  rw [spoiled, List.map_congr_left hb, hfst, List.zipIdx_map_fst]
  exact List.map_snd_zip (Nat.le_of_eq hn)

theorem doLoad_whole {s : State} {w : Nat} {v : Wave} {a : Acc} (ps : List LdPart) (hu : a.unit = 0) (hg : a.got = []) (ho : a.ord = 0) (hw : ∀ b ∈ a.bytes, readWaits (looked s v a) (physCore s v.core) (dieOf v.core) a.skipL1 [] b = false) (hp : ∀ b ∈ a.bytes, bytePoisoned (looked s v a) b = false) :
    doLoad s w v [] a ps = matchAccess (landAll (dropAcc (markSeen (fillLines (looked s v a) (physCore s v.core) (dieOf v.core) [] a) w [] a.bytes) w a.id) w (partWrs ps (lookedBytes s v a))) (waveSeen w v 0 a.bytes) := by
  have hany : a.bytes.any (readWaits (looked s v a) (physCore s v.core) (dieOf v.core) a.skipL1 []) = false := List.any_eq_false.2 fun b hb => by simp [hw b hb]
  have hnow : a.bytes.zipIdx.filter (fun x => a.takes s x.2 && !(readWaits (looked s v a) (physCore s v.core) (dieOf v.core) a.skipL1 [] x.1)) = a.bytes.zipIdx := by
    refine List.filter_eq_self.2 fun x hx => ?_
    have hx1 : x.1 ∈ a.bytes := List.fst_mem_of_mem_zipIdx hx
    simp [Acc.takes, hg, hu, hw x.1 hx1]
  have hacq : ∀ t : State, acqDrop t (physCore s v.core) a = t := fun t => by simp [acqDrop, ho, isAcq]
  have hvals : tblVals (a.bytes.zipIdx.map (fun x => (x.2, readPlace (looked s v a) (physCore s v.core) (dieOf v.core) a.skipL1 [] x.1 none 0))) = lookedBytes s v a := by
    rw [tblVals, List.map_map, lookedBytes]
    conv => rhs; rw [← List.zipIdx_map_fst 0 a.bytes, List.map_map]
    rfl
  have hlen : (a.bytes.zipIdx.map (fun x => (x.2, readPlace (looked s v a) (physCore s v.core) (dieOf v.core) a.skipL1 [] x.1 none 0))).length = a.bytes.length := by simp
  unfold doLoad
  dsimp only
  rw [show evictLines _ _ _ _ = looked s v a from rfl, hany, hnow, readTaken_whole hg, hlen, hvals, List.zipIdx_map_fst, spoiled_of_sound hp (by simp [lookedBytes]), hacq]
  simp

/-! The steps of the queues. -/

theorem away_of_here {a : Acc} (here : ∀ b ∈ a.bytes, b.at_.isPeer = false ∧ b.at_.isHost = false) : a.bytes.any (fun b => b.at_.isAway) = false :=
  List.any_eq_false.2 fun b hb => by
    obtain ⟨hp, hh⟩ := here b hb
    simp [Place.isAway, hp, hh]

section
variable {s : State} {w k : Nat} {v : Wave} {pre : List Acc} {a : Acc} (hacc : accAt s w k = some (v, pre, a))
include hacc

theorem exec_loadPerformed {ps : List LdPart} (hk : a.kind = .load ps) (haway : ∀ b ∈ a.bytes, b.at_.isAway = false) (hr : loadReady a pre = true) (hp : v.peersOk a = true) (hw : ¬ (isAcq a.ord = true ∧ acqWaits s (dieOf v.core) a = true)) :
    exec (.loadPerformed w k) s = .next (finish s (settle (doLoad s w v pre a ps))) := by
  have hany : a.bytes.any (fun b => b.at_.isAway) = false := List.any_eq_false.2 fun b hb => by simp [haway b hb]
  have hok : (isAcq a.ord && acqWaits s (dieOf v.core) a) = false := Bool.eq_false_iff.2 fun h => hw (by simpa using h)
  show execLoadPerformed w k s = _
  simp only [execLoadPerformed, hacc, hany, hk, hr, hp, hok, Bool.false_eq_true, if_false, Bool.not_false, Bool.and_self, if_true]
  rfl

theorem exec_spadStorePerformed {d : List Byte} (hk : a.kind = .store d) (haway : a.bytes.any (fun b => b.at_.isAway) = false) (hs : ∃ b ∈ a.bytes, b.at_.isSpad = true) (hr : storeReady a pre 1 = true) (hrel : released s (dieOf v.core) a pre = true) :
    exec (.storePerformed w k) s = .next (finish s (settle (spadStoreAcc s w v a (storeData a)))) := by
  have hspad : a.bytes.any (fun b => b.at_.isSpad) = true := List.any_eq_true.2 hs
  show execStorePerformed w k s = _
  simp only [execStorePerformed, hacc, hk, haway, hspad, packOpen, hr, hrel, Bool.false_eq_true, if_false, Bool.and_self, if_true]
  rfl

theorem exec_acceptStore {d : List Byte} (hk : a.kind = .store d) (haway : a.bytes.any (fun b => b.at_.isAway) = false) (hflat : ∀ b ∈ a.bytes, b.at_.isSpad = false) (hst : a.stage = 0) (hr : storeReady a pre 1 = true) (hrel : released s (dieOf v.core) a pre = true) :
    exec (.storePerformed w k) s = .next (finish s (settle (acceptStore s w v a (storeData a)))) := by
  have hspad : a.bytes.any (fun b => b.at_.isSpad) = false := List.any_eq_false.2 fun b hb => by simp [hflat b hb]
  show execStorePerformed w k s = _
  simp only [execStorePerformed, hacc, hk, haway, hspad, hst, hr, hrel, Bool.false_eq_true, if_false, Bool.and_self, if_true]
  rfl

theorem exec_homeStore {d : List Byte} (hk : a.kind = .store d) (haway : a.bytes.any (fun b => b.at_.isAway) = false) (hflat : ∀ b ∈ a.bytes, b.at_.isSpad = false) (hst : a.stage = 1) (haw : awayStore s (dieOf v.core) w k = true) (hord : dieOrder s (dieOf v.core) w k = true) :
    exec (.storePerformed w k) s = .next (finish s (settle (homeStore s w v a))) := by
  have hspad : a.bytes.any (fun b => b.at_.isSpad) = false := List.any_eq_false.2 fun b hb => by simp [hflat b hb]
  show execStorePerformed w k s = _
  simp only [execStorePerformed, hacc, hk, haway, hspad, hst, haw, hord, Bool.false_eq_true, if_false, Nat.one_ne_zero, if_true]
  rfl

theorem exec_packageStore {d : List Byte} (hk : a.kind = .store d) (haway : a.bytes.any (fun b => b.at_.isAway) = false) (hflat : ∀ b ∈ a.bytes, b.at_.isSpad = false) (hst : a.stage = 1) (haw : awayStore s (dieOf v.core) w k = false) (hr : storeReady a pre 2 = true) :
    exec (.storePerformed w k) s = .next (finish s (settle (packageStore s w v a))) := by
  have hspad : a.bytes.any (fun b => b.at_.isSpad) = false := List.any_eq_false.2 fun b hb => by simp [hflat b hb]
  show execStorePerformed w k s = _
  simp only [execStorePerformed, hacc, hk, haway, hspad, hst, haw, hr, Bool.false_eq_true, if_false, Nat.one_ne_zero, if_true]
  rfl

/-- What an atomic on device memory leaves before the steps that follow it. -/
def atomicDone (s : State) (w k : Nat) (v : Wave) (a : Acc) (ps : List LdPart) (r : State × List Byte) : State :=
  matchAccess (acqDrop (landAll (dropAcc r.1 w k) w (partWrs ps r.2)) (physCore s v.core) a) (waveSeen w v 2 a.bytes)

theorem exec_atomicPerformed {op : Nat} {b c : Word} {ps : List LdPart} (hk : a.kind = .atomic op b c ps) (here : ∀ b ∈ a.bytes, b.at_.isPeer = false) (hflat : ∀ b ∈ a.bytes, b.at_.isSpad = false) (hr : atomicReady a pre = true) (hrel : released s (dieOf v.core) a pre = true)
    (hland : isRel a.ord = true → v.landedBefore a.cyc = true) (hp : v.peersOk a = true) (hw : atomicWaits s (dieOf v.core) a = false) :
    exec (.atomicPerformed w k) s = .next (finish s (settle (atomicDone s w k v a ps (atomicHome s (physCore s v.core) a op b c)))) := by
  have hspad : a.bytes.any (fun b => b.at_.isSpad) = false := List.any_eq_false.2 fun b hb => by simp [hflat b hb]
  have hpeer : a.bytes.any (fun b => b.at_.isPeer) = false := List.any_eq_false.2 fun b hb => by simp [here b hb]
  have hl : (!(isRel a.ord) || v.landedBefore a.cyc) = true := by
    cases h : isRel a.ord
    · rfl
    · rw [hland h]
      rfl
  show execAtomicPerformed w k s = _
  simp only [execAtomicPerformed, hacc, hk, hspad, hpeer, hr, hrel, hl, hp, hw, Bool.not_true, Bool.not_false, Bool.false_eq_true, if_false, Bool.and_self, if_true]
  rfl

end

/-! The only access of a wave. -/

/-- R241: nothing holds access `a`, the only one of wave `w`: it is plain, whole and of no instruction that waits for answers. -/
structure Sole (s : State) (w : Nat) (v : Wave) (a : Acc) : Prop where
  wave : waveAt s w = some v
  only : v.accs = [a]
  free : a.gated = false ∧ a.gap = none
  whole : a.got = [] ∧ a.unit = 0
  plain : a.ord = 0
  near : v.inPeer a = false
  unwatched : ∀ d ∈ s.dies, d.2.watch.wctl = []

theorem matchAccess_of_wctl {s : State} (h : ∀ d, (dieAt s d).watch.wctl = []) (a : Seen) : matchAccess s a = s := by
  simp [matchAccess, h, tblKeys, foldl_keeps]

theorem KeepsBytes.wctl {s t : State} (h : KeepsBytes s t) (hu : ∀ d ∈ s.dies, d.2.watch.wctl = []) (d : Nat) : (dieAt t d).watch.wctl = [] := by
  rw [h.watch d]
  exact wctl_of_unwatched hu d

theorem keepsBytes_fillLines (s : State) (core die : Nat) (pre : List Acc) (a : Acc) : KeepsBytes s (fillLines s core die pre a) := by
  refine KeepsBytes.foldl (fun t b _ => ?_) s
  split
  · split
    · exact .refl t
    · exact keepsBytes_fillRead _ _ _ _ _
  · exact .refl t

theorem waves_fillLines (s : State) (core die : Nat) (pre : List Acc) (a : Acc) : (fillLines s core die pre a).waves = s.waves := by
  refine List.foldlRecOn (motive := fun t : State => t.waves = s.waves) a.bytes _ rfl fun t ht b _ => ?_
  split
  · split
    · exact ht
    · exact (onlyCaches_fillRead _ _ _ _ _).1.trans ht
  · exact ht

theorem waveAt_markSeen_none {s : State} {w : Nat} {v : Wave} (hv : waveAt s w = some v) (l : List AByte) : waveAt (markSeen s w [] l) w = some v := by
  rw [markSeen, waveAt_modWave_of hv]
  simp

theorem keepsBytes_landScalar (s : State) (w r x : Nat) : KeepsBytes s (landAll s w [⟨.s r, x⟩]) := keepsBytes_modWave s w _

theorem waveAt_landScalar {s : State} {w : Nat} {v : Wave} (hv : waveAt s w = some v) (r x : Nat) : waveAt (landAll s w [⟨.s r, x⟩]) w = some (v.setS r (BitVec.ofNat 64 x)) := waveAt_modWave_of hv _

section
variable {s : State} {w : Nat} {v : Wave} {a : Acc} (h : Sole s w v a)
include h

theorem Sole.accAt : accAt s w a.id = some (v, [], a) := by simp [Machine.accAt, h.wave, h.only, splitAcc]

theorem Sole.loadReady : loadReady a [] = true := by
  obtain ⟨hg, hn⟩ := h.free
  simp [Machine.loadReady, hg, hn]

theorem Sole.storeReady (n : Nat) : storeReady a [] n = true := by
  obtain ⟨hg, hn⟩ := h.free
  simp [Machine.storeReady, hg, hn]

theorem Sole.released (d : Nat) : released s d a [] = true := by simp [Machine.released, h.plain, isRel]

theorem Sole.peersOk : v.peersOk a = true := by simp [Wave.peersOk, h.near]

theorem Sole.noAcq : isAcq a.ord = false := by simp [h.plain, isAcq]

/-- The wave without its access. -/
theorem Sole.dropped {t : State} (hv : waveAt t w = some v) : waveAt (dropAcc t w a.id) w = some { v with accs := [] } := by
  rw [dropAcc, waveAt_modWave_of hv]
  simp [h.only]

/-- R244, R245: such a load into a scalar register reads its bytes and puts their value there. -/
theorem Sole.loads {r : Nat} {p : LdPart} (hk : a.kind = .load [p]) (hd : p.dst = .s r) (haway : ∀ b ∈ a.bytes, b.at_.isAway = false)
    (hw : ∀ b ∈ a.bytes, readWaits (looked s v a) (physCore s v.core) (dieOf v.core) a.skipL1 [] b = false) (hp : ∀ b ∈ a.bytes, bytePoisoned (looked s v a) b = false) :
    ∃ s1 v1, exec (.loadPerformed w a.id) s = .next (finish s (settle s1)) ∧ waveAt s1 w = some v1 ∧ v1.accs = [] ∧ v1.getS r = BitVec.ofNat 64 (p.value (leNat (lookedBytes s v a))) ∧ (∀ j, j ≠ r → v1.getS j = v.getS j) ∧ (∀ q, rdByte s1 q = rdByte s q) ∧ ∀ q, spadByte s1 q = spadByte s q := by
  obtain ⟨hgot, hunit⟩ := h.whole
  have hwr : partWrs [p] (lookedBytes s v a) = [⟨.s r, p.value (leNat (lookedBytes s v a))⟩] := by simp [partWrs, hd]
  have hl := evicted_looked s v a
  have hv1 : waveAt (fillLines (looked s v a) (physCore s v.core) (dieOf v.core) [] a) w = some v := by
    rw [waveAt, waves_fillLines, hl.waves]
    exact h.wave
  have hkeep : KeepsBytes s (landAll (dropAcc (markSeen (fillLines (looked s v a) (physCore s v.core) (dieOf v.core) [] a) w [] a.bytes) w a.id) w [⟨.s r, p.value (leNat (lookedBytes s v a))⟩]) :=
    (((hl.keeps.trans (keepsBytes_fillLines _ _ _ _ _)).trans (keepsBytes_modWave _ _ _)).trans (keepsBytes_modWave _ _ _)).trans (keepsBytes_landScalar _ _ _ _)
  have hx := exec_loadPerformed h.accAt hk haway h.loadReady h.peersOk (fun hh => by simp [h.noAcq] at hh)
  rw [doLoad_whole [p] hunit hgot h.plain hw hp, hwr, matchAccess_of_wctl (hkeep.wctl h.unwatched)] at hx
  exact ⟨_, _, hx, waveAt_landScalar (h.dropped (waveAt_markSeen_none hv1 _)) _ _, rfl, getS_setS_self _ _ _, fun j hj => getS_setS_ne _ _ hj, hkeep.memory, hkeep.scratchpad⟩

/-- Such a load of scratchpad. -/
theorem Sole.loads_spad {r : Nat} {p : LdPart} (hk : a.kind = .load [p]) (hd : p.dst = .s r) (hs : ∀ b ∈ a.bytes, ∃ cohort core off, b.at_ = .spad cohort core off) (hp : ∀ b ∈ a.bytes, spadPoisoned s b.at_ = false) :
    ∃ s1 v1, exec (.loadPerformed w a.id) s = .next (finish s (settle s1)) ∧ waveAt s1 w = some v1 ∧ v1.accs = [] ∧ v1.getS r = BitVec.ofNat 64 (p.value (leNat (a.bytes.map (fun b => spadByte s b.at_)))) ∧ (∀ j, j ≠ r → v1.getS j = v.getS j) ∧ (∀ q, rdByte s1 q = rdByte s q) ∧ ∀ q, spadByte s1 q = spadByte s q := by
  have hl := evicted_looked s v a
  have hb : lookedBytes s v a = a.bytes.map (fun b => spadByte s b.at_) := by
    refine List.map_congr_left fun b hb => ?_
    obtain ⟨cohort, core, off, hat⟩ := hs b hb
    simp only [readPlace, ownByte, List.foldl_nil, hat]
    exact hl.keeps.scratchpad _
  rw [← hb]
  refine h.loads hk hd (fun b hb => ?_) (fun b hb => ?_) fun b hb => ?_
  · obtain ⟨cohort, core, off, hat⟩ := hs b hb
    rw [hat]
    rfl
  · obtain ⟨cohort, core, off, hat⟩ := hs b hb
    simp [readWaits, missWaits, hat]
  · have hq := hp b hb
    obtain ⟨cohort, core, off, hat⟩ := hs b hb
    rw [hat] at hq
    simpa only [bytePoisoned, hat, spadPoisoned, hl.cohorts] using hq

end

/-! Bytes of one line of device memory. -/

/-- The bytes of an access are those of device memory from `pa` on, all in one line. -/
structure InLine (a : Acc) (pa : Nat) : Prop where
  places : a.bytes.map (·.at_) = (List.range a.bytes.length).map (fun i => Place.dev (pa + i))
  line : lineOf pa = lineOf (pa + a.bytes.length - 1)
  device : ∀ i < a.bytes.length, inDevice (pa + i) = true

section
variable {a : Acc} {pa : Nat} (h : InLine a pa)
include h

theorem InLine.byte {b : AByte} (hb : b ∈ a.bytes) : ∃ i < a.bytes.length, b.at_ = .dev (pa + i) ∧ lineOf (pa + i) = lineOf pa := by
  have hm : b.at_ ∈ (List.range a.bytes.length).map (fun i => Place.dev (pa + i)) := h.places ▸ List.mem_map_of_mem hb
  obtain ⟨i, hi, he⟩ := List.mem_map.1 hm
  exact ⟨i, List.mem_range.1 hi, he.symm, lineOf_add_of_lt h.line (List.mem_range.1 hi)⟩

theorem InLine.head {b : AByte} {r : List AByte} (hb : a.bytes = b :: r) : b.at_ = .dev pa := by
  have hh := congrArg List.head? h.places
  rw [hb] at hh
  simpa [List.range_succ_eq_map] using hh

theorem InLine.map_bytes {f : AByte → Byte} {g : Nat → Byte} (hf : ∀ b ∈ a.bytes, ∀ q, b.at_ = .dev q → f b = g q) : a.bytes.map f = (List.range a.bytes.length).map (fun i => g (pa + i)) := by
  have h1 : a.bytes.map f = (a.bytes.map (·.at_)).map (fun p => g (p.devAddr.getD 0)) := by
    rw [List.map_map]
    refine List.map_congr_left fun b hb => ?_
    obtain ⟨i, -, hat, -⟩ := h.byte hb
    simp [hf b hb _ hat, hat, Place.devAddr]
  rw [h1, h.places, List.map_map]
  rfl

theorem InLine.near {b : AByte} (hb : b ∈ a.bytes) : b.at_.isPeer = false ∧ b.at_.isHost = false ∧ b.at_.isAway = false ∧ b.at_.isSpad = false := by
  obtain ⟨i, -, hat, -⟩ := h.byte hb
  rw [hat]
  exact ⟨rfl, rfl, rfl, rfl⟩

end

theorem lineHeld_of_none {s : State} {die : Nat} (h : (dieAt s die).pend = []) (l : List Nat) : lineHeld s die l = false := by simp [lineHeld, h]

theorem pendByte_of_none {s : State} {die : Nat} (h : (dieAt s die).pend = []) (pa key : Nat) : pendByte s die pa key = none := by simp [pendByte, h]

theorem remoteByte_of_none {s : State} {die pa : Nat} (h : tblFind (dieAt s die).remote (lineOf pa) = none) (key : Nat) : remoteByte s die pa key = none := by simp [remoteByte, h]

/-- R245: a byte that no cache and no store on its way holds is read at its home. -/
theorem readPlace_uncached {s : State} {core die pa : Nat} {acq : Bool} {b : AByte} (hat : b.at_ = .dev pa) (hp : (dieAt s die).pend = []) (hr : tblFind (dieAt s die).remote (lineOf pa) = none) (hl : tblFind (coreAt s core).l1 (lineOf pa) = none)
    (hu : pa ∉ s.unspec) (hk : ∀ k, tblFind s.lineKey (lineOf pa) = some k → k = b.attr.key) : readPlace s core die acq [] b none 0 = rdByte s pa := by
  have hpoc : pocByte s die b.attr pa 0 = rdByte s pa := by
    simp [pocByte, pendByte_of_none hp, remoteByte_of_none hr, homeByte_of_known 0 hu hk]
  have hl1 : l1Byte s core die b.attr pa 0 = rdByte s pa := by
    simp only [l1Byte, hl]
    exact hpoc
  simp only [readPlace, ownByte, List.foldl_nil, hat, hpoc, hl1, ite_self]

section
variable {s : State} {w : Nat} {v : Wave} {a : Acc} (h : Sole s w v a)
include h

/-- Such a load of device memory. -/
theorem Sole.loads_memory {r pa : Nat} {p : LdPart} (hk : a.kind = .load [p]) (hd : p.dst = .s r) (hm : InLine a pa) (hpo : lineOf pa ∉ s.poison) (hkey : ∀ b ∈ a.bytes, (∀ k, tblFind s.lineKey (lineOf pa) = some k → k = b.attr.key) ∧ ∀ i < a.bytes.length, pa + i ∉ s.unspec)
    (hpend : (dieAt s (dieOf v.core)).pend = []) (hrem : tblFind (dieAt s (dieOf v.core)).remote (lineOf pa) = none) (hl1 : tblFind (coreAt s (physCore s v.core)).l1 (lineOf pa) = none) :
    ∃ s1 v1, exec (.loadPerformed w a.id) s = .next (finish s (settle s1)) ∧ waveAt s1 w = some v1 ∧ v1.accs = [] ∧ v1.getS r = BitVec.ofNat 64 (p.value (leNat (rdBytes s pa a.bytes.length))) ∧ (∀ j, j ≠ r → v1.getS j = v.getS j) ∧ (∀ q, rdByte s1 q = rdByte s q) ∧ ∀ q, spadByte s1 q = spadByte s q := by
  have hl := evicted_looked s v a
  have hpend' : (dieAt (looked s v a) (dieOf v.core)).pend = [] := (hl.pend _).trans hpend
  have hb : lookedBytes s v a = rdBytes s pa a.bytes.length := by
    rw [rdBytes_eq_map]
    refine hm.map_bytes fun b hb q hq => ?_
    obtain ⟨i, hi, hat, hline⟩ := hm.byte hb
    obtain rfl : pa + i = q := Place.dev.inj (hat.symm.trans hq)
    obtain ⟨hkb, hub⟩ := hkey b hb
    rw [readPlace_uncached hat hpend' (hl.remote _ _ (hline ▸ hrem)) (hl.l1 _ _ (hline ▸ hl1)) (by rw [hl.unspec]; exact hub i hi) (by rw [hl.lineKey, hline]; exact hkb)]
    exact hl.keeps.memory _
  rw [← hb]
  refine h.loads hk hd (fun b hb => (hm.near hb).2.2.1) (fun b hb => ?_) fun b hb => ?_
  · obtain ⟨i, hi, hat, hline⟩ := hm.byte hb
    simp [readWaits, missWaits, hat, lineHeld_of_none hpend']
  · obtain ⟨i, hi, hat, hline⟩ := hm.byte hb
    simp [bytePoisoned, hat, poisoned, hline, hl.poison, hpo]

end

/-! Puts one after another. -/

section
variable {σ κ β γ : Type} {rd : σ → κ → γ} {put : σ → β → σ} {key : β → κ}

theorem read_foldl_put_ne (hne : ∀ s b q, q ≠ key b → rd (put s b) q = rd s q) {l : List β} {q : κ} (h : ∀ b ∈ l, q ≠ key b) (s : σ) : rd (l.foldl put s) q = rd s q := by
  induction l generalizing s with
  | nil => rfl
  | cons b r ih => rw [List.foldl_cons, ih (fun c hc => h c (List.mem_cons_of_mem _ hc)), hne s b q (h b List.mem_cons_self)]

/-- Where no place is put to twice, each holds what was put to it; `ok` is what a state must have for its puts to land. -/
theorem read_foldl_put_mem {val : β → γ} {ok : σ → Prop} (hok : ∀ s b, ok s → ok (put s b)) (hne : ∀ s b q, q ≠ key b → rd (put s b) q = rd s q) {l : List β} (hself : ∀ s, ∀ b ∈ l, ok s → rd (put s b) (key b) = val b)
    (hn : (l.map key).Nodup) {s : σ} (hs : ok s) {b : β} (hb : b ∈ l) : rd (l.foldl put s) (key b) = val b := by
  induction l generalizing s with
  | nil => cases hb
  | cons c r ih =>
    rw [List.map_cons, List.nodup_cons] at hn
    obtain ⟨hc, hr⟩ := hn
    rw [List.foldl_cons]
    rcases List.mem_cons.1 hb with rfl | hb
    · rw [read_foldl_put_ne hne (fun d hd he => hc (by rw [he]; exact List.mem_map_of_mem hd)), hself s b List.mem_cons_self hs]
    · exact ih (fun t d hd ht => hself t d (List.mem_cons_of_mem _ hd) ht) hr (hok s c hs) hb

end

/-! A store of scratchpad. -/

/-- A place of scratchpad that a core of a cohort holds. -/
def Held (s : State) (p : Place) : Prop := ∃ cohort core off co al, p = .spad cohort core off ∧ tblFind s.cohorts cohort = some co ∧ tblFind co.spad core = some al

theorem held_spadPut {s : State} {p : Place} (q : Place) (b : Byte) (h : Held s p) : Held (spadPut s q b) p := by
  obtain ⟨cohort, core, off, co, al, rfl, hc, ha⟩ := h
  cases q with
  | spad k c o =>
    by_cases hk : cohort = k
    · subst hk
      refine ⟨cohort, core, off, { co with spad := tblMod co.spad c (allocPut o b) }, if core = c then allocPut o b al else al, rfl, ?_, ?_⟩
      · refine (tblFind_mod_self _ _ _).trans ?_
        rw [hc]
        rfl
      · by_cases hcc : core = c
        · subst hcc
          simp only [tblFind_mod_self, ha, if_true]
          rfl
        · rw [if_neg hcc, tblFind_mod_ne _ _ hcc, ha]
    · exact ⟨cohort, core, off, co, al, rfl, (tblFind_mod_ne _ _ hk).trans hc, ha⟩
  | _ => exact ⟨cohort, core, off, co, al, rfl, hc, ha⟩

theorem held_spadStore {s : State} {p : Place} (q : Place) (b : Byte) (h : Held s p) : Held (spadStore s q b) p := held_spadPut q b h

theorem spadByte_spadStore_self {s : State} {p : Place} (b : Byte) (h : Held s p) : spadByte (spadStore s p b) p = b := by
  obtain ⟨cohort, core, off, co, al, rfl, hc, ha⟩ := h
  rw [spadByte_spadStore]
  exact spadByte_spadPut_spad off b hc ha

theorem dies_spadStore (s : State) (p : Place) (b : Byte) : (spadStore s p b).dies = s.dies := by cases p <;> rfl

theorem waves_spadPut (s : State) (p : Place) (b : Byte) : (spadPut s p b).waves = s.waves := by cases p <;> rfl

theorem wakes_spadStore (s : State) (p : Place) (b : Byte) : Wakes s (spadStore s p b) := by
  intro w a h
  exact wakes_wakeAll (spadPut s p b) none (granuleOf p) w a (by rw [waveAt, waves_spadPut]; exact h)

theorem Wakes.foldl {α : Type} {f : State → α → State} (h : ∀ s x, Wakes s (f s x)) (xs : List α) (s : State) : Wakes s (xs.foldl f s) := by
  induction xs generalizing s with
  | nil => exact .refl s
  | cons x r ih => exact (h s x).trans (ih _)

/-- R248: a store of one unit is taken whole. -/
theorem takeStore_whole {s : State} {a : Acc} {d : List Byte} (hg : a.got = []) (hu : a.unit = 0) (hd : d.length = a.bytes.length) : (takeStore s a d).1 = a.bytes.zip d ∧ (takeStore s a d).2.stage = 1 := by
  have hnow : (a.bytes.zip d).zipIdx.filter (fun x => a.takes s x.2) = (a.bytes.zip d).zipIdx := List.filter_eq_self.2 fun x _ => by simp [Acc.takes, hg, hu]
  have hgot : ((a.bytes.zip d).zipIdx.foldl (fun g x => tblPut g x.2 x.1.2) a.got).length = a.bytes.length := by
    rw [hg, foldl_tblPut_zipIdx (fun y : AByte × Byte => y.2) _ 0 [] nofun]
    simp [hd]
  unfold takeStore
  dsimp only
  rw [hnow, hgot, List.zipIdx_map_fst]
  exact ⟨rfl, if_neg (Nat.lt_irrefl _)⟩

section
variable {s : State} {w : Nat} {v : Wave} {a : Acc} (h : Sole s w v a)
include h

theorem Sole.stores_spad {d : List Byte} (hk : a.kind = .store d) (hd : d.length = a.bytes.length) (hne : a.bytes ≠ []) (hs : ∀ b ∈ a.bytes, Held s b.at_) (hn : (a.bytes.map (·.at_)).Nodup) :
    ∃ s1 v1, exec (.storePerformed w a.id) s = .next (finish s (settle s1)) ∧ waveAt s1 w = some v1 ∧ v1.accs = [] ∧ v1.s = v.s ∧ (∀ y ∈ a.bytes.zip d, spadByte s1 y.1.at_ = y.2) ∧ (∀ q, (∀ b ∈ a.bytes, q ≠ b.at_) → spadByte s1 q = spadByte s q) ∧ ∀ q, rdByte s1 q = rdByte s q := by
  obtain ⟨hgot, hunit⟩ := h.whole
  obtain ⟨h1, h2⟩ := takeStore_whole (s := s) hgot hunit hd
  have hplace : ∀ b ∈ a.bytes, b.at_.isAway = false ∧ b.at_.isSpad = true := by
    intro b hb
    obtain ⟨cohort, core, off, -, -, hat, -, -⟩ := hs b hb
    rw [hat]
    exact ⟨rfl, rfl⟩
  obtain ⟨b0, hb0⟩ := List.exists_mem_of_ne_nil _ hne
  have hx := exec_spadStorePerformed h.accAt hk (List.any_eq_false.2 fun b hb => by simp [(hplace b hb).1]) ⟨b0, hb0, (hplace b0 hb0).2⟩ (h.storeReady 1) (h.released _)
  have hdata : storeData a = d := by simp [storeData, hk]
  have hdies : ((a.bytes.zip d).foldl (fun t x => spadStore t x.1.at_ x.2) s).dies = s.dies := List.foldlRecOn (motive := fun t : State => t.dies = s.dies) _ _ rfl fun t ht x _ => (dies_spadStore t _ _).trans ht
  obtain ⟨g, -, hv1⟩ := Wakes.foldl (f := fun t (x : AByte × Byte) => spadStore t x.1.at_ x.2) (fun t x => wakes_spadStore t _ _) (a.bytes.zip d) s w v h.wave
  rw [spadStoreAcc, hdata] at hx
  rw [h1, h2, if_neg Nat.one_ne_zero, matchAccess_of_unwatched (by rw [show (dropAcc _ w a.id).dies = _ from hdies]; exact h.unwatched)] at hx
  have hkeep := keepsBytes_modWave ((a.bytes.zip d).foldl (fun t x => spadStore t x.1.at_ x.2) s) w (fun v => { v with accs := v.accs.filter (fun x => decide (x.id ≠ a.id)) })
  refine ⟨_, _, hx, waveAt_modWave_of hv1 _, ?_, rfl, fun y hy => ?_, fun q hq => ?_, fun q => ?_⟩
  · simp [Wave.noted, h.only]
  · refine (hkeep.scratchpad _).trans ?_
    exact read_foldl_put_mem (rd := spadByte) (put := fun t (x : AByte × Byte) => spadStore t x.1.at_ x.2) (key := fun x => x.1.at_) (val := Prod.snd) (ok := fun t => ∀ b ∈ a.bytes, Held t b.at_) (fun t x ht b hb => held_spadStore _ _ (ht b hb))
      (fun t x q hq => (spadByte_spadStore _ _ _ _).trans (spadByte_spadPut_ne t x.2 hq)) (fun t x hx ht => spadByte_spadStore_self _ (ht x.1 (List.of_mem_zip hx).1)) (by rwa [show (a.bytes.zip d).map (fun x => x.1.at_) = ((a.bytes.zip d).map Prod.fst).map (·.at_) by rw [List.map_map]; rfl, List.map_fst_zip (Nat.le_of_eq hd.symm)]) hs hy
  · refine (hkeep.scratchpad _).trans ?_
    exact read_foldl_put_ne (rd := spadByte) (put := fun t (x : AByte × Byte) => spadStore t x.1.at_ x.2) (key := fun x => x.1.at_) (fun t x q hq => (spadByte_spadStore _ _ _ _).trans (spadByte_spadPut_ne t x.2 hq)) (fun x hx => hq x.1 (List.of_mem_zip hx).1) s
  · refine (hkeep.memory _).trans ?_
    exact List.foldlRecOn (motive := fun t : State => rdByte t q = rdByte s q) _ _ rfl fun t ht x _ => (rdByte_spadStore t _ _ _).trans ht

end

/-! A store of device memory. -/

/-- The bytes that a store puts at their homes, with the address and the key of each. -/
def storeCells (a : Acc) (d : List Byte) : List (Nat × Byte × Nat) := (a.bytes.zip d).map (fun x => (x.1.at_.devAddr.getD 0, x.2, x.1.attr.key))

/-- One byte accepted by its home. -/
def homeStep (s : State) (c : Nat × Byte × Nat) : State := wakeLine (homePut s c.2.2 c.1 c.2.1) (lineOf c.1)

theorem rdByte_homeStep_ne (s : State) (c : Nat × Byte × Nat) (q : Nat) (h : q ≠ c.1) : rdByte (homeStep s c) q = rdByte s q := by
  rw [homeStep, wakeLine, rdByte_wakeAll, homePut, rdByte_wrByte_ne _ _ h, (keepsBytes_lineTake _ _ _).memory]

theorem rdByte_homeStep_self (s : State) {c : Nat × Byte × Nat} (h : inDevice c.1 = true) : rdByte (homeStep s c) c.1 = c.2.1 := by
  rw [homeStep, wakeLine, rdByte_wakeAll, homePut, rdByte_wrByte_self _ _ _ h]

theorem spadByte_homeStep (s : State) (c : Nat × Byte × Nat) (q : Place) : spadByte (homeStep s c) q = spadByte s q := by
  refine ((keepsBytes_wakeAll _ _ _).scratchpad q).trans (Eq.trans ?_ ((keepsBytes_lineTake s c.2.2 (lineOf c.1)).scratchpad q))
  cases q <;> rfl

theorem wakes_homeStep (s : State) (c : Nat × Byte × Nat) : Wakes s (homeStep s c) := by
  intro w v h
  exact wakes_wakeAll (homePut s c.2.2 c.1 c.2.1) _ _ w v (by rw [waveAt, show (homePut s c.2.2 c.1 c.2.1).waves = s.waves from waves_lineTake _ _ _]; exact h)

theorem homeDie_of_line {pa q die : Nat} (h : lineOf q = lineOf pa) (hd : homeDie pa = die) : homeDie q = die := by
  subst hd
  unfold lineOf at h
  have h1 : q < 0x20000000000 ↔ pa < 0x20000000000 := by omega
  have h2 : q / 0x1000000000 = pa / 0x1000000000 := by omega
  have h3 : bits q 12 2 = bits pa 12 2 := by
    unfold bits
    omega
  simp only [homeDie, h1, h2, h3]

theorem filterMap_eq_map_of_some {α β : Type} {f : α → Option β} {g : α → β} {l : List α} (h : ∀ x ∈ l, f x = some (g x)) : l.filterMap f = l.map g := by
  induction l with
  | nil => rfl
  | cons x l ih => rw [List.filterMap_cons_some (h x List.mem_cons_self), ih fun y hy => h y (List.mem_cons_of_mem x hy), List.map_cons]

section
variable {a : Acc} {pa : Nat} (h : InLine a pa)
include h

theorem InLine.addresses {d : List Byte} (hd : d.length = a.bytes.length) : (storeCells a d).map (·.1) = (List.range a.bytes.length).map (fun i => pa + i) := by
  have h1 : (storeCells a d).map (·.1) = (a.bytes.map (·.at_)).map (fun p => p.devAddr.getD 0) := by
    rw [storeCells, List.map_map, List.map_map]
    conv => rhs; rw [← List.map_fst_zip (l₁ := a.bytes) (l₂ := d) (Nat.le_of_eq hd.symm), List.map_map]
    rfl
  rw [h1, h.places, List.map_map]
  rfl

theorem InLine.cells {d : List Byte} : (a.bytes.zip d).filterMap (fun x => x.1.at_.devAddr.map (fun pa => (pa, x.2, x.1.attr.key))) = storeCells a d := by
  refine filterMap_eq_map_of_some fun x hx => ?_
  obtain ⟨i, -, hat, -⟩ := h.byte (List.of_mem_zip hx).1
  simp [hat, Place.devAddr]

theorem InLine.mem_cells {d : List Byte} (hd : d.length = a.bytes.length) {c : Nat × Byte × Nat} (hc : c ∈ storeCells a d) : ∃ i < a.bytes.length, c.1 = pa + i := by
  have hm : c.1 ∈ (List.range a.bytes.length).map (fun i => pa + i) := h.addresses hd ▸ List.mem_map_of_mem hc
  obtain ⟨i, hi, he⟩ := List.mem_map.1 hm
  exact ⟨i, List.mem_range.1 hi, he.symm⟩

/-- R245: once the homes have taken a store's bytes, memory holds them. -/
theorem InLine.rdBytes_stored {d : List Byte} (hd : d.length = a.bytes.length) (s : State) : rdBytes ((storeCells a d).foldl homeStep s) pa a.bytes.length = d := by
  have hn : ((storeCells a d).map (·.1)).Nodup := by
    rw [h.addresses hd]
    exact List.pairwise_map.2 (List.Pairwise.imp (fun hne he => hne (Nat.add_left_cancel he)) List.nodup_range)
  rw [rdBytes_eq_map]
  refine List.ext_getElem (by simp [hd]) fun i hi hj => ?_
  have hlen : i < (storeCells a d).length := by simpa [storeCells, hd] using hj
  have hc : (storeCells a d)[i] ∈ storeCells a d := List.getElem_mem hlen
  have hfst : (storeCells a d)[i].1 = pa + i := by
    have := List.getElem_of_eq (h.addresses hd) (i := i) (by simpa using hlen)
    simpa using this
  have hval : (storeCells a d)[i].2.1 = d[i] := by simp [storeCells]
  have hput := read_foldl_put_mem (rd := rdByte) (put := homeStep) (key := (·.1)) (val := (·.2.1)) (ok := fun _ => True) (fun _ _ _ => trivial) (fun t c q hq => rdByte_homeStep_ne t c q hq)
    (fun t c hc _ => rdByte_homeStep_self t (by obtain ⟨j, hj, he⟩ := h.mem_cells hd hc; rw [he]; exact h.device j hj)) hn (s := s) trivial hc
  rw [hfst, hval] at hput
  simpa using hput

theorem InLine.rdByte_outside {d : List Byte} (hd : d.length = a.bytes.length) (s : State) {q : Nat} (hq : ¬ (pa ≤ q ∧ q < pa + a.bytes.length)) : rdByte ((storeCells a d).foldl homeStep s) q = rdByte s q := by
  refine read_foldl_put_ne (rd := rdByte) (put := homeStep) (key := (·.1)) (fun t c q hq => rdByte_homeStep_ne t c q hq) (fun c hc he => hq ?_) s
  obtain ⟨i, hi, hci⟩ := h.mem_cells hd hc
  omega

end

theorem keepsBytes_updateL1 (s : State) (core key pa : Nat) (b : Byte) : KeepsBytes s (updateL1 s core key pa b) := keepsBytes_modCore s core fun _ => rfl

/-- Between `s` and `t` no byte of scratchpad has changed, and no watchpoint. -/
def KeepsPads (s t : State) : Prop := (∀ q, spadByte t q = spadByte s q) ∧ ∀ d, (dieAt t d).watch = (dieAt s d).watch

theorem KeepsBytes.pads {s t : State} (h : KeepsBytes s t) : KeepsPads s t := ⟨h.scratchpad, h.watch⟩

theorem KeepsPads.trans {a b c : State} (h : KeepsPads a b) (g : KeepsPads b c) : KeepsPads a c := ⟨fun q => (g.1 q).trans (h.1 q), fun d => (g.2 d).trans (h.2 d)⟩

theorem keepsPads_packagePut (s : State) (key pa : Nat) (b : Byte) : KeepsPads s (packagePut s key pa b) := by
  have hw : KeepsPads (lineTake s key (lineOf pa)) (homePut s key pa b) := ⟨fun q => by cases q <;> rfl, fun _ => rfl⟩
  exact (((keepsBytes_lineTake s key (lineOf pa)).pads.trans hw).trans (keepsBytes_invalidateOthers _ none (lineOf pa)).pads).trans (keepsBytes_wakeAll _ _ _).pads

theorem keepsPads_packagePutAll (s : State) (key pa : Nat) (l : List Byte) : KeepsPads s (packagePutAll s key pa l) := by
  induction l generalizing s pa with
  | nil => exact (KeepsBytes.refl s).pads
  | cons b r ih => exact (keepsPads_packagePut s key pa b).trans (ih _ _)

theorem keepsBytes_dropLine (s : State) (core n : Nat) : KeepsBytes s (dropLine s core n) := keepsBytes_modCore s core fun _ => rfl

/-- R256: an atomic on device memory touches no scratchpad, and does no more to a wave than wake it. -/
theorem atomicHome_leaves (s : State) (core : Nat) (a : Acc) (op : Nat) (b c : Word) : KeepsPads s (atomicHome s core a op b c).1 ∧ Wakes s (atomicHome s core a op b c).1 := by
  have same : KeepsPads s s ∧ Wakes s s := ⟨(KeepsBytes.refl s).pads, .refl s⟩
  have gone : ∀ n, KeepsPads s (dropLine (invalidateOthers s none n) core n) := fun n => ((keepsBytes_invalidateOthers s none n).trans (keepsBytes_dropLine _ core n)).pads
  unfold atomicHome
  split
  · exact same
  · dsimp only
    split
    · exact same
    · split
      · exact ⟨(gone _).trans (keepsPads_packagePutAll _ _ _ _), fun w v hv => wakes_packagePutAll _ _ (dropLine (invalidateOthers s none _) core _) _ w v hv⟩
      · exact ⟨(gone _).trans (keepsBytes_lineTake _ _ _).pads, fun w v hv => ⟨id, wakesOnly_id, by rw [waveAt, waves_lineTake, Wave.noted_id]; exact hv⟩⟩

section
variable {s : State} {w : Nat} {v : Wave} {a : Acc} (h : Sole s w v a)
include h

/-- The wave with its access changed. -/
theorem Sole.changed {t : State} {v1 : Wave} (hv : waveAt t w = some v1) (hq : v1.accs = v.accs) (f : Acc → Acc) : waveAt (modAcc t w a.id f) w = some { v1 with accs := [f a] } := by
  rw [modAcc, waveAt_modWave_of hv]
  simp [hq, h.only]

/-- R245: a store that the issuing die is home to is in memory once the die has accepted it. -/
theorem Sole.accepts {d : List Byte} {pa : Nat} (hk : a.kind = .store d) (hd : d.length = a.bytes.length) (hst : a.stage = 0) (hm : InLine a pa) (hhome : homeDie pa = dieOf v.core) :
    ∃ s1 v1 a1, exec (.storePerformed w a.id) s = .next (finish s (settle s1)) ∧ waveAt s1 w = some v1 ∧ v1.accs = [a1] ∧ a1.stage = 1 ∧ v1.s = v.s ∧ rdBytes s1 pa a.bytes.length = d ∧ (∀ q, inDevice q = true → ¬ (pa ≤ q ∧ q < pa + a.bytes.length) → rdByte s1 q = rdByte s q) ∧ ∀ q, spadByte s1 q = spadByte s q := by
  obtain ⟨hgot, hunit⟩ := h.whole
  obtain ⟨h1, h2⟩ := takeStore_whole (s := s) hgot hunit hd
  have hx := exec_acceptStore h.accAt hk (away_of_here fun b hb => ⟨(hm.near hb).1, (hm.near hb).2.1⟩) (fun b hb => (hm.near hb).2.2.2) hst (h.storeReady 1) (h.released _)
  have hdata : storeData a = d := by simp [storeData, hk]
  have hdie : ∀ c ∈ storeCells a d, homeDie c.1 = dieOf v.core := by
    intro c hc
    obtain ⟨i, hi, he⟩ := hm.mem_cells hd hc
    exact homeDie_of_line (by rw [he]; exact lineOf_add_of_lt hm.line hi) hhome
  have hhere : (storeCells a d).filter (fun c => decide (homeDie c.1 = dieOf v.core)) = storeCells a d := List.filter_eq_self.2 fun c hc => by simp [hdie c hc]
  have haway : (storeCells a d).filter (fun c => decide (homeDie c.1 ≠ dieOf v.core)) = [] := List.filter_eq_nil_iff.2 fun c hc => by simp [hdie c hc]
  rw [acceptStore, hdata, h1, hm.cells, hhere, haway] at hx
  generalize hs1 : (storeCells a d).foldl (fun t c => updateL1 t (physCore s v.core) c.2.2 c.1 c.2.1) (modCore s (physCore s v.core) (fun c => serveCore c v.ctx)) = s1 at hx
  have hk1 : KeepsBytes s s1 := by
    rw [← hs1]
    exact (evicted_serveCore s _ _).keeps.trans (KeepsBytes.foldl (fun t c _ => keepsBytes_updateL1 t _ _ _ _) _)
  have hw1 : s1.waves = s.waves := by
    rw [← hs1]
    exact List.foldlRecOn (motive := fun t : State => t.waves = s.waves) _ _ rfl fun t ht c _ => ht
  obtain ⟨g, -, hv2⟩ := Wakes.foldl wakes_homeStep (storeCells a d) s1 w v (by rw [waveAt, hw1]; exact h.wave)
  have hsp : ∀ q, spadByte ((storeCells a d).foldl homeStep s1) q = spadByte s q := fun q =>
    (List.foldlRecOn (motive := fun t : State => spadByte t q = spadByte s1 q) _ _ rfl fun t ht c _ => (spadByte_homeStep t c q).trans ht).trans (hk1.scratchpad q)
  have hdone : ∀ (t : State) (die : Nat) (f : Die → Die) (n : Nat) (g : Acc → Acc), (∀ y, (f y).watch = y.watch) → KeepsBytes t (modAcc { modDie t die f with nextDs := n } w a.id g) := fun t die f n g hf =>
    (keepsBytes_modDie t die hf).trans ((⟨fun _ => rfl, fun q => by cases q <;> rfl, fun _ => rfl⟩ : KeepsBytes (modDie t die f) { modDie t die f with nextDs := n }).trans (keepsBytes_modWave _ _ _))
  have hkeep := hdone ((storeCells a d).foldl homeStep s1) (dieOf v.core)
    (fun y => { y with pend := y.pend ++ (if (storeCells a d).isEmpty then [] else [{ id := s.nextDs, wave := w, acc := a.id, cells := storeCells a d, home := true }]) ++ [] }) (s.nextDs + 2) (fun x => { x with got := (takeStore s a d).2.got, stage := (takeStore s a d).2.stage }) fun _ => rfl
  refine ⟨_, _, _, hx, h.changed (t := { modDie ((storeCells a d).foldl homeStep s1) (dieOf v.core) _ with nextDs := s.nextDs + 2 }) hv2 rfl _, rfl, h2, rfl, ?_, fun q _ hq => ?_, fun q => (hkeep.scratchpad q).trans (hsp q)⟩
  · exact (hkeep.rdBytes _ _).trans (hm.rdBytes_stored hd s1)
  · exact (hkeep.memory q).trans ((hm.rdByte_outside hd s1 hq).trans (hk1.memory q))

/-- R244: a store that its home has accepted is performed at package scope once the copies have gone. -/
theorem Sole.performs {d : List Byte} {pa : Nat} (hk : a.kind = .store d) (hst : a.stage = 1) (hm : InLine a pa) (hhome : ∀ y ∈ (dieAt s (dieOf v.core)).pend, y.wave = w → y.acc = a.id → y.home = true) :
    ∃ s1 v1 a1, exec (.storePerformed w a.id) s = .next (finish s (settle s1)) ∧ waveAt s1 w = some v1 ∧ v1.accs = [a1] ∧ a1.stage = 2 ∧ v1.s = v.s ∧ (∀ q, rdByte s1 q = rdByte s q) ∧ ∀ q, spadByte s1 q = spadByte s q := by
  have haw : awayStore s (dieOf v.core) w a.id = false := by
    simp only [awayStore, dieStoresOf, List.any_filter, List.any_eq_false, Bool.and_eq_true, decide_eq_true_eq, Bool.not_eq_true', not_and, Bool.not_eq_false, and_imp]
    exact hhome
  have hx := exec_packageStore h.accAt hk (away_of_here fun b hb => ⟨(hm.near hb).1, (hm.near hb).2.1⟩) (fun b hb => (hm.near hb).2.2.2) hst haw (h.storeReady 2)
  have hstep : ∀ (t : State) (n : Nat), KeepsBytes t (wakeLine (invalidateOthers t (some (dieOf v.core)) n) n) ∧ Wakes t (wakeLine (invalidateOthers t (some (dieOf v.core)) n) n) := fun t n =>
    ⟨(keepsBytes_invalidateOthers t _ n).trans (keepsBytes_wakeAll _ _ _), fun x y hy => wakes_wakeAll (invalidateOthers t (some (dieOf v.core)) n) _ _ x y hy⟩
  have hk1 := KeepsBytes.foldl (f := fun t n => wakeLine (invalidateOthers t (some (dieOf v.core)) n) n) (xs := a.lines) (fun t n _ => (hstep t n).1) s
  obtain ⟨g, -, hv1⟩ := Wakes.foldl (f := fun t n => wakeLine (invalidateOthers t (some (dieOf v.core)) n) n) (fun t n => (hstep t n).2) a.lines s w v h.wave
  have hkeep : KeepsBytes s (modAcc (modDie (a.lines.foldl (fun t n => wakeLine (invalidateOthers t (some (dieOf v.core)) n) n) s) (dieOf v.core) (fun d => { d with pend := d.pend.filter (fun x => !(decide (x.wave = w) && decide (x.acc = a.id))) })) w a.id (fun x => { x with stage := 2 })) :=
    (hk1.trans (keepsBytes_modDie _ _ (f := fun d => { d with pend := d.pend.filter (fun x => !(decide (x.wave = w) && decide (x.acc = a.id))) }) fun _ => rfl)).trans (keepsBytes_modWave _ _ _)
  rw [packageStore, matchAccess_of_wctl (hkeep.wctl h.unwatched)] at hx
  exact ⟨_, _, _, hx, h.changed hv1 rfl _, rfl, rfl, rfl, hkeep.memory, hkeep.scratchpad⟩

/-- R246, R256: an atomic on device memory leaves the new value there and returns the old one. -/
theorem Sole.atomic {op r pa : Nat} {b c : Word} {p : LdPart} (hk : a.kind = .atomic op b c [p]) (hd : p.dst = .s r) (hne : a.bytes ≠ []) (hm : InLine a pa) (hpo : lineOf pa ∉ s.poison) (hkey : ∀ b ∈ a.bytes, (∀ k, tblFind s.lineKey (lineOf pa) = some k → k = b.attr.key) ∧ ∀ i < a.bytes.length, pa + i ∉ s.unspec)
    (hpend : (dieAt s (dieOf v.core)).pend = []) (hscope : a.scope < 4) :
    ∃ s1 v1, exec (.atomicPerformed w a.id) s = .next (finish s (settle s1)) ∧ waveAt s1 w = some v1 ∧ v1.accs = [] ∧ v1.getS r = BitVec.ofNat 64 (p.value (leNat (rdBytes s pa a.bytes.length))) ∧ (∀ j, j ≠ r → v1.getS j = v.getS j)
      ∧ (∀ y, atomicNew op (8 * a.bytes.length) (leNat (rdBytes s pa a.bytes.length)) (b.toNat % 2 ^ (8 * a.bytes.length)) (c.toNat % 2 ^ (8 * a.bytes.length)) = some y → rdBytes s1 pa a.bytes.length = leBytes a.bytes.length y) ∧ (∀ q, inDevice q = true → ¬ (pa ≤ q ∧ q < pa + a.bytes.length) → rdByte s1 q = rdByte s q) ∧ ∀ q, spadByte s1 q = spadByte s q := by
  have hready : atomicReady a [] = true := by simp [atomicReady, h.loadReady]
  have hwait : atomicWaits s (dieOf v.core) a = false := by simp [atomicWaits, acqWaits, lineHeld_of_none hpend, Nat.not_le.2 hscope]
  have hx := exec_atomicPerformed h.accAt hk (fun b hb => (hm.near hb).1) (fun b hb => (hm.near hb).2.2.2) hready (h.released _) (fun hr => absurd hr (by simp [h.plain, isRel])) h.peersOk hwait
  obtain ⟨x0, r0, hb0⟩ := List.exists_cons_of_ne_nil hne
  have hx0 : x0 ∈ a.bytes := hb0 ▸ List.mem_cons_self
  have hat : x0.at_ = .dev pa := hm.head hb0
  obtain ⟨hold, hnew, hout⟩ := atomicAtHome s (physCore s v.core) op a b c x0 r0 pa hb0 hat hm.line hpo (fun q hq => ⟨hm.device q hq, (hkey x0 hx0).2 q hq⟩) (hkey x0 hx0).1
  obtain ⟨hpads, hwakes⟩ := atomicHome_leaves s (physCore s v.core) a op b c
  obtain ⟨g, -, hv1⟩ := hwakes w v h.wave
  have hacq : ∀ t : State, acqDrop t (physCore s v.core) a = t := fun t => by simp [acqDrop, h.noAcq]
  have hwr : partWrs [p] (rdBytes s pa a.bytes.length) = [⟨.s r, p.value (leNat (rdBytes s pa a.bytes.length))⟩] := by simp [partWrs, hd]
  have hkeep : KeepsBytes (atomicHome s (physCore s v.core) a op b c).1 (landAll (dropAcc (atomicHome s (physCore s v.core) a op b c).1 w a.id) w [⟨.s r, p.value (leNat (rdBytes s pa a.bytes.length))⟩]) :=
    (keepsBytes_modWave _ _ _).trans (keepsBytes_landScalar _ _ _ _)
  have hpads' := hpads.trans hkeep.pads
  rw [atomicDone, hold, hwr, hacq, matchAccess_of_wctl (fun d => by rw [hpads'.2 d]; exact wctl_of_unwatched h.unwatched d)] at hx
  have hdrop : waveAt (dropAcc (atomicHome s (physCore s v.core) a op b c).1 w a.id) w = some { v.noted v.replayPos g with accs := [] } := by
    rw [dropAcc, waveAt_modWave_of hv1]
    simp [Wave.noted, h.only]
  refine ⟨_, _, hx, waveAt_landScalar hdrop _ _, rfl, getS_setS_self _ _ _, fun j hj => getS_setS_ne _ _ hj, fun y hy => ?_, fun q hdev hq => (hkeep.memory q).trans (hout q hdev hq), hpads'.1⟩
  exact (hkeep.rdBytes _ _).trans (hnew y hy)

end

/-- Settles O32: the forms of each step, then each step of a wave's only access. -/
theorem queuedAccessesPerform : Obligations.QueuedAccessesPerform := by
  unfold Obligations.QueuedAccessesPerform
  constructor
  · intro s w v a hv ho hg hgap hgot hu hord hne hpeer hwatch die n spad mem known reads
    have h : Sole s w v a := ⟨hv, ho, ⟨hg, hgap⟩, ⟨hgot, hu⟩, hord, hpeer, hwatch⟩
    have inLine : ∀ {pa}, mem pa → InLine a pa := fun ⟨hp, hl, hd⟩ => ⟨hp, hl, hd⟩
    refine ⟨fun r p hk hd hs hp => h.loads_spad hk hd (fun b hb => ?_) hp, fun r p pa hk hd hm hkn hpend hrem hl1 => h.loads_memory hk hd (inLine hm) hkn.1 hkn.2 hpend hrem hl1, fun d hk hd hst hs hn => h.stores_spad hk hd hne hs hn,
      fun d pa hk hd hst hm hhome _ => h.accepts hk hd hst (inLine hm) hhome, fun d pa hk hst hm hhome => h.performs hk hst (inLine hm) hhome, fun r p pa op b c hk hd hm hkn hpend hscope => h.atomic hk hd hne (inLine hm) hkn.1 hkn.2 hpend hscope⟩
    obtain ⟨cohort, core, off, -, -, hat, -⟩ := hs b hb
    exact ⟨cohort, core, off, hat⟩
  · intro s w k v pre a hacc die here flat
    refine ⟨fun ps hk haway hr hp hw => exec_loadPerformed hacc hk haway hr hp hw, fun ⟨d, hk⟩ hh hs hr hrel => exec_spadStorePerformed hacc hk (away_of_here hh) hs hr hrel,
      fun ⟨d, hk⟩ hf hst hr hrel => exec_acceptStore hacc hk (away_of_here hf.1) hf.2 hst hr hrel, fun ⟨d, hk⟩ hf hst haw hord => exec_homeStore hacc hk (away_of_here hf.1) hf.2 hst haw hord,
      fun ⟨d, hk⟩ hf hst haw hr => exec_packageStore hacc hk (away_of_here hf.1) hf.2 hst haw hr, fun op b c ps hk hf hr hrel hland hp hw => ⟨_, rfl, exec_atomicPerformed hacc hk (fun b hb => (hf.1 b hb).1) hf.2 hr hrel hland hp hw⟩⟩

end Sys2Proof.Machine
end

section
/-! PROOFS. The steps of a bundle thread (R187, R188, R191, R395, R398, R400). -/

namespace Sys2Proof.Machine

/-! A result lands. -/

/-- A thread after results that are neither loaded nor stored have landed: they stand in their places, and of the rest only the thread's own bookkeeping differs. -/
theorem waveAt_landFlight {s : State} {w k : Nat} {v : Wave} {f : Flight} (hv : waveAt s w = some v) (hsrc : f.src = none) (hst : f.st = []) (hex : f.exact = false) (hby : ∀ x ∈ f.wr, bypassOf f x = none) :
    ∃ b b', waveAt (landFlight s w k v f) w = some { Wave.putAll { v with bun := b } f.wr with bun := b' } := by
  have hwr : f.wr.filter (fun x => (bypassOf f x).isNone) = f.wr := List.filter_eq_self.2 fun x hx => by simp [hby x hx]
  obtain ⟨b, hb⟩ : ∃ b, waveAt (putFlight s w f f.wr) w = some (Wave.putAll { v with bun := b } f.wr) := by
    refine ⟨{ (v.noteUndo f.issue f.wr).bun with bypass := (f.wr.filterMap (bypassOf f)).foldl (openBypass s) (v.bun.bypass.filter (fun b => decide (s.clock ≤ b.hi + 32))) }, ?_⟩
    rw [putFlight, hwr, waveAt_landAll]
    exact congrArg _ (waveAt_modWave_of hv _)
  refine ⟨b, { (Wave.putAll { v with bun := b } f.wr).bun with flights := ((Wave.putAll { v with bun := b } f.wr).bun.flights.zipIdx.map (fun x => if x.2 = k then { x.1 with landed := true } else x.1)).filter (fun x => !x.landed || decide (s.clock < x.due)) }, ?_⟩
  have hload : f.loaded s v = [] := by simp [Flight.loaded, hsrc]
  have hleft : f.left = [] := by simp [Flight.left, hst]
  simp only [landFlight, hex, Bool.false_eq_true, if_false, hload, List.append_nil, hleft, List.foldl_nil, hsrc, hst, List.map_nil, spadSeen, List.isEmpty_nil, if_true]
  exact waveAt_modWave_of hb _

section
variable {s : State} {w : Nat} {v : Wave} (hv : waveAt s w = some v) (hl : v.ended = false)
include hv hl

theorem operationLands {k : Nat} {f : Flight} (hk : v.bun.flights[k]? = some f) (hok : landOk s v k f = true) (hsrc : f.src = none) (hst : f.st = []) (hex : f.exact = false) (hby : ∀ x ∈ f.wr, bypassOf f x = none) :
    ∃ t b b' as, exec (.operationLands w k) s = .next t ∧ waveAt t w = some { Wave.putAll { v with bun := b } f.wr with bun := b', accs := as } := by
  have hx : exec (.operationLands w k) s = nextOf s (settle (landFlight s w k v f)) := by
    show execOperationLands w k s = _
    simp only [execOperationLands, hv, hk, hok, hsrc, hst, List.length_nil, Nat.zero_le, decide_true, if_true]
  obtain ⟨b, b', hb⟩ := waveAt_landFlight (k := k) hv hsrc hst hex hby
  obtain ⟨as, has⟩ := waveAt_settle hb (.inl (by
    obtain ⟨_, _, _, _, _, _, he⟩ := Wave.putAll_eq f.wr { v with bun := b }
    rw [he]
    exact hl))
  exact ⟨_, b, b', as, hx, has⟩

theorem operationLands_scalar {k : Nat} {f : Flight} (hk : v.bun.flights[k]? = some f) (hok : landOk s v k f = true) (hsrc : f.src = none) (hst : f.st = []) (hex : f.exact = false) {r x : Nat} (hwr : f.wr = [⟨.s r, x⟩]) :
    ∃ t v', exec (.operationLands w k) s = .next t ∧ waveAt t w = some v' ∧ v'.getS r = BitVec.ofNat 64 x ∧ (∀ q, q ≠ r → v'.getS q = v.getS q) ∧ v'.v = v.v ∧ v'.p = v.p := by
  obtain ⟨t, b, b', as, ht, hw⟩ := operationLands hv hl hk hok hsrc hst hex (fun y hy => by rw [hwr] at hy; rw [List.mem_singleton.1 hy]; rfl)
  rw [hwr] at hw
  exact ⟨t, _, ht, hw, getS_setS_self _ _ _, fun q hq => getS_setS_ne _ _ hq, rfl, rfl⟩

theorem operationLands_lane {k : Nat} {f : Flight} (hk : v.bun.flights[k]? = some f) (hok : landOk s v k f = true) (hsrc : f.src = none) (hst : f.st = []) (hex : f.exact = false) {r l x : Nat} (hr : r < 248) (hl32 : l < 32) (hwr : f.wr = [⟨.v r l, x⟩]) :
    ∃ t v', exec (.operationLands w k) s = .next t ∧ waveAt t w = some v' ∧ v'.getV r l = BitVec.ofNat 32 x ∧ (∀ q j, j < 32 → (q ≠ r ∨ j ≠ l) → v'.getV q j = v.getV q j) ∧ v'.s = v.s ∧ v'.p = v.p := by
  obtain ⟨t, b, b', as, ht, hw⟩ := operationLands hv hl hk hok hsrc hst hex (fun y hy => by rw [hwr] at hy; rw [List.mem_singleton.1 hy, bypassOf]; exact if_neg (Nat.not_le.2 hr))
  rw [hwr] at hw
  refine ⟨t, _, ht, hw, getV_setV_self _ _ _ _, fun q j hj hne => getV_setV_ne _ _ hl32 hj fun he => ?_, rfl, rfl⟩
  obtain ⟨rfl, rfl⟩ := Prod.mk.inj he
  exact hne.elim (· rfl) (· rfl)

/-! The oldest region commits. -/

omit hv hl in
theorem waves_modEngs (l : List Nat) (f : EngOp → EngOp) (t : State) : (l.foldl (fun t k => modEng t k f) t).waves = t.waves :=
  List.foldlRecOn (motive := fun u : State => u.waves = t.waves) _ _ rfl fun _ hu _ _ => hu

theorem regionCommit {r : Region} {rest : List Region} (hr : v.bun.regions = r :: rest) (hm : mayCommit s v = true) (hp : regionPeers v r = []) :
    ∃ t v', exec (.regionCommit w) s = .next t ∧ waveAt t w = some v' ∧ v'.bun.regions = rest ∧ v'.s = v.s ∧ v'.v = v.v ∧ v'.p = v.p ∧ v'.subs = v.subs := by
  have hx : exec (.regionCommit w) s = nextOf s (settle (commitRegion s w v r)) := by
    show execRegionCommit w s = _
    simp only [execRegionCommit, hv, hr, hm, hp, if_true]
  obtain ⟨v1, hw1, hk⟩ : ∃ v1, waveAt (commitRegion s w v r) w = some v1 ∧ (v1.bun.regions = rest ∧ v1.s = v.s ∧ v1.v = v.v ∧ v1.p = v.p ∧ v1.subs = v.subs ∧ v1.ended = false) := by
    refine ⟨_, (congrArg (tblFind · w) (waves_modEngs r.engs _ _)).trans (waveAt_modWave_of (waveAt_modWave_of hv _) _), ?_, rfl, rfl, rfl, rfl, hl⟩
    simp [hr]
  obtain ⟨hreg, hs, hvv, hpp, hsub, he⟩ := hk
  obtain ⟨as, has⟩ := waveAt_settle hw1 (.inl he)
  exact ⟨_, _, hx, has, hreg, hs, hvv, hpp, hsub⟩

/-! The drains of a return and of an end. -/

theorem returnDrainEnd {pc : Word} (hp : v.phase = .ret pc) (hc : drainClear s w v = true) :
    ∃ t v', exec (.returnDrainEnd w) s = .next t ∧ waveAt t w = some v' ∧ v'.phase = .simt ∧ v'.subs = [(rootSub, { pc := pc, mask := v.rootMask })] ∧ v'.hinge = [] ∧ v'.bun.claim = v.handler.any (·.claim) ∧ v'.s = v.s ∧ v'.v = v.v ∧ v'.p = v.p ∧ v'.flags = v.flags := by
  have hx : exec (.returnDrainEnd w) s = nextOf s (settle (modWave (sectDone s v) w (·.returned pc))) := by
    show execReturnDrainEnd w s = _
    simp only [execReturnDrainEnd, hv, hc, hp, if_true]
  obtain ⟨as, has⟩ := waveAt_settle (waveAt_modWave_of (s := sectDone s v) hv (·.returned pc)) (.inl hl)
  exact ⟨_, _, hx, has, rfl, rfl, rfl, rfl, rfl, rfl, rfl, rfl⟩

omit hl in
theorem endingDrainEnd (hp : v.phase = .ending) (hc : drainClear s w v = true) :
    ∃ t v', exec (.endingDrainEnd w) s = .next t ∧ waveAt t w = some v' ∧ v'.ended = true ∧ v'.subs = [] ∧ v'.bun.claim = false ∧ v'.s = v.s ∧ v'.v = v.v ∧ v'.p = v.p := by
  have hx : exec (.endingDrainEnd w) s = nextOf s (settle (endWave (modWave s w (fun v => { Wave.returned { v with handler := none } 0 with subs := [] })) w)) := by
    show execEndingDrainEnd w s = _
    simp only [execEndingDrainEnd, hv, hp, hc, if_true]
  obtain ⟨as, has⟩ := waveAt_settle (waveAt_endWave (waveAt_modWave_of hv (fun v => { Wave.returned { v with handler := none } 0 with subs := [] }))) (.inr (Nat.le_refl _))
  exact ⟨_, _, hx, has, rfl, rfl, rfl, rfl, rfl, rfl⟩

end

/-! The drain of a trap. -/

theorem wakes_storePut (s : State) (ctx va : Nat) (l : List Byte) : Wakes s (storePut s ctx va l) := by
  refine Wakes.foldl (fun t x => ?_) _ s
  split
  · exact wakes_packagePut t _ _ _
  · exact .refl t

theorem wakes_putFields (s : State) (ctx base : Nat) (l : List (Nat × Nat × Nat)) : Wakes s (putFields s ctx base l) := Wakes.foldl (fun t _ => wakes_storePut t _ _ _) _ s

/-- R400: with nothing left to roll back or to find, the thread takes the trap it drains for. -/
theorem waveAt_drainEnd {s : State} {w : Nat} {v : Wave} {t : Trap} (a : Bool) {u : Sub} (hv : waveAt s w = some v) (hreg : v.bun.regions = []) (hf : v.bun.faults = []) (hr : v.isResponder = false) (hh : v.handler = none) (ht : v.tvec ≠ 0) (hu : tblFind v.subs rootSub = some u) :
    ∃ v1 : Wave, waveAt (drainEnd s w v t a) w = some (v1.bunHandler t (t.tpc.getD u.pc) (tcauseOf t.cause true false false)) ∧ v1.tvec = v.tvec ∧ v1.rootMask = v.rootMask ∧ v1.bun.claim = v.bun.claim ∧ v1.s = v.s ∧ v1.v = v.v ∧ v1.p = v.p ∧ v1.ended = v.ended := by
  have hcause : drainCause v t a = (t, none, false) := by simp [drainCause, hf, oldestFault, hreg]
  have hin : (v.inHandler || decide (v.tvec = 0)) = false := by rw [Wave.inHandler, hh, decide_eq_false ht]; rfl
  have hv0 : waveAt (commitAll (releaseEntries s (v.bun.faults.map (fun f => { kind := .slot f.res }))) w v) w = some v := by
    rw [commitAll, hreg, hf]
    exact hv
  unfold drainEnd
  simp only [hcause, Bool.false_eq_true, if_false, Option.isSome_none, Bool.and_false, hv0, hr, hin, hu, Option.map_some, Option.getD_some, Bool.not_false]
  obtain ⟨g, -, hv3⟩ := wakes_putFields (modWave (commitAll (releaseEntries s (v.bun.faults.map (fun f => { kind := .slot f.res }))) w v) w (fun _ => { v with bun := { v.bun with faultAddr := 0 } })) v.ctx v.frame (rowFields 0xC00 8 (loopEntries v.bun.loops) ++ [(0xC60, 8, 0)]) w _ (waveAt_modWave_of hv0 _)
  cases t.failedToken with
  | none => exact ⟨_, waveAt_modWave_of hv3 _, rfl, rfl, rfl, rfl, rfl, rfl, rfl⟩
  | some k => exact ⟨_, waveAt_modWave_of (waveAt_modWave_of hv3 _) _, rfl, rfl, rfl, rfl, rfl, rfl, rfl⟩

theorem bundleTrapDrainEnd {s : State} {w : Nat} {v : Wave} {t : Trap} {a : Bool} {u : Sub} (hv : waveAt s w = some v) (hl : v.ended = false) (hp : v.phase = .drain t a) (hd : threadDrained s w v = true) (hs : v.stopped = false) (hreg : v.bun.regions = []) (hf : v.bun.faults = [])
    (hr : v.isResponder = false) (hh : v.handler = none) (ht : v.tvec ≠ 0) (hu : tblFind v.subs rootSub = some u) :
    ∃ t1 v', exec (.bundleTrapDrainEnd w) s = .next t1 ∧ waveAt t1 w = some v' ∧ v'.phase = .simt ∧ v'.tpc = t.tpc.getD u.pc ∧ v'.tcause = BitVec.ofNat 64 (causeCode t.cause + 256) ∧ v'.taddr = (asTaken s v t).addr ∧ v'.tinfo = (asTaken s v t).info
      ∧ (∃ h, v'.handler = some h ∧ h.bundle = true) ∧ v'.subs = [(rootSub, { pc := v.tvec, mask := v.rootMask })] ∧ v'.bun.claim = v.bun.claim ∧ v'.s = v.s ∧ v'.v = v.v ∧ v'.p = v.p := by
  have hcom : mayCommit s v = false := by simp [mayCommit, hreg]
  have hx : exec (.bundleTrapDrainEnd w) s = nextOf s (settle (drainEnd (sectDone s v) w v (asTaken s v t) a)) := by
    show execBundleTrapDrainEnd w s = _
    simp only [execBundleTrapDrainEnd, hv, hp, hd, hs, hcom, Bool.not_false, Bool.true_or, Bool.and_self, if_true]
  have htaken : (asTaken s v t).tpc = t.tpc ∧ (asTaken s v t).cause = t.cause := by
    unfold asTaken
    split <;> exact ⟨rfl, rfl⟩
  obtain ⟨v1, hw1, htv, hrm, hcl, h1, h2, h3, he⟩ := waveAt_drainEnd (s := sectDone s v) (t := asTaken s v t) a hv hreg hf hr hh ht hu
  obtain ⟨as, has⟩ := waveAt_settle hw1 (.inl (he.trans hl))
  refine ⟨_, _, hx, has, rfl, by rw [← htaken.1]; rfl, ?_, rfl, rfl, ⟨_, rfl, rfl⟩, ?_, hcl, h1, h2, h3⟩
  · rw [← htaken.2]
    rfl
  · rw [← htv, ← hrm]
    rfl

/-- Settles O49: a landing, a commit, and the three drains. -/
theorem bundleThreadSteps : Obligations.BundleThreadSteps := by
  unfold Obligations.BundleThreadSteps
  intro s w v hv hl
  refine ⟨fun k f hk hok hsrc hst hex => ⟨fun r x hwr => operationLands_scalar hv hl hk hok hsrc hst hex hwr, fun r l x hr h32 hwr => operationLands_lane hv hl hk hok hsrc hst hex hr h32 hwr⟩, fun r rest hr hm hp => regionCommit hv hl hr hm hp,
    fun pc hp hc => returnDrainEnd hv hl hp hc, fun hp hc => endingDrainEnd hv hp hc, fun t a u hp hd hs hreg hf hr hh ht hu => bundleTrapDrainEnd hv hl hp hd hs hreg hf hr hh ht hu⟩

end Sys2Proof.Machine
end

section
/-! PROOFS. The steps between instructions and those that end a wait (R108, R136, R139, R224, R278, R309, R314, R391, R392, R405). -/

namespace Sys2Proof.Machine

/-! A handler entered between instructions. -/

/-- What stands after trap `t` has been taken at sub-wave `x`, in the registers and in the sub-waves. -/
structure Entered (v v' : Wave) (x : Nat) (u : Sub) (t : Trap) : Prop where
  tcause : v'.tcause = BitVec.ofNat 64 (causeCode t.cause)
  taddr : v'.taddr = t.addr
  tinfo : v'.tinfo = t.info
  tpc : v'.tpc = t.tpc.getD u.pc
  handler : ∃ h, v'.handler = some h ∧ h.sub = x ∧ h.mask = u.mask
  self : (tblFind v'.subs x).map (·.pc) = some v.tvec
  others : ∀ y, y ≠ x → (tblFind v'.subs y).map (·.pc) = (tblFind v.subs y).map (·.pc)
  registers : v'.s = v.s ∧ v'.v = v.v ∧ v'.p = v.p ∧ v'.toks = v.toks

/-- A wave whose sub-waves wait for other things, or stop waiting, and whose accesses change. -/
def Wave.rested (v : Wave) (g : Nat → Hold → Hold) (as : List Acc) : Wave := { v with subs := v.subs.map (fun y => (y.1, { y.2 with hold := g y.1 y.2.hold })), accs := as }

theorem tblFind_rested (v : Wave) (g : Nat → Hold → Hold) (as : List Acc) (x : Nat) : tblFind (v.rested g as).subs x = (tblFind v.subs x).map (fun u => { u with hold := g x u.hold }) :=
  tblFind_map_keyed v.subs (fun k (u : Sub) => ({ u with hold := g k u.hold } : Sub)) x

theorem entered_enterHandler {v : Wave} {x : Nat} {u : Sub} (hu : tblFind v.subs x = some u) (t : Trap) (g : Nat → Hold → Hold) (as : List Acc) :
    Entered v ((v.rested g as).enterHandler x t (t.tpc.getD (((tblFind (v.rested g as).subs x).map (·.pc)).getD 0)) (tcauseOf t.cause false false false) { migrate := decide (t.cause = .migrate) }) x u t := by
  have hx : tblFind (v.rested g as).subs x = some { u with hold := g x u.hold } := by rw [tblFind_rested, hu]; rfl
  refine ⟨rfl, rfl, rfl, ?_, ⟨_, rfl, rfl, ?_⟩, ?_, fun y hy => ?_, rfl, rfl, rfl, rfl⟩
  · rw [hx]
    rfl
  · rw [hx]
    rfl
  · simp only [Wave.enterHandler, Wave.trapRegs, tblFind_mod_self, hx]
    rfl
  · simp only [Wave.enterHandler, Wave.trapRegs, tblFind_mod_ne _ _ hy, tblFind_rested]
    cases tblFind v.subs y <;> rfl

theorem Wave.stand_eq (v : Wave) : v.stand = v.rested (fun _ => Hold.stand) (v.accs.filter (fun a => decide (a.kind ≠ .poll))) := rfl

theorem waves_dropEntries (s : State) (l : List (Nat × Nat × Nat)) : (dropEntries s l).waves = s.waves :=
  List.foldlRecOn (motive := fun t : State => t.waves = s.waves) _ _ rfl fun _ h _ _ => h

theorem waves_freeWaits (s : State) (v : Wave) : (freeWaits s v).waves = s.waves := waves_dropEntries _ _

/-- R391: a cause taken at a boundary by a SIMT wave that has a handler to enter. -/
theorem entered_takeCause {s : State} {w x : Nat} {v v1 : Wave} {u : Sub} (t : Trap) (hv : waveAt s w = some v1) (hv1 : v1 = { v with held := v1.held, async := v1.async }) (hp : v.phase = .simt) (hin : v.handler = none) (ht : v.tvec ≠ 0) (hr : v.isResponder = false) (hu : tblFind v.subs x = some u) :
    ∃ v', waveAt (takeCause s w x v t) w = some v' ∧ Entered v v' x u t ∧ v'.ended = v.ended := by
  have hs1 : waveAt (modWave (dropReads (freeWaits s v) w) w (·.stand)) w = some v1.stand := waveAt_modWave_of (by rw [waveAt, show (dropReads (freeWaits s v) w).waves = s.waves from waves_freeWaits s v]; exact hv) _
  have hen : takeCause s w x v t = enterTrap (modWave (dropReads (freeWaits s v) w) w (·.stand)) w x t := by
    simp only [takeCause, hp, takeAsync]
    rw [if_neg (fun h => ht h.1), if_neg (fun h => ht h.1)]
  rw [hen, enterTrap_handler hs1 (by rw [hv1]; exact hr) (by rw [hv1]; exact hin) (by rw [hv1]; exact ht), waveAt_modWave_of hs1]
  refine ⟨_, rfl, ?_, by rw [hv1]; rfl⟩
  have he := entered_enterHandler hu t (fun _ => Hold.stand) (v.accs.filter (fun a => decide (a.kind ≠ .poll)))
  rw [hv1]
  exact ⟨he.tcause, he.taddr, he.tinfo, he.tpc, he.handler, he.self, he.others, he.registers⟩

theorem mayTake_handler {s : State} {v : Wave} (h : mayTake s v = true) : v.handler = none ∧ v.ended = false := by
  simp only [mayTake, Bool.and_eq_true, Bool.not_eq_true'] at h
  obtain ⟨⟨⟨⟨⟨he, -⟩, hin⟩, -⟩, -⟩, -⟩ := h
  exact ⟨by simpa [Wave.inHandler] using hin, he⟩

section
variable {s : State} {w : Nat} {v : Wave} (hv : waveAt s w = some v)
include hv

theorem trapEntry_enters (hm : mayTake s v = true) (hp : v.phase = .simt) (ht : v.tvec ≠ 0) (hr : v.isResponder = false) {c : Cause} {a b : Word} {r : List (Cause × Word × Word)} (hh : v.held = (c, a, b) :: r) {u : Sub} (hu : tblFind v.subs (asyncSub v) = some u) :
    ∃ t v', exec (.trapEntry w) s = .next t ∧ waveAt t w = some v' ∧ Entered v v' (asyncSub v) u (asTaken s v { cause := c, addr := a, info := b }) := by
  obtain ⟨hin, he⟩ := mayTake_handler hm
  have hx : exec (.trapEntry w) s = nextOf s (settle (takeCause (modWave s w (fun u => { u with held := r })) w (asyncSub v) v (asTaken s v { cause := c, addr := a, info := b }))) := by
    show execTrapEntry w s = _
    simp only [execTrapEntry, hv, hh, hm, if_true]
  obtain ⟨v1, hw1, hen, hend⟩ := entered_takeCause (asTaken s v { cause := c, addr := a, info := b }) (waveAt_modWave_of hv (fun u => { u with held := r })) rfl hp hin ht hr hu
  obtain ⟨as, has⟩ := waveAt_settle hw1 (.inl (hend.trans he))
  exact ⟨_, _, hx, has, hen.tcause, hen.taddr, hen.tinfo, hen.tpc, hen.handler, hen.self, hen.others, hen.registers⟩

theorem watchdog_enters (hm : mayTake s v = true) (hp : v.phase = .simt) (ht : v.tvec ≠ 0) (hr : v.isResponder = false) {c : Cause} {a b : Word} {x : Nat} (ha : v.async = some (c, a, b, x)) (ho : v.waitOpen x = false) {u : Sub} (hu : tblFind v.subs x = some u) :
    ∃ t v', exec (.watchdog w) s = .next t ∧ waveAt t w = some v' ∧ Entered v v' x u { cause := c, addr := a, info := b } := by
  obtain ⟨hin, he⟩ := mayTake_handler hm
  have hx : exec (.watchdog w) s = nextOf s (settle (takeCause (modWave s w (fun u => { u with async := none })) w x v { cause := c, addr := a, info := b })) := by
    show execWatchdog w s = _
    simp only [execWatchdog, hv, ha, hm, ho, hu, Option.isSome_some, Bool.not_false, Bool.and_self, if_true]
  obtain ⟨v1, hw1, hen, hend⟩ := entered_takeCause { cause := c, addr := a, info := b } (waveAt_modWave_of hv (fun u => { u with async := none })) rfl hp hin ht hr hu
  obtain ⟨as, has⟩ := waveAt_settle hw1 (.inl (hend.trans he))
  exact ⟨_, _, hx, has, hen.tcause, hen.taddr, hen.tinfo, hen.tpc, hen.handler, hen.self, hen.others, hen.registers⟩

theorem subwaveAged_ages {x : Nat} {u : Sub} (hu : tblFind v.subs x = some u) (ha : u.aged = 1023) (hi : (tblGet {} (coreAt s (physCore s v.core)).sects v.sect).issuedAt = some s.clock) (hl : (tblGet {} (coreAt s (physCore s v.core)).sects v.sect).last ≠ some (w, x)) :
    ∃ t v', exec (.subwaveAged w x) s = .next t ∧ waveAt t w = some v' ∧ tblFind v'.subs x = some { u with aged := 1024 } ∧ v'.s = v.s := by
  have hx : exec (.subwaveAged w x) s = nextOf s (modWave s w (fun v => v.modSub x (fun u => { u with aged := 1024 }))) := by
    show execSubwaveAged w x s = _
    simp only [execSubwaveAged, hv, hu]
    exact if_pos ⟨ha, hi, hl⟩
  exact ⟨_, _, hx, waveAt_modWave_of hv _, (tblFind_mod_self _ _ _).trans (congrArg _ hu), rfl⟩

theorem preemptLimit_parks {t0 : Nat} (hp : v.preemptAt = some t0) (hl : t0 + (ctxAt s v.ctx).t.preemptLimit ≤ s.clock) (hn : v.parkReq = none) (hs : v.stopped = false) (he : v.ended = false) (hh : v.inHandler = true ∨ ∀ h ∈ v.held, h.1 ≠ .preempt) :
    ∃ t v', exec (.preemptLimit w) s = .next t ∧ waveAt t w = some v' ∧ v'.parkReq = some (16, true) ∧ v'.s = v.s ∧ v'.v = v.v := by
  have hok : (v.inHandler || !(v.held.any (fun h => decide (h.1 = .preempt)))) = true := by
    rcases hh with h | h
    · rw [h]
      rfl
    · simpa using Or.inr fun c a b hm => h (c, a, b) hm
  have hx : exec (.preemptLimit w) s = nextOf s (modWave s w (fun v => { v with parkReq := some (16, true), held := v.held.filter (fun h => decide (h.1 ≠ .preempt)) })) := by
    show execPreemptLimit w s = _
    simp only [execPreemptLimit, hv, hp]
    exact if_pos ⟨hl, by rw [hn]; rfl, hs, he, hok⟩
  exact ⟨_, _, hx, waveAt_modWave_of hv _, rfl, rfl, rfl⟩

end

/-! The ends of waits. -/

/-- `i` lets sub-wave `x`, which is `u`, go on at `pc`, every other sub-wave left as it is. -/
def GoesOn (i : Instr) (s : State) (w x : Nat) (v : Wave) (u : Sub) (pc : Word) : Prop :=
  ∃ t v', exec i s = .next t ∧ waveAt t w = some v' ∧ (∃ u', tblFind v'.subs x = some u' ∧ u'.pc = pc ∧ u'.hold = .run ∧ u'.mask = u.mask) ∧ (∀ y, y ≠ x → tblFind v'.subs y = tblFind v.subs y) ∧ v'.v = v.v ∧ v'.p = v.p ∧ v'.toks = v.toks

/-- `i` raises `t0` at sub-wave `x`, whose wave enters its handler. -/
def Raises (i : Instr) (s : State) (w : Nat) (u : Sub) (t0 : Trap) : Prop :=
  ∃ t v', exec i s = .next t ∧ waveAt t w = some v' ∧ v'.tcause = BitVec.ofNat 64 (causeCode t0.cause) ∧ v'.taddr = t0.addr ∧ v'.tinfo = t0.info ∧ v'.tpc = t0.tpc.getD u.pc ∧ v'.handler.isSome = true

theorem goesOn_modSub {i : Instr} {s s1 : State} {w x : Nat} {v v1 : Wave} {u : Sub} {f : Sub → Sub} (hx : exec i s = nextOf s s1) (hv : waveAt s1 w = some (v1.modSub x f)) (hu : tblFind v.subs x = some u)
    (hk : v1.subs = v.subs ∧ v1.v = v.v ∧ v1.p = v.p ∧ v1.toks = v.toks) (hr : (f u).hold = .run) (hm : (f u).mask = u.mask) : GoesOn i s w x v u (f u).pc := by
  obtain ⟨h1, h2, h3, h4⟩ := hk
  refine ⟨_, _, hx, hv, ⟨f u, ?_, rfl, hr, hm⟩, fun y hy => ?_, h2, h3, h4⟩
  · exact (tblFind_mod_self _ _ _).trans (by rw [h1, hu]; rfl)
  · exact (tblFind_mod_ne _ _ hy).trans (by rw [h1])

/-- The wave after a trap that a wait ends in. -/
theorem entered_wait {s1 : State} {w x : Nat} {v1 : Wave} {u1 : Sub} (t : Trap) (hv : waveAt s1 w = some v1) (hu : tblFind v1.subs x = some u1) (ht : v1.tvec ≠ 0) (hh : v1.handler = none) (hr : v1.isResponder = false) :
    ∃ v', waveAt (enterTrap s1 w x t) w = some v' ∧ (v'.tcause = BitVec.ofNat 64 (causeCode t.cause) ∧ v'.taddr = t.addr ∧ v'.tinfo = t.info ∧ v'.tpc = t.tpc.getD u1.pc ∧ v'.handler.isSome = true) ∧ v'.ended = v1.ended := by
  rw [enterTrap_handler hv hr hh ht, waveAt_modWave_of hv]
  exact ⟨_, rfl, ⟨rfl, rfl, rfl, by rw [hu]; rfl, rfl⟩, rfl⟩

theorem Wave.awake_of_none {v : Wave} (h : v.handler = none) (x : Nat) : v.awake x = true := by simp [Wave.awake, h]

theorem Wave.holdOf_of {v : Wave} {x : Nat} {u : Sub} (hu : tblFind v.subs x = some u) : v.holdOf x = u.hold := by simp [Wave.holdOf, hu]

theorem clock_acqDrop (s : State) (core : Nat) (a : Acc) : (acqDrop s core a).clock = s.clock := by
  unfold acqDrop
  split <;> rfl

/-- Results that are all scalars change the scalars alone. -/
theorem putAll_scalars {l : List Wr} (v : Wave) (h : ∀ y ∈ l, ∃ r, y.dst = .s r) : ∃ t, v.putAll l = { v with s := t } := by
  induction l generalizing v with
  | nil => exact ⟨v.s, rfl⟩
  | cons y l ih =>
    obtain ⟨r, hr⟩ := h y List.mem_cons_self
    obtain ⟨t, ht⟩ := ih (v.put y) fun z hz => h z (List.mem_cons_of_mem _ hz)
    exact ⟨t, ht.trans (by simp only [Wave.put, hr]; rfl)⟩

section
variable {s : State} {w x : Nat} {v : Wave} {u : Sub} (hv : waveAt s w = some v) (hu : tblFind v.subs x = some u)
include hv hu

theorem callxWake_goesOn {a : Nat} {t0 : Nat} (hh : u.hold = .callx a true t0 true) : GoesOn (.callxWake w x) s w x v u u.pc := by
  have hx : exec (.callxWake w x) s = nextOf s (callxAgain s w x) := by
    show execCallxWake w x s = _
    simp only [execCallxWake, hv, Option.map_some, Wave.holdOf_of hu, hh]
  exact goesOn_modSub (f := fun u => { u with hold := .run }) hx (waveAt_modWave_of hv _) hu ⟨rfl, rfl, rfl, rfl⟩ rfl rfl

theorem callxReread_goesOn {a : Nat} {t0 : Nat} {b : Bool} (hh : u.hold = .callx a false t0 b) (ht : t0 + 1024 ≤ s.clock) : GoesOn (.callxReread w x) s w x v u u.pc := by
  have hx : exec (.callxReread w x) s = nextOf s (callxAgain s w x) := by
    show execCallxReread w x s = _
    simp only [execCallxReread, hv, Option.map_some, Wave.holdOf_of hu, hh, ht, if_true]
  exact goesOn_modSub (f := fun u => { u with hold := .run }) hx (waveAt_modWave_of hv _) hu ⟨rfl, rfl, rfl, rfl⟩ rfl rfl

theorem kwaitComplete_goesOn {ks : List Nat} {next : Word} (hh : u.hold = .kwait ks next) (ha : v.awake x = true) (hk : ∀ k ∈ ks, v.tok k = .done) : GoesOn (.kwaitComplete w x) s w x v u next := by
  have hs : toksSettled v ks = true := (toksSettled_iff v ks).2 fun k hm => by rw [hk k hm]; rfl
  have hx : exec (.kwaitComplete w x) s = nextOf s (dropL1 (modWave s w (·.resumeAt x next)) (physCore s v.core)) := by
    show execKwaitComplete w x s = _
    simp only [execKwaitComplete, hv, Wave.holdOf_of hu, hh, hs, ha, firstFailed_of_done hk, Bool.and_self, if_true]
  exact goesOn_modSub (f := fun u => { u with pc := next, hold := .run }) hx (waveAt_modWave_of hv _) hu ⟨rfl, rfl, rfl, rfl⟩ rfl rfl

theorem kwaitComplete_raises {ks : List Nat} {next : Word} {k : Nat} {a i : Word} (hh : u.hold = .kwait ks next) (hs : ∀ j ∈ ks, (v.tok j).settled = true) (hf : firstFailed v ks = some (k, a, i)) (ht : v.tvec ≠ 0) (hn : v.handler = none) (hr : v.isResponder = false) (hl : v.trapLater x = false) :
    Raises (.kwaitComplete w x) s w u { cause := .engineFault, addr := a, info := tokenInfo k i } := by
  have hx : exec (.kwaitComplete w x) s = nextOf s (enterTrap (clearTok (modWave s w (fun u => u.modSub x (fun y => { y with hold := .run }))) w k) w x (tokenTrap (k, a, i) none)) := by
    show execKwaitComplete w x s = _
    simp only [execKwaitComplete, hv, Wave.holdOf_of hu, hh, (toksSettled_iff v ks).2 hs, Wave.awake_of_none hn, hf, hl, Bool.and_self, if_true, Bool.false_eq_true, if_false]
  obtain ⟨v', hw, hen, -⟩ := entered_wait (tokenTrap (k, a, i) none) (waveAt_modWave_of (waveAt_modWave_of hv (fun u => u.modSub x (fun y => { y with hold := .run }))) (·.setTok k .done)) ((tblFind_mod_self _ _ _).trans (congrArg _ hu)) ht hn hr
  exact ⟨_, v', hx, hw, hen⟩

theorem gateWaitComplete_goesOn {g : Nat} {next : Word} {b : Bool} (hh : u.hold = .gate g next b) (ha : v.awake x = true) (ho : gateOver s v g = true) (he : (gateOf s v.cohort g).err = false) : GoesOn (.gateWaitComplete w x) s w x v u next := by
  have hx : exec (.gateWaitComplete w x) s = nextOf s (modWave (gateEnd s w (physCore s v.core) g) w (·.resumeAt x next)) := by
    show execGateWaitComplete w x s = _
    simp only [execGateWaitComplete, hv, Wave.holdOf_of hu, hh, ho, ha, he, Bool.false_and, Bool.not_false, Bool.and_self, if_true, Bool.false_eq_true, if_false]
  exact goesOn_modSub (v1 := v.gatePass g) (f := fun u => { u with pc := next, hold := .run }) hx (waveAt_modWave_of (s := gateEnd s w (physCore s v.core) g) (waveAt_modWave_of hv _) _) hu ⟨rfl, rfl, rfl, rfl⟩ rfl rfl

theorem gateWaitComplete_raises {g : Nat} {next : Word} {b : Bool} (hh : u.hold = .gate g next b) (ho : gateOver s v g = true) (he : (gateOf s v.cohort g).err = true) (ht : v.tvec ≠ 0) (hn : v.handler = none) (hr : v.isResponder = false) (hl : v.trapLater x = false) :
    Raises (.gateWaitComplete w x) s w u { cause := .engineFault, tpc := some next, info := BitVec.ofNat 64 (2 ^ 33 + g * 2 ^ 28) } := by
  have hx : exec (.gateWaitComplete w x) s = nextOf s (enterTrap (modWave (gateEnd s w (physCore s v.core) g) w (·.resumeAt x next)) w x (gateTrap g next)) := by
    show execGateWaitComplete w x s = _
    simp only [execGateWaitComplete, hv, Wave.holdOf_of hu, hh, ho, Wave.awake_of_none hn, he, hl, Bool.and_false, Bool.not_false, Bool.and_self, if_true]
  obtain ⟨v', hw, hen, -⟩ := entered_wait (gateTrap g next) (waveAt_modWave_of (s := gateEnd s w (physCore s v.core) g) (waveAt_modWave_of hv _) (·.resumeAt x next)) ((tblFind_mod_self _ _ _).trans (congrArg _ hu)) ht hn hr
  exact ⟨_, v', hx, hw, hen⟩

theorem gapLimit_raises {ctx n : Nat} {g : Gap} (hg : tblFind (ctxAt s ctx).gaps n = some g) (hlim : g.since + (ctxAt s ctx).t.gapLimit ≤ s.clock) (heng : g.eng = none) (hgw : g.wave = some (w, x)) (hst : v.stopped = false) (hh : u.hold = .gap n) (hp : v.phase = .simt)
    (ht : v.tvec ≠ 0) (hn : v.handler = none) (hr : v.isResponder = false) (hl : v.ended = false) (hlate : v.trapLater x = false) : Raises (.gapLimit ctx n) s w u g.trap := by
  have hlater : gapLater s g = false := by simp [gapLater, hgw, hv, hlate]
  have hv1 : waveAt (dropGap s ctx n) w = some v := hv
  have hv2 : waveAt (modWave (dropGap s ctx n) w (fun v => v.modSub x (fun u => { u with hold := .run }))) w = some (v.modSub x (fun u => { u with hold := .run })) := waveAt_modWave_of hv1 _
  have hx : exec (.gapLimit ctx n) s = nextOf s (settle (enterTrap (modWave (dropGap s ctx n) w (fun v => v.modSub x (fun u => { u with hold := .run }))) w x g.trap)) := by
    show execGapLimit ctx n s = _
    simp only [execGapLimit, hg]
    rw [if_pos ⟨.inr hlim, by simp [gapStopped, hgw, hv, hst], hlater⟩, gapUnmapped]
    simp only [heng, hgw, hv1, Wave.holdOf_of hu, hh, if_true, hlater, Bool.false_eq_true, if_false, Wave.awake_of_none hn, raiseTrap, hv2]
    rw [show (v.modSub x (fun u => { u with hold := .run })).phase = .simt from hp]
  obtain ⟨v', hw, hen, he⟩ := entered_wait g.trap hv2 ((tblFind_mod_self _ _ _).trans (congrArg _ hu)) ht hn hr
  obtain ⟨as, has⟩ := waveAt_settle hw (.inl (he.trans hl))
  exact ⟨_, _, hx, has, hen⟩

theorem waitvWake_goesOn {q : WaitV} {acc : Acc} (hh : u.hold = .waitv q) (ha : v.awake x = true) (hd : ∀ d ∈ q.dst, ∃ r, d = .s r) (hpoll : ∀ a ∈ v.accs, ¬ (a.kind = .poll ∧ a.sub = x)) (hwake : q.woken = true ∨ q.since + 1024 ≤ s.clock) (hu0 : ∀ d ∈ s.dies, d.2.watch.wctl = [])
    (hacc : waitvAcc (waitEnv s w x v u) s q = .ok acc) (haway : ∀ b ∈ acc.bytes, b.at_.isAway = false) (hready : waitvReady (waitEnv s w x v u) (served (waitEnv s w x v u) s q.flat [q.req]) acc = true)
    (hval : q.eq = true ↔ waitvValue (waitEnv s w x v u) (served (waitEnv s w x v u) s q.flat [q.req]) acc = q.cmp) : GoesOn (.waitvWake w x) s w x v u q.next := by
  obtain ⟨hwaves, hdies, hclock⟩ := waves_served (waitEnv s w x v u) s q.flat [q.req]
  generalize hs1 : served (waitEnv s w x v u) s q.flat [q.req] = s1 at *
  have hnopoll : (v.accs.any (fun a => decide (a.kind = .poll) && decide (a.sub = x)) || !(v.awake x)) = false := by
    rw [ha, Bool.not_true, Bool.or_false, List.any_eq_false]
    exact fun a hm h => hpoll a hm (by simpa using h)
  have hdue : (q.woken || decide (q.since + 1024 ≤ s.clock) || (decide (q.limit ≠ 0) && decide (q.limit ≤ s.clock - q.t0))) = true := by
    rcases hwake with h | h <;> simp [h]
  have hnear : acc.bytes.any (fun b => b.at_.isAway) = false := List.any_eq_false.2 fun b hb => by simp [haway b hb]
  have hends : (q.ends s.clock (waitvValue (waitEnv s w x v u) s1 acc) && true) = true := by
    rw [Bool.and_true, WaitV.ends, Bool.or_eq_true]
    left
    rw [beq_iff_eq, Bool.eq_iff_iff, decide_eq_true_eq]
    exact hval.symm
  have hseen : waitvSeen (waitEnv s w x v u) s1 acc = acqDrop s1 (waitEnv s w x v u).core acc := waitvSeen_leaves (by rw [hdies]; exact hu0)
  have hclk : (acqDrop s1 (waitEnv s w x v u).core acc).clock = s.clock := (clock_acqDrop _ _ _).trans hclock
  have hx : exec (.waitvWake w x) s = nextOf s (modWave (landAll (dropEntries (acqDrop s1 (waitEnv s w x v u).core acc) q.pops) w (q.dst.map (fun d => ⟨d, waitvValue (waitEnv s w x v u) s1 acc⟩))) w (fun v => v.modSub x (fun u => { u with pc := q.next, hold := .run, aged := 0 }))) := by
    show execWaitvWake w x s = _
    simp only [execWaitvWake, hv, hu, Wave.holdOf_of hu, hh, hnopoll, hdue, hacc, hs1, hnear, hready, hseen, waitvGot, hclk, hends, if_true, Bool.false_eq_true, if_false]
  have hw0 : waveAt (dropEntries (acqDrop s1 (waitEnv s w x v u).core acc) q.pops) w = some v := by
    rw [waveAt, waves_dropEntries, waves_acqDrop, hwaves]
    exact hv
  obtain ⟨r, hr⟩ := putAll_scalars (l := q.dst.map (fun d => ⟨d, waitvValue (waitEnv s w x v u) s1 acc⟩)) v (fun y hy => by
    obtain ⟨d, hm, rfl⟩ := List.mem_map.1 hy
    exact hd d hm)
  have hw1 : waveAt (landAll (dropEntries (acqDrop s1 (waitEnv s w x v u).core acc) q.pops) w (q.dst.map (fun d => ⟨d, waitvValue (waitEnv s w x v u) s1 acc⟩))) w = some { v with s := r } := by
    rw [waveAt_landAll, hw0, ← hr]
    rfl
  exact goesOn_modSub (v1 := { v with s := r }) (f := fun u => { u with pc := q.next, hold := .run, aged := 0 }) hx (waveAt_modWave_of hw1 _) hu ⟨rfl, rfl, rfl, rfl⟩ rfl rfl

end

/-- Settles O50: the causes taken at a boundary, then the end of each wait. -/
theorem boundarySteps : Obligations.BoundarySteps := by
  unfold Obligations.BoundarySteps
  constructor
  · intro s w v hv enters
    have enters_of : ∀ {i : Instr} {x : Nat} {t0 : Trap}, t0.tpc = none → (∀ u, tblFind v.subs x = some u → ∃ t v', exec i s = .next t ∧ waveAt t w = some v' ∧ Entered v v' x u t0) → enters i x t0.cause t0.addr t0.info := by
      intro i x t0 hn h u hu
      obtain ⟨t, v', ht, hw, hen⟩ := h u hu
      exact ⟨t, v', ht, hw, hen.tcause, hen.taddr, hen.tinfo, by rw [hen.tpc, hn]; rfl, hen.handler, hen.self, hen.others, hen.registers⟩
    refine ⟨fun hm hp ht hr => ⟨fun c a b r hh => ?_, fun c a b x ha ho => ?_⟩, fun x u hu ha hi hl => subwaveAged_ages hv hu ha hi hl, fun t0 hp hl hn hs he hh => preemptLimit_parks hv hp hl hn hs he hh⟩
    · have htaken : (asTaken s v { cause := c, addr := a, info := b }).tpc = none ∧ (asTaken s v { cause := c, addr := a, info := b }).cause = c := by
        unfold asTaken
        split <;> exact ⟨rfl, rfl⟩
      have he := enters_of htaken.1 fun u hu => trapEntry_enters hv hm hp ht hr hh hu
      rwa [htaken.2] at he
    · exact enters_of (t0 := { cause := c, addr := a, info := b }) rfl fun u hu => watchdog_enters hv hm hp ht hr ha ho hu
  · intro s w x v u hv hu goesOn traps
    exact ⟨fun a t0 hh => callxWake_goesOn hv hu hh, fun a t0 b hh ht => callxReread_goesOn hv hu hh ht, fun q acc hh ha hd hpoll hwake hu0 hacc haway hready hval => waitvWake_goesOn hv hu hh ha hd hpoll hwake hu0 hacc haway hready hval,
      fun ks next hh ha hk => kwaitComplete_goesOn hv hu hh ha hk, fun ks next k a i hh hs hf ht hn hr _ hl => kwaitComplete_raises hv hu hh hs hf ht hn hr hl, fun g next b hh ha ho he => gateWaitComplete_goesOn hv hu hh ha ho he,
      fun g next b hh ho he ht hn hr _ hl => gateWaitComplete_raises hv hu hh ho he ht hn hr hl, fun ctx n g hg hlim heng hgw hst hh hp ht hn hr hl hlate => gapLimit_raises hv hu hg hlim heng hgw hst hh hp ht hn hr hl hlate⟩

end Sys2Proof.Machine
end

section
/-! PROOFS. Heat and the power limit (R442, R443, R485). -/

namespace Sys2Proof.Machine

theorem quadTemp_setTemp (s : State) (q c : Nat) : quadTemp (setTemp s q c) q = c := tblGet_set_self _ _ _ _

theorem temps_askMigration (s : State) (q : Nat) : (askMigration s q).temps = s.temps := by
  unfold askMigration
  split <;> rfl

theorem quadTemp_askMigration (s : State) (q c : Nat) : quadTemp (askMigration (setTemp s q c) q) q = c := by
  rw [quadTemp, temps_askMigration]
  exact quadTemp_setTemp s q c

/-- R443: the request stands, and nothing but the cohorts it names has changed. -/
theorem askMigration_asks (s : State) (q : Nat) : q ∈ (askMigration s q).heat.hot ∧ (askMigration s q).heat.half = s.heat.half ∧ (askMigration s q).waves = s.waves := by
  unfold askMigration
  split
  · next h => exact ⟨h, rfl, rfl⟩
  · exact ⟨List.mem_cons_self, rfl, rfl⟩

theorem askMigration_names {s : State} {q : Nat} (h : q ∉ s.heat.hot) {e : Nat × Cohort} (he : e ∈ s.cohorts) (hn : migrNames s q e.2 = true) : ∃ e' ∈ (askMigration s q).cohorts, e'.1 = e.1 ∧ q ∈ e'.2.migReq := by
  refine ⟨(e.1, { e.2 with migReq := q :: e.2.migReq.filter (· ≠ q) }), ?_, rfl, List.mem_cons_self⟩
  simp only [askMigration, h, if_false]
  exact List.mem_map.2 ⟨e, he, by rw [if_pos hn]⟩

theorem not_mem_without (l : List Nat) (q : Nat) : q ∉ l.filter (· ≠ q) := by simp

/-- R442: a quad whose reading falls to `c`. -/
def cooled (s : State) (q c : Nat) : State := if c < 100 then { setTemp s q c with heat := { (setTemp s q c).heat with half := (setTemp s q c).heat.half.filter (· ≠ q) } } else setTemp s q c

theorem cooled_spec (s : State) (q c : Nat) : quadTemp (cooled s q c) q = c ∧ (cooled s q c).waves = s.waves ∧ (cooled s q c).cohorts = s.cohorts ∧ (cooled s q c).heat.hot = s.heat.hot ∧ (c < 100 → q ∉ (cooled s q c).heat.half) ∧ (100 ≤ c → (cooled s q c).heat.half = s.heat.half) := by
  by_cases h : c < 100
  · rw [cooled, if_pos h]
    exact ⟨quadTemp_setTemp s q c, rfl, rfl, rfl, fun _ => not_mem_without _ q, fun h' => absurd h (Nat.not_lt.2 h')⟩
  · rw [cooled, if_neg h]
    exact ⟨quadTemp_setTemp s q c, rfl, rfl, rfl, fun h' => absurd h' h, fun _ => rfl⟩

theorem thermalClear_cools {s : State} {q c : Nat} (hq : q < 80) (ht : s.heat.tripped = false) (h : c < quadTemp s q) :
    ∃ t, exec (.thermalClear q c) s = .next t ∧ quadTemp t q = c ∧ t.waves = s.waves ∧ (c < 100 → q ∉ t.heat.half) ∧ (100 ≤ c → t.heat.half = s.heat.half)
      ∧ (c < 90 → q ∉ t.heat.hot ∧ ∀ e ∈ t.cohorts, q ∉ e.2.migReq) ∧ (90 ≤ c → t.heat.hot = s.heat.hot ∧ t.cohorts = s.cohorts) := by
  obtain ⟨h1, h2, h3, h4, h5, h6⟩ := cooled_spec s q c
  refine ⟨finish s (if c < 90 then dropRequest (cooled s q c) q else cooled s q c), if_pos ⟨hq, h, ht⟩, ?_⟩
  by_cases h90 : c < 90
  · rw [if_pos h90]
    refine ⟨h1, h2, h5, h6, fun _ => ⟨not_mem_without _ q, fun e he => ?_⟩, fun h' => absurd h90 (Nat.not_lt.2 h')⟩
    obtain ⟨y, -, rfl⟩ := List.mem_map.1 he
    exact not_mem_without _ q
  · rw [if_neg h90]
    exact ⟨h1, h2, h5, h6, fun h' => absurd h' h90, fun _ => ⟨h4, h3⟩⟩

/-- Settles O56: each event by its definition. -/
theorem thermalSteps : Obligations.ThermalSteps := by
  unfold Obligations.ThermalSteps
  intro s q hq ht
  refine ⟨fun h => ?_, fun h => ?_, fun h => ?_, fun c h => thermalClear_cools hq ht h, fun on h => ?_⟩
  · obtain ⟨h1, h2, h3⟩ := askMigration_asks (setTemp s q 95) q
    exact ⟨_, if_pos ⟨hq, h, ht⟩, quadTemp_askMigration s q 95, h1, h2, h3, fun hn e he hm => askMigration_names (s := setTemp s q 95) hn he hm⟩
  · obtain ⟨h1, h2, h3⟩ := askMigration_asks (setTemp s q 105) q
    exact ⟨_, if_pos ⟨hq, h, ht⟩, quadTemp_askMigration s q 105, h1, List.mem_cons_self, h3⟩
  · exact ⟨_, if_pos ⟨hq, h, ht⟩, quadTemp_setTemp s q 115, rfl, rfl, rfl, rfl, rfl, rfl, rfl⟩
  · exact ⟨_, if_pos ⟨h, ht⟩, rfl, rfl, rfl⟩

end Sys2Proof.Machine
end

section
/-! PROOFS. Command frames: their series, and commands refused (R449, R477, R482 to R484). -/

namespace Sys2Proof.Machine

/-! The gate that every command frame passes. -/

section
variable {s : State} {p : Payload} {c : HostCmd} {during : Bool} {act : State → Out} (hup : hostUp s = true)
include hup

theorem cmdGate_again (hq : s.host.queue.head? ≠ some c) (h : p.seq < cmdNext s) : cmdGate c during p s act = .next (finish s s) := by
  simp only [cmdGate, hup, hq, h, Bool.not_true, Bool.false_eq_true, if_false, false_and, if_true]
  rfl

theorem cmdGate_early (hq : s.host.queue.head? ≠ some c) (h : cmdNext s < p.seq) : cmdGate c during p s act = nextOf s { s with net := { s.net with early := s.net.early ++ [(p.seq, c)] } } := by
  simp only [cmdGate, hup, hq, h, Nat.not_lt.2 (Nat.le_of_lt h), Bool.not_true, Bool.false_eq_true, if_false, false_and, if_true]

theorem cmdGate_behind (hq : s.host.queue.head? ≠ some c) (h : p.seq = cmdNext s) (hd : during = false) (hb : s.host.queue ≠ [] ∨ cmdBusy s = true) :
    cmdGate c during p s act = nextOf s { cmdTook s p.seq with host := { s.host with queue := s.host.queue ++ [c] } } := by
  have hw : (during || (s.host.queue.isEmpty && !(cmdBusy s))) = false := by
    rcases hb with hb | hb
    · simp [hd, hb]
    · simp [hd, hb]
  have hlt : ¬ p.seq < cmdNext s := by omega
  have hgt : ¬ cmdNext s < p.seq := by omega
  simp only [cmdGate, hup, hq, hlt, hgt, hw, Bool.not_true, Bool.false_eq_true, if_false, false_and]

theorem cmdGate_turn (h : p.seq = cmdNext s) (hq : s.host.queue = []) (hb : cmdBusy s = false) : cmdGate c during p s act = act (cmdTook s p.seq) := by
  have hlt : ¬ p.seq < cmdNext s := by omega
  have hgt : ¬ cmdNext s < p.seq := by omega
  simp [cmdGate, hup, hq, hb, hlt, hgt]

end

/-- The two tests of a command, of its payload and of the state of bring-up, before it does `f`. -/
def tested (op len : Nat) (zeros : List (Nat × Nat)) (always : Bool) (p : Payload) (f : State → Out) (s : State) : Out :=
  if !(headOk p len zeros) then nextOf s (reply s op 2 []) else if !(stateOk s always) then nextOf s (reply s op 3 []) else f s

/-- What a command that may wait does once it is accepted. -/
def waitRun (op : Nat) (bad : State → Bool) (begin : State → State) (s : State) : Out := if bad s then nextOf s (reply s op 2 []) else nextOf s (hostSettle (settle (begin s)))

/-- What STOP does once it is accepted (R419). -/
def stopRun (p : Payload) (s : State) : Out :=
  if !(installed s (opNat p 0 4)) || !(targetOk (opNat p 4 4)) || bitAt (opNat p 4 4) 15 || decide (opNat p 8 8 ≠ 0) then nextOf s (reply s 0x32 2 [])
  else nextOf s (soundFog s { seq := 0, cycle := 0, core := bits (opNat p 4 4) 0 9, ctx := opNat p 0 4, cause := 0, ask := true })

/-- What STEP does once it is accepted (R422). -/
def stepRun (p : Payload) (s : State) : Out :=
  if !(installed s (opNat p 0 4)) || !(targetOk (opNat p 4 4)) || !(bitAt (opNat p 4 4) 15) || decide (1 < opNat p 8 8) then nextOf s (reply s 0x33 2 [])
  else match targetWave s (opNat p 0 4) (opNat p 4 4) with
    | some (w, v) => if v.stopped && !v.stepping then nextOf s (modWave s w (fun u => { u with stepping := true, stepDeliver := bitAt (opNat p 8 8) 0, stepAsk := true })) else nextOf s (reply s 0x33 1 [])
    | none => nextOf s (reply s 0x33 1 [])

/-- What an accepted OPEN does (R482). -/
def openRun (p : Payload) (s : State) : Out := if !(headOk p 8 [(4, 4)]) then nextOf s (reply s 0x01 2 []) else nextOf s (reply (openDo p s) 0x01 0 [])

/-! What each of those does at the gate. -/

section
variable (p : Payload) (s : State)

theorem exec_openSession : exec (.openSession p) s = cmdGate (.openSession p) true p s (openRun p) := rfl

theorem exec_preempt : exec (.preempt p) s = cmdGate (.preempt p) false p s (tested 0x13 48 [(4, 4)] false p (waitRun 0x13 (fun s => !(installed s (opNat p 0 4))) (fun s => preemptDo s (opNat p 0 4) (maskCores p 8)))) := rfl

theorem exec_coreSave : exec (.coreSave p) s = cmdGate (.coreSave p) false p s (tested 0x14 8 [(6, 2)] false p (waitRun 0x14 (fun s => !(installed s (opNat p 0 4)) || decide (319 < opNat p 4 2)) (fun s => { s with host := { s.host with waiting := some (.save (opNat p 0 4) (opNat p 4 2)) } }))) := rfl

theorem exec_coreRestore : exec (.coreRestore p) s = cmdGate (.coreRestore p) false p s (tested 0x15 8 [(6, 2)] false p (waitRun 0x15 (fun s => !(installed s (opNat p 0 4)) || decide (319 < opNat p 4 2)) (fun s => { s with host := { s.host with waiting := some (.restore (opNat p 0 4) (opNat p 4 2)) } }))) := rfl

theorem exec_stop : exec (.stop p) s = cmdGate (.stop p) true p s (tested 0x32 16 [] false p (stopRun p)) := rfl

theorem exec_step : exec (.step p) s = cmdGate (.step p) true p s (tested 0x33 16 [] false p (stepRun p)) := rfl

end

/-- What a command that is answered at once does once it is accepted. -/
def answered (op : Nat) (act : State → Ans) (s : State) : Out := nextOf s (settle (reply (act s).1 op (act s).2.1 (act s).2.2))

theorem command_gate (i : HostCmd) (op len : Nat) (zeros : List (Nat × Nat)) (always during : Bool) (p : Payload) (act : State → Ans) (s : State) : command i op len zeros always during p s act = cmdGate i during p s (tested op len zeros always p (answered op act)) := rfl

theorem cmdNext_took (s : State) (n : Nat) : cmdNext (cmdTook s n) = n + 1 := by
  simp only [cmdNext, cmdTook, tblGet_set_self]

/-- The command forms of the statement whose frames pass the gate: what each does once its turn has come. -/
theorem gated_forms {p : Payload} {i : Instr} {c : HostCmd} {during : Bool}
    (h : (i, c, during) ∈ ([(.openSession p, .openSession p, true), (.status p, .status p, true), (.attest p, .attest p, false), (.streamWrite p, .streamWrite p, false), (.invalidate p, .invalidate p, false), (.preempt p, .preempt p, false), (.coreSave p, .coreSave p, false),
      (.coreRestore p, .coreRestore p, false), (.gapAnswer p, .gapAnswer p, true), (.keyLoad p, .keyLoad p, false), (.keyRetire p, .keyRetire p, false), (.partitionSet p, .partitionSet p, false), (.stop p, .stop p, true), (.step p, .step p, true), (.resume p, .resume p, true)] : List (Instr × HostCmd × Bool))) :
    ∃ act, ∀ s, exec i s = cmdGate c during p s act := by
  simp only [List.mem_cons, Prod.mk.injEq, List.not_mem_nil, or_false] at h
  rcases h with ⟨rfl, rfl, rfl⟩ | ⟨rfl, rfl, rfl⟩ | ⟨rfl, rfl, rfl⟩ | ⟨rfl, rfl, rfl⟩ | ⟨rfl, rfl, rfl⟩ | ⟨rfl, rfl, rfl⟩ | ⟨rfl, rfl, rfl⟩ | ⟨rfl, rfl, rfl⟩ | ⟨rfl, rfl, rfl⟩ | ⟨rfl, rfl, rfl⟩ | ⟨rfl, rfl, rfl⟩ | ⟨rfl, rfl, rfl⟩ | ⟨rfl, rfl, rfl⟩ | ⟨rfl, rfl, rfl⟩ | ⟨rfl, rfl, rfl⟩
  · exact ⟨_, exec_openSession p⟩
  · exact ⟨_, fun s => command_gate _ _ _ _ _ _ _ _ s⟩
  · exact ⟨_, fun s => command_gate _ _ _ _ _ _ _ _ s⟩
  · exact ⟨_, fun s => command_gate _ _ _ _ _ _ _ _ s⟩
  · exact ⟨_, fun s => command_gate _ _ _ _ _ _ _ _ s⟩
  · exact ⟨_, exec_preempt p⟩
  · exact ⟨_, exec_coreSave p⟩
  · exact ⟨_, exec_coreRestore p⟩
  · exact ⟨_, fun s => command_gate _ _ _ _ _ _ _ _ s⟩
  · exact ⟨_, fun s => command_gate _ _ _ _ _ _ _ _ s⟩
  · exact ⟨_, fun s => command_gate _ _ _ _ _ _ _ _ s⟩
  · exact ⟨_, fun s => command_gate _ _ _ _ _ _ _ _ s⟩
  · exact ⟨_, exec_stop p⟩
  · exact ⟨_, exec_step p⟩
  · exact ⟨_, fun s => command_gate _ _ _ _ _ _ _ _ s⟩

theorem tested_layout {op len : Nat} {zeros : List (Nat × Nat)} {always : Bool} {p : Payload} {f : State → Out} {s : State} (h : headOk p len zeros = false) : tested op len zeros always p f s = nextOf s (reply s op 2 []) := by
  rw [tested, h]
  rfl

theorem tested_state {op len : Nat} {zeros : List (Nat × Nat)} {always : Bool} {p : Payload} {f : State → Out} {s : State} (h : headOk p len zeros = true) (hs : stateOk s always = false) : tested op len zeros always p f s = nextOf s (reply s op 3 []) := by
  rw [tested, h, hs]
  rfl

theorem tested_accepted {op len : Nat} {zeros : List (Nat × Nat)} {always : Bool} {p : Payload} {f : State → Out} {s : State} (h : headOk p len zeros = true) (hs : stateOk s always = true) : tested op len zeros always p f s = f s := by
  rw [tested, h, hs]
  rfl

/-- The command forms of the statement that test payload and state. -/
theorem tested_forms {p : Payload} {i : Instr} {op len : Nat} {zeros : List (Nat × Nat)} {always : Bool}
    (h : (i, op, len, zeros, always) ∈ ([(.status p, 0x02, 0, [], true), (.attest p, 0x03, 64, [], true), (.streamWrite p, 0x11, 8, [], false), (.invalidate p, 0x12, 64, [(4, 4)], false), (.preempt p, 0x13, 48, [(4, 4)], false), (.coreSave p, 0x14, 8, [(6, 2)], false),
      (.coreRestore p, 0x15, 8, [(6, 2)], false), (.gapAnswer p, 0x16, 16, [(5, 3)], false), (.keyLoad p, 0x20, 520, [(2, 6)], false), (.keyRetire p, 0x21, 8, [(2, 6)], false), (.partitionSet p, 0x22, 8, [(4, 4)], false), (.stop p, 0x32, 16, [], false), (.step p, 0x33, 16, [], false),
      (.resume p, 0x34, 16, [], false)] : List (Instr × Nat × Nat × List (Nat × Nat) × Bool))) :
    ∃ c during f, ∀ s, exec i s = cmdGate c during p s (tested op len zeros always p f) := by
  simp only [List.mem_cons, Prod.mk.injEq, List.not_mem_nil, or_false] at h
  rcases h with ⟨rfl, rfl, rfl, rfl, rfl⟩ | ⟨rfl, rfl, rfl, rfl, rfl⟩ | ⟨rfl, rfl, rfl, rfl, rfl⟩ | ⟨rfl, rfl, rfl, rfl, rfl⟩ | ⟨rfl, rfl, rfl, rfl, rfl⟩ | ⟨rfl, rfl, rfl, rfl, rfl⟩ | ⟨rfl, rfl, rfl, rfl, rfl⟩ | ⟨rfl, rfl, rfl, rfl, rfl⟩ | ⟨rfl, rfl, rfl, rfl, rfl⟩ | ⟨rfl, rfl, rfl, rfl, rfl⟩ | ⟨rfl, rfl, rfl, rfl, rfl⟩ | ⟨rfl, rfl, rfl, rfl, rfl⟩ | ⟨rfl, rfl, rfl, rfl, rfl⟩ | ⟨rfl, rfl, rfl, rfl, rfl⟩
  · exact ⟨_, _, _, fun s => command_gate _ _ _ _ _ _ _ _ s⟩
  · exact ⟨_, _, _, fun s => command_gate _ _ _ _ _ _ _ _ s⟩
  · exact ⟨_, _, _, fun s => command_gate _ _ _ _ _ _ _ _ s⟩
  · exact ⟨_, _, _, fun s => command_gate _ _ _ _ _ _ _ _ s⟩
  · exact ⟨_, _, _, exec_preempt p⟩
  · exact ⟨_, _, _, exec_coreSave p⟩
  · exact ⟨_, _, _, exec_coreRestore p⟩
  · exact ⟨_, _, _, fun s => command_gate _ _ _ _ _ _ _ _ s⟩
  · exact ⟨_, _, _, fun s => command_gate _ _ _ _ _ _ _ _ s⟩
  · exact ⟨_, _, _, fun s => command_gate _ _ _ _ _ _ _ _ s⟩
  · exact ⟨_, _, _, fun s => command_gate _ _ _ _ _ _ _ _ s⟩
  · exact ⟨_, _, _, exec_stop p⟩
  · exact ⟨_, _, _, exec_step p⟩
  · exact ⟨_, _, _, fun s => command_gate _ _ _ _ _ _ _ _ s⟩

/-- Settles O59: the gate's branches, then the two tests. -/
theorem commandRefused : Obligations.CommandRefused := by
  unfold Obligations.CommandRefused
  intro s p hup
  refine ⟨fun i c during h hq => ?_, fun hs hq hb => ⟨fun i op len zeros always h => ?_, fun h => ?_, fun opcode h => ?_⟩⟩
  · obtain ⟨act, hx⟩ := gated_forms h
    refine ⟨fun hs => (hx s).trans (cmdGate_again hup hq hs), fun hs => ⟨_, (hx s).trans (cmdGate_early hup hq hs), rfl, rfl, rfl, rfl, rfl⟩, fun hs hd hb => ⟨_, (hx s).trans (cmdGate_behind hup hq hs hd hb), rfl, ?_, rfl, rfl, rfl⟩⟩
    exact (cmdNext_took s p.seq).trans (by rw [hs])
  · obtain ⟨c, during, f, hx⟩ := tested_forms h
    have hturn := (hx s).trans (cmdGate_turn hup hs hq hb)
    exact ⟨fun hh => ⟨_, hturn.trans (tested_layout hh), rfl, rfl, rfl, rfl, rfl⟩, fun hh hst => ⟨_, hturn.trans (tested_state hh hst), rfl, rfl, rfl, rfl, rfl⟩⟩
  · have hx : exec (.openSession p) s = nextOf (cmdTook s p.seq) (reply (cmdTook s p.seq) 0x01 2 []) := by
      refine ((exec_openSession p s).trans (cmdGate_turn hup hs hq hb)).trans ?_
      rw [openRun, h]
      rfl
    exact ⟨_, hx, rfl, rfl⟩
  · have hx : exec (.unknownCommand opcode p) s = nextOf (cmdTook s p.seq) (reply (cmdTook s p.seq) opcode 2 []) := by
      show execUnknownCommand opcode p s = _
      rw [execUnknownCommand, if_neg h]
      exact cmdGate_turn hup hs hq hb
    exact ⟨_, hx, rfl, rfl, rfl, rfl, rfl⟩

end Sys2Proof.Machine
end

section
/-! PROOFS. Bring-up, reset, uncorrectable errors and the foghorn's last cycle (R211, R212, R419, R479, R480). -/

namespace Sys2Proof.Machine

/-- R419: what an event does to one wave of the list of waves. -/
def stopOne (f : Fog) (cores : List Nat) (t : State) (e : Nat × Wave) : State := if e.2.ctx = f.ctx ∧ e.2.core ∈ cores then stopWave t f e.1 e.2 else t

/-- Whether a wave is there and has a property. -/
def WaveIs (P : Wave → Prop) (w : Nat) (t : State) : Prop := ∃ v, waveAt t w = some v ∧ P v

/-- A property that every wave has which an event has just stopped. -/
def HeldByStop (f : Fog) (P : Wave → Prop) : Prop := ∀ (u : Wave) (r : StopRec), r.seq = f.seq → r.cause = f.cause → P { u with stopped := true, stopRec := some r }

section
variable {f : Fog} {P : Wave → Prop} {cores : List Nat} {w : Nat}

theorem waveIs_stopWave (hs : HeldByStop f P) {t : State} (ht : WaveIs P w t) (x : Nat) (v : Wave) : WaveIs P w (stopWave t f x v) := by
  unfold stopWave
  split
  · exact ht
  · obtain ⟨u, hu, hPu⟩ := ht
    by_cases hx : w = x
    · subst hx
      exact ⟨_, waveAt_modWave_of hu _, hs _ _ rfl rfl⟩
    · exact ⟨u, (waveAt_modWave_ne t _ hx).trans hu, hPu⟩

theorem waveIs_stopOne (hs : HeldByStop f P) {t : State} (ht : WaveIs P w t) (e : Nat × Wave) : WaveIs P w (stopOne f cores t e) := by
  unfold stopOne
  split
  · exact waveIs_stopWave hs ht _ _
  · exact ht

theorem waveIs_stopAll (hs : HeldByStop f P) (l : List (Nat × Wave)) {t : State} (ht : WaveIs P w t) : WaveIs P w (l.foldl (stopOne f cores) t) := by
  induction l generalizing t with
  | nil => exact ht
  | cons e l ih => exact ih (waveIs_stopOne hs ht e)

/-- A wave of the event's context on one of the cores that has not stopped stops, whatever stands before it in the list. -/
theorem waveIs_stopAll_of_find (hs : HeldByStop f P) {v : Wave} (hctx : v.ctx = f.ctx) (hcore : v.core ∈ cores) (hlive : v.ended = false) (hgoes : v.stopped = false) (l : Tbl Wave) {t : State} (ht : WaveIs (fun _ => True) w t) (hl : tblFind l w = some v) :
    WaveIs P w (l.foldl (stopOne f cores) t) := by
  induction l generalizing t with
  | nil => cases hl
  | cons e l ih =>
    by_cases he : e.1 = w
    · have hv : e.2 = v := by simpa [tblFind, he] using hl
      subst hv he
      refine waveIs_stopAll hs l ?_
      obtain ⟨u, hu, -⟩ := ht
      rw [stopOne, if_pos ⟨hctx, hcore⟩, stopWave, hlive, hgoes]
      exact ⟨_, waveAt_modWave_of hu _, hs _ _ rfl rfl⟩
    · refine ih (waveIs_stopOne (fun _ _ _ _ => trivial) ht e) ?_
      simpa [tblFind, he, Ne.symm he] using hl

end

/-- What `stopCores` leaves as it was. -/
theorem stopAll_leaves (f : Fog) (cores : List Nat) (l : List (Nat × Wave)) (t : State) : (l.foldl (stopOne f cores) t).out = t.out ∧ (l.foldl (stopOne f cores) t).stops = t.stops ∧ (l.foldl (stopOne f cores) t).fogs = t.fogs := by
  induction l generalizing t with
  | nil => exact ⟨rfl, rfl, rfl⟩
  | cons e l ih =>
    obtain ⟨ho, hst, hf⟩ := ih (stopOne f cores t e)
    have : (stopOne f cores t e).out = t.out ∧ (stopOne f cores t e).stops = t.stops ∧ (stopOne f cores t e).fogs = t.fogs := by
      unfold stopOne stopWave
      split
      · split <;> exact ⟨rfl, rfl, rfl⟩
      · exact ⟨rfl, rfl, rfl⟩
    exact ⟨ho.trans this.1, hst.trans this.2.1, hf.trans this.2.2⟩

theorem left_reached (f : Fog) : ({ f with reached := f.reached ++ f.left } : Fog).left = [] := by
  refine List.filter_eq_nil_iff.2 fun c hc h => ?_
  have hcov : f.covers c = true := (Bool.and_eq_true_iff.1 h).1
  have hnot : c ∉ f.reached ++ f.left := by simpa using (Bool.and_eq_true_iff.1 h).2
  refine hnot (List.mem_append.2 ?_)
  by_cases hr : c ∈ f.reached
  · exact .inl hr
  · exact .inr (List.mem_filter.2 ⟨hc, by rw [hcov]; simpa using hr⟩)

/-- R419: the state once an event has reached the last cores of its group, before its command is answered. -/
def fogDone (s : State) (k : Nat) (f : Fog) : State := { stopCores s f f.left with fogs := s.fogs.eraseIdx k, stops := s.stops ++ [{ f with reached := f.reached ++ f.left, ask := false }] }

theorem exec_foghorn_last {s : State} {k : Nat} {f : Fog} (hf : s.fogs[k]? = some f) (hc : f.cycle + 64 ≤ s.clock) : exec (.foghorn k) s = nextOf s (if f.ask then reply (fogDone s k f) 0x32 0 [] else fogDone s k f) := by
  obtain ⟨-, hst, hfg⟩ := stopAll_leaves f f.left s.waves s
  have hst' : (stopCores s f f.left).stops = s.stops := hst
  have hfg' : (stopCores s f f.left).fogs = s.fogs := hfg
  show execFoghorn k s = _
  simp only [execFoghorn, hf, fogNext, if_pos hc, fogMove, left_reached, hst', hfg', List.isEmpty_nil, if_true]
  rfl

/-- R419 to R421: the event's last cycle stops every wave of its context that it had not reached. -/
theorem foghorn_stops (s : State) (k : Nat) (f : Fog) (hf : s.fogs[k]? = some f) (hc : f.cycle + 64 ≤ s.clock) :
    ∃ t, exec (.foghorn k) s = .next t ∧ t.stops.length = s.stops.length + 1 ∧ (f.ask = true → t.out = s.out ++ [.reply 0x32 0 []])
      ∧ ∀ w v, waveAt s w = some v → v.ctx = f.ctx → v.core ∈ f.left → v.ended = false → ∃ v', waveAt t w = some v' ∧ v'.stopped = true ∧ (v.stopped = false → ∃ r, v'.stopRec = some r ∧ r.seq = f.seq ∧ r.cause = f.cause) := by
  have hw : ∀ w, waveAt (if f.ask then reply (fogDone s k f) 0x32 0 [] else fogDone s k f) w = waveAt (s.waves.foldl (stopOne f f.left) s) w := by
    intro w
    split <;> rfl
  refine ⟨_, exec_foghorn_last hf hc, ?_, fun hask => ?_, fun w v hv hctx hcore hlive => ?_⟩
  · show (if f.ask then reply (fogDone s k f) 0x32 0 [] else fogDone s k f).stops.length = _
    split <;> simp [reply, tellHost, fogDone]
  · show (if f.ask then reply (fogDone s k f) 0x32 0 [] else fogDone s k f).out = _
    rw [if_pos hask]
    exact congrArg (· ++ _) (stopAll_leaves f f.left s.waves s).1
  · cases hgoes : v.stopped with
    | true =>
      obtain ⟨v', hv', hst⟩ := waveIs_stopAll (cores := f.left) (f := f) (P := fun u => u.stopped = true) (fun _ _ _ _ => rfl) s.waves ⟨v, hv, hgoes⟩
      exact ⟨v', (hw w).trans hv', hst, fun h => Bool.noConfusion h⟩
    | false =>
      obtain ⟨v', hv', hst, hr⟩ := waveIs_stopAll_of_find (P := fun u => u.stopped = true ∧ ∃ r, u.stopRec = some r ∧ r.seq = f.seq ∧ r.cause = f.cause) (fun _ r hseq hcause => ⟨rfl, r, rfl, hseq, hcause⟩) hctx hcore hlive hgoes s.waves (t := s) ⟨v, hv, trivial⟩ hv
      exact ⟨v', (hw w).trans hv', hst, fun _ => hr⟩

theorem execLinkTraining_of {s : State} {port : Nat} (h : mayTrain s port = true) (ok : Bool) : exec (.linkTraining port ok) s = nextOf s { s with boot := trainPort s.boot s.clock port ok } := by
  show execLinkTraining port ok s = _
  rw [execLinkTraining, if_pos h]

theorem trainPort_fails (b : Boot) (clock port : Nat) : (trainPort b clock port false).links = b.links ∧ (port = hostPort → (trainPort b clock port false).retry = some (clock + retryCycles)) ∧ (port ≠ hostPort → port ∈ (trainPort b clock port false).down) := by
  rw [trainPort, if_neg Bool.false_ne_true]
  split
  · next h => exact ⟨rfl, fun _ => rfl, fun h' => absurd h h'⟩
  · next h => exact ⟨rfl, fun h' => absurd h' h, fun _ => List.mem_cons_self⟩

/-! R212: the byte that an uncorrectable error poisons. -/

/-- A place that `arrayPlace` answers: a cohort's allocation, or a tile area that stands on the core. -/
theorem arrayPlace_cases {s : State} {core off : Nat} {p : Place} (h : arrayPlace s core off = some p) :
    (∃ c l o, p = .spad c l o ∧ ∃ e ∈ s.cohorts, e.1 = c) ∨ ∃ x o, p = .tile core x o ∧ ∃ e ∈ (coreAt s core).tiles, e.1 = x := by
  unfold arrayPlace at h
  dsimp only at h
  split at h
  · next x hx =>
    cases h
    obtain ⟨c, hc, hf⟩ := List.exists_of_findSome?_eq_some hx
    obtain ⟨k, hk, hg⟩ := List.exists_of_findSome?_eq_some hf
    split at hg
    · cases hg
      exact .inl ⟨_, _, _, rfl, c, hc, rfl⟩
    · cases hg
  · obtain ⟨e, he, hg⟩ := List.exists_of_findSome?_eq_some h
    split at hg
    · cases hg
      exact .inr ⟨_, _, rfl, e, he, rfl⟩
    · cases hg

theorem tblFind_of_mem_key {α : Type} {t : Tbl α} {e : Nat × α} (h : e ∈ t) : ∃ v, tblFind t e.1 = some v := by
  induction t with
  | nil => cases h
  | cons d t ih =>
    by_cases hk : e.1 = d.1
    · exact ⟨d.2, by simp [tblFind, hk]⟩
    · cases h with
      | head => exact absurd rfl hk
      | tail _ h => exact (ih h).imp fun v hv => by simpa [tblFind, hk] using hv

theorem waves_spadPoison (s : State) (p : Place) (on : Bool) : (spadPoison s p on).waves = s.waves := by cases p <;> rfl

theorem tblGet_mod_of_mem {α : Type} (d : α) {t : Tbl α} {e : Nat × α} (h : e ∈ t) (g : α → α) : tblGet d (tblMod t e.1 g) e.1 = g (tblGet d t e.1) := by
  obtain ⟨v, hv⟩ := tblFind_of_mem_key h
  rw [tblGet, tblFind_mod_self, hv, tblGet, hv]
  rfl

/-- R212: the byte of the array is poisoned where its allocation stands. -/
theorem spadPoisoned_arrayPlace {s : State} {core off : Nat} {p : Place} (h : arrayPlace s core off = some p) : spadPoisoned (spadPoison s p true) p = true ∨ ∃ c l o, p = .spad c l o ∧ tblFind (tblGet {} s.cohorts c).spad l = none := by
  obtain ⟨c, l, o, rfl, e, he, rfl⟩ | ⟨x, o, rfl, e, he, rfl⟩ := arrayPlace_cases h
  · cases hl : tblFind (tblGet {} s.cohorts e.1).spad l with
    | none => exact .inr ⟨_, _, _, rfl, hl⟩
    | some a =>
      refine .inl (decide_eq_true ?_)
      show o ∈ (tblGet {} (tblGet {} (tblMod s.cohorts e.1 _) e.1).spad l).poison
      rw [tblGet_mod_of_mem {} he]
      show o ∈ (tblGet {} (tblMod (tblGet {} s.cohorts e.1).spad l _) l).poison
      rw [tblGet, tblFind_mod_self, hl]
      exact List.mem_cons_self
  · refine .inl (decide_eq_true ?_)
    show o ∈ (tblGet {} (coreAt (modCore s core _) core).tiles e.1).poison
    rw [coreAt_modCore_self]
    show o ∈ (tblGet {} (tblMod (coreAt s core).tiles e.1 _) e.1).poison
    rw [tblGet_mod_of_mem {} he]
    exact List.mem_cons_self

/-- Settles O58: each step's next state is the one its definition builds, and the event's last step goes over every wave. -/
theorem bringUpSteps : Obligations.BringUpSteps := by
  intro s
  refine ⟨fun image => ⟨_, rfl, rfl, rfl, rfl, rfl, rfl, rfl, rfl, rfl, rfl, rfl⟩, fun ok hst hcool => ?_, fun port h => ⟨⟨_, execLinkTraining_of h true, List.mem_cons_self, rfl⟩, ⟨_, execLinkTraining_of h false, trainPort_fails _ _ _⟩⟩, fun c hr hc hcool => ?_, foghorn_stops s, fun line hl => ?_, fun core off p hcore hoff hp => ?_⟩
  · exact ⟨_, if_pos ⟨hst, hcool⟩, rfl, Nat.add_le_add_left (Nat.le_add_right _ _) _, rfl⟩
  · have hx : exec .linkRetry s = nextOf s { s with boot := { s.boot with retry := none } } := by
      show execLinkRetry s = _
      simp only [execLinkRetry, hr, if_pos (show c ≤ s.clock ∧ s.heat.tripped = false from ⟨hc, hcool⟩)]
    exact ⟨_, hx, rfl⟩
  · exact ⟨_, if_pos hl, List.mem_cons_self, rfl⟩
  · have hx : exec (.uncorrectableError (.spadByte core off)) s = nextOf s (spadPoison s p true) := by
      show execUncorrectableError (.spadByte core off) s = _
      simp only [execUncorrectableError, if_pos (show core < 320 ∧ off < 524288 from ⟨hcore, hoff⟩), hp]
    exact ⟨_, hx, waves_spadPoison s p true, spadPoisoned_arrayPlace hp⟩

end Sys2Proof.Machine
end

section
/-! PROOFS. The steps of a tile move (R347, R348, R444): the state that refutes their statement. -/

namespace Sys2Proof.Machine

/-! A move of a migration entry (R444) that its destination refuses, while the last wave of the entry's cohort has ended and is drained: the reply gives the entry back, and the same step releases the cohort with the entry. -/

/-- The source's entry, for a piece of cohort 0. -/
def lentEntry : KeyEntry := { key := 0, st := .lent, peer := 1, len := 0, off := 0, owner := 0, ctx := 0, mig := some (0, 0) }

/-- The move, refused with result 4. -/
def refusedMove : MoveSt := { entry := 0, dst := 1, off := 0, res := [], step := 2, refuse := 4 }

/-- The engine instruction that holds it. -/
def refusedOp : EngOp := { wave := 5, ctx := 0, core := 0, begun := true, pay := .move refusedMove }

/-- The state: cohort 0's only wave has ended in an earlier cycle. -/
def endedCohort : State := { clock := 1, eng := [(0, refusedOp)], cores := [(0, { keyring := [(0, lentEntry)] })], waves := [(0, { ended := true, endedAt := 0, cohort := 0 })], cohorts := [(0, { waves := [0] })] }

/-- The entry that a step leaves at the source. -/
def entryAfter (x : Out) : Option (Option KeyEntry) := match x with | .next t => some (keyAt t 0 0) | _ => none

theorem entryAfter_reply : entryAfter (exec (.tmoveReply 0) endedCohort) = some none := rfl

/-- Refutes O53: a refused move's reply leaves no RESIDENT entry at its source where the step also releases the cohort that the migration entry belongs to. -/
theorem not_tileMoveSteps : ¬ Obligations.TileMoveSteps := by
  intro h
  obtain ⟨-, hreply, -⟩ := h endedCohort 0 refusedOp refusedMove lentEntry rfl (by decide)
  obtain ⟨t, hx, -, hkey⟩ := (hreply rfl).1 (by decide)
  have hgone := entryAfter_reply
  rw [hx] at hgone
  exact absurd ((Option.some.inj hgone).symm.trans hkey) (by simp)

end Sys2Proof.Machine
end

section
/-! PROOFS. What settling leaves of a state: the places that ended waves held, and the queues, are all that changes (R132, R208, R251, R355, R356). -/

namespace Sys2Proof.Machine

/-! A core as settling leaves it: lines of its L1, channels, entries and matches may be gone. -/

/-- The core `b` is `a` but for lines, channels, keyring entries and matches that are gone, and entries whose state has changed. -/
def CoreSettled (a b : Core) : Prop :=
  (∃ l1 ch kr ms, b = { a with l1 := l1, chans := ch, keyring := kr, matches_ := ms }) ∧ (∀ l ∈ b.l1, l ∈ a.l1) ∧ ∀ e ∈ b.keyring, ∃ e' ∈ a.keyring, e'.1 = e.1 ∧ e'.2.ctx = e.2.ctx

theorem CoreSettled.refl (a : Core) : CoreSettled a a := ⟨⟨a.l1, a.chans, a.keyring, a.matches_, rfl⟩, fun _ h => h, fun e h => ⟨e, h, rfl, rfl⟩⟩

theorem CoreSettled.trans {a b c : Core} (h : CoreSettled a b) (g : CoreSettled b c) : CoreSettled a c := by
  obtain ⟨⟨_, _, _, _, hb⟩, hl, hk⟩ := h
  obtain ⟨⟨l1, ch, kr, ms, hc⟩, hl2, hk2⟩ := g
  refine ⟨⟨l1, ch, kr, ms, by rw [hc, hb]⟩, fun l h => hl l (hl2 l h), fun e he => ?_⟩
  obtain ⟨e1, he1, h1, h2⟩ := hk2 e he
  obtain ⟨e2, he2, h3, h4⟩ := hk e1 he1
  exact ⟨e2, he2, h3.trans h1, h4.trans h2⟩

/-- A wave as settling leaves it: its queue, and the stores that a response waits for. -/
def WaveSettled (a b : Wave) : Prop := ∃ as r, b = { a with accs := as, began := r }

theorem WaveSettled.refl (a : Wave) : WaveSettled a a := ⟨a.accs, a.began, rfl⟩

theorem WaveSettled.trans {a b c : Wave} (h : WaveSettled a b) (g : WaveSettled b c) : WaveSettled a c := by
  obtain ⟨_, _, rfl⟩ := h
  obtain ⟨as, r, rfl⟩ := g
  exact ⟨as, r, rfl⟩

/-- The census `b` is `a` but for the answers of the device's own cores. -/
def CensusSettled (a b : Census) : Prop := ∃ cs, b = { a with cores := cs }

/-- What settling changes of a state, and no more. -/
structure Settled (s t : State) : Prop where
  only : ∃ ws cs co ca la ce tk, t = { s with waves := ws, cores := cs, cohorts := co, cards := ca, launches := la, censuses := ce, taken := tk }
  cores : ∀ p, CoreSettled (coreAt s p) (coreAt t p)
  lines : ∀ e ∈ t.cores, ∀ l ∈ e.2.l1, ∃ e' ∈ s.cores, l ∈ e'.2.l1
  waves : ∀ e ∈ t.waves, ∃ e' ∈ s.waves, WaveSettled e'.2 e.2
  wave : ∀ w, waveAt t w = none ∨ ∃ v v', waveAt s w = some v ∧ WaveSettled v v' ∧ waveAt t w = some v'
  censuses : ∀ c ∈ s.censuses, ∃ c' ∈ t.censuses, CensusSettled c c'

theorem CensusSettled.trans {a b c : Census} (h : CensusSettled a b) (g : CensusSettled b c) : CensusSettled a c := by
  obtain ⟨_, rfl⟩ := h
  obtain ⟨cs, rfl⟩ := g
  exact ⟨cs, rfl⟩

/-- Where the waves, the cores and the censuses are the same, the books of the dispatchers may differ. -/
theorem settled_books {s t : State} (h : ∃ co ca la tk, t = { s with cohorts := co, cards := ca, launches := la, taken := tk }) : Settled s t := by
  obtain ⟨co, ca, la, tk, rfl⟩ := h
  refine ⟨⟨_, _, _, _, _, _, _, rfl⟩, fun p => .refl _, fun e he l hl => ⟨e, he, hl⟩, fun e he => ⟨e, he, .refl _⟩, fun w => ?_, fun c hc => ⟨c, hc, c.cores, rfl⟩⟩
  cases hw : waveAt s w with
  | none => exact .inl hw
  | some v => exact .inr ⟨v, v, rfl, .refl v, hw⟩

theorem Settled.refl (s : State) : Settled s s := settled_books ⟨_, _, _, _, rfl⟩

theorem Settled.trans {a b c : State} (h : Settled a b) (g : Settled b c) : Settled a c := by
  obtain ⟨⟨_, _, _, _, _, _, _, hb⟩, hcores, hlines, hwaves, hwave, hcens⟩ := h
  obtain ⟨⟨ws, cs, co, ca, la, ce, tk, hc⟩, gcores, glines, gwaves, gwave, gcens⟩ := g
  refine ⟨⟨ws, cs, co, ca, la, ce, tk, by rw [hc, hb]⟩, fun p => (hcores p).trans (gcores p), fun e he l hl => ?_, fun e he => ?_, fun w => ?_, fun c0 hc0 => ?_⟩
  · obtain ⟨e1, he1, hl1⟩ := glines e he l hl
    exact hlines e1 he1 l hl1
  · obtain ⟨e1, he1, h1⟩ := gwaves e he
    obtain ⟨e2, he2, h2⟩ := hwaves e1 he1
    exact ⟨e2, he2, h2.trans h1⟩
  · obtain hn | ⟨v1, v2, hv1, h12, hv2⟩ := gwave w
    · exact .inl hn
    · obtain hn | ⟨v0, v1', hv0, h01, hv1'⟩ := hwave w
      · rw [hn] at hv1; cases hv1
      · cases hv1'.symm.trans hv1
        exact .inr ⟨v0, v2, hv0, h01.trans h12, hv2⟩
  · obtain ⟨c1, hc1, h1⟩ := hcens c0 hc0
    obtain ⟨c2, hc2, h2⟩ := gcens c1 hc1
    exact ⟨c2, hc2, h1.trans h2⟩

theorem Settled.foldl {α : Type} {f : State → α → State} (h : ∀ s x, Settled s (f s x)) (xs : List α) (s : State) : Settled s (xs.foldl f s) := by
  induction xs generalizing s with
  | nil => exact .refl s
  | cons x xs ih => exact (h s x).trans (ih _)

theorem mem_of_mem_tblErase {α : Type} {t : Tbl α} {k : Nat} {e : Nat × α} (h : e ∈ tblErase t k) : e ∈ t := by
  induction t with
  | nil => exact h
  | cons d t ih =>
    rw [tblErase] at h
    split at h
    · exact List.mem_cons_of_mem _ (ih h)
    · exact (List.mem_cons.1 h).elim (fun h => h ▸ List.mem_cons_self) fun h => List.mem_cons_of_mem _ (ih h)

theorem mem_of_mem_tblMod {α : Type} {t : Tbl α} {k : Nat} {g : α → α} {e : Nat × α} (h : e ∈ tblMod t k g) : ∃ e' ∈ t, e'.1 = e.1 ∧ (e.2 = e'.2 ∨ e.2 = g e'.2) := by
  induction t with
  | nil => cases h
  | cons d t ih =>
    rw [tblMod] at h
    split at h
    · obtain rfl | h := List.mem_cons.1 h
      · exact ⟨d, List.mem_cons_self, rfl, .inr rfl⟩
      · exact (ih h).imp fun _ h => ⟨List.mem_cons_of_mem _ h.1, h.2⟩
    · obtain rfl | h := List.mem_cons.1 h
      · exact ⟨d, List.mem_cons_self, rfl, .inl rfl⟩
      · exact (ih h).imp fun _ h => ⟨List.mem_cons_of_mem _ h.1, h.2⟩

theorem mem_of_mem_tblPut {α : Type} {t : Tbl α} {k : Nat} {v : α} {e : Nat × α} (h : e ∈ tblPut t k v) : e = (k, v) ∨ e ∈ t := by
  have hins : ∀ t : Tbl α, e ∈ tblIns t k v → e = (k, v) ∨ e ∈ t := by
    intro t
    induction t with
    | nil => intro h; exact .inl (by simpa [tblIns] using h)
    | cons d t ih =>
      intro h
      rw [tblIns] at h
      split at h
      · exact (List.mem_cons.1 h).imp id id
      · obtain rfl | h := List.mem_cons.1 h
        · exact .inr List.mem_cons_self
        · exact (ih h).imp id (List.mem_cons_of_mem _)
  exact (hins _ h).imp id mem_of_mem_tblErase

theorem settled_modCore (s : State) (p : Nat) {f : Core → Core} (hf : ∀ c, CoreSettled c (f c)) : Settled s (modCore s p f) := by
  refine ⟨⟨_, _, _, _, _, _, _, rfl⟩, fun q => ?_, fun e he l hl => ?_, fun e he => ⟨e, he, .refl _⟩, fun w => (Settled.refl s).wave w, (Settled.refl s).censuses⟩
  · by_cases h : q = p
    · rw [h, coreAt_modCore_self]
      exact hf _
    · rw [coreAt_modCore_ne _ _ h]
      exact .refl _
  · obtain rfl | h := mem_of_mem_tblPut he
    · have hl' : l ∈ (coreAt s p).l1 := (hf _).2.1 l hl
      cases hp : tblFind s.cores p with
      | none => rw [coreAt, tblGet, hp] at hl'; cases hl'
      | some c =>
        rw [coreAt, tblGet, hp] at hl'
        exact ⟨_, mem_of_tblFind hp, hl'⟩
    · exact ⟨e, h, hl⟩

theorem settled_dropL1 (s : State) (p : Nat) : Settled s (dropL1 s p) := settled_modCore s p fun _ => ⟨⟨_, _, _, _, rfl⟩, fun _ h => (List.mem_filter.1 h).1, fun e h => ⟨e, h, rfl, rfl⟩⟩

theorem settled_modWave (s : State) (w : Nat) {g : Wave → Wave} (hg : ∀ v, WaveSettled v (g v)) : Settled s (modWave s w g) := by
  refine ⟨⟨_, _, _, _, _, _, _, rfl⟩, fun p => .refl _, fun e he l hl => ⟨e, he, hl⟩, fun e he => ?_, fun x => ?_, (Settled.refl s).censuses⟩
  · obtain ⟨d, hd, -, h | h⟩ := mem_of_mem_tblMod he
    · exact ⟨d, hd, h ▸ .refl _⟩
    · exact ⟨d, hd, h ▸ hg _⟩
  · cases hx : waveAt s x with
    | none =>
      refine .inl ?_
      by_cases h : x = w
      · rw [h, waveAt_modWave_self, ← h, hx]; rfl
      · rw [waveAt_modWave_ne _ _ h, hx]
    | some v =>
      by_cases h : x = w
      · exact .inr ⟨v, g v, rfl, hg v, by rw [h] at hx ⊢; exact waveAt_modWave_of hx g⟩
      · exact .inr ⟨v, v, rfl, .refl v, by rw [waveAt_modWave_ne _ _ h, hx]⟩

theorem settled_waveGone (s : State) (w : Nat) : Settled s { s with waves := tblErase s.waves w } := by
  refine ⟨⟨_, _, _, _, _, _, _, rfl⟩, fun p => .refl _, fun e he l hl => ⟨e, he, hl⟩, fun e he => ⟨e, mem_of_mem_tblErase he, .refl _⟩, fun x => ?_, (Settled.refl s).censuses⟩
  by_cases h : x = w
  · exact .inl (by rw [h]; exact tblFind_erase_self _ _)
  · cases hx : waveAt s x with
    | none => exact .inl ((tblFind_erase_ne _ h).trans hx)
    | some v => exact .inr ⟨v, v, rfl, .refl v, (tblFind_erase_ne _ h).trans hx⟩

theorem settled_settleWave (s : State) (w : Nat) : Settled s (settleWave s w) := by
  unfold settleWave
  split
  · exact .refl s
  · next v hv =>
    split
    · exact .refl s
    · have h := settled_modWave s w (g := fun u => { u with accs := (settleAccs s (dieOf v.core) v [] v.accs).1 }) fun u => ⟨_, u.began, rfl⟩
      dsimp only
      split
      · exact h.trans (settled_dropL1 _ _)
      · exact h

theorem settled_modAnswer (s : State) (stamp p : Nat) (f : CAns → CAns) : Settled s (modAnswer s stamp p f) := by
  refine ⟨⟨_, _, _, _, _, _, _, rfl⟩, fun p => .refl _, fun e he l hl => ⟨e, he, hl⟩, fun e he => ⟨e, he, .refl _⟩, fun w => (Settled.refl s).wave w, fun c hc => ⟨_, List.mem_map.2 ⟨c, hc, rfl⟩, ?_⟩⟩
  split
  · exact ⟨_, rfl⟩
  · exact ⟨c.cores, rfl⟩

theorem settled_answerMatch (s : State) (m : Match) (v : Wave) : Settled s (answerMatch s m v) := by
  unfold answerMatch
  split
  · exact settled_modAnswer _ _ _ _
  · exact settled_modAnswer _ _ _ _

theorem settled_releaseResponder (s : State) (w : Nat) (v : Wave) : Settled s (releaseResponder s w v) := by
  have h1 := Settled.foldl (fun t m => settled_answerMatch t m v) ((coreAt s (physCore s v.core)).matches_.filter (fun m => decide (m.wave = some w))) s
  have hw := (answerMatches_leaves v ((coreAt s (physCore s v.core)).matches_.filter (fun m => decide (m.wave = some w))) s).1
  have h2 := settled_modCore (((coreAt s (physCore s v.core)).matches_.filter (fun m => decide (m.wave = some w))).foldl (fun t m => answerMatch t m v) s) (physCore s v.core) (f := fun c => { c with matches_ := c.matches_.filter (fun m => decide (m.wave ≠ some w)) })
    fun c => ⟨⟨_, _, _, _, rfl⟩, fun _ h => h, fun e h => ⟨e, h, rfl, rfl⟩⟩
  have h3 := settled_waveGone (modCore (((coreAt s (physCore s v.core)).matches_.filter (fun m => decide (m.wave = some w))).foldl (fun t m => answerMatch t m v) s) (physCore s v.core) (fun c => { c with matches_ := c.matches_.filter (fun m => decide (m.wave ≠ some w)) })) w
  refine h1.trans (h2.trans ?_)
  rwa [show (modCore (((coreAt s (physCore s v.core)).matches_.filter (fun m => decide (m.wave = some w))).foldl (fun t m => answerMatch t m v) s) (physCore s v.core) (fun c => { c with matches_ := c.matches_.filter (fun m => decide (m.wave ≠ some w)) })).waves = s.waves from hw] at h3

theorem settled_answerRelease (s : State) (w : Nat) (v : Wave) : Settled s (answerRelease s w v) := by
  unfold answerRelease
  dsimp only
  split
  · exact settled_releaseResponder s w v
  · exact settled_modWave s w fun u => ⟨u.accs, _, rfl⟩
  · split
    · exact settled_releaseResponder s w v
    · exact .refl s

theorem settled_freeChans (l : List (Nat × PortBind)) (s : State) : Settled s (freeChans s l) := by
  induction l generalizing s with
  | nil => exact .refl s
  | cons b r ih =>
    rw [freeChans]
    refine .trans ?_ (ih _)
    split
    · exact .refl s
    · exact settled_modCore s _ fun c => ⟨⟨_, _, _, _, rfl⟩, fun _ h => h, fun e h => ⟨e, h, rfl, rfl⟩⟩

theorem settled_placeFreed (s : State) (core k regs : Nat) : Settled s (placeFreed s core k regs) := by
  unfold placeFreed
  split
  · split
    · exact settled_books ⟨_, _, _, _, rfl⟩
    · exact .refl s
  · exact .refl s

theorem settled_dropMig (s : State) (co : Nat) : Settled s (dropMig s co) := by
  have hcore : ∀ p, coreAt (dropMig s co) p = { coreAt s p with keyring := (coreAt s p).keyring.filter (fun k => !(k.2.mig.any (fun m => decide (m.1 = co)))) } := by
    intro p
    have h := tblFind_map_keyed s.cores (fun _ (c : Core) => { c with keyring := c.keyring.filter (fun k => !(k.2.mig.any (fun (m : Nat × Nat) => decide (m.1 = co)))) }) p
    rw [coreAt, tblGet, dropMig, h, coreAt, tblGet]
    cases tblFind s.cores p <;> rfl
  refine ⟨⟨_, _, _, _, _, _, _, rfl⟩, fun p => ?_, fun e he l hl => ?_, fun e he => ⟨e, he, .refl _⟩, fun w => (Settled.refl s).wave w, (Settled.refl s).censuses⟩
  · rw [hcore]
    exact ⟨⟨_, _, _, _, rfl⟩, fun _ h => h, fun e h => ⟨e, (List.mem_filter.1 h).1, rfl, rfl⟩⟩
  · obtain ⟨d, hd, rfl⟩ := List.mem_map.1 he
    exact ⟨d, hd, hl⟩

/-- Keyring entries changed in their state alone keep their context. -/
theorem mem_keyring_mods (pins : List Nat) (g : KeyEntry → KeyEntry) (hg : ∀ e, (g e).ctx = e.ctx) (kr : Tbl KeyEntry) : ∀ e ∈ pins.foldl (fun r i => tblMod r i g) kr, ∃ e' ∈ kr, e'.1 = e.1 ∧ e'.2.ctx = e.2.ctx := by
  induction pins generalizing kr with
  | nil => exact fun e h => ⟨e, h, rfl, rfl⟩
  | cons i pins ih =>
    intro e he
    obtain ⟨e1, he1, h1, h2⟩ := ih _ e he
    obtain ⟨d, hd, h3, h4 | h4⟩ := mem_of_mem_tblMod he1
    · exact ⟨d, hd, h3.trans h1, (congrArg KeyEntry.ctx h4).symm.trans h2⟩
    · exact ⟨d, hd, h3.trans h1, (hg _).symm.trans ((congrArg KeyEntry.ctx h4).symm.trans h2)⟩

theorem settled_cardEnd (s : State) (c : Nat) : Settled s (cardEnd s c) := by
  unfold cardEnd
  split
  · exact .refl s
  · next k hk =>
    refine (settled_modCore s (physCore s k.pinCore) (f := fun x => { x with keyring := k.pins.foldl (fun r i => tblMod r i (fun e => if e.st = .pinned ∧ e.ctx = k.ctx then { e with st := .resident } else e)) x.keyring }) fun x => ⟨⟨_, _, _, _, rfl⟩, fun _ h => h, mem_keyring_mods _ _ (fun e => ?_) _⟩).trans (settled_books ⟨_, _, _, _, rfl⟩)
    split <;> rfl

theorem settled_cohortEnd (s : State) (co : Nat) (c : Cohort) : Settled s (cohortEnd s co c) := by
  have h : Settled s { dropMig s co with cohorts := tblErase s.cohorts co } := (settled_dropMig s co).trans (settled_books ⟨_, _, _, _, rfl⟩)
  unfold cohortEnd
  dsimp only
  split
  · exact h.trans (settled_cardEnd _ _)
  · exact h.trans (settled_books ⟨_, _, _, _, rfl⟩)

theorem settled_releaseWave (s : State) (w : Nat) : Settled s (releaseWave s w) := by
  unfold releaseWave
  split
  · exact .refl s
  · next v hv =>
    have h : Settled s (freeChans { s with waves := tblErase s.waves w } v.ports) := (settled_waveGone s w).trans (settled_freeChans _ _)
    dsimp only
    split
    · exact h
    · refine (h.trans ?_).trans (settled_placeFreed _ _ _ _)
      split
      · exact settled_cohortEnd _ _ _
      · exact settled_books ⟨_, _, _, _, rfl⟩

theorem settled_reapWave (s : State) (w : Nat) : Settled s (reapWave s w) := by
  unfold reapWave
  split
  · exact .refl s
  · split
    · split
      · exact settled_answerRelease s w _
      · exact settled_releaseWave s w
    · exact .refl s

/-- What settling leaves of a state. -/
theorem settled_settle (s : State) : Settled s (settle s) := (Settled.foldl settled_settleWave _ s).trans (Settled.foldl settled_reapWave _ _)

/-! The fields that settling leaves. -/

section
variable (s : State)

@[simp] theorem settle_out : (settle s).out = s.out := by obtain ⟨_, _, _, _, _, _, _, h⟩ := (settled_settle s).only; rw [h]
@[simp] theorem settle_boot : (settle s).boot = s.boot := by obtain ⟨_, _, _, _, _, _, _, h⟩ := (settled_settle s).only; rw [h]
@[simp] theorem settle_host : (settle s).host = s.host := by obtain ⟨_, _, _, _, _, _, _, h⟩ := (settled_settle s).only; rw [h]
@[simp] theorem settle_ctxs : (settle s).ctxs = s.ctxs := by obtain ⟨_, _, _, _, _, _, _, h⟩ := (settled_settle s).only; rw [h]
@[simp] theorem settle_dies : (settle s).dies = s.dies := by obtain ⟨_, _, _, _, _, _, _, h⟩ := (settled_settle s).only; rw [h]
@[simp] theorem settle_net : (settle s).net = s.net := by obtain ⟨_, _, _, _, _, _, _, h⟩ := (settled_settle s).only; rw [h]
@[simp] theorem settle_fogs : (settle s).fogs = s.fogs := by obtain ⟨_, _, _, _, _, _, _, h⟩ := (settled_settle s).only; rw [h]
@[simp] theorem settle_clock : (settle s).clock = s.clock := by obtain ⟨_, _, _, _, _, _, _, h⟩ := (settled_settle s).only; rw [h]
@[simp] theorem settle_eng : (settle s).eng = s.eng := by obtain ⟨_, _, _, _, _, _, _, h⟩ := (settled_settle s).only; rw [h]
@[simp] theorem settle_parked : (settle s).parked = s.parked := by obtain ⟨_, _, _, _, _, _, _, h⟩ := (settled_settle s).only; rw [h]
@[simp] theorem settle_nextWave : (settle s).nextWave = s.nextWave := by obtain ⟨_, _, _, _, _, _, _, h⟩ := (settled_settle s).only; rw [h]
@[simp] theorem settle_lastStamp : (settle s).lastStamp = s.lastStamp := by obtain ⟨_, _, _, _, _, _, _, h⟩ := (settled_settle s).only; rw [h]
@[simp] theorem settle_solicits : (settle s).solicits = s.solicits := by obtain ⟨_, _, _, _, _, _, _, h⟩ := (settled_settle s).only; rw [h]
@[simp] theorem settle_remap : (settle s).remap = s.remap := by obtain ⟨_, _, _, _, _, _, _, h⟩ := (settled_settle s).only; rw [h]
@[simp] theorem settle_mem : (settle s).mem = s.mem := by obtain ⟨_, _, _, _, _, _, _, h⟩ := (settled_settle s).only; rw [h]
@[simp] theorem settle_wlog : (settle s).wlog = s.wlog := by obtain ⟨_, _, _, _, _, _, _, h⟩ := (settled_settle s).only; rw [h]

end

/-- A part of a core that settling leaves alone. -/
theorem coreAt_settle {α : Type} (g : Core → α) (hg : ∀ a l1 ch kr ms, g { a with l1 := l1, chans := ch, keyring := kr, matches_ := ms } = g a) (s : State) (p : Nat) : g (coreAt (settle s) p) = g (coreAt s p) := by
  obtain ⟨⟨_, _, _, _, h⟩, -⟩ := (settled_settle s).cores p
  rw [h, hg]

end Sys2Proof.Machine
end

section
/-! PROOFS. The steps of a census, and a tile area withdrawn (R340, R350 to R359). -/

namespace Sys2Proof.Machine

/-! The stamp and the acceptance of a census (R350 to R353). -/

theorem stampCensus_local (s : State) (k : Nat) {c : Census} (h : c.so.scope < 2) :
    stampCensus s k c = { setCensus s k { c with so := { c.so with stamp := (s.lastStamp + 1) % 2 ^ 32 }, stamped := true, since := s.clock, peers := [] } with lastStamp := (s.lastStamp + 1) % 2 ^ 32, solicits := s.solicits ++ [{ c.so with stamp := (s.lastStamp + 1) % 2 ^ 32 }] } := by
  simp only [stampCensus, if_neg (show ¬ (c.so.scope = 3 ∧ c.fromPeer = none) by omega)]
  rfl

theorem exec_censusStamp_local {s : State} {k : Nat} {c : Census} (hc : s.censuses[k]? = some c) (hst : c.stamped = false) (hg : c.gated = false) (hsc : c.so.scope < 2) (hcl : solicitClear s c = true) : exec (.censusStamp k) s = nextOf s (stampCensus s k c) := by
  have hrel : solicitReleased s c = true := by rw [solicitReleased, decide_eq_true hsc, Bool.true_or]
  show execCensusStamp k s = _
  simp [execCensusStamp, hc, hst, hg, hcl, hrel, show ¬ 2 ≤ c.so.scope by omega]

/-- R352: a core once it has accepted the solicit `so`. -/
def acceptedBy (s : State) (core : Nat) (so : Solicit) : State :=
  let r := if inScope so (logicalOf s core) then acceptEntries so core (liveKeys s core so.ctx) else ([], [])
  modCore s core (fun x => { x with seen := x.seen + 1, hiStamp := so.stamp, keyring := x.keyring.map (fun e => (e.1, e.2.accepts so.stamp)), matches_ := x.matches_ ++ r.1, defers := x.defers ++ r.2 })

/-- What an acceptance leaves at its core. -/
theorem solicitAccept_leaves {s : State} {core : Nat} {so : Solicit} (hso : s.solicits[(coreAt s core).seen]? = some so) (hcore : core < 320) (hroom : ((coreAt s core).matches_.filter (fun m => decide (m.so.ctx = so.ctx))).length < 64) :
    ∃ t, exec (.solicitAccept core) s = .next t ∧ coreAt t core = coreAt (acceptedBy s core so) core := by
  have h : exec (.solicitAccept core) s = nextOf s (if inScope so (logicalOf s core) then { acceptedBy s core so with censuses := (acceptedBy s core so).censuses.map (fun x => if x.stamped = true ∧ x.so.stamp = so.stamp then { x with accepted := x.accepted ++ [core] } else x) } else acceptedBy s core so) := by
    show execSolicitAccept core s = _
    simp only [execSolicitAccept, hso, if_neg (show ¬ (64 ≤ ((coreAt s core).matches_.filter (fun m => decide (m.so.ctx = so.ctx))).length ∨ 320 ≤ core) by omega)]
    rfl
  refine ⟨_, h, ?_⟩
  split <;> rfl

/-! Responders (R355). -/

theorem nextWave_failMatch (s : State) (p i : Nat) (m : Match) : (failMatch s p i m).nextWave = s.nextWave := rfl

theorem nextWave_addWave (s : State) (v : Wave) : (addWave s v).nextWave = s.nextWave + 1 := by
  unfold addWave mtxServe
  dsimp only
  split
  · split <;> rfl
  · rfl

theorem exec_responderSpawn {s : State} {core i : Nat} {m : Match} (hi : (coreAt s core).matches_.findIdx? (respNext s (logicalOf s core)) = some i) (hm : (coreAt s core).matches_[i]? = some m)
    (ho : ((respReserve s m.so.ctx (logicalOf s core)).isSome && headerOpen s m.so.ctx m.so.hdr.toNat) = false) : exec (.responderSpawn core) s = nextOf s (settle (winDrop (spawnMatch s core i m) (.header m.so.ctx m.so.hdr.toNat))) := by
  show execResponderSpawn core s = _
  simp [execResponderSpawn, hi, hm, ho]

theorem spawnMatch_unreserved {s : State} {p i : Nat} {m : Match} (h : respReserve s m.so.ctx (logicalOf s p) = none) : spawnMatch s p i m = failMatch s p i m := by
  simp only [spawnMatch, h]

theorem nextWave_spawnMatch {s : State} {p i n regs sect q : Nat} {m : Match} {w : Word} (hr : respReserve s m.so.ctx (logicalOf s p) = some (n, regs)) (hw : readHeader s (cardCode s m.so.ctx (dieOf (logicalOf s p))) m.so.ctx m.so.hdr.toNat = .ok w)
    (hp : respPlace s m.so.ctx (logicalOf s p) n regs = some (sect, q)) (hb : respHeaderBad (kernelOf m.so.hdr w) regs = false) : (spawnMatch s p i m).nextWave = s.nextWave + 1 := by
  simp only [spawnMatch, hr, hw, hp, hb, Bool.false_eq_true, if_false]
  exact nextWave_addWave _ _

theorem exec_responderLimit {s : State} {w : Nat} {v : Wave} (hv : waveAt s w = some v) (hr : v.isResponder = true) (he : v.ended = false) (hs : v.stopped = false) (hl : v.started + v.still + respLimit s v.ctx v.core ≤ s.clock) : exec (.responderLimit w) s = nextOf s (settle (responderFault s w)) := by
  show execResponderLimit w s = _
  simp [execResponderLimit, hv, hr, he, hs, hl]

/-- R355: a responder past its limit has ended in this cycle, so it keeps its place. -/
theorem responderLimit_ends {s : State} {w : Nat} {v : Wave} (hv : waveAt s w = some v) : ∃ v', waveAt (settle (responderFault s w)) w = some v' ∧ v'.ended = true ∧ v'.respFault = true ∧ v'.answer = none := by
  obtain ⟨as, h⟩ := waveAt_settle (s := responderFault s w) (w := w) (waveAt_modWave_of hv _) (.inr (Nat.le_refl _))
  exact ⟨_, h, rfl, rfl, rfl⟩

/-! Answers (R354, R357, R358). -/

section
variable {s : State} {stamp : Nat} {c : Census}

theorem stamped_of_find (hc : s.censuses.find? (fun c => c.stamped && decide (c.so.stamp = stamp)) = some c) : c ∈ s.censuses ∧ c.stamped = true ∧ c.so.stamp = stamp := by
  have hp := List.find?_some hc
  exact ⟨List.mem_of_find?_eq_some hc, by simpa using hp⟩

theorem exec_coreAnswer {core : Nat} (hc : s.censuses.find? (fun c => c.stamped && decide (c.so.stamp = stamp)) = some c) (hacc : core ∈ c.accepted) (hans : core ∉ c.answered)
    (hm : ∀ e ∈ s.cores, ∀ m ∈ e.2.matches_, ¬ (m.so.stamp = stamp ∧ m.ansCore = core)) (hd : ∀ d ∈ (coreAt s core).defers, d.so.stamp ≠ stamp) :
    exec (.coreAnswer core stamp) s = nextOf s { s with censuses := s.censuses.map (fun x => if x.stamped = true ∧ x.so.stamp = stamp then { x with answered := x.answered ++ [core] } else x) } := by
  have hidle : (s.cores.any (fun e => e.2.matches_.any (fun m => decide (m.so.stamp = stamp) && decide (m.ansCore = core))) || (coreAt s core).defers.any (fun d => decide (d.so.stamp = stamp))) = false := by
    rw [Bool.or_eq_false_iff]
    refine ⟨List.any_eq_false.2 fun e he => ?_, List.any_eq_false.2 fun d hd' => by simpa using hd d hd'⟩
    simpa using fun m hm' h1 h2 => hm e he m hm' ⟨h1, h2⟩
  show execCoreAnswer core stamp s = _
  simp only [execCoreAnswer, hc]
  exact if_pos ⟨hacc, hans, hidle⟩

theorem exec_censusComplete (hc : s.censuses.find? (fun c => c.stamped && decide (c.so.stamp = stamp)) = some c) (ho : censusOver s c = true) (hp : c.fromPeer = none) :
    exec (.censusComplete stamp) s = nextOf s (closeCensus { s with censuses := s.censuses.filter (fun x => !(x.stamped && decide (x.so.stamp = stamp))) } c) := by
  show execCensusComplete stamp s = _
  simp [execCensusComplete, hc, ho, hp]

/-- R358: the slot of a census that is over. -/
theorem slotOf_closeCensus {y : CSlot} (hy : slotOf s (physCore s c.so.core) c.so.ctx c.slot = some y) : slotOf (closeCensus s c) (physCore s c.so.core) c.so.ctx c.slot = some { y with done := true, value := BitVec.ofNat 64 (censusValue s c), status := BitVec.ofNat 64 (censusStatus s c) } := by
  have hcore : coreAt (closeCensus s c) (physCore s c.so.core) = { coreAt s (physCore s c.so.core) with slots := tblMod (coreAt s (physCore s c.so.core)).slots (16 * c.so.ctx + c.slot) (fun y => { y with done := true, value := BitVec.ofNat 64 (censusValue s c), status := BitVec.ofNat 64 (censusStatus s c) }) } :=
    coreAt_modCore_self s _ (fun x => { x with slots := tblMod x.slots (16 * c.so.ctx + c.slot) (fun y => { y with done := true, value := BitVec.ofNat 64 (censusValue s c), status := BitVec.ofNat 64 (censusStatus s c) }) })
  rw [slotOf, hcore]
  exact (tblFind_mod_self _ _ _).trans (congrArg _ hy)

theorem exec_peerTimeout (hc : s.censuses.find? (fun c => c.stamped && decide (c.so.stamp = stamp)) = some c) (hp : c.peers ≠ []) (hl : c.since + (ctxAt s c.so.ctx).t.peerTimeout ≤ s.clock) :
    ∃ net, exec (.peerTimeout stamp) s = nextOf s { s with censuses := s.censuses.map (fun x => if x.stamped = true ∧ x.so.stamp = stamp then { x with peers := [], pto := true } else x), net := net } := by
  have hg : (!c.peers.isEmpty && decide (c.since + (ctxAt s c.so.ctx).t.peerTimeout ≤ s.clock)) = true := by simp [hp, hl]
  refine ⟨{ s.net with tx := s.net.tx.map (fun t => if t.tx = .census stamp then { t with tx := .coll } else t) }, ?_⟩
  show execPeerTimeout stamp s = _
  simp only [execPeerTimeout, hc, if_pos hg]

end

/-! A tile area withdrawn (R340). -/

theorem exec_tileAreaWithdraw {s : State} {ctx core : Nat} (h : (areaSize s (physCore s core) ctx).isSome = true) :
    ∃ f, exec (.tileAreaWithdraw ctx core) s = nextOf s (settle (modCtx (withdrawArea s (physCore s core) ctx) ctx f)) := by
  have hn : (areaSize s (physCore s core) ctx).isNone = false := by
    cases ha : areaSize s (physCore s core) ctx with
    | none => rw [ha] at h; cases h
    | some n => rfl
  refine ⟨fun c => { c with t := { c.t with tileAreas := c.t.tileAreas.filter (fun a => decide (a.1 ≠ core)) } }, ?_⟩
  show execTileAreaWithdraw ctx core s = _
  simp only [execTileAreaWithdraw, hn]
  rfl

/-- A core once a context's tile area is withdrawn: the area and the context's entries are gone. -/
theorem withdrawArea_leaves (s : State) (p ctx : Nat) : areaSize (withdrawArea s p ctx) p ctx = none ∧ ∀ e ∈ (coreAt (withdrawArea s p ctx) p).keyring, e.2.ctx ≠ ctx := by
  refine ⟨?_, fun e he => ?_⟩
  · rw [areaSize, withdrawArea, coreAt_modCore_self]
    exact congrArg (Option.map _) (tblFind_erase_self _ _)
  · rw [withdrawArea, coreAt_modCore_self] at he
    simpa using (List.mem_filter.1 he).2

theorem tileAreaWithdraw_leaves {s : State} {ctx core : Nat} (h : (areaSize s (physCore s core) ctx).isSome = true) :
    ∃ t, exec (.tileAreaWithdraw ctx core) s = .next t ∧ areaSize t (physCore s core) ctx = none ∧ ∀ e ∈ (coreAt t (physCore s core)).keyring, e.2.ctx ≠ ctx := by
  obtain ⟨f, hx⟩ := exec_tileAreaWithdraw h
  obtain ⟨harea, hkeys⟩ := withdrawArea_leaves s (physCore s core) ctx
  refine ⟨_, hx, ?_, fun e he => ?_⟩
  · show Option.map _ (tblFind (coreAt (settle (modCtx (withdrawArea s (physCore s core) ctx) ctx f)) (physCore s core)).tiles ctx) = none
    rw [coreAt_settle Core.tiles fun _ _ _ _ _ => rfl]
    exact harea
  · obtain ⟨e', he', -, hctx⟩ := ((settled_settle (modCtx (withdrawArea s (physCore s core) ctx) ctx f)).cores (physCore s core)).2.2 e he
    exact hctx ▸ hkeys e' he'

/-- Settles O54: each step's next state is the one its definition builds, and settling leaves the slots, areas and stamps it gives. -/
theorem censusStepsHold : Obligations.CensusSteps := by
  intro s
  refine ⟨fun k c hc hst hg hsc hcl => ?_, fun core so hso hcore hroom => ?_, fun core i m hi hm hr => ?_, fun core i m n regs hw sect q hi hm hr ho hh hp hb => ?_, fun w v hv hr he hs hl => ?_, fun core stamp c hc hacc hans hm hd => ?_, fun stamp c y hc ho hp hy => ?_, fun stamp c hc hp hl => ?_, fun ctx core h => tileAreaWithdraw_leaves h⟩
  · refine ⟨_, exec_censusStamp_local hc hst hg hsc hcl, ?_, ?_, ?_⟩
    · show (stampCensus s k c).lastStamp = _
      rw [stampCensus_local s k hsc]
    · show (stampCensus s k c).solicits = _
      rw [stampCensus_local s k hsc]
    · show (stampCensus s k c).waves = _
      rw [stampCensus_local s k hsc]
      rfl
  · obtain ⟨t, hx, ht⟩ := solicitAccept_leaves hso hcore hroom
    rw [acceptedBy, coreAt_modCore_self] at ht
    refine ⟨t, hx, ?_, ?_, fun m hm => ?_, ?_⟩
    · rw [ht]
    · rw [ht]
    · rw [ht]
      exact List.mem_append_left _ hm
    · rw [ht]
  · refine ⟨_, exec_responderSpawn hi hm (by rw [hr]; rfl), ?_⟩
    show (settle _).nextWave = _
    rw [settle_nextWave, spawnMatch_unreserved hr]
    rfl
  · refine ⟨_, exec_responderSpawn hi hm (by rw [ho, Bool.and_false]), ?_⟩
    show (settle _).nextWave = _
    rw [settle_nextWave]
    exact nextWave_spawnMatch hr hh hp hb
  · obtain ⟨v', hv', h⟩ := responderLimit_ends hv
    exact ⟨_, v', exec_responderLimit hv hr he hs hl, hv', h⟩
  · obtain ⟨hmem, hst⟩ := stamped_of_find hc
    refine ⟨_, { c with answered := c.answered ++ [core] }, exec_coreAnswer hc hacc hans hm hd, List.mem_map.2 ⟨c, hmem, if_pos hst⟩, rfl, List.mem_append_right _ List.mem_cons_self, rfl⟩
  · refine ⟨_, _, exec_censusComplete hc ho hp, slotOf_closeCensus (s := { s with censuses := s.censuses.filter (fun x => !(x.stamped && decide (x.so.stamp = stamp))) }) hy, rfl, rfl, rfl, fun c' hc' hst => ?_⟩
    have h := (List.mem_filter.1 hc').2
    simp [hst.1, hst.2] at h
  · obtain ⟨net, hx⟩ := exec_peerTimeout hc hp hl
    refine ⟨_, hx, fun c' hc' hst hs => ?_⟩
    obtain ⟨c0, -, rfl⟩ := List.mem_map.1 hc'
    split at hst
    · next h => rw [if_pos h]; exact ⟨rfl, rfl⟩
    · next h => rw [if_neg h] at hs; exact absurd ⟨hst, hs⟩ h

end Sys2Proof.Machine
end

section
/-! PROOFS. What stores, loads and the watchpoints that see them leave of a state (R226 to R229, R236, R247, R270, R302, R416 to R419). -/

namespace Sys2Proof.Machine

/-- The core `b` is `a` but for its caches, TLBs and tile bytes. -/
def CoreStored (a b : Core) : Prop := ∃ l1 tlb walk lc tiles, b = { a with l1 := l1, tlb := tlb, walk := walk, lastCtx := lc, tiles := tiles }

theorem CoreStored.refl (a : Core) : CoreStored a a := ⟨a.l1, a.tlb, a.walk, a.lastCtx, a.tiles, rfl⟩

theorem CoreStored.trans {a b c : Core} (h : CoreStored a b) (g : CoreStored b c) : CoreStored a c := by
  obtain ⟨_, _, _, _, _, rfl⟩ := h
  obtain ⟨l1, tlb, walk, lc, tiles, rfl⟩ := g
  exact ⟨l1, tlb, walk, lc, tiles, rfl⟩

/-- Between `s` and `t` bytes have been read and written, and watchpoints have seen it: what may differ is memory, scratchpad, caches, waves, dies, the foghorn's events and the records told to the host. -/
structure Stored (s t : State) : Prop where
  only : ∃ wl lk un po ws ds co cs fg fq ms, t = { s with wlog := wl, lineKey := lk, unspec := un, poison := po, waves := ws, dies := ds, cohorts := co, cores := cs, fogs := fg, fogSeq := fq, out := s.out ++ ms }
  cores : ∀ p, CoreStored (coreAt s p) (coreAt t p)

theorem stored_of {s t : State} (h : ∃ wl lk un po ws ds co fg fq ms, t = { s with wlog := wl, lineKey := lk, unspec := un, poison := po, waves := ws, dies := ds, cohorts := co, fogs := fg, fogSeq := fq, out := s.out ++ ms }) : Stored s t := by
  obtain ⟨wl, lk, un, po, ws, ds, co, fg, fq, ms, rfl⟩ := h
  exact ⟨⟨wl, lk, un, po, ws, ds, co, s.cores, fg, fq, ms, rfl⟩, fun _ => .refl _⟩

/-- The case in which nothing is told to the host. -/
theorem stored_quiet {s t : State} (h : ∃ wl lk un po ws ds co fg fq, t = { s with wlog := wl, lineKey := lk, unspec := un, poison := po, waves := ws, dies := ds, cohorts := co, fogs := fg, fogSeq := fq }) : Stored s t := by
  obtain ⟨wl, lk, un, po, ws, ds, co, fg, fq, rfl⟩ := h
  exact stored_of ⟨wl, lk, un, po, ws, ds, co, fg, fq, [], by rw [List.append_nil]⟩

theorem Stored.refl (s : State) : Stored s s := stored_quiet ⟨_, _, _, _, _, _, _, _, _, rfl⟩

theorem Stored.trans {a b c : State} (h : Stored a b) (g : Stored b c) : Stored a c := by
  obtain ⟨⟨_, _, _, _, _, _, _, _, _, _, ms, hb⟩, hcores⟩ := h
  obtain ⟨⟨wl, lk, un, po, ws, ds, co, cs, fg, fq, ns, hc⟩, gcores⟩ := g
  exact ⟨⟨wl, lk, un, po, ws, ds, co, cs, fg, fq, ms ++ ns, by rw [hc, hb, List.append_assoc]⟩, fun p => (hcores p).trans (gcores p)⟩

theorem Stored.foldl {α : Type} {f : State → α → State} (h : ∀ s x, Stored s (f s x)) (xs : List α) (s : State) : Stored s (xs.foldl f s) := by
  induction xs generalizing s with
  | nil => exact .refl s
  | cons x xs ih => exact (h s x).trans (ih _)

theorem stored_modWave (s : State) (w : Nat) (g : Wave → Wave) : Stored s (modWave s w g) := stored_quiet ⟨_, _, _, _, _, _, _, _, _, rfl⟩

theorem stored_modDie (s : State) (d : Nat) (g : Die → Die) : Stored s (modDie s d g) := stored_quiet ⟨_, _, _, _, _, _, _, _, _, rfl⟩

theorem stored_modCohort (s : State) (c : Nat) (g : Cohort → Cohort) : Stored s (modCohort s c g) := stored_quiet ⟨_, _, _, _, _, _, _, _, _, rfl⟩

theorem stored_tellHost (s : State) (m : HostMsg) : Stored s (tellHost s m) := stored_of ⟨_, _, _, _, _, _, _, _, _, [m], rfl⟩

theorem stored_modCore (s : State) (p : Nat) {f : Core → Core} (hf : ∀ c, CoreStored c (f c)) : Stored s (modCore s p f) := by
  refine ⟨⟨_, _, _, _, _, _, _, _, _, _, [], by rw [List.append_nil]; rfl⟩, fun q => ?_⟩
  by_cases h : q = p
  · rw [h, coreAt_modCore_self]
    exact hf _
  · rw [coreAt_modCore_ne _ _ h]
    exact .refl _

theorem stored_lineTake (s : State) (key line : Nat) : Stored s (lineTake s key line) := by
  unfold lineTake
  split
  · split
    · exact .refl s
    · exact stored_quiet ⟨_, _, _, _, _, _, _, _, _, rfl⟩
  · exact stored_quiet ⟨_, _, _, _, _, _, _, _, _, rfl⟩

theorem stored_packagePut (s : State) (key pa : Nat) (b : Byte) : Stored s (packagePut s key pa b) := by
  have hwrite : ∀ t : State, Stored t (wrByte t pa b) := fun t => by
    unfold wrByte
    exact stored_quiet ⟨_, _, _, _, _, _, _, _, _, rfl⟩
  exact (stored_lineTake s key (lineOf pa)).trans ((hwrite _).trans (stored_quiet ⟨_, _, _, _, _, _, _, _, _, rfl⟩))

theorem stored_packagePutAll (key : Nat) (l : List Byte) (s : State) (pa : Nat) : Stored s (packagePutAll s key pa l) := by
  induction l generalizing s pa with
  | nil => exact .refl s
  | cons b l ih => exact (stored_packagePut s key pa b).trans (ih _ _)

theorem stored_modAlloc (s : State) (p : Place) (f : Nat → SpadAlloc → SpadAlloc) : Stored s (modAlloc s p f) := by
  cases p with
  | spad c k o => exact stored_modCohort s c _
  | tile k x o => exact stored_modCore s k fun c => ⟨_, _, _, _, _, rfl⟩
  | dev => exact .refl s
  | peer => exact .refl s
  | host => exact .refl s

theorem stored_spadStore (s : State) (p : Place) (b : Byte) : Stored s (spadStore s p b) := (stored_modAlloc s p _).trans (stored_quiet ⟨_, _, _, _, _, _, _, _, _, rfl⟩)

theorem stored_engPut (s : State) (b : AByte) (x : Byte × Bool) : Stored s (engPut s b x) := by
  have hspad : ∀ p, Stored s (if x.2 then spadPoison (spadStore s p x.1) p true else spadStore s p x.1) := fun p => by
    split
    · exact (stored_spadStore s p x.1).trans (stored_modAlloc _ p _)
    · exact stored_spadStore s p x.1
  unfold engPut
  split
  · dsimp only
    split
    · exact (stored_packagePut s _ _ _).trans (stored_quiet ⟨_, _, _, _, _, _, _, _, _, rfl⟩)
    · exact stored_packagePut s _ _ _
  · exact hspad _
  · exact hspad _
  · exact .refl s

theorem stored_fillRead (s : State) (core : Option Nat) (die : Nat) (at_ : Attr) (line : Nat) : Stored s (fillRead s core die at_ line) := by
  have hrem : Stored s (fillRemote s die at_ line 0) := by
    unfold fillRemote
    split
    · exact .refl s
    · exact stored_modDie s _ _
  have hl1 : ∀ c, Stored s (fillL1 (fillRemote s die at_ line 0) c die at_ line 0) := fun c => by
    refine hrem.trans ?_
    unfold fillL1
    split
    · exact .refl _
    · exact stored_modCore _ _ fun c => ⟨_, _, _, _, _, rfl⟩
  have h : Stored s (match core with | some c => fillL1 (fillRemote s die at_ line 0) c die at_ line 0 | none => fillRemote s die at_ line 0) := by
    cases core with
    | none => exact hrem
    | some c => exact hl1 c
  unfold fillRead
  dsimp only
  split
  · exact h
  · exact h.trans (stored_lineTake _ _ _)

theorem stored_engFill (s : State) (die : Nat) (l : List AByte) : Stored s (engFill s die l) := Stored.foldl (fun t b => by
  split
  · exact stored_fillRead t _ _ _ _
  · exact .refl t) l s

theorem stored_watchRing (s : State) (d : Nat) (rec : Nat → List Byte) : Stored s (watchRing s d rec) := by
  unfold watchRing
  dsimp only
  split
  · exact (stored_modDie s d _).trans (stored_tellHost _ _)
  · exact (stored_packagePutAll _ _ s _).trans (stored_modDie _ d _)

theorem stored_watchOne (s : State) (a : Seen) (d i : Nat) : Stored s (watchOne s a d i) := by
  unfold watchOne
  split
  · exact .refl s
  · dsimp only
    split
    · exact (stored_watchRing s d _).trans (stored_modWave _ _ _)
    · exact (stored_watchRing s d _).trans (stored_quiet ⟨_, _, _, _, _, _, _, _, _, rfl⟩)
    · exact stored_watchRing s d _

theorem stored_matchAccess (s : State) (a : Seen) : Stored s (matchAccess s a) := Stored.foldl (fun t d => Stored.foldl (fun t i => stored_watchOne t a d i) _ t) _ s

theorem coreStored_serveCore (c : Core) (ctx : Nat) : CoreStored c (serveCore c ctx) := by
  unfold serveCore
  split
  · exact .refl c
  · exact ⟨_, _, _, _, _, rfl⟩

theorem stored_walkServed (s : State) (core ctx va tag : Nat) : Stored s (walkServed s core ctx va tag) := stored_modCore s core fun c => (coreStored_serveCore c ctx).trans ⟨_, _, _, _, _, rfl⟩

/-! The fields that stores leave. -/

section
variable {s t : State} (h : Stored s t)
include h

theorem Stored.eng : t.eng = s.eng := by obtain ⟨_, _, _, _, _, _, _, _, _, _, _, h⟩ := h.only; rw [h]
theorem Stored.ctxs : t.ctxs = s.ctxs := by obtain ⟨_, _, _, _, _, _, _, _, _, _, _, h⟩ := h.only; rw [h]
theorem Stored.launches : t.launches = s.launches := by obtain ⟨_, _, _, _, _, _, _, _, _, _, _, h⟩ := h.only; rw [h]
theorem Stored.cards : t.cards = s.cards := by obtain ⟨_, _, _, _, _, _, _, _, _, _, _, h⟩ := h.only; rw [h]
theorem Stored.parked : t.parked = s.parked := by obtain ⟨_, _, _, _, _, _, _, _, _, _, _, h⟩ := h.only; rw [h]
theorem Stored.order : t.order = s.order := by obtain ⟨_, _, _, _, _, _, _, _, _, _, _, h⟩ := h.only; rw [h]
theorem Stored.net : t.net = s.net := by obtain ⟨_, _, _, _, _, _, _, _, _, _, _, h⟩ := h.only; rw [h]
theorem Stored.boot : t.boot = s.boot := by obtain ⟨_, _, _, _, _, _, _, _, _, _, _, h⟩ := h.only; rw [h]
theorem Stored.host : t.host = s.host := by obtain ⟨_, _, _, _, _, _, _, _, _, _, _, h⟩ := h.only; rw [h]
theorem Stored.clock : t.clock = s.clock := by obtain ⟨_, _, _, _, _, _, _, _, _, _, _, h⟩ := h.only; rw [h]
theorem Stored.remap : t.remap = s.remap := by obtain ⟨_, _, _, _, _, _, _, _, _, _, _, h⟩ := h.only; rw [h]
theorem Stored.fresh : t.fresh = s.fresh := by obtain ⟨_, _, _, _, _, _, _, _, _, _, _, h⟩ := h.only; rw [h]
theorem Stored.out : ∃ ms, t.out = s.out ++ ms := by obtain ⟨_, _, _, _, _, _, _, _, _, _, ms, h⟩ := h.only; exact ⟨ms, by rw [h]⟩

theorem Stored.matrices (p : Nat) : (coreAt t p).mx = (coreAt s p).mx := by obtain ⟨_, _, _, _, _, h⟩ := h.cores p; rw [h]

end

/-! Bytes that the device itself stores are seen by no watchpoint: the host is told nothing. -/

theorem out_packagePutAll (key : Nat) (l : List Byte) (s : State) (pa : Nat) : (packagePutAll s key pa l).out = s.out := by
  induction l generalizing s pa with
  | nil => rfl
  | cons b l ih =>
    rw [packagePutAll, ih]
    show (lineTake s key (lineOf pa)).out = s.out
    unfold lineTake
    split
    · split <;> rfl
    · rfl

end Sys2Proof.Machine
end

section
/-! PROOFS. Command streams, launches and cards: their records, completion and places (R361 to R378). -/

namespace Sys2Proof.Machine

theorem ctxAt_modCtx_of {s : State} {ctx : Nat} {c : Ctx} (h : tblFind s.ctxs ctx = some c) (f : Ctx → Ctx) : ctxAt (modCtx s ctx f) ctx = f (ctxAt s ctx) := by
  show (tblFind (tblMod s.ctxs ctx f) ctx).getD {} = f ((tblFind s.ctxs ctx).getD {})
  rw [tblFind_mod_self, h]
  rfl

theorem ctxAt_congr {s t : State} (h : t.ctxs = s.ctxs) (ctx : Nat) : ctxAt t ctx = ctxAt s ctx := by rw [ctxAt, h]; rfl

/-! Records (R361). -/

/-- R361: the read index behind the record at it. -/
def indexAfter (c : Ctx) : Nat := if ringSize c.t ≤ c.readIdx + 1 then 0 else c.readIdx + 1

section
variable {s : State} {ctx : Nat} {b : List Byte}

theorem exists_of_nextRecord (h : nextRecord s ctx = some b) : ∃ c, tblFind s.ctxs ctx = some c := by
  unfold nextRecord at h
  split at h
  · cases h
  · next c hc => exact ⟨c, hc⟩

theorem ctxs_recordRead (s : State) (ctx : Nat) : (recordRead s ctx).ctxs = (modCtx s ctx (fun c => { c with readIdx := indexAfter (ctxAt s ctx) })).ctxs := (stored_packagePutAll _ _ _ _).ctxs

theorem ctxAt_recordRead (h : nextRecord s ctx = some b) : ctxAt (recordRead s ctx) ctx = { ctxAt s ctx with readIdx := indexAfter (ctxAt s ctx) } := by
  obtain ⟨c, hc⟩ := exists_of_nextRecord h
  exact (ctxAt_congr (ctxs_recordRead s ctx) ctx).trans (ctxAt_modCtx_of hc _)

theorem out_recordRead (s : State) (ctx : Nat) : (recordRead s ctx).out = s.out := out_packagePutAll _ _ _ _

theorem stored_recordRead (s : State) (ctx : Nat) : ∃ f, Stored (modCtx s ctx f) (recordRead s ctx) := ⟨_, stored_packagePutAll _ _ _ _⟩

theorem launches_recordRead (s : State) (ctx : Nat) : (recordRead s ctx).launches = s.launches := (stored_packagePutAll _ _ _ _).launches

theorem cards_recordRead (s : State) (ctx : Nat) : (recordRead s ctx).cards = s.cards := (stored_packagePutAll _ _ _ _).cards

theorem exec_emptyRecord (h : nextRecord s ctx = some b) (hx : leNat b % 256 = 0) : exec (.emptyRecord ctx) s = nextOf s (recordRead s ctx) := by
  show execEmptyRecord ctx s = _
  simp only [execEmptyRecord, h]
  exact if_pos (by simpa [bits] using hx)

theorem exec_unknownRecord (h : nextRecord s ctx = some b) (hx : 3 < leNat b % 256) : exec (.unknownRecord ctx) s = nextOf s (tellHost (recordRead s ctx) (.badRecord ctx (ctxAt s ctx).readIdx)) := by
  show execUnknownRecord ctx s = _
  simp only [execUnknownRecord, h]
  exact if_pos (by simpa [bits] using hx)

end

/-! The completion of a launch (R365, R366). -/

/-- R365: what a completion adds to a context's history. -/
def noteEnd (s : State) (l : Launch) (st : Nat) (c : Ctx) : Ctx :=
  { c with hist := ((l.id, st, l.order) :: c.hist).filter (fun h => decide (h.1 ∈ c.recent) || s.launches.any (fun e => decide (e.2.ctx = l.ctx) && decide (h.1 ∈ e.2.deps))) }

theorem head_noteEnd (s : State) {l : Launch} {c : Ctx} (h : l.id ∈ c.recent) (st : Nat) : (noteEnd s l st c).hist.head? = some (l.id, st, l.order) := by
  rw [noteEnd, List.filter_cons_of_pos (by simp [h])]
  rfl

/-- The word, the event or the frame of a completion changes no context but for the history, and no launch. -/
theorem writeCompletion_leaves (s : State) (l : Launch) (st : Nat) : (writeCompletion s l st).ctxs = (modCtx s l.ctx (noteEnd s l st)).ctxs ∧ (writeCompletion s l st).launches = s.launches := by
  unfold writeCompletion
  dsimp only
  split
  · exact ⟨rfl, rfl⟩
  · split
    · exact ⟨rfl, rfl⟩
    · split
      · refine ⟨(Stored.foldl (fun t x => ?_) _ _).ctxs, (Stored.foldl (fun t x => ?_) _ _).launches⟩ <;>
        · split
          · exact stored_packagePut t _ _ _
          · exact .refl t
      · split
        · exact ⟨rfl, rfl⟩
        · exact ⟨rfl, rfl⟩

theorem hist_writeCompletion {s : State} {l : Launch} {c : Ctx} (hc : tblFind s.ctxs l.ctx = some c) (h : l.id ∈ (ctxAt s l.ctx).recent) (st : Nat) : (ctxAt (writeCompletion s l st) l.ctx).hist.head? = some (l.id, st, l.order) := by
  rw [ctxAt_congr (writeCompletion_leaves s l st).1, ctxAt_modCtx_of hc]
  exact head_noteEnd s h st

theorem readIdx_writeCompletion {s : State} {l : Launch} {c : Ctx} (hc : tblFind s.ctxs l.ctx = some c) (st : Nat) : (ctxAt (writeCompletion s l st) l.ctx).readIdx = (ctxAt s l.ctx).readIdx := by
  rw [ctxAt_congr (writeCompletion_leaves s l st).1, ctxAt_modCtx_of hc]
  rfl

/-! Launch records (R361 to R366). -/

section
variable {s : State} {ctx : Nat} {b : List Byte}

/-- The state in which a record has been read, and a number of the order taken. -/
def recordTaken (s : State) (ctx x : Nat) : State := { winDrop (recordRead s ctx) (.header ctx (recField x 8 8)) with order := s.order + 1 }

theorem ctxs_recordTaken (s : State) (ctx x : Nat) : (recordTaken s ctx x).ctxs = (recordRead s ctx).ctxs := rfl

/-- R365: a context that remembers one more launch. -/
def Ctx.remember (id : Nat) (c : Ctx) : Ctx := { c with recent := (id :: c.recent).take 256 }

theorem Ctx.mem_remember (id : Nat) (c : Ctx) : id ∈ (c.remember id).recent := List.mem_cons_self

/-- The state in which a launch record has been read. -/
def launchTaken (s : State) (ctx x : Nat) : State := modCtx (recordTaken s ctx x) ctx (·.remember (launchOf x ctx s.order s.clock).id)

theorem tblFind_recordTaken (h : nextRecord s ctx = some b) (x : Nat) : ∃ c, tblFind (recordTaken s ctx x).ctxs ctx = some c := by
  obtain ⟨c, hc⟩ := exists_of_nextRecord h
  rw [ctxs_recordTaken, ctxs_recordRead]
  exact ⟨_, (tblFind_mod_self _ _ _).trans (congrArg _ hc)⟩

theorem ctxAt_launchTaken (h : nextRecord s ctx = some b) (x : Nat) : ctxAt (launchTaken s ctx x) ctx = ({ ctxAt s ctx with readIdx := indexAfter (ctxAt s ctx) } : Ctx).remember (launchOf x ctx s.order s.clock).id := by
  obtain ⟨c, hc⟩ := tblFind_recordTaken h x
  rw [launchTaken, ctxAt_modCtx_of hc, ctxAt_congr (ctxs_recordTaken s ctx x), ctxAt_recordRead h]

/-- R220, R365: the state of a refused launch, the host told where its header could not be read. -/
def launchTold (s : State) (ctx x st info : Nat) : State := if st = 0x87 then tellHost (launchTaken s ctx x) (.launchRead ctx (ctxAt s ctx).readIdx info) else launchTaken s ctx x

/-- R250, R365: a refused launch that waits for the stores its dies have accepted. -/
def launchWaits (s : State) (l : Launch) (st : Nat) : Launch := { l with status := some st, held := launchStores s l }

/-- R365: the state after a launch is refused. -/
def launchRefused (s : State) (ctx x : Nat) (l : Launch) (st info : Nat) : State :=
  if (launchStores s l).isEmpty then writeCompletion (launchTold s ctx x st info) l st else { launchTold s ctx x st info with launches := tblPut (launchTold s ctx x st info).launches s.order (launchWaits s l st) }

theorem execLaunchRecord_read {x : Nat} {l : Launch} (h : nextRecord s ctx = some b) (hb : leNat b = x) (hl : launchOf x ctx s.order s.clock = l) (hx : x % 256 = 1) (ho : launchMalformed x l = true ∨ headerOpen s ctx (recField x 8 8) = false) :
    (∀ l1, admitLaunch s x l = .ok l1 → exec (.launchRecord ctx) s = nextOf s { launchTaken s ctx x with launches := tblPut (launchTaken s ctx x).launches s.order l1 })
      ∧ ∀ st info, admitLaunch s x l = .error (st, info) → exec (.launchRecord ctx) s = nextOf s (launchRefused s ctx x l st info) := by
  have hty : ¬ bits x 0 8 ≠ 1 := by simpa [bits] using hx
  have hgo : ¬ (!(launchMalformed x l) && headerOpen s ctx (recField x 8 8)) = true := by
    rcases ho with h | h <;> simp [h]
  have htaken : launchTaken s ctx x = modCtx { winDrop (recordRead s ctx) (.header ctx (recField x 8 8)) with order := s.order + 1 } ctx (fun c => { c with recent := (l.id :: c.recent).take 256 }) := by
    rw [launchTaken, hl]
    rfl
  refine ⟨fun l1 ha => ?_, fun st info ha => ?_⟩
  · show execLaunchRecord ctx s = _
    simp only [execLaunchRecord, h, hb, hl, if_neg hty, if_neg hgo, ha, htaken]
  · show execLaunchRecord ctx s = _
    simp only [execLaunchRecord, h, hb, hl, if_neg hty, if_neg hgo, ha, htaken, launchRefused, launchTold, launchWaits]

end

/-! Cards (R370, R373). -/

theorem takeCard_leaves {s s1 : State} {ctx x ord : Nat} {posted : Bool} (h : takeCard s ctx posted = some (x, ord, s1)) : s1.out = s.out ∧ s1.cards = s.cards := by
  unfold takeCard at h
  split at h
  · split at h
    · cases h; exact ⟨rfl, rfl⟩
    · cases h
  · obtain ⟨b, -, hb⟩ := Option.map_eq_some_iff.1 h
    cases hb
    exact ⟨out_recordRead s ctx, cards_recordRead s ctx⟩

section
variable {s s1 : State} {ctx x ord : Nat} {posted range : Bool}

/-- Whether an image breaks the layout of its kind of card. -/
def cardMalformed (range : Bool) (x : Nat) : Bool := if range then rangeMalformed x else jobMalformed x

theorem cardRead_taken (h : takeCard s ctx posted = some (x, ord, s1)) (hx : x % 256 = (if range then 3 else 2)) (ho : cardMalformed range x = true ∨ headerOpen s ctx (recField x 8 8) = false) :
    cardRead ctx posted range s = match (generalizing := false) admitCard s (cardMalformed range x) (cardOf x ctx ord range) with
      | .error (r, i) => nextOf s (tellHost { winDrop s1 (.header ctx (recField x 8 8)) with order := s.order + 1 } (.card (cardOf x ctx ord range).stream r i))
      | .ok c1 => nextOf s { winDrop s1 (.header ctx (recField x 8 8)) with order := s.order + 1, cards := tblPut s1.cards s.order c1 } := by
  have hty : ¬ bits x 0 8 ≠ (if range then 3 else 2) := by
    rw [← hx]
    simp [bits]
  have hgo : ¬ (!(if range then rangeMalformed x else jobMalformed x) && headerOpen s ctx (recField x 8 8)) = true := by
    rcases ho with h | h
    · rw [cardMalformed] at h
      rw [h]
      exact Bool.false_ne_true
    · rw [h, Bool.and_false]
      exact Bool.false_ne_true
  simp only [cardRead, h, if_neg hty, if_neg hgo]
  rfl

theorem admitCard_ok {s : State} {bad : Bool} {c k : Card} (h : admitCard s bad c = .ok k) : ∃ y, k = { c with kernel := y } := by
  unfold admitCard at h
  split at h
  · cases h
  · split at h
    · cases h
    · dsimp only at h
      split at h
      · cases h
      · cases h
        exact ⟨_, rfl⟩

end

end Sys2Proof.Machine
end

section
/-! PROOFS. Work placed: cohorts, cards, halved ranges, and the ends of launches (R363 to R375, R394). -/

namespace Sys2Proof.Machine

/-! Launches that end (R365 to R367, R394). -/

theorem exec_launchComplete_held {s : State} {k st : Nat} {l : Launch} (hk : tblFind s.launches k = some l) (hst : l.status = some st) (hd : ∀ i ∈ launchStores s l, i ∉ l.held) : exec (.launchComplete k) s = nextOf s (writeCompletion { s with launches := tblErase s.launches k } l st) := by
  show execLaunchComplete k s = _
  simp only [execLaunchComplete, hk, hst]
  exact if_pos (by simpa using hd)

section
variable {s : State} {k : Nat} {l : Launch} (hk : tblFind s.launches k = some l) (hst : l.status = none)
include hk hst

theorem exec_launchComplete_run (hl : l.left = 0) : exec (.launchComplete k) s = nextOf s (launchEnd s k l 1) := by
  show execLaunchComplete k s = _
  simp only [execLaunchComplete, hk, hst]
  exact if_pos hl

theorem exec_launchComplete_faulted (hl : l.left ≠ 0) (hf : (ctxAt s l.ctx).faulted.isSome = true) (hg : launchGone s k = true) : exec (.launchComplete k) s = nextOf s (launchEnd s k l 0x86) := by
  show execLaunchComplete k s = _
  simp only [execLaunchComplete, hk, hst, if_neg hl, hf, hg]
  rfl

theorem exec_launchComplete_failed (hl : l.left ≠ 0) (hf : ¬ ((ctxAt s l.ctx).faulted.isSome = true ∧ launchGone s k = true)) (hd : depsFailed s l = true) : exec (.launchComplete k) s = nextOf s (launchEnd s k l 0x85) := by
  have hf' : ¬ ((ctxAt s l.ctx).faulted.isSome && launchGone s k) = true := by rwa [Bool.and_eq_true]
  show execLaunchComplete k s = _
  simp only [execLaunchComplete, hk, hst, if_neg hl, if_neg hf', if_pos hd]

end

/-- R366: a launch whose completion is written is gone, and its context's history names it. -/
theorem completion_ends (s : State) (k : Nat) (l : Launch) (st : Nat) :
    tblFind (writeCompletion { s with launches := tblErase s.launches k } l st).launches k = none
      ∧ ((tblFind s.ctxs l.ctx).isSome = true → l.id ∈ (ctxAt s l.ctx).recent → (ctxAt (writeCompletion { s with launches := tblErase s.launches k } l st) l.ctx).hist.head? = some (l.id, st, l.order)) := by
  refine ⟨?_, fun hc hr => ?_⟩
  · rw [(writeCompletion_leaves _ l st).2]
    exact tblFind_erase_self _ _
  · obtain ⟨c, hc⟩ := Option.isSome_iff_exists.1 hc
    exact hist_writeCompletion (s := { s with launches := tblErase s.launches k }) hc hr st

theorem launchEnd_decides (s : State) (k : Nat) (l : Launch) (st : Nat) :
    (launchStores s l = [] → tblFind (launchEnd s k l st).launches k = none ∧ ((tblFind s.ctxs l.ctx).isSome = true → l.id ∈ (ctxAt s l.ctx).recent → (ctxAt (launchEnd s k l st) l.ctx).hist.head? = some (l.id, st, l.order)))
      ∧ (launchStores s l ≠ [] → tblFind (launchEnd s k l st).launches k = some { l with status := some st, held := launchStores s l } ∧ (launchEnd s k l st).ctxs = s.ctxs) := by
  refine ⟨fun h => ?_, fun h => ?_⟩
  · rw [launchEnd, if_pos (by rw [h]; rfl)]
    exact completion_ends s k l st
  · rw [launchEnd, if_neg (by rwa [List.isEmpty_iff])]
    exact ⟨tblFind_put_self _ _ _, rfl⟩

/-! New waves: those that stand keep their numbers and their state. -/

/-- Between `s` and `t` waves have been added, under new numbers, and nothing else of the waves or the number of cohorts has changed. -/
structure AddsWaves (s t : State) : Prop where
  mono : s.nextWave ≤ t.nextWave
  cohorts : t.nextCohort = s.nextCohort
  old : ∀ w < s.nextWave, waveAt t w = waveAt s w

theorem AddsWaves.refl (s : State) : AddsWaves s s := ⟨Nat.le_refl _, rfl, fun _ _ => rfl⟩

theorem AddsWaves.trans {a b c : State} (h : AddsWaves a b) (g : AddsWaves b c) : AddsWaves a c :=
  ⟨Nat.le_trans h.mono g.mono, g.cohorts.trans h.cohorts, fun w hw => (g.old w (Nat.lt_of_lt_of_le hw h.mono)).trans (h.old w hw)⟩

theorem AddsWaves.foldl {α : Type} {f : State → α → State} (h : ∀ s x, AddsWaves s (f s x)) (xs : List α) (s : State) : AddsWaves s (xs.foldl f s) := by
  induction xs generalizing s with
  | nil => exact .refl s
  | cons x xs ih => exact (h s x).trans (ih _)

theorem mtxServe_eq (s : State) (p ctx own : Nat) : ∃ cs, mtxServe s p ctx own = { s with cores := cs } := by
  unfold mtxServe
  split
  · exact ⟨s.cores, rfl⟩
  · exact ⟨_, rfl⟩

/-- R39: a wave given its place, its core's matrix state served. -/
theorem addWave_eq (s : State) (v : Wave) : ∃ cs, addWave s v = { s with waves := tblPut s.waves s.nextWave v, nextWave := s.nextWave + 1, cores := cs } := by
  unfold addWave
  dsimp only
  split
  · exact mtxServe_eq _ _ _ _
  · exact ⟨s.cores, rfl⟩

theorem addsWaves_addWave (s : State) (v : Wave) : AddsWaves s (addWave s v) := by
  obtain ⟨cs, h⟩ := addWave_eq s v
  rw [h]
  exact ⟨Nat.le_succ _, rfl, fun w hw => tblFind_put_ne _ _ (Nat.ne_of_lt hw)⟩

theorem addsWaves_dropL1 (s : State) (p : Nat) : AddsWaves s (dropL1 s p) := ⟨Nat.le_refl _, rfl, fun _ _ => rfl⟩

theorem placeCohort_adds (s : State) (key : Nat) (l : Launch) (i q : Nat) (plan : List (Nat × Nat × List (Nat × Nat))) :
    (placeCohort s key l i q plan).nextCohort = s.nextCohort + 1 ∧ s.nextWave ≤ (placeCohort s key l i q plan).nextWave ∧ ∀ w < s.nextWave, waveAt (placeCohort s key l i q plan) w = waveAt s w := by
  unfold placeCohort
  dsimp only
  obtain ⟨hm, hc, ho⟩ := (AddsWaves.foldl (fun t x => addsWaves_addWave t _) _ _).trans (AddsWaves.foldl (fun t x => addsWaves_dropL1 t (physCore s x.1)) plan _)
  exact ⟨hc, hm, ho⟩

theorem codeSeen_leaves (s : State) (l : Launch) (d : Nat) : (codeSeen s l d).nextCohort = s.nextCohort ∧ (codeSeen s l d).nextWave = s.nextWave ∧ (codeSeen s l d).waves = s.waves := by
  unfold codeSeen
  generalize (if freeBool s 9 then (s.fresh, s.mem) else (l.readAt, l.code) : Nat × List Host.Cell) = c
  dsimp only
  split <;> exact ⟨rfl, rfl, rfl⟩

/-- A list that is not empty has an element at any number reduced by its length. -/
theorem exists_getElem_mod {α : Type} {l : List α} (h : l ≠ []) (n : Nat) : ∃ x ∈ l, l[n % l.length]? = some x :=
  ⟨_, List.getElem_mem (Nat.mod_lt n (List.length_pos_iff.2 h)), List.getElem?_eq_getElem _⟩

theorem placeOn_adds {s : State} {key d tag : Nat} {l : Launch} (hn : (nextOn l d).isSome = true) (hq : openQuads s l d ≠ []) :
    ∃ r, placeOn s key l d tag = some r ∧ r.1.nextCohort = s.nextCohort + 1 ∧ s.nextWave ≤ r.1.nextWave ∧ ∀ w < s.nextWave, waveAt r.1 w = waveAt s w := by
  obtain ⟨i, hi⟩ := Option.isSome_iff_exists.1 hn
  obtain ⟨q, hmem, hget⟩ := exists_getElem_mod hq (free s tag)
  obtain ⟨plan, hplan⟩ := Option.isSome_iff_exists.1 (List.mem_filter.1 hmem).2
  obtain ⟨hc, hw, ho⟩ := placeCohort_adds (codeSeen s l d) key l i q plan
  obtain ⟨kc, kw, ko⟩ := codeSeen_leaves s l d
  rw [kc] at hc
  rw [kw] at hw ho
  refine ⟨(placeCohort (codeSeen s l d) key l i q plan, { l with placed := tblPut l.placed d (tblGet 0 l.placed d + 1) }), by simp only [placeOn, hi, hget, hplan], hc, hw, fun w hlt => (ho w hlt).trans ?_⟩
  rw [waveAt, ko]
  rfl

theorem cohortPlace_adds {s : State} {k d : Nat} {l : Launch} (hk : tblFind s.launches k = some l) (hst : l.status = none) (hr : depsReady s l = true) (hf : depsFailed s l = false) (hg : l.gang = false)
    (hd : d ∈ diesOf l) (hn : (nextOn l d).isSome = true) (hq : openQuads s l d ≠ []) (hla : launchAhead s l.ctx l.rank d = false) (hca : cardAhead s l.ctx l.rank d = false) :
    ∃ t, exec (.cohortPlace k) s = .next t ∧ t.nextCohort = s.nextCohort + 1 ∧ s.nextWave ≤ t.nextWave ∧ ∀ w < s.nextWave, waveAt t w = waveAt s w := by
  have hmem : d ∈ (diesOf l).filter (fun d => (nextOn l d).isSome && !(openQuads s l d).isEmpty && !(aheadOf s l d)) := by
    refine List.mem_filter.2 ⟨hd, ?_⟩
    simp [hn, hq, aheadOf, hla, hca]
  obtain ⟨d', hd', hget⟩ := exists_getElem_mod (List.ne_nil_of_mem hmem) (free s 8)
  have hcond := (List.mem_filter.1 hd').2
  simp only [Bool.and_eq_true, Bool.not_eq_true', List.isEmpty_eq_false_iff] at hcond
  obtain ⟨r, hp, hc, hw, ho⟩ := placeOn_adds (key := k) (tag := 10) hcond.1.1 hcond.1.2
  refine ⟨finish s { r.1 with launches := tblPut r.1.launches k r.2 }, ?_, hc, hw, ho⟩
  show execCohortPlace k s = _
  simp only [execCohortPlace, hk, hst, hr, hf, hg, hget, hp, Option.isSome_none, Bool.not_true, Bool.or_false, Bool.false_eq_true, if_false]
  rfl

/-! Cards (R371 to R374). -/

section
variable {s : State} {k core r : Nat} {c : Card}

theorem exec_cardStart_chosen (hk : tblFind s.cards k = some c) (hw : c.wave = none) (hc : c.core = none) (ht : ∀ y ∈ c.tiles, tileGone s c y.1 = false ∧ tileMoving s c y.1 = false) (hcore : chooseCore s c = some core) (hr : freeCardRecord s c.ctx = some r)
    (hla : launchAhead s c.ctx c.rank (dieOf core) = false) (hca : cardAhead s c.ctx c.rank (dieOf core) = false) : exec (.cardStart k) s = nextOf s (cardChosen s k c core r) := by
  have hgone : c.tiles.any (fun t => tileGone s c t.1) = false := List.any_eq_false.2 fun y hy => by simp [(ht y hy).1]
  have hmov : c.tiles.any (fun t => tileMoving s c t.1) = false := List.any_eq_false.2 fun y hy => by simp [(ht y hy).2]
  show execCardStart k s = _
  simp only [execCardStart, hk, hw, hc, hgone, hmov, hcore, hr, hla, hca, Bool.or_self, Bool.false_eq_true, if_false]

theorem exec_cardStart_dropped (hk : tblFind s.cards k = some c) (hw : c.wave = none) (hc : c.core = none) (ht : ∃ y ∈ c.tiles, tileGone s c y.1 = true) : exec (.cardStart k) s = nextOf s (dropCard s k c 2) := by
  have hgone : c.tiles.any (fun t => tileGone s c t.1) = true := List.any_eq_true.2 ht
  show execCardStart k s = _
  simp only [execCardStart, hk, hw, hc, hgone, if_true]

theorem exec_cardStart_begins (hk : tblFind s.cards k = some c) (hw : c.wave = none) (hc : c.core = some core) (ht : tilesAway s c core = []) (hm : c.moving = []) (hp : mayPlace s c.ctx core = true) (hx : mtxFree s c.kernel c.ctx core = true) (hq : quadHeld s (quadOf core) = false) : exec (.cardStart k) s = nextOf s (cardBegin s k c core) := by
  show execCardStart k s = _
  simp [execCardStart, hk, hw, hc, cardNext, ht, hm, hp, hx, hq]

/-- R372: the card of a wave that has started, with the wave's number. -/
theorem cardBegin_leaves (s : State) (k : Nat) (c : Card) (core : Nat) :
    (∃ pins, (cardBegin s k c core).cards = tblPut s.cards k { c with wave := some s.nextWave, pins := pins, pinCore := core }) ∧ (cardBegin s k c core).nextWave = s.nextWave + 1 := by
  unfold cardBegin
  dsimp only
  obtain ⟨cs, h⟩ := addWave_eq { modCore s (physCore s core) (fun x => { x with keyring := (((cardOperands s c core).filter (fun e => decide (e.2.st = .resident))).map (·.1)).foldl (fun r i => tblMod r i (fun e => { e with st := .pinned })) x.keyring }) with
    cohorts := tblPut s.cohorts s.nextCohort { ctx := c.ctx, threads := 32, quad := quadOf core, spad := [(core, { base := c.base, size := c.kernel.spad })], waves := [s.nextWave], total := 1, kernel := c.kernel, recNo := c.recNo, card := some k, cls := c.cls }
    nextCohort := s.nextCohort + 1
    cards := tblPut s.cards k { c with wave := some s.nextWave, pins := ((cardOperands s c core).filter (fun e => decide (e.2.st = .resident))).map (·.1), pinCore := core } }
    { startWave s c.ctx core c.sect c.place c.kernel (cardCode s c.ctx (dieOf core)) (BitVec.allOnes 32) (cardScalars s c core) (frameOf ((ctxAt s c.ctx).t.cardPoolBase + cardStride * c.recNo) 0) with cohort := s.nextCohort, origin := .card k c.recNo }
  exact ⟨⟨_, congrArg State.cards h⟩, congrArg State.nextWave h⟩

end

/-- R374: the card that an asking core's wave starts with. -/
def halfCard (s : State) (c : Card) (g : Nat × Nat × Nat) : Card := { c with range := some (halve g).2, order := s.order, core := none, wave := none, pins := [], moving := [] }

/-- R374: the state in which the range is halved and the new card has its core. -/
def halvedAt (s : State) (k core r : Nat) (c : Card) (g : Nat × Nat × Nat) : State := cardChosen { s with cards := tblPut s.cards k { c with range := some (halve g).1 }, order := s.order + 1 } s.order (halfCard s c g) core r

theorem halvedAt_new (s : State) (k core r : Nat) (c : Card) (g : Nat × Nat × Nat) : ∃ n, tblFind (halvedAt s k core r c g).cards s.order = some n ∧ n.range = some (halve g).2 ∧ (halvedAt s k core r c g).nextWave = s.nextWave := ⟨_, tblFind_put_self _ _ _, rfl, rfl⟩

theorem halvedAt_old {s : State} {k : Nat} (hk : k ≠ s.order) (core r : Nat) (c : Card) (g : Nat × Nat × Nat) : tblFind (halvedAt s k core r c g).cards k = some { c with range := some (halve g).1 } :=
  (tblFind_put_ne _ _ hk).trans (tblFind_put_self _ _ _)

theorem exec_ask {s : State} {core ctx own k n r : Nat} {c nc : Card} {g : Nat × Nat × Nat} (hidle : ∀ e ∈ s.cards, cardReady s e.2 core = false) (hp : askPick s core ctx = some (own, k, n)) (hr : freeCardRecord s ctx = some r) (hk : tblFind s.cards k = some c) (hg : c.range = some g)
    (hs : cardSects s (halfCard s c g) core ≠ []) (hn : tblFind (halvedAt s k core r c g).cards s.order = some nc) : exec (.ask core ctx) s = nextOf s (cardBegin (halvedAt s k core r c g) s.order nc core) := by
  have hready : s.cards.any (fun e => cardReady s e.2 core) = false := List.any_eq_false.2 fun e he => by simp [hidle e he]
  have hmtx : mtxFree s (halfCard s c g).kernel (halfCard s c g).ctx core = true := by
    refine Decidable.byContradiction fun h => hs ?_
    rw [Bool.not_eq_true] at h
    simp only [cardSects, h, Bool.and_false, Bool.false_eq_true, if_false]
  have hsects : (cardSects s (halfCard s c g) core).isEmpty = false := by simpa using hs
  show execAsk core ctx s = _
  simp only [execAsk, hready, hp, hr, hk, hg, Bool.false_eq_true, if_false]
  unfold halfCard at hsects hmtx
  unfold halvedAt halfCard at hn
  simp only [hsects, hn, hmtx, Bool.false_eq_true, if_false, Bool.not_true]
  rfl

end Sys2Proof.Machine
end

section
/-! PROOFS. Parking, placing again, and what the dispatchers do (R361 to R378, R394, R406 to R408). -/

namespace Sys2Proof.Machine

theorem tblFind_map_where {α : Type} (t : Tbl α) (c : α → Prop) [DecidablePred c] (f : α → α) (k : Nat) : tblFind (t.map (fun q => if c q.2 then (q.1, f q.2) else q)) k = (tblFind t k).map (fun a => if c a then f a else a) := by
  have h : t.map (fun q => if c q.2 then (q.1, f q.2) else q) = t.map (fun e => (e.1, if c e.2 then f e.2 else e.2)) := List.map_congr_left fun e _ => by split <;> rfl
  rw [h]
  exact tblFind_map_keyed t (fun _ a => if c a then f a else a) k

theorem tblFind_map_none {α β : Type} {t : Tbl α} {k : Nat} (g : Nat × α → β) (h : tblFind t k = none) : tblFind (t.map (fun e => (e.1, g e))) k = none :=
  (tblFind_map_keyed t (fun j a => g (j, a)) k).trans (congrArg _ h)

theorem waves_foldl_modCore {α : Type} (q : State → α → Nat) (f : α → Core → Core) (xs : List α) (t : State) : (xs.foldl (fun t k => modCore t (q t k) (f k)) t).waves = t.waves := by
  induction xs generalizing t with
  | nil => rfl
  | cons x xs ih => exact ih _

/-- Wave `w` has left its place, and the waves parked with cohort `co` are `ws`. -/
def ParkedWith (w co : Nat) (ws : List Wave) (s : State) : Prop := waveAt s w = none ∧ ∃ p, tblFind s.parked co = some p ∧ p.waves = ws

/-- R412: a core's area as it is written when the last wave of a context leaves the core. -/
def areaWritten (s : State) (core ctx : Nat) : State :=
  let p := physCore s core
  let a := areaAt (ctxAt s ctx).t core
  let m := (coreAt s p).mx
  let chans := (heldChans s p ctx).map (fun ch => (ch, chanEntries s p ch))
  let s1 := if m.ctx = some ctx then putFields s ctx a (matrixFields m) else s
  let s2 := chans.foldl (fun t c => putFields t ctx a (chanFields c.1 c.2)) s1
  if m.ctx = some ctx ∨ chans.isEmpty = false then putFields s2 ctx a [(0x4200, 0xBE00, 0)] else s2

/-- R406: a wave that has left its place, among the parked waves of its cohort. -/
def waveStored (s : State) (w : Nat) (v : Wave) : State :=
  let old := (tblFind s.parked v.cohort).getD {}
  let co := (tblFind s.cohorts v.cohort).getD {}
  { s with waves := tblErase s.waves w, parked := tblPut s.parked v.cohort { old with co := co, recNo := co.recNo, waves := old.waves ++ [{ v.stand with parkReq := none, preemptAt := none }] } }

theorem parkWave_eq (s : State) (w : Nat) (v : Wave) (reason : Nat) (inh : Bool) : parkWave s w v reason inh = placeFreed (parkCohort (leaveCores (waveStored (putFields (freeWaits s v) v.ctx v.frame (frameFields v reason inh)) w v)) v.cohort) v.core v.sect v.kernel.alloc := rfl

section
variable {w co : Nat} {ws : List Wave}

theorem ParkedWith.congr {s t : State} (h : ParkedWith w co ws s) (hw : t.waves = s.waves) (hp : t.parked = s.parked) : ParkedWith w co ws t := by
  rw [ParkedWith, waveAt, hw, hp]
  exact h

theorem ParkedWith.foldl {α : Type} {f : State → α → State} (hf : ∀ t x, ParkedWith w co ws t → ParkedWith w co ws (f t x)) (xs : List α) {s : State} (h : ParkedWith w co ws s) : ParkedWith w co ws (xs.foldl f s) := by
  induction xs generalizing s with
  | nil => exact h
  | cons x xs ih => exact ih (hf s x h)

theorem ParkedWith.packagePut {s : State} (h : ParkedWith w co ws s) (key pa : Nat) (b : Byte) : ParkedWith w co ws (packagePut s key pa b) := by
  obtain ⟨hw, hp⟩ := h
  refine ⟨?_, by rwa [(stored_packagePut s key pa b).parked]⟩
  show tblFind ((lineTake s key (lineOf pa)).waves.map _) w = none
  rw [waves_lineTake]
  exact tblFind_map_none _ hw

theorem ParkedWith.storePut {s : State} (h : ParkedWith w co ws s) (ctx va : Nat) (l : List Byte) : ParkedWith w co ws (storePut s ctx va l) := by
  refine ParkedWith.foldl (fun t x ht => ?_) _ h
  split
  · exact ht.packagePut _ _ _
  · exact ht

theorem ParkedWith.putFields {s : State} (h : ParkedWith w co ws s) (ctx base : Nat) (l : List (Nat × Nat × Nat)) : ParkedWith w co ws (putFields s ctx base l) :=
  ParkedWith.foldl (fun _ _ ht => ht.storePut _ _ _) _ h

theorem ParkedWith.putRecord {s : State} (h : ParkedWith w co ws s) (base : Nat) (c : Cohort) (slots : List (Nat × Nat × Word × Word)) : ParkedWith w co ws (putRecord s base c slots) := by
  refine ParkedWith.foldl (fun t x ht => ?_) _ (h.putFields _ _ _)
  exact ParkedWith.congr (s := Sys2Proof.Machine.storePut t c.ctx (base + 0x1000 + 0x80000 * x.2) (spadBytes x.1.2)) (ht.storePut _ _ _) rfl rfl

theorem parkedWith_waveStored (s : State) (w : Nat) (v : Wave) : ∃ old, ParkedWith w v.cohort (old ++ [{ v.stand with parkReq := none, preemptAt := none }]) (waveStored s w v) :=
  ⟨((tblFind s.parked v.cohort).getD {}).waves, tblFind_erase_self _ _, _, tblFind_put_self _ _ _, rfl⟩

theorem ParkedWith.areaWritten {s : State} (h : ParkedWith w co ws s) (core ctx : Nat) : ParkedWith w co ws (areaWritten s core ctx) := by
  have hput : ∀ {c : Prop} [Decidable c] {t : State} (base : Nat) (l : List (Nat × Nat × Nat)), ParkedWith w co ws t → ParkedWith w co ws (if c then Sys2Proof.Machine.putFields t ctx base l else t) := fun base l ht => by
    split
    · exact ht.putFields _ _ _
    · exact ht
  exact hput _ _ (ParkedWith.foldl (fun _ _ ht => ht.putFields _ _ _) _ (hput _ _ h))

theorem ParkedWith.leaveCore {s : State} (h : ParkedWith w co ws s) (core ctx : Nat) : ParkedWith w co ws (leaveCore s core ctx) := by
  obtain ⟨hw, p, hp, hws⟩ := h.areaWritten core ctx
  have hsame : ∀ (c : Prop) [Decidable c] (q : Parked), p.waves = q.waves → (if c then q else p).waves = ws := fun c _ q h => by
    split
    · exact h.symm.trans hws
    · exact hws
  refine ⟨hw, _, (tblFind_map_where _ (fun q : Parked => q.co.ctx = ctx ∧ core ∈ tblKeys q.co.spad) (fun q => { q with cores := nub (core :: q.cores), owners := tblPut q.owners core ((coreAt s (physCore s core)).mx.own, (coreAt s (physCore s core)).mx.by_), marks := tblPut q.marks core (nanColumns (coreAt s (physCore s core)).mx) }) co).trans (congrArg _ hp), hsame _ _ rfl⟩

theorem ParkedWith.leaveCores {s : State} (h : ParkedWith w co ws s) : ParkedWith w co ws (leaveCores s) := by
  refine ParkedWith.foldl (fun t x ht => ?_) _ (h.congr rfl rfl)
  split
  · exact ht
  · exact ht.leaveCore _ _

theorem ParkedWith.parkCohort {s : State} (h : ParkedWith w co ws s) : ParkedWith w co ws (parkCohort s co) := by
  unfold Sys2Proof.Machine.parkCohort
  split
  · next c p hc hp =>
    split
    · dsimp only
      obtain ⟨hw, -⟩ := h.putRecord (recordAt s c) c (cohortSlots s co c)
      obtain ⟨p', hp', hws⟩ := h.2
      cases hp.symm.trans hp'
      refine ⟨?_, _, tblFind_put_self _ _ _, hws⟩
      refine Eq.trans ?_ hw
      rw [waveAt, waveAt]
      exact congrArg (tblFind · w) (waves_foldl_modCore (fun t (k : Nat × Nat) => physCore t k.1) _ _ _)
    · exact h
  · exact h

theorem ParkedWith.placeFreed {s : State} (h : ParkedWith w co ws s) (core k regs : Nat) : ParkedWith w co ws (placeFreed s core k regs) := by
  refine h.congr (waves_placeFreed s core k regs) ?_
  unfold Sys2Proof.Machine.placeFreed
  split
  · split <;> rfl
  · rfl

theorem ParkedWith.settle {s : State} (h : ParkedWith w co ws s) : ParkedWith w co ws (settle s) := by
  refine ⟨?_, by rw [settle_parked]; exact h.2⟩
  obtain hn | ⟨v, v', hv, -, -⟩ := (settled_settle s).wave w
  · exact hn
  · rw [h.1] at hv
    cases hv

end

/-- R406: a parked wave has left its place, and stands among the waves of its cohort with its registers. -/
theorem parkWave_leaves (s : State) (w : Nat) (v : Wave) (reason : Nat) (inh : Bool) :
    waveAt (settle (parkWave s w v reason inh)) w = none ∧ ∃ p, tblFind (settle (parkWave s w v reason inh)).parked v.cohort = some p ∧ ∃ y ∈ p.waves, y.s = v.s ∧ y.v = v.v ∧ y.p = v.p ∧ y.tpc = v.tpc ∧ y.flags = v.flags := by
  obtain ⟨old, hs⟩ := parkedWith_waveStored (putFields (freeWaits s v) v.ctx v.frame (frameFields v reason inh)) w v
  have h := (hs.leaveCores.parkCohort.placeFreed v.core v.sect v.kernel.alloc).settle
  rw [← parkWave_eq] at h
  obtain ⟨hw, p, hp, hws⟩ := h
  exact ⟨hw, p, hp, { v.stand with parkReq := none, preemptAt := none }, by rw [hws]; exact List.mem_append_right _ List.mem_cons_self, rfl, rfl, rfl, rfl, rfl⟩

theorem exec_park {s : State} {w reason : Nat} {v : Wave} {inh : Bool} (hv : waveAt s w = some v) (hp : v.parkReq = some (reason, inh)) (hm : mayPark s w v = true) : exec (.park w) s = nextOf s (settle (parkWave s w v reason inh)) := by
  have hf : parkFault s v = false := by
    unfold mayPark at hm
    simp only [Bool.and_eq_true] at hm
    obtain ⟨⟨⟨-, hb⟩, -⟩, -⟩ := hm
    cases hfs : faultStop s v with
    | true => simp [parkFault, hfs]
    | false =>
      rw [hfs, Bool.or_false] at hb
      simp [parkFault, hb]
  show execPark w s = _
  simp only [execPark, hv, hp, hf, hm, Bool.false_eq_true, if_false, if_true]

/-- R407: a parked cohort that some quad takes is placed again. -/
theorem placeParked_places {s : State} {co q : Nat} {p : Parked} (hp : tblFind s.parked co = some p) (hc : tblFind s.cohorts co = none) (hq : q < 80) (ha : quadAgain s p.co q = true)
    (hpl : (planAgain s p.co (recordSlots s p.co.ctx (recordAt s p.co)) ((List.range 4).map (4 * q + ·)) 0 (parkedAt p)).isSome = true) : ∃ t, exec (.placeParked co) s = .next t ∧ tblFind t.parked co = none := by
  have hmem : q ∈ (List.range 80).filter (fun q => (if quadAgain s p.co q then planAgain s p.co (recordSlots s p.co.ctx (recordAt s p.co)) ((List.range 4).map (4 * q + ·)) 0 (parkedAt p) else none).isSome) :=
    List.mem_filter.2 ⟨List.mem_range.2 hq, by rw [if_pos ha]; exact hpl⟩
  obtain ⟨q', hq', hget⟩ := exists_getElem_mod (List.ne_nil_of_mem hmem) (free s 0)
  obtain ⟨pl, hpl'⟩ := Option.isSome_iff_exists.1 (List.mem_filter.1 hq').2
  have hx : ∃ s3 : State, exec (.placeParked co) s = nextOf s (settle s3) ∧ tblFind s3.parked co = none := by
    show ∃ s3 : State, execPlaceParked co s = _ ∧ _
    simp only [execPlaceParked, hp, hc, hget, hpl', Option.isSome_none, Bool.false_eq_true, if_false]
    exact ⟨_, rfl, tblFind_erase_self _ _⟩
  obtain ⟨s3, hx, hgone⟩ := hx
  refine ⟨_, hx, ?_⟩
  show tblFind (settle s3).parked co = none
  rw [settle_parked, hgone]

end Sys2Proof.Machine
end

section
/-! PROOFS. What the dispatchers do with records, cards, launches and parked work (R361 to R378, R394, R406 to R408). -/

namespace Sys2Proof.Machine

section
variable {s : State} {ctx : Nat} {b : List Byte}

theorem launchRecord_admits {x : Nat} {l : Launch} (h : nextRecord s ctx = some b) (hx : leNat b = x) (hty : x % 256 = 1) (ho : headerOpen s ctx (recField x 8 8) = false) (ha : admitLaunch s x (launchOf x ctx s.order s.clock) = .ok l) :
    ∃ t, exec (.launchRecord ctx) s = .next t ∧ (ctxAt t ctx).readIdx = indexAfter (ctxAt s ctx) ∧ tblFind t.launches s.order = some l ∧ t.order = s.order + 1 := by
  refine ⟨_, (execLaunchRecord_read h hx rfl hty (.inr ho)).1 l ha, ?_, tblFind_put_self _ _ _, rfl⟩
  exact congrArg Ctx.readIdx (ctxAt_launchTaken h x)

theorem ctxAt_launchTold (s : State) (ctx x st info : Nat) : (launchTold s ctx x st info).ctxs = (launchTaken s ctx x).ctxs ∧ (launchTold s ctx x st info).launches = s.launches := by
  have hl : (launchTaken s ctx x).launches = s.launches := by
    simp only [launchTaken, modCtx, recordTaken, winDrop]
    exact launches_recordRead s ctx
  unfold launchTold
  split
  · exact ⟨rfl, hl⟩
  · exact ⟨rfl, hl⟩

/-- R365: the outcome of a launch that is refused. -/
theorem launchRefused_leaves {x st info : Nat} {l : Launch} (h : nextRecord s ctx = some b) (hl : launchOf x ctx s.order s.clock = l) (hlc : l.ctx = ctx) :
    (ctxAt (launchRefused s ctx x l st info) ctx).readIdx = indexAfter (ctxAt s ctx)
      ∧ (launchStores s l = [] → (launchRefused s ctx x l st info).launches = s.launches ∧ (ctxAt (launchRefused s ctx x l st info) ctx).hist.head? = some (l.id, st, l.order))
      ∧ (launchStores s l ≠ [] → tblFind (launchRefused s ctx x l st info).launches s.order = some (launchWaits s l st) ∧ (ctxAt (launchRefused s ctx x l st info) ctx).hist = (ctxAt s ctx).hist) := by
  obtain ⟨htc, htl⟩ := ctxAt_launchTold s ctx x st info
  have hctx : ctxAt (launchTold s ctx x st info) ctx = ({ ctxAt s ctx with readIdx := indexAfter (ctxAt s ctx) } : Ctx).remember l.id := by
    rw [ctxAt_congr htc, ctxAt_launchTaken h x, hl]
  have hin : ∃ c, tblFind (launchTold s ctx x st info).ctxs l.ctx = some c := by
    obtain ⟨c, hc⟩ := tblFind_recordTaken h x
    rw [htc, hlc]
    exact ⟨_, (tblFind_mod_self _ _ _).trans (congrArg _ hc)⟩
  obtain ⟨c, hc⟩ := hin
  by_cases he : launchStores s l = []
  · have hr : launchRefused s ctx x l st info = writeCompletion (launchTold s ctx x st info) l st := by rw [launchRefused, if_pos (by rw [he]; rfl)]
    rw [hr]
    refine ⟨?_, fun _ => ⟨?_, ?_⟩, fun h => absurd he h⟩
    · have := readIdx_writeCompletion hc st
      rw [hlc, hctx] at this
      exact this
    · rw [(writeCompletion_leaves _ l st).2, htl]
    · have := hist_writeCompletion hc (by rw [hlc, hctx]; exact Ctx.mem_remember _ _) st
      rwa [hlc] at this
  · have hr : launchRefused s ctx x l st info = { launchTold s ctx x st info with launches := tblPut (launchTold s ctx x st info).launches s.order (launchWaits s l st) } := by rw [launchRefused, if_neg (by rwa [List.isEmpty_iff])]
    rw [hr]
    refine ⟨?_, fun h => absurd h he, fun _ => ⟨tblFind_put_self _ _ _, ?_⟩⟩
    · show (ctxAt (launchTold s ctx x st info) ctx).readIdx = _
      rw [hctx]
      rfl
    · show (ctxAt (launchTold s ctx x st info) ctx).hist = _
      rw [hctx]
      rfl

theorem launchRecord_refuses {x st info : Nat} {l : Launch} (h : nextRecord s ctx = some b) (hx : leNat b = x) (hl : launchOf x ctx s.order s.clock = l) (hty : x % 256 = 1) (ho : launchMalformed x l = true ∨ headerOpen s ctx (recField x 8 8) = false) (ha : admitLaunch s x l = .error (st, info)) :
    ∃ t, exec (.launchRecord ctx) s = .next t ∧ (ctxAt t ctx).readIdx = indexAfter (ctxAt s ctx)
      ∧ (launchStores s l = [] → t.launches = s.launches ∧ (ctxAt t ctx).hist.head? = some (l.id, st, l.order))
      ∧ (launchStores s l ≠ [] → tblFind t.launches s.order = some (launchWaits s l st) ∧ (ctxAt t ctx).hist = (ctxAt s ctx).hist) :=
  ⟨_, (execLaunchRecord_read h hx hl hty ho).2 st info ha, launchRefused_leaves h hl (by rw [← hl]; rfl)⟩

end

section
variable {s s1 : State} {ctx x ord : Nat} {posted range : Bool} {i : Instr} (hi : (i, range) ∈ ([(.jobCard ctx posted, false), (.rangeCard ctx posted, true)] : List (Instr × Bool))) (h : takeCard s ctx posted = some (x, ord, s1)) (hx : x % 256 = (if range then 3 else 2))
include hi h hx

omit h hx in
theorem exec_card : exec i s = cardRead ctx posted range s := by
  simp only [List.mem_cons, Prod.mk.injEq, List.not_mem_nil, or_false] at hi
  obtain ⟨rfl, rfl⟩ | ⟨rfl, rfl⟩ := hi <;> rfl

theorem card_admitted {c : Card} (ho : headerOpen s ctx (recField x 8 8) = false) (ha : admitCard s (if range then rangeMalformed x else jobMalformed x) (cardOf x ctx ord range) = .ok c) :
    ∃ t k, exec i s = .next t ∧ t.ctxs = s1.ctxs ∧ tblFind t.cards s.order = some k ∧ k.ctx = ctx ∧ k.cls = c.cls ∧ k.tiles = c.tiles ∧ k.range = c.range ∧ k.order = ord ∧ k.wave = none ∧ t.order = s.order + 1 := by
  have hr := cardRead_taken h hx (.inr ho)
  rw [show admitCard s (cardMalformed range x) (cardOf x ctx ord range) = .ok c from ha] at hr
  obtain ⟨y, hc⟩ := admitCard_ok ha
  refine ⟨_, c, (exec_card hi).trans hr, rfl, tblFind_put_self _ _ _, ?_, rfl, rfl, rfl, ?_, ?_, rfl⟩ <;>
  · rw [hc]
    rfl

theorem card_dropped (hb : (if range then rangeMalformed x else jobMalformed x) = true) : ∃ t, exec i s = .next t ∧ t.ctxs = s1.ctxs ∧ t.cards = s.cards ∧ t.out = s.out ++ [.card (recField x 4 4) 1 0] := by
  have hr := cardRead_taken h hx (.inl hb)
  have ha : admitCard s (cardMalformed range x) (cardOf x ctx ord range) = .error (1, 0) := by rw [admitCard, if_pos (show cardMalformed range x = true from hb)]
  rw [ha] at hr
  obtain ⟨ho, hc⟩ := takeCard_leaves h
  refine ⟨_, (exec_card hi).trans hr, rfl, hc, ?_⟩
  exact congrArg (· ++ _) ho

end

/-! The clauses of O55, one lemma for each kind of step. -/

section
variable {s : State} {k : Nat}

/-- R361: a context's read index once a record is read. -/
def ReadOn (s t : State) (ctx : Nat) : Prop := (ctxAt t ctx).readIdx = (if ringSize (ctxAt s ctx).t ≤ (ctxAt s ctx).readIdx + 1 then 0 else (ctxAt s ctx).readIdx + 1)

theorem emptyRecord_leaves {ctx : Nat} {b : List Byte} (hb : nextRecord s ctx = some b) (hx : leNat b % 256 = 0) : ∃ t, exec (.emptyRecord ctx) s = .next t ∧ ReadOn s t ctx ∧ t.out = s.out ∧ t.launches = s.launches ∧ t.cards = s.cards := by
  have hx' := exec_emptyRecord hb hx
  have hi := congrArg Ctx.readIdx (ctxAt_recordRead hb)
  have ho := out_recordRead s ctx
  have hl := launches_recordRead s ctx
  have hc := cards_recordRead s ctx
  generalize recordRead s ctx = t at hx' hi ho hl hc
  exact ⟨_, hx', hi, ho, hl, hc⟩

theorem unknownRecord_leaves {ctx : Nat} {b : List Byte} (hb : nextRecord s ctx = some b) (hx : 3 < leNat b % 256) : ∃ t, exec (.unknownRecord ctx) s = .next t ∧ ReadOn s t ctx ∧ t.out = s.out ++ [.badRecord ctx (ctxAt s ctx).readIdx] ∧ t.launches = s.launches ∧ t.cards = s.cards := by
  have hx' := exec_unknownRecord hb hx
  have hi := congrArg Ctx.readIdx (ctxAt_recordRead hb)
  have ho := out_recordRead s ctx
  have hl := launches_recordRead s ctx
  have hc := cards_recordRead s ctx
  generalize recordRead s ctx = t at hx' hi ho hl hc
  exact ⟨_, hx', hi, congrArg (· ++ _) ho, hl, hc⟩

theorem cardStart_dropped {c : Card} (hk : tblFind s.cards k = some c) (hw : c.wave = none) (hc : c.core = none) (ht : ∃ y ∈ c.tiles, tileGone s c y.1 = true) : ∃ t, exec (.cardStart k) s = .next t ∧ tblFind t.cards k = none ∧ t.out = s.out ++ [.card c.stream 2 0] := by
  refine ⟨_, exec_cardStart_dropped hk hw hc ht, ?_, ?_⟩
  · show tblFind (cardFreed _ c).cards k = none
    rw [cardFreed, hc]
    exact tblFind_erase_self _ _
  · show (cardFreed _ c).out = _
    rw [cardFreed, hc]
    rfl

theorem cardStart_begins {c : Card} {core : Nat} (hk : tblFind s.cards k = some c) (hw : c.wave = none) (hc : c.core = some core) (ht : tilesAway s c core = []) (hm : c.moving = []) (hp : mayPlace s c.ctx core = true) (hx : mtxFree s c.kernel c.ctx core = true) (hq : quadHeld s (quadOf core) = false) :
    ∃ t c', exec (.cardStart k) s = .next t ∧ tblFind t.cards k = some c' ∧ c'.wave = some s.nextWave ∧ t.nextWave = s.nextWave + 1 := by
  obtain ⟨⟨pins, hcards⟩, hnext⟩ := cardBegin_leaves s k c core
  exact ⟨_, _, exec_cardStart_begins hk hw hc ht hm hp hx hq, (congrArg (tblFind · k) hcards).trans (tblFind_put_self _ _ _), rfl, hnext⟩

theorem ask_halves {core ctx own n r lo hi g : Nat} {c : Card} (hidle : ∀ e ∈ s.cards, cardReady s e.2 core = false) (hp : askPick s core ctx = some (own, k, n)) (hr : freeCardRecord s ctx = some r) (hk : tblFind s.cards k = some c) (hg : c.range = some (lo, hi, g)) (hne : k ≠ s.order)
    (hs : cardSects s { c with range := some (halve (lo, hi, g)).2, order := s.order, core := none, wave := none, pins := [], moving := [] } core ≠ []) :
    ∃ t c' c2, exec (.ask core ctx) s = .next t ∧ tblFind t.cards k = some c' ∧ tblFind t.cards s.order = some c2 ∧ c'.range = some (halve (lo, hi, g)).1 ∧ c2.range = some (halve (lo, hi, g)).2 ∧ c2.wave = some s.nextWave := by
  obtain ⟨nc, hnc, hrange, hnext⟩ := halvedAt_new s k core r c (lo, hi, g)
  obtain ⟨⟨pins, hcards⟩, -⟩ := cardBegin_leaves (halvedAt s k core r c (lo, hi, g)) s.order nc core
  refine ⟨_, { c with range := some (halve (lo, hi, g)).1 }, _, exec_ask hidle hp hr hk hg hs hnc, ?_, (congrArg (tblFind · s.order) hcards).trans (tblFind_put_self _ _ _), rfl, hrange, congrArg some hnext⟩
  exact (congrArg (tblFind · k) hcards).trans ((tblFind_put_ne _ _ hne).trans (halvedAt_old hne core r c (lo, hi, g)))

theorem park_leaves {w reason : Nat} {inh : Bool} {v : Wave} (hv : waveAt s w = some v) (hp : v.parkReq = some (reason, inh)) (hm : mayPark s w v = true) :
    ∃ t, exec (.park w) s = .next t ∧ waveAt t w = none ∧ ∃ p, tblFind t.parked v.cohort = some p ∧ ∃ y ∈ p.waves, y.s = v.s ∧ y.v = v.v ∧ y.p = v.p ∧ y.tpc = v.tpc ∧ y.flags = v.flags := by
  have h := parkWave_leaves s w v reason inh
  have hx := exec_park hv hp hm
  generalize settle (parkWave s w v reason inh) = t at h hx
  exact ⟨_, hx, h⟩

end

/-- Settles O55: each step's next state is the one its definition builds; new waves take new numbers, and what a step writes to memory leaves the dispatchers' books. -/
theorem dispatchStepsHold : Obligations.DispatchSteps := by
  intro s ahead
  refine ⟨fun ctx b hb => ⟨fun hx => ?_, fun hx => ?_, fun l hx ho ha => launchRecord_admits hb rfl hx ho ha, fun st info hx ho ha => ?_⟩, fun ctx posted i range x ord s1 hi h hx => ⟨fun c ho ha => card_admitted hi h hx ho ha, fun hb => card_dropped hi h hx hb⟩, fun k l hk => ?_,
    fun k l d hk hst hr hf hg hd hn hq hla hca => cohortPlace_adds hk hst hr hf hg hd hn hq hla hca, fun k c core r hk hw hc ht hcore hr hla hca => ?_, fun k c hk hw hc ht => ?_, fun k c core hk hw hc ht hm hp hx hq => ?_, fun core ctx own k n r c lo hi g hidle hp hr hk hg hne hs => ?_, fun w v reason inh hv hp hm => ?_,
    fun co p q hp hc hq ha hpl => placeParked_places hp hc hq ha hpl⟩
  · exact emptyRecord_leaves hb hx
  · exact unknownRecord_leaves hb hx
  · obtain ⟨t, hx', hi, hnone, hsome⟩ := launchRecord_refuses hb rfl rfl hx ho ha
    exact ⟨t, hx', hi, hnone, fun h => ⟨_, (hsome h).1, rfl, rfl, (hsome h).2⟩⟩
  · refine ⟨fun st hst hd => ⟨_, exec_launchComplete_held hk hst hd, completion_ends s k l st⟩, fun hst hl => ⟨_, exec_launchComplete_run hk hst hl, launchEnd_decides s k l 1⟩, fun hst hl hf hg => ⟨_, exec_launchComplete_faulted hk hst hl hf hg, launchEnd_decides s k l 0x86⟩, fun hst hl hf hd => ⟨_, exec_launchComplete_failed hk hst hl hf hd, launchEnd_decides s k l 0x85⟩⟩
  · exact ⟨_, _, exec_cardStart_chosen hk hw hc ht hcore hr hla hca, tblFind_put_self _ _ _, rfl, rfl⟩
  · exact cardStart_dropped hk hw hc ht
  · exact cardStart_begins hk hw hc ht hm hp hx hq
  · exact ask_halves hidle hp hr hk hg hne hs
  · exact park_leaves hv hp hm

end Sys2Proof.Machine
end

section
/-! PROOFS. The engines' queue: what completion, failure and a gap leave of an instruction (R302 to R306, R313, R454). -/

namespace Sys2Proof.Machine

/-- In `t` the engine instruction numbered `k` is over, or stands as one that satisfies `P`. -/
def Left (k : Nat) (P : EngOp → Prop) (t : State) : Prop := tblFind t.eng k = none ∨ ∃ o, tblFind t.eng k = some o ∧ P o

section
variable {k : Nat} {P Q : EngOp → Prop}

theorem Left.mono (h : ∀ o, P o → Q o) {t : State} (ht : Left k P t) : Left k Q t := ht.imp id fun ⟨o, ho, hp⟩ => ⟨o, ho, h o hp⟩

theorem Left.of_eng {s t : State} (h : t.eng = s.eng) (hs : Left k P s) : Left k P t := by rwa [Left, h]

theorem Left.settle {s : State} (h : Left k P s) : Left k P (settle s) := h.of_eng (settle_eng s)

theorem left_modEng {s : State} {o : EngOp} (h : tblFind s.eng k = some o) {g : EngOp → EngOp} (hp : P (g o)) : Left k P (modEng s k g) := .inr ⟨g o, (tblFind_mod_self _ _ _).trans (congrArg _ h), hp⟩

end

theorem eng_foldl {α : Type} {f : State → α → State} (h : ∀ s x, (f s x).eng = s.eng) (xs : List α) (s : State) : (xs.foldl f s).eng = s.eng := by
  induction xs generalizing s with
  | nil => rfl
  | cons x xs ih => exact (ih _).trans (h s x)

theorem eng_sendFrame (s : State) (ty ctx dst addr core : Nat) (bytes : List Byte) (op : FrameOp) (tx : TxFor) : (sendFrame s ty ctx dst addr core bytes op tx).eng = s.eng := rfl

theorem tblFind_modEng {s : State} {k : Nat} {o : EngOp} (h : tblFind s.eng k = some o) (g : EngOp → EngOp) : tblFind (modEng s k g).eng k = some (g o) := (tblFind_mod_self _ _ _).trans (congrArg _ h)

/-! Completion and failure (R303 to R306). -/

theorem eng_engDone (s : State) (k : Nat) (f : Option (Word × Word)) : tblFind (engDone s k f).eng k = none := by
  unfold engDone
  split
  · assumption
  · next o ho =>
    have h : tblFind ((tblErase s.eng k).map (fun e : Nat × EngOp => (e.1, { e.2 with deps := e.2.deps.map (fun d : Dep => d.after k (f.map (fun f : Word × Word => (k, f.1, f.2)))) }))) k = none := tblFind_map_none _ (tblFind_erase_self _ _)
    dsimp only
    split <;> exact h

theorem left_engDone (s : State) (k : Nat) (f : Option (Word × Word)) (P : EngOp → Prop) : Left k P (engDone s k f) := .inl (eng_engDone s k f)

theorem left_engEnd {s : State} {k : Nat} {P : EngOp → Prop} (h : Left k P s) : Left k P (engEnd s k) := by
  unfold engEnd
  split
  · split
    · exact left_engDone _ _ _ _
    · exact h
  · exact h

theorem left_engFail {s : State} {k : Nat} {o : EngOp} {P : EngOp → Prop} (h : tblFind s.eng k = some o) (f : Word × Word) (hp : ∀ g, P { o with gap := none, fault := some g }) : Left k P (engFail s k f) :=
  left_engEnd (left_modEng h (hp _))

theorem engFail_over {s : State} {k : Nat} {o : EngOp} (h : tblFind s.eng k = some o) (hw : o.pay.waits = []) (f : Word × Word) : tblFind (engFail s k f).eng k = none := by
  simp only [engFail, engEnd, tblFind_modEng h]
  rw [if_pos]
  · exact eng_engDone _ _ _
  · rw [hw]
    rfl

theorem tblFind_engGap {s : State} {k : Nat} {o : EngOp} (h : tblFind s.eng k = some o) (core init : Nat) (kind : Kind) (f : MemFault) (low : Word × Word) :
    tblFind (engGap s k o core init kind f low).eng k = some { o with gap := some (ctxAt s o.ctx).gapSeq, fault := some low } := (tblFind_mod_self _ _ _).trans (congrArg _ h)

/-! Copies (R299 to R305). -/

theorem left_tcopyCheck {s : State} {k : Nat} {P : EngOp → Prop} (h : Left k P s) : Left k P (tcopyCheck s k) := by
  unfold tcopyCheck
  split
  · split
    · split
      · exact left_engEnd h
      · split
        · exact left_engDone _ _ _ _
        · exact h
    · exact h
  · exact h

theorem stored_chunkLoad (s : State) (v : Wave) (r : TRec) (soff x i0 : Nat) (moved : List Nat) (bs : List (Byte × Bool)) : Stored s (chunkLoad s v r soff x i0 moved bs) := by
  unfold chunkLoad
  split
  · exact .refl s
  · refine Stored.foldl (fun t y => ?_) _ s
    split
    · exact .refl t
    · exact stored_engPut t _ _

theorem stored_chunkStore (s : State) (r : TRec) (goff : Word) (x i0 : Nat) (moved : List Nat) (dst : List AByte) (bs : List (Byte × Bool)) : Stored s (chunkStore s r goff x i0 moved dst bs) := by
  refine Stored.foldl (fun t y => ?_) _ s
  split
  · exact .refl t
  · exact stored_engPut t _ _

theorem stored_chunkSeen (s : State) (o : EngOp) (v : Wave) (st : Bool) (r : TRec) (goff : Word) (soff : Nat) (moved : List Nat) (c : Nat) (flat : Bool) : Stored s (chunkSeen s o v st r goff soff moved c flat) := by
  unfold chunkSeen
  dsimp only
  split
  · exact .refl s
  · exact stored_matchAccess s _

theorem eng_chunkSend (s : State) (k ctx core : Nat) (r : TRec) (goff : Word) (x i0 : Nat) (moved : List Nat) (c : Nat) (dst : List AByte) (data : List Byte) : (chunkSend s k ctx core r goff x i0 moved c dst data).1.eng = s.eng := by
  unfold chunkSend
  exact eng_foldl (fun _ _ => eng_sendFrame _ _ _ _ _ _ _ _ _) _ s

section
variable {s : State} {k : Nat} {o : EngOp} {v : Wave} {st : Bool} {r : TRec} {goff : Word} {soff : Nat} {moved wait : List Nat} {c : Nat}

/-- A part of a copy is marked as moved, or as waited for, over a state with the same queue. -/
theorem left_progress {t : State} (h : tblFind s.eng k = some o) (hp : o.pay = .tcopy st r goff soff moved wait) (ht : t.eng = s.eng) (m w : List Nat) : Left k (fun o' => o'.pay = .tcopy st r goff soff m w) (tcopyCheck (modEng t k (fun o => { o with pay := o.pay.progress m w })) k) := by
  refine left_tcopyCheck (left_modEng (o := o) (by rw [ht, h]) ?_)
  show o.pay.progress m w = _
  rw [hp]
  rfl

theorem left_moveChunk (h : tblFind s.eng k = some o) (hp : o.pay = .tcopy st r goff soff moved wait) (fb : List AByte) :
    Left k (fun o' => ∃ m' w', o'.pay = .tcopy st r goff soff m' w' ∧ (c ∈ m' ∨ c ∈ w')) (moveChunk s k o v st r goff soff moved wait c fb)
      ∧ ((∀ b ∈ fb, b.at_.isAway = false) → Left k (fun o' => o'.pay = .tcopy st r goff soff (c :: moved) wait) (moveChunk s k o v st r goff soff moved wait c fb)) := by
  have hmoved : ∀ w', ∀ o' : EngOp, o'.pay = .tcopy st r goff soff (c :: moved) w' → ∃ m' w', o'.pay = .tcopy st r goff soff m' w' ∧ (c ∈ m' ∨ c ∈ w') := fun w' o' h => ⟨_, _, h, .inl List.mem_cons_self⟩
  unfold moveChunk
  dsimp only
  split
  · next pa hpa =>
    refine ⟨?_, fun hall => ?_⟩
    · split
      · exact (left_progress h hp ((stored_chunkSeen _ _ _ _ _ _ _ _ _ _).eng.trans (eng_chunkSend _ _ _ _ _ _ _ _ _ _ _ _)) _ _).mono (hmoved _)
      · exact (left_progress h hp (eng_sendFrame _ _ _ _ _ _ _ _ _) _ _).mono fun o' h => ⟨_, _, h, .inr List.mem_cons_self⟩
    · obtain ⟨b, hb, hr⟩ := List.exists_of_findSome?_eq_some hpa
      have := hall b hb
      cases hat : b.at_ <;> simp [Place.remote, hat] at hr <;> simp [Place.isAway, Place.isPeer, Place.isHost, hat] at this
  · have hst := left_progress h hp ((((stored_chunkStore s r goff (c / 8) (chunkSpan (r.gaddr goff (c / 8)) r.esz (c % 8)).1 moved fb (((spadPlaces s v (r.saddr soff (c / 8) + (chunkSpan (r.gaddr goff (c / 8)) r.esz (c % 8)).1) (chunkSpan (r.gaddr goff (c / 8)) r.esz (c % 8)).2).getD []).map (fun p => engByte s (dieOf v.core) { at_ := p } 0))).trans (stored_chunkSeen _ o v st r goff soff moved c false)).trans (stored_chunkSeen _ o v st r goff soff moved c true)).eng) (c :: moved) wait
    have hld := left_progress h hp (((((stored_engFill s (dieOf v.core) fb).trans (stored_chunkLoad _ v r soff (c / 8) (chunkSpan (r.gaddr goff (c / 8)) r.esz (c % 8)).1 moved (fb.map (fun b => engByte s (dieOf v.core) b 0)))).trans (stored_chunkSeen _ o v st r goff soff moved c true)).trans (stored_chunkSeen _ o v st r goff soff moved c false)).eng) (c :: moved) wait
    split
    · exact ⟨hst.mono (hmoved _), fun _ => hst⟩
    · exact ⟨hld.mono (hmoved _), fun _ => hld⟩

theorem exec_tcopyChunk (h : tblFind s.eng k = some o) (hv : waveAt s o.wave = some v) (hp : o.pay = .tcopy st r goff soff moved wait) (hb : o.begun = true) (hg : o.gap = none) (hf : o.fault = none) (hs : stalled s k o = false) (hc : chunkOk st r goff c = true) (hm : c ∉ moved) (hw : c ∉ wait) :
    (r.clipped (c / 8) = true → ∃ t, t.eng = s.eng ∧ exec (.tcopyChunk k c) s = nextOf s (settle (tcopyCheck (modEng t k (fun o => { o with pay := o.pay.progress (c :: moved) wait })) k)))
      ∧ (r.clipped (c / 8) = false → chunkLost s v r soff (c / 8) (chunkSpan (r.gaddr goff (c / 8)) r.esz (c % 8)).1 (chunkSpan (r.gaddr goff (c / 8)) r.esz (c % 8)).2 = true → ∃ f, exec (.tcopyChunk k c) s = nextOf s (settle (engFail s k f)))
      ∧ (r.clipped (c / 8) = false → chunkLost s v r soff (c / 8) (chunkSpan (r.gaddr goff (c / 8)) r.esz (c % 8)).1 (chunkSpan (r.gaddr goff (c / 8)) r.esz (c % 8)).2 = false →
          (∀ f, chunkLook s (physCore s v.core) o st r goff c = .error f → ∃ low, exec (.tcopyChunk k c) s = nextOf s (settle (engFault s k o v.core 64 0 (if st then .store else .load) f low)))
            ∧ (∀ fb, chunkLook s (physCore s v.core) o st r goff c = .ok fb → engWaits s (dieOf v.core) st fb = false → ∃ t, Stored s t ∧ exec (.tcopyChunk k c) s = nextOf s (settle (moveChunk t k o v st r goff soff moved wait c fb)))) := by
  have hgo : (!o.begun || o.gap.isSome || o.fault.isSome || stalled s k o || !(chunkOk st r goff c) || decide (c ∈ moved) || decide (c ∈ wait)) = false := by simp [hb, hg, hf, hs, hc, hm, hw]
  have hx : exec (.tcopyChunk k c) s = execTcopyChunk k c s := rfl
  rw [hx]
  simp only [execTcopyChunk, h, hp, hv, hgo, Bool.false_eq_true, if_false]
  refine ⟨fun hcl => ?_, fun hcl hl => ?_, fun hcl hl => ⟨fun f hlook => ?_, fun fb hlook hwait => ?_⟩⟩
  · rw [if_pos hcl]
    exact ⟨_, ((stored_chunkLoad _ _ _ _ _ _ _ _).trans (stored_matchAccess _ _)).eng, rfl⟩
  · rw [if_neg (by rw [hcl]; exact Bool.false_ne_true), if_pos hl]
    exact ⟨_, rfl⟩
  · rw [if_neg (by rw [hcl]; exact Bool.false_ne_true), if_neg (by rw [hl]; exact Bool.false_ne_true), hlook]
    exact ⟨_, rfl⟩
  · rw [if_neg (by rw [hcl]; exact Bool.false_ne_true), if_neg (by rw [hl]; exact Bool.false_ne_true), hlook]
    dsimp only
    rw [if_neg (by rw [hwait]; exact Bool.false_ne_true)]
    exact ⟨_, stored_walkServed _ _ _ _ _, rfl⟩

end

/-! `vlds` (R270, R271, R303, R313). -/

theorem stored_vldsPut (s : State) (l : List (List AByte × List Place)) (moved : List Nat) (u : Nat) (data : List Byte) : Stored s (vldsPut s l moved u data) := by
  unfold vldsPut
  dsimp only
  split
  · exact (Stored.foldl (fun t y => stored_engPut t _ _) _ s).trans (Stored.foldl (fun t p => stored_modAlloc t p _) _ _)
  · exact Stored.foldl (fun t y => stored_engPut t _ _) _ s

theorem stored_engSeen (s : State) (ctx core init kind : Nat) (ps : List Place) : Stored s (engSeen s ctx core init kind ps) := stored_matchAccess s _

/-- A unit moved, asked for, or the `vlds` failed: its list of units done has grown. -/
theorem tblFind_vldsMove {s : State} {k : Nat} {o : EngOp} (h : tblFind s.eng k = some o) (v : Wave) (g : Nat) (l : List (List AByte × List Place)) (moved wait : List Nat) {u : Nat} (hu : u ∈ vldsUnits l) (hm : u ∉ moved) :
    ∃ o' moved' wait', tblFind (vldsMove s k o v g l moved wait u).eng k = some o' ∧ o'.pay = .vlds g l moved' wait' ∧ (∀ i ∈ moved, i ∈ vldsUnits l → i ∈ moved') ∧ ∃ i ∈ moved', i ∈ vldsUnits l ∧ i ∉ moved := by
  unfold vldsMove
  dsimp only
  split
  · split
    · exact ⟨_, _, _, tblFind_modEng h _, rfl, fun i _ hi => hi, u, hu, hu, hm⟩
    · exact ⟨_, _, _, tblFind_modEng (s := sendFrame s _ _ _ _ _ _ _ _) h _, rfl, fun i hi _ => List.mem_cons_of_mem _ hi, u, List.mem_cons_self, hu, hm⟩
  · refine ⟨_, _, _, tblFind_modEng (o := o) ?_ _, rfl, fun i hi _ => List.mem_cons_of_mem _ hi, u, List.mem_cons_self, hu, hm⟩
    exact (congrArg (tblFind · k) ((((stored_engFill s (dieOf v.core) (vldsUnit l u).1).trans (stored_vldsPut _ l moved u _)).trans (stored_engSeen _ v.ctx v.core 64 0 _)).trans (stored_engSeen _ v.ctx v.core 64 1 _)).eng).trans h

section
variable {s : State} {k g : Nat} {o : EngOp} {v : Wave} {l : List (List AByte × List Place)} {moved wait : List Nat} (h : tblFind s.eng k = some o) (hv : waveAt s o.wave = some v) (hp : o.pay = .vlds g l moved wait) (hb : o.begun = true ∨ mayBegin s o = true) (hs : stalled s k o = false)
include h hv hp hb hs

theorem exec_vldsMove (hrest : ∃ i ∈ vldsUnits l, i ∉ moved ∧ engWaits s (dieOf v.core) false (vldsUnit l i).1 = false) : ∃ u ∈ vldsUnits l, u ∉ moved ∧ exec (.vldsComplete k) s = nextOf s (settle (vldsMove s k o v g l moved wait u)) := by
  obtain ⟨i, hi, him, hiw⟩ := hrest
  have hmem : i ∈ (vldsUnits l).filter (fun u => !(decide (u ∈ moved)) && !(engWaits s (dieOf v.core) false (vldsUnit l u).1)) := List.mem_filter.2 ⟨hi, by simp [him, hiw]⟩
  obtain ⟨u, hu, hget⟩ := exists_getElem_mod (List.ne_nil_of_mem hmem) (free s 0)
  have hcond := (List.mem_filter.1 hu).2
  simp only [Bool.and_eq_true, Bool.not_eq_true', decide_eq_false_iff_not] at hcond
  have hgo : (!(o.begun || mayBegin s o) || stalled s k o) = false := by rcases hb with hb | hb <;> simp [hb, hs]
  refine ⟨u, (List.mem_filter.1 hu).1, hcond.1, ?_⟩
  show execVldsComplete k s = _
  simp only [execVldsComplete, h, hp, hv, hgo, hget, Bool.false_eq_true, if_false]

theorem exec_vldsArrive (hall : ∀ i ∈ vldsUnits l, i ∈ moved) (hw : wait = []) (ha : arriveReady s o = true) : exec (.vldsComplete k) s = nextOf s (settle (gateArrive (engDone s k none) v.cohort g o.fault.isSome)) := by
  have hrest : (vldsUnits l).filter (fun u => !(decide (u ∈ moved)) && !(engWaits s (dieOf v.core) false (vldsUnit l u).1)) = [] := List.filter_eq_nil_iff.2 fun u hu => by simp [hall u hu]
  have hgo : (!(o.begun || mayBegin s o) || stalled s k o) = false := by rcases hb with hb | hb <;> simp [hb, hs]
  have hdone : ((vldsUnits l).all (fun u => decide (u ∈ moved)) && wait.isEmpty && arriveReady s o) = true := by
    rw [ha, hw, Bool.and_true, List.isEmpty_nil, Bool.and_true]
    exact List.all_eq_true.2 fun u hu => decide_eq_true (hall u hu)
  show execVldsComplete k s = _
  simp only [execVldsComplete, h, hp, hv, hgo, hrest, hdone, Bool.false_eq_true, if_false, if_true]
  rfl

end

end Sys2Proof.Machine
end

section
/-! PROOFS. The steps of the copy engine, of `vlds`, of the matrix engine and of the channels (R270, R302 to R308, R313, R327 to R337, R381). -/

namespace Sys2Proof.Machine

theorem eng_gateArrive (s : State) (co g : Nat) (err : Bool) : (gateArrive s co g err).eng = s.eng := by
  have hb : ∀ t : State, (groupBoundary t co).eng = t.eng := fun t => by
    unfold groupBoundary
    split
    · rfl
    · dsimp only
      split
      · show State.eng (List.foldl _ (List.foldl _ _ _) _) = _
        rw [eng_foldl, eng_foldl]
        · intro t w
          split
          · rfl
          · split <;> rfl
        · exact fun _ _ => rfl
      · rfl
  unfold gateArrive
  dsimp only
  split
  · exact hb _
  · rfl

theorem cores_engDone (s : State) (k : Nat) (f : Option (Word × Word)) : (engDone s k f).cores = s.cores := by
  unfold engDone
  split
  · rfl
  · dsimp only
    split <;> rfl

/-! `kjoin` (R305, R308). -/

theorem tblErase_key {α : Type} {t : Tbl α} {k : Nat} {e : Nat × α} (h : e ∈ tblErase t k) : e.1 ≠ k := by
  induction t with
  | nil => exact absurd h List.not_mem_nil
  | cons d t ih =>
    rw [tblErase] at h
    split at h
    · exact ih h
    · next hk => exact (List.mem_cons.1 h).elim (fun h => by rw [h]; exact Ne.symm hk) ih

/-- The only producer of a token that was pending ends: the token is what the producer says, and no other token changes. -/
theorem waveAt_engDone {s : State} {k : Nat} {o : EngOp} {v : Wave} {tk : Nat} (h : tblFind s.eng k = some o) (hv : waveAt s o.wave = some v) (ho : o.out = some tk) (hp : v.tok tk = .pending none)
    (honly : ∀ e ∈ s.eng, e.1 ≠ k → ¬ (e.2.wave = o.wave ∧ e.2.out = some tk)) (f : Option (Word × Word)) :
    waveAt (engDone s k f) o.wave = some (v.setTok tk (match f with | none => .done | some x => .failed x.1 x.2)) := by
  have hmore : ∀ g : Nat × EngOp → Nat × EngOp, (∀ e, (g e).2.wave = e.2.wave ∧ (g e).2.out = e.2.out) → ((tblErase s.eng k).map g).any (fun e => decide (e.2.wave = o.wave) && decide (e.2.out = some tk)) = false := fun g hg => by
    rw [List.any_map, List.any_eq_false]
    intro e he
    have := honly e (mem_of_mem_tblErase he) (tblErase_key he)
    simpa [Function.comp_apply, hg e] using this
  simp only [engDone, h, ho]
  refine (waveAt_modWave_of (s := { s with eng := _ }) hv _).trans (congrArg some (congrArg _ ?_))
  rw [hp]
  refine (congrArg (fun b => Token.after (.pending none) b (f.map (fun f => (k, f.1, f.2)))) (hmore (fun e => (e.1, { e.2 with deps := e.2.deps.map (fun d : Dep => d.after k (f.map (fun f : Word × Word => (k, f.1, f.2)))) })) fun _ => ⟨rfl, rfl⟩)).trans ?_
  cases f <;> rfl

/-! What every clause of the matrix engine ends with. -/

theorem matrix_over {i : Instr} {s t : State} {k : Nat} (h : exec i s = nextOf s (settle (engDone t k none))) : ∃ u, exec i s = .next u ∧ tblFind u.eng k = none ∧ ∀ p, (coreAt u p).mx = (coreAt t p).mx :=
  ⟨_, h, (congrArg (tblFind · k) (settle_eng _)).trans (eng_engDone t k none), fun p => (coreAt_settle Core.mx (fun _ _ _ _ _ => rfl) (engDone t k none) p).trans (congrArg (fun c => (tblGet ({} : Core) c p).mx) (cores_engDone t k none))⟩

theorem piece_setPiece_self (m : Matrix) (p : Nat) (l : List Nat) : (m.setPiece p l).piece p = l := by
  unfold Matrix.setPiece Matrix.piece
  split
  · exact tblGet_put_self _ _ _ _
  · split
    · exact tblGet_put_self _ _ _ _
    · split <;> exact tblGet_put_self _ _ _ _

theorem take_piece_setPiece (s : State) (core work p : Nat) (l : List Nat) : ((coreAt (setPiece s core work p l) core).mx.piece p).take l.length = l := by
  have h : (coreAt (setPiece s core work p l) core).mx.piece p = l ++ (mxFound s core work (free s) p).drop l.length := by
    unfold setPiece
    rw [coreAt_modCore_self]
    exact piece_setPiece_self _ _ _
  rw [h, List.take_left]

theorem getD_piece_clearPiece (s : State) (core work p row : Nat) : ((coreAt (clearPiece s core work p) core).mx.piece p).getD row 0 = 0 := by
  have h : (coreAt (clearPiece s core work p) core).mx.piece p = [] := by
    unfold clearPiece
    rw [coreAt_modCore_self]
    exact piece_setPiece_self _ _ _
  rw [h]
  rfl

theorem stored_spansSeen (s : State) (o : EngOp) (v : Wave) (l : List (Nat × Nat)) : Stored s (spansSeen s o v l) := Stored.foldl (fun t _ => stored_matchAccess t _) l s

theorem stored_mstEffect (s : State) (o : EngOp) (v : Wave) (m : MxOp) (acc : List Nat) : Stored s (mstEffect s o v m acc) := by
  refine Stored.foldl (fun t sp => ?_) _ s
  split
  · exact .refl t
  · exact (Stored.foldl (fun z p => stored_spadStore z _ _) _ t).trans (stored_matchAccess _ _)

section
variable {s : State} {k : Nat} {o : EngOp} {v : Wave} {m : MxOp} (h : tblFind s.eng k = some o) (hv : waveAt s o.wave = some v) (hp : o.pay = .mx m)
include h hv hp

theorem exec_matrixLanded (hl : m.landed = true) : exec (.matrixComplete k) s = nextOf s (settle (engDone (match m.res with | some l => setPiece s (physCore s v.core) v.work m.target l | none => s) k none)) := by
  show execMatrixComplete k s = _
  simp only [execMatrixComplete, h, hp, hv]
  exact if_pos hl

theorem exec_matrixEffect (hl : m.landed = false) (hb : o.begun = true) (hg : o.gap = none) (hf : o.fault = none) (hs : mxStalled s k o m = false) (ht : mxTurn s k o m = true) (hw : loadWaits s o v m = false) :
    exec (.matrixComplete k) s = nextOf s (settle (mxEffect s k o v m)) := by
  show execMatrixComplete k s = _
  simp only [execMatrixComplete, h, hp, hv]
  rw [if_neg (by rw [hl]; exact Bool.false_ne_true), if_pos (by rw [hb, hg, hf, hs, ht, hw]; rfl)]

end

theorem mxDone_of_simt {m : MxOp} (hi : m.inp = none) (s : State) (k : Nat) : mxDone s k m = engDone s k none := if_neg (by rw [hi]; exact Bool.false_ne_true)

theorem mxTile_of_simt {m : MxOp} (hi : m.inp = none) (s : State) (core work k : Nat) (l : List Nat) : mxTile s core work k m l = engDone (setPiece s core work m.target l) k none := by
  unfold mxTile
  rw [if_neg (by rw [hi]; exact Bool.false_ne_true), mxDone_of_simt hi]

theorem target_clear {m : MxOp} (h : m.k = 2) : m.target = bits m.ctl 0 3 := by
  rw [MxOp.target, MxOp.writes, h]
  rfl

theorem target_mma {m : MxOp} (h : m.k = 1) : m.target = bits m.ctl 0 3 := by
  rw [MxOp.target, MxOp.writes, h]
  rfl

theorem target_mlat {m : MxOp} (h : m.k = 4) : m.target = mlatTarget m.ctl := by
  rw [MxOp.target, MxOp.writes, h]
  rfl

theorem mxEffect_load {m : MxOp} (h : m.k = 0 ∨ m.k = 5) (s : State) (k : Nat) (o : EngOp) (v : Wave) : mxEffect s k o v m = loadEffect s k o v m := by
  rcases h with h | h <;> rw [mxEffect, h] <;> rfl

theorem loadEffect_spad {m : MxOp} (hb : bitAt m.ctl 2 = false) (s : State) (k : Nat) (o : EngOp) (v : Wave) :
    loadEffect s k o v m = mxTile (spansSeen s o v ((loadAddrs m).1.map (fun a => (a, (loadAddrs m).2)))) (physCore s v.core) v.work k m (loadRows s v m (loadAddrs m).2 (loadAddrs m).1) :=
  if_neg (by rw [hb]; exact Bool.false_ne_true)

theorem length_loadRows (s : State) (v : Wave) (m : MxOp) (n : Nat) (as : List Nat) : (loadRows s v m n as).length = as.length := List.length_map _

theorem length_mlatResult (s : State) (v : Wave) (m : MxOp) (proj : List Nat) : (mlatResult s v m proj).length = (mlatSpans m).length := List.length_map _

theorem length_mmaResult (s : State) (v : Wave) (m : MxOp) (acc station stage : List Nat) : (mmaResult s v m acc station stage).length = 64 := by
  unfold mmaResult
  dsimp only
  rw [List.length_map, List.length_range]

/-- A matrix instruction of SIMT code whose turn it is and that waits for no byte (R327 to R337). -/
theorem matrix_effects {s : State} {k : Nat} {o : EngOp} {v : Wave} {m : MxOp} (h : tblFind s.eng k = some o) (hv : waveAt s o.wave = some v) (hp : o.pay = .mx m)
    (hl : m.landed = false) (hi : m.inp = none) (hb : o.begun = true) (hg : o.gap = none) (hf : o.fault = none) (hs : stalled s k o = false) (ht : mxTurn s k o m = true) :
    let core := physCore s v.core
    let i := mxInputs s core v.work m
    let found := mxFound s core v.work (free s)
    (m.k = 2 → ∃ t, exec (.matrixComplete k) s = .next t ∧ tblFind t.eng k = none ∧ ∀ row, ((coreAt t core).mx.piece (bits m.ctl 0 3)).getD row 0 = 0)
      ∧ (m.k = 1 → ∃ t, exec (.matrixComplete k) s = .next t ∧ tblFind t.eng k = none ∧ ((coreAt t core).mx.piece (bits m.ctl 0 3)).take 64 = mmaResult s v m (found (bits m.ctl 0 3)) i.station i.stage)
      ∧ (m.k = 4 → ∃ t, exec (.matrixComplete k) s = .next t ∧ tblFind t.eng k = none ∧ ((coreAt t core).mx.piece (mlatTarget m.ctl)).take (mlatSpans m).length = mlatResult s v m i.proj)
      ∧ (m.k = 3 → ∃ t, exec (.matrixComplete k) s = .next t ∧ tblFind t.eng k = none ∧ (coreAt t core).mx = (coreAt s core).mx)
      ∧ (m.k = 0 ∨ m.k = 5 → bitAt m.ctl 2 = false → m.wait = [] → ∃ t, exec (.matrixComplete k) s = .next t ∧ tblFind t.eng k = none ∧ ((coreAt t core).mx.piece m.target).take (loadAddrs m).1.length = loadRows s v m (loadAddrs m).2 (loadAddrs m).1) := by
  have hst : mxStalled s k o m = false := by
    rw [mxStalled, if_pos (by rw [hi]; rfl)]
    exact hs
  have hx : (m.k = 0 ∨ m.k = 5 → bitAt m.ctl 2 = false) → exec (.matrixComplete k) s = nextOf s (settle (mxEffect s k o v m)) := fun hctl => by
    refine exec_matrixEffect h hv hp hl hb hg hf hst ht ?_
    rw [loadWaits]
    by_cases hk : m.k = 0 ∨ m.k = 5
    · rw [hctl hk, Bool.and_false, Bool.false_and]
    · rw [decide_eq_false hk, Bool.false_and, Bool.false_and]
  dsimp only
  refine ⟨fun hk => ?_, fun hk => ?_, fun hk => ?_, fun hk => ?_, fun hk hctl _ => ?_⟩
  · have he : mxEffect s k o v m = engDone (clearPiece s (physCore s v.core) v.work m.target) k none := by
      rw [mxEffect, hk]
      exact mxDone_of_simt hi _ k
    obtain ⟨t, ht, hover, hmx⟩ := matrix_over (he ▸ hx (by omega))
    refine ⟨t, ht, hover, fun row => ?_⟩
    rw [hmx, ← target_clear hk]
    exact getD_piece_clearPiece _ _ _ _ _
  · have he : mxEffect s k o v m = engDone (setPiece (spansSeen s o v (mmaSpans m)) (physCore s v.core) v.work m.target (mmaResult s v m (mxFound s (physCore s v.core) v.work (free s) m.target) (mxInputs s (physCore s v.core) v.work m).station (mxInputs s (physCore s v.core) v.work m).stage)) k none := by
      rw [mxEffect, hk]
      exact mxDone_of_simt hi _ k
    obtain ⟨t, ht, hover, hmx⟩ := matrix_over (he ▸ hx (by omega))
    refine ⟨t, ht, hover, ?_⟩
    have := take_piece_setPiece (spansSeen s o v (mmaSpans m)) (physCore s v.core) v.work m.target (mmaResult s v m (mxFound s (physCore s v.core) v.work (free s) m.target) (mxInputs s (physCore s v.core) v.work m).station (mxInputs s (physCore s v.core) v.work m).stage)
    rwa [length_mmaResult, ← hmx, target_mma hk] at this
  · have he : mxEffect s k o v m = engDone (setPiece (spansSeen s o v (mlatSpans m)) (physCore s v.core) v.work m.target (mlatResult s v m (mxInputs s (physCore s v.core) v.work m).proj)) k none := by
      rw [mxEffect, hk]
      exact mxTile_of_simt hi _ _ _ _ _
    obtain ⟨t, ht, hover, hmx⟩ := matrix_over (he ▸ hx (by omega))
    refine ⟨t, ht, hover, ?_⟩
    have := take_piece_setPiece (spansSeen s o v (mlatSpans m)) (physCore s v.core) v.work m.target (mlatResult s v m (mxInputs s (physCore s v.core) v.work m).proj)
    rwa [length_mlatResult, ← hmx, target_mlat hk] at this
  · have he : mxEffect s k o v m = engDone (mstEffect s o v m (mxInputs s (physCore s v.core) v.work m).acc) k none := by
      rw [mxEffect, hk]
      exact mxDone_of_simt hi _ k
    obtain ⟨t, ht, hover, hmx⟩ := matrix_over (he ▸ hx (by omega))
    exact ⟨t, ht, hover, (hmx _).trans ((stored_mstEffect s o v m _).matrices _)⟩
  · have he := (mxEffect_load hk s k o v).trans ((loadEffect_spad hctl s k o v).trans (mxTile_of_simt hi _ _ _ _ _))
    obtain ⟨t, ht, hover, hmx⟩ := matrix_over (he ▸ hx fun _ => hctl)
    refine ⟨t, ht, hover, ?_⟩
    have := take_piece_setPiece (spansSeen s o v ((loadAddrs m).1.map (fun a => (a, (loadAddrs m).2)))) (physCore s v.core) v.work m.target (loadRows s v m (loadAddrs m).2 (loadAddrs m).1)
    rwa [length_loadRows, ← hmx] at this

theorem matrix_landed {s : State} {k : Nat} {o : EngOp} {v : Wave} {m : MxOp} (h : tblFind s.eng k = some o) (hv : waveAt s o.wave = some v) (hp : o.pay = .mx m) (hl : m.landed = true) :
    ∃ t, exec (.matrixComplete k) s = .next t ∧ tblFind t.eng k = none ∧ ∀ l, m.res = some l → ((coreAt t (physCore s v.core)).mx.piece m.target).take l.length = l := by
  obtain ⟨t, ht, hover, hmx⟩ := matrix_over (exec_matrixLanded h hv hp hl)
  refine ⟨t, ht, hover, fun l hres => ?_⟩
  rw [hmx, hres]
  exact take_piece_setPiece _ _ _ _ _

/-! Channels (R381). -/

theorem channelEntry_arrives {s : State} {core ch n : Nat} {x : ChanEntry} (h : (chanEntries s core ch).find? (fun e => decide (e.id = n)) = some x) (hval : x.val.isSome = true) (ha : x.arrived = false) :
    ∃ t, exec (.channelEntryArrive core ch n) s = .next t ∧ chanEntries t core ch = (chanEntries s core ch).map (fun e => if e.id = n then { e with arrived := true } else e) ∧ (∀ c', c' ≠ ch → chanEntries t core c' = chanEntries s core c') ∧ t.waves = s.waves := by
  refine ⟨finish s (modCore s core (fun c => { c with chans := tblMod c.chans ch (List.map (fun x => if x.id = n then { x with arrived := true } else x)) })), ?_, ?_, fun c' hc => ?_, rfl⟩
  · show execChannelEntryArrive core ch n s = _
    simp only [execChannelEntryArrive, h]
    exact if_pos (by rw [hval, ha]; rfl)
  · unfold chanEntries
    rw [coreAt_finish, coreAt_modCore_self]
    show tblGet [] (tblMod _ _ _) _ = _
    rw [tblGet, tblFind_mod_self, tblGet]
    cases tblFind (coreAt s core).chans ch <;> rfl
  · unfold chanEntries
    rw [coreAt_finish, coreAt_modCore_self]
    show tblGet [] (tblMod _ _ _) _ = _
    rw [tblGet, tblFind_mod_ne _ _ hc]
    rfl

/-! `kjoin` that begins (R306, R308). -/

theorem exec_engineBegin {s t : State} {k : Nat} {o : EngOp} (h : tblFind s.eng k = some o) (hb : o.begun = false) (hg : o.gap = none) (hm : mayBegin s o = true) (hd : o.depsDone = true) (ho : inOrder s k o = true) (hs : stalled s k o = false) (hdo : beginDo s k o = some t) :
    exec (.engineBegin k) s = nextOf s (settle t) := by
  show execEngineBegin k s = _
  simp only [execEngineBegin, h, hdo]
  exact if_neg (by rw [hb, hg, hm, hd, ho, hs]; exact Bool.false_ne_true)

theorem beginDo_kjoin {o : EngOp} (hp : o.pay = .kjoin) (s : State) (k : Nat) : beginDo s k o = some (engDone s k (o.badDep.map (fun f => (f.1, inherit f.2)))) := by
  unfold beginDo
  rw [hp]
  cases hb : o.badDep with
  | none => rfl
  | some f =>
    show some (beginFailed s k o f) = _
    rw [beginFailed, hp]
    rfl

theorem kjoin_begins {s : State} {k : Nat} {o : EngOp} {v : Wave} {tk : Nat} (h : tblFind s.eng k = some o) (hv : waveAt s o.wave = some v) (hp : o.pay = .kjoin) (hout : o.out = some tk) (htok : v.tok tk = .pending none) (hend : v.ended = false)
    (honly : ∀ e ∈ s.eng, e.1 ≠ k → ¬ (e.2.wave = o.wave ∧ e.2.out = some tk)) (hx : ∀ t', beginDo s k o = some t' → exec (.engineBegin k) s = nextOf s (settle t')) :
    ∃ t v', exec (.engineBegin k) s = .next t ∧ tblFind t.eng k = none ∧ waveAt t o.wave = some v'
      ∧ v'.tok tk = (match o.badDep with | none => .done | some f => .failed f.1 (f.2 ||| BitVec.ofNat 64 (2 ^ 32))) ∧ ∀ j, j ≠ tk → v'.tok j = v.tok j := by
  have hw := waveAt_engDone h hv hout htok honly (o.badDep.map (fun f => (f.1, inherit f.2)))
  obtain ⟨as, hset⟩ := waveAt_settle hw (.inl hend)
  refine ⟨_, _, hx _ (beginDo_kjoin hp s k), (congrArg (tblFind · k) (settle_eng _)).trans (eng_engDone s k _), hset, ?_, fun j hj => tok_setTok_ne v _ hj⟩
  refine (tok_setTok_self v tk _).trans ?_
  cases o.badDep <;> rfl

/-- A gap of an engine instruction: the host is told of it, and the instruction stands as it was but for the gap (R303, R454). -/
theorem tcopy_gap {s : State} {k : Nat} {o : EngOp} {i : Instr} {core : Nat} {kind : Kind} {f low : MemFault} (h : tblFind s.eng k = some o) (hf : f.isGap = true) (hx : exec i s = nextOf s (settle (engFault s k o core 64 0 kind f low))) :
    ∃ t o', exec i s = .next t ∧ tblFind t.eng k = some o' ∧ o'.gap = some (ctxAt s o.ctx).gapSeq ∧ o'.pay = o.pay ∧ HostMsg.gap (gapRecord o.ctx (ctxAt s o.ctx).gapSeq core 64 kind.code (BitVec.ofNat 64 f.va)) ∈ t.out := by
  rw [engFault, if_pos hf] at hx
  refine ⟨_, _, hx, (congrArg (tblFind · k) (settle_eng _)).trans (tblFind_engGap h core 64 kind f _), rfl, rfl, ?_⟩
  show _ ∈ (settle _).out
  rw [settle_out]
  exact List.mem_append_right _ List.mem_cons_self

theorem code_of_store (st : Bool) : (if st then Kind.store else Kind.load).code = if st then 1 else 0 := by cases st <;> rfl

/-- Settles O51, from what each step leaves of the engines' queue. -/
theorem engineSteps : Obligations.EngineSteps := by
  intro s k o v h hv
  dsimp only
  refine ⟨fun tk hr hp hout htok hend honly => ?_, fun st r goff soff moved wait c hp hb hg hf hs hc hm hw => ?_, fun g l moved wait hp hb hs => ⟨fun hrest => ?_, fun hall hw ha => ?_⟩, fun m hp hl hi hb hg hf hs ht => matrix_effects h hv hp hl hi hb hg hf hs ht, fun m hp hl => matrix_landed h hv hp hl, fun core ch n x hx hval ha => channelEntry_arrives hx hval ha⟩
  · obtain ⟨hb, hg, hm, hd, ho, hs⟩ := hr
    exact kjoin_begins h hv hp hout htok hend honly fun _ ht => exec_engineBegin h hb hg hm hd ho hs ht
  · obtain ⟨hclip, hlost, hlook⟩ := exec_tcopyChunk h hv hp hb hg hf hs hc hm hw
    have hreach : (spadPlaces s v (r.saddr soff (c / 8) + (chunkSpan (r.gaddr goff (c / 8)) r.esz (c % 8)).1) (chunkSpan (r.gaddr goff (c / 8)) r.esz (c % 8)).2).isSome = true → chunkLost s v r soff (c / 8) (chunkSpan (r.gaddr goff (c / 8)) r.esz (c % 8)).1 (chunkSpan (r.gaddr goff (c / 8)) r.esz (c % 8)).2 = false := fun hsp => by
      rw [chunkLost, ← Option.not_isSome, hsp]
      rfl
    refine ⟨fun hcl => ?_, fun fb hcl hsp hl hall hwait => ?_, fun f hcl hsp hl hgap hwait => ?_, fun f hcl hsp hl hgap => ?_⟩
    · obtain ⟨t, ht, hx⟩ := hclip hcl
      exact ⟨_, hx, (left_progress h hp ht _ _).settle⟩
    · obtain ⟨t, ht, hx⟩ := (hlook hcl (hreach hsp)).2 fb hl hwait
      exact ⟨_, hx, ((left_moveChunk ((congrArg (tblFind · k) ht.eng).trans h) hp fb).2 hall).settle⟩
    · obtain ⟨low, hx⟩ := (hlook hcl (hreach hsp)).1 f hl
      rw [engFault, if_neg (by rw [hgap]; exact Bool.false_ne_true)] at hx
      exact ⟨_, hx, (congrArg (tblFind · k) (settle_eng _)).trans (engFail_over h (by rw [hp, hwait]; rfl) _)⟩
    · obtain ⟨low, hx⟩ := (hlook hcl (hreach hsp)).1 f hl
      have hgapped := tcopy_gap h hgap hx
      rwa [code_of_store] at hgapped
  · obtain ⟨u, hu, hum, hx⟩ := exec_vldsMove h hv hp hb hs hrest
    obtain ⟨o', moved', wait', ho', hpay, hkept, hnew⟩ := tblFind_vldsMove h v g l moved wait hu hum
    exact ⟨_, o', moved', wait', hx, (congrArg (tblFind · k) (settle_eng _)).trans ho', hpay, hkept, hnew⟩
  · exact ⟨_, exec_vldsArrive h hv hp hb hs hall hw ha, (congrArg (tblFind · k) ((settle_eng _).trans (eng_gateArrive _ _ _ _))).trans (eng_engDone s k none)⟩

end Sys2Proof.Machine
end

section
/-! PROOFS. Tile forms that retire, and engine instructions that begin (R306, R308, R313, R335, R343 to R347, R377, R453). -/

namespace Sys2Proof.Machine

/-! Tile forms. -/

theorem Wave.putAll_retired (v : Wave) (l : List Wr) : (v.putAll l).retired = v.retired := by
  obtain ⟨_, _, _, _, _, _, h⟩ := Wave.putAll_eq l v
  rw [h]

theorem retired_completed (v : Wave) (x : Nat) (next : Word) (e : Eff) : (v.completed x next e).retired = v.retired + 1 := by
  unfold Wave.completed Wave.advance
  obtain ⟨wd, as, h⟩ := countIssue_eq (({ (v.putAll e.wr).queue x e.accs with flags := ((v.putAll e.wr).queue x e.accs).flags ||| e.flags, retired := ((v.putAll e.wr).queue x e.accs).retired + 1 } : Wave).modSub x (fun u => { u with pc := if e.go = .kept then u.pc else goPc e.go next, aged := 0 })) (e.last.getD x) e.wdReset v.wdlimit
  rw [h]
  exact congrArg (· + 1) (Wave.putAll_retired v e.wr)

/-- A form of 8 bytes retires over a state in which its wave has its sub-waves, its count and its watchdog limit. -/
theorem exec_retires {s s1 : State} {i : Instr} {w x : Nat} {v v1 : Wave} {u : Sub} {body : Env → State → Res} {e : Eff} (hx : ∀ s, exec i s = issue i body s) (hi : Issuing s i w x v u) (hlen : instrLen i = 8)
    (hb : body (issueEnv s w x v u i) s = .done s1 e) (hv1 : waveAt s1 w = some v1) (hl : v1.wdlimit = v.wdlimit) (hr : v1.retired = v.retired) (hu : v1.subs = v.subs) (hgo : e.go = .seq) (hs : syncOp i = false) :
    ∃ t v', exec i s = .next t ∧ waveAt t w = some v' ∧ v'.retired = v.retired + 1 ∧ (tblFind v'.subs x).map (·.pc) = some (u.pc + 8) := by
  refine ⟨_, _, (hx s).trans (issue_done hi hb fun t ht => ?_), waveAt_retire_over hv1 hl hs, ?_, ?_⟩
  · rw [hgo] at ht
    cases ht
  · rw [retired_completed, hr]
  · rw [subs_completed, tblFind_mod_self, hu, hi.sub, hlen, hgo]
    rfl

theorem waveAt_ite_modCore (b : Bool) (s : State) (p : Nat) (g : Core → Core) (w : Nat) : waveAt (if b = true then modCore s p g else s) w = waveAt s w := by cases b <;> rfl

theorem waveAt_regTile (s : State) (p ctx owner : Nat) (key : Word) (off len w : Nat) : waveAt (regTile s p ctx owner key off len).1 w = waveAt s w := by
  unfold regTile
  split
  · rfl
  · split <;> rfl

theorem bodyTreg_registers {f : EN} {e : Env} {s : State} (hok : tregOk e.v.core (e.rdS f.c).toNat = true) (ha : inArea s e.core e.v.ctx (bits (e.rdS f.c).toNat 0 19, 256 * bits (e.rdS f.c).toNat 32 16) = true) (hr : e.v.relPackage e.v.nextAcc e.now = true) :
    bodyTreg f e s = .done (regTile s e.core e.v.ctx (ownerOf e.v) (e.rdS f.b) (bits (e.rdS f.c).toNat 8 11) (bits (e.rdS f.c).toNat 32 16 - 1)).1
      { wr := e.wrS f.a (BitVec.ofNat 64 (regTile s e.core e.v.ctx (ownerOf e.v) (e.rdS f.b) (bits (e.rdS f.c).toNat 8 11) (bits (e.rdS f.c).toNat 32 16 - 1)).2) } := by
  unfold bodyTreg
  dsimp only
  rw [if_neg (by rw [hok]; exact Bool.false_ne_true), if_neg (by rw [ha]; exact Bool.false_ne_true)]
  exact if_pos hr

section
variable {f : EN} {s : State} {w x : Nat} {v : Wave} {u : Sub}

theorem treg_retires (hi : Issuing s (.treg f) w x v u) (hok : tregOk v.core ((issueEnv s w x v u (.treg f)).rdS f.c).toNat = true)
    (ha : inArea s (issueEnv s w x v u (.treg f)).core v.ctx (bits ((issueEnv s w x v u (.treg f)).rdS f.c).toNat 0 19, 256 * bits ((issueEnv s w x v u (.treg f)).rdS f.c).toNat 32 16) = true) (hr : v.relPackage v.nextAcc s.clock = true) :
    ∃ t v', exec (.treg f) s = .next t ∧ waveAt t w = some v' ∧ v'.retired = v.retired + 1 ∧ (tblFind v'.subs x).map (·.pc) = some (u.pc + 8) := by
  exact exec_retires (body := bodyTreg f) (fun _ => rfl) hi rfl (bodyTreg_registers hok ha hr) ((waveAt_regTile s _ _ _ _ _ _ w).trans hi.wave) rfl rfl rfl rfl rfl

theorem tdrop_retires (hi : Issuing s (.tdrop f) w x v u) (h : ((issueEnv s w x v u (.tdrop f)).rdS f.b).toNat ≤ 255) :
    ∃ t v', exec (.tdrop f) s = .next t ∧ waveAt t w = some v' ∧ v'.retired = v.retired + 1 ∧ (tblFind v'.subs x).map (·.pc) = some (u.pc + 8) := by
  obtain ⟨s1, e, hb, hw, hgo⟩ : ∃ s1 e, bodyTdrop f (issueEnv s w x v u (.tdrop f)) s = .done s1 e ∧ waveAt s1 w = waveAt s w ∧ e.go = .seq := by
    exact ⟨_, _, if_neg (by omega), waveAt_ite_modCore _ s _ _ w, rfl⟩
  exact exec_retires (body := bodyTdrop f) (fun _ => rfl) hi rfl hb (hw.trans hi.wave) rfl rfl rfl hgo rfl

theorem tfind_retires (hi : Issuing s (.tfind f) w x v u) :
    ∃ t v', exec (.tfind f) s = .next t ∧ waveAt t w = some v' ∧ v'.retired = v.retired + 1 ∧ (tblFind v'.subs x).map (·.pc) = some (u.pc + 8) :=
  exec_retires (body := bodyTfind f) (fun _ => rfl) hi rfl rfl hi.wave rfl rfl rfl rfl rfl

theorem tmove_retires (hi : Issuing s (.tmove f) w x v u) (h1 : bits ((issueEnv s w x v u (.tmove f)).rdS f.c).toNat 19 1 = 0) (h2 : bits ((issueEnv s w x v u (.tmove f)).rdS f.c).toNat 29 35 = 0) (h3 : bits ((issueEnv s w x v u (.tmove f)).rdS f.c).toNat 0 8 = 0)
    (h4 : ((issueEnv s w x v u (.tmove f)).rdS f.b).toNat ≤ 255) (h5 : bits ((issueEnv s w x v u (.tmove f)).rdS f.c).toNat 20 9 ≤ 319) (h6 : bits ((issueEnv s w x v u (.tmove f)).rdS f.c).toNat 20 9 ≠ v.core) (hq : sectQueue s (issueEnv s w x v u (.tmove f)).core v.sect < 64) :
    ∃ t v', exec (.tmove f) s = .next t ∧ waveAt t w = some v' ∧ v'.retired = v.retired + 1 ∧ (tblFind v'.subs x).map (·.pc) = some (u.pc + 8) := by
  have hb : bodyTmove f (issueEnv s w x v u (.tmove f)) s = .done (modWave (engIssue (issueEnv s w x v u (.tmove f)) s f (.move { entry := ((issueEnv s w x v u (.tmove f)).rdS f.b).toNat, dst := bits ((issueEnv s w x v u (.tmove f)).rdS f.c).toNat 20 9, off := bits ((issueEnv s w x v u (.tmove f)).rdS f.c).toNat 0 19, res := (issueEnv s w x v u (.tmove f)).dstS f.a })) w
      (fun y => { y with owed := y.owed ++ (issueEnv s w x v u (.tmove f)).dstS f.a })) {} := by
    unfold bodyTmove
    dsimp only
    rw [if_neg (by exact fun h => h.elim (fun h => h h1) fun h => h.elim (fun h => h h2) fun h => h.elim (fun h => h h3) fun h => h.elim (by omega) fun h => h.elim (by omega) h6), if_neg nofun, engForm_done hq]
    rfl
  have hw := waveAt_modWave_of (waveAt_engIssue f (.move { entry := ((issueEnv s w x v u (.tmove f)).rdS f.b).toNat, dst := bits ((issueEnv s w x v u (.tmove f)).rdS f.c).toNat 20 9, off := bits ((issueEnv s w x v u (.tmove f)).rdS f.c).toNat 0 19, res := (issueEnv s w x v u (.tmove f)).dstS f.a }) (e := issueEnv s w x v u (.tmove f)) hi.wave) (fun y => { y with owed := y.owed ++ (issueEnv s w x v u (.tmove f)).dstS f.a })
  exact exec_retires (body := bodyTmove f) (fun _ => rfl) hi rfl hb hw (by rw [engWave_eq]) (by rw [engWave_eq]) (by rw [engWave_eq]) rfl rfl

end

/-! Engine instructions that begin (R306). -/

theorem tblFind_moveEnd (s : State) (k : Nat) (o : EngOp) (m : MoveSt) (r : Nat) (f : Option (Word × Word)) : tblFind (moveEnd s k o m r f).eng k = none := eng_engDone _ k f

theorem left_moveBegin {s : State} {k : Nat} {o : EngOp} (h : tblFind s.eng k = some o) (m : MoveSt) {P : EngOp → Prop} (hP : ∀ pay, P { o with begun := true, pay := pay }) : Left k P (moveBegin s k o m) := by
  unfold moveBegin
  split
  · split
    · exact .inl (tblFind_moveEnd _ _ _ _ _ _)
    · split
      · exact .inl (tblFind_moveEnd _ _ _ _ _ _)
      · exact left_modEng (s := modKey s o.core m.entry (fun x => { x with st := .lent, peer := m.dst })) h (hP _)
  · exact .inl (tblFind_moveEnd _ _ _ _ _ _)

/-! Collectives (R453, R454). -/

section
variable {s : State} {k : Nat} {o : EngOp} {P : EngOp → Prop}

theorem left_collFault (h : tblFind s.eng k = some o) (hP : ∀ g f, P { o with gap := g, fault := some f }) (l : List (MemFault × Kind)) (hl : l ≠ []) : Left k P (collFault s k o l) := by
  unfold collFault
  split
  · exact absurd rfl hl
  · dsimp only
    split
    · exact .inr ⟨_, tblFind_engGap h _ _ _ _ _, hP _ _⟩
    · exact left_engFail h _ fun g => hP none g

theorem left_collOver (h : Left k P s) : Left k P (collOver s k) := by
  unfold collOver
  split
  · split
    · split
      · split
        · exact left_engEnd h
        · exact left_engDone _ _ _ _
      · split
        · exact left_engEnd h
        · exact h
    · exact h
  · exact h

theorem eng_putRun (s : State) (k : Nat) (o : EngOp) (n : Nat) (bs : List AByte) (data : List Byte) : (putRun s k o n bs data).1.eng = s.eng := by
  unfold putRun
  exact (eng_foldl (fun _ _ => eng_sendFrame _ _ _ _ _ _ _ _ _) _ _).trans (Stored.foldl (fun t x => stored_engPut t _ _) _ s).eng

theorem eng_collStored (s : State) (k : Nat) (o : EngOp) (n m : Nat) (bs cs : List AByte) (data rest : List Byte) (q : Seen) : (matchAccess (putRun (putRun s k o n bs data).1 k o m cs rest).1 q).eng = s.eng :=
  (stored_matchAccess (putRun (putRun s k o n bs data).1 k o m cs rest).1 q).eng.trans ((eng_putRun (putRun s k o n bs data).1 k o m cs rest).trans (eng_putRun s k o n bs data))

/-- A collective that ends has stored its result, or has met a fault of its places. -/
theorem left_collEnd (h : tblFind s.eng k = some o) (hf : ∀ g f, P { o with gap := g, fault := some f }) (hp : ∀ d : CollDesc, d.closing = true → P { o with pay := .coll d }) (d : CollDesc) (st : Nat) : Left k P (collEnd s k o d st) := by
  unfold collEnd
  extract_lets core m ds hs s1 s2 s3 net s4
  split
  · have h3 : s3.eng = s.eng := eng_collStored s k o 0 d.len ds hs (collResult s o.ctx d) (leBytes 8 st ++ leBytes 8 (collMissing s o.ctx d)) _
    clear_value s3
    exact left_collOver (left_modEng (s := { s3 with net := _ }) (h3 ▸ h) (hp _ rfl))
  · next l hl => exact left_collFault h hf _ hl

theorem tblFind_collGive (h : tblFind s.eng k = some o) (d : CollDesc) : tblFind (collGive s k o d).eng k = some { o with pay := .coll { d with given := true, got := [] } } := by
  unfold collGive
  refine tblFind_modEng (o := o) ?_ _
  refine (congrArg (tblFind · k) (eng_foldl (fun t r => eng_foldl (fun _ _ => eng_sendFrame _ _ _ _ _ _ _ _ _) _ t) _ s)).trans h

/-- A collective that may go on and is due gives its contribution, ends, or meets a fault. -/
theorem left_collCheck_due {d : CollDesc} (h : tblFind s.eng k = some o) (hp : o.pay = .coll d) (hgo : (collGoes s k o d && collDue s o d) = true)
    (hf : ∀ pay g f, P { o with pay := pay, gap := g, fault := some f }) (hc : ∀ d : CollDesc, d.given = true ∨ d.closing = true → P { o with pay := .coll d }) : Left k P (collCheck s k) := by
  have hfault : ∀ g f, P { o with gap := g, fault := some f } := hf o.pay
  simp only [collCheck, h, hp, tblFind_collGive h]
  rw [if_pos hgo]
  split
  · exact left_collEnd h hfault (fun d hd => hc d (.inr hd)) d _
  · split
    · exact left_collEnd (tblFind_collGive h d) (hf _) (fun d hd => hc d (.inr hd)) _ _
    · exact .inr ⟨_, tblFind_collGive h d, hc _ (.inl rfl)⟩

theorem left_collCheck (h : tblFind s.eng k = some o) (hP : P o) (hf : ∀ pay g f, P { o with pay := pay, gap := g, fault := some f }) (hc : ∀ d : CollDesc, P { o with pay := .coll d }) : Left k P (collCheck s k) := by
  cases hp : o.pay with
  | coll d =>
    by_cases hgo : (collGoes s k o d && collDue s o d) = true
    · exact left_collCheck_due h hp hgo hf fun d _ => hc d
    · simp only [collCheck, h, hp]
      rw [if_neg hgo]
      exact .inr ⟨o, h, hP⟩
  | _ =>
    simp only [collCheck, h, hp]
    exact .inr ⟨o, h, hP⟩

theorem left_collBegin (h : tblFind s.eng k = some o) (d : CollDesc) : Left k (fun o' => o'.begun = true ∨ o'.fault.isSome = true) (collBegin s k o d) := by
  unfold collBegin
  dsimp only
  split
  · refine left_collCheck (o := { o with begun := true, pay := .coll _ }) (tblFind_modEng (o := o) ?_ _) (.inl rfl) (fun _ _ _ => .inl rfl) fun _ => .inl rfl
    exact (congrArg (tblFind · k) ((stored_matchAccess _ _).eng.trans ((eng_foldl (fun _ _ => eng_sendFrame _ _ _ _ _ _ _ _ _) _ _).trans (stored_engFill s _ _).eng))).trans h
  · next l hl => exact left_collFault h (fun _ _ => .inr rfl) _ hl

end

end Sys2Proof.Machine
end

section
/-! PROOFS. Engine instructions that begin or go on under conditions on the state alone (R306, R313, R327 to R337). -/

namespace Sys2Proof.Machine

/-- A matrix instruction that has gone on: it has failed, its tile is computed, or it has asked a peer for its bytes. -/
def MxMoved (o : EngOp) : Prop := o.fault.isSome = true ∨ ∃ m, o.pay = .mx m ∧ (m.landed = true ∨ m.asked = true)

section
variable {s : State} {k : Nat} {o : EngOp} (h : tblFind s.eng k = some o)
include h

theorem left_mxDone (m : MxOp) : Left k MxMoved (mxDone s k m) := by
  unfold mxDone
  split
  · exact left_modEng h (.inr ⟨_, rfl, .inl rfl⟩)
  · exact left_engDone _ _ _ _

theorem left_mxTile (core work : Nat) (m : MxOp) (l : List Nat) : Left k MxMoved (mxTile s core work k m l) := by
  unfold mxTile
  split
  · exact left_modEng h (.inr ⟨_, rfl, .inl rfl⟩)
  · exact left_mxDone (s := setPiece s core work m.target l) h m

theorem left_loadFailed (core work : Nat) (m : MxOp) (f : Word × Word) : Left k MxMoved (loadFailed s k core work m f) :=
  left_engFail (s := setPiece s core work m.target _) h f fun _ => .inl rfl

theorem left_loadAsk (v : Wave) (m : MxOp) (runs : List (Nat × Nat × Nat)) : Left k MxMoved (loadAsk s k o v m runs) := by
  unfold loadAsk
  exact left_modEng ((congrArg (tblFind · k) (eng_foldl (fun _ _ => eng_sendFrame _ _ _ _ _ _ _ _ _) _ s)).trans h) (.inr ⟨_, rfl, .inr rfl⟩)

theorem left_loadEffect (v : Wave) (m : MxOp) : Left k MxMoved (loadEffect s k o v m) := by
  have hread : ∀ (l : List (List AByte)) (as : List Nat), (l.foldl (fun t bs => engSeen (engFill t (dieOf v.core) bs) o.ctx v.core 65 0 (bs.map (·.at_))) (as.foldl (fun t a => walkServed t (physCore s v.core) o.ctx a 0) s)).eng = s.eng := fun l as =>
    ((Stored.foldl (fun t a => stored_walkServed t _ _ a 0) as s).trans (Stored.foldl (fun t bs => (stored_engFill t _ bs).trans (stored_engSeen _ _ _ _ _ _)) l _)).eng
  unfold loadEffect
  dsimp only
  split
  · split
    · split
      · exact .inr ⟨_, tblFind_engGap h _ _ _ _ _, .inl rfl⟩
      · exact left_loadFailed h _ _ m _
    · split
      · exact left_loadAsk h v m _
      · exact left_mxTile ((congrArg (tblFind · k) (hread _ _)).trans h) _ _ m _
  · exact left_mxTile ((congrArg (tblFind · k) (stored_spansSeen s o v _).eng).trans h) _ _ m _

theorem left_mxEffect (v : Wave) (m : MxOp) : Left k MxMoved (mxEffect s k o v m) := by
  unfold mxEffect
  dsimp only
  split
  · exact left_mxDone (s := setPiece (spansSeen s o v (mmaSpans m)) _ _ _ _) ((congrArg (tblFind · k) (stored_spansSeen s o v _).eng).trans h) m
  · exact left_mxDone (s := clearPiece s _ _ _) h m
  · exact left_mxDone ((congrArg (tblFind · k) (stored_mstEffect s o v m _).eng).trans h) m
  · exact left_mxTile ((congrArg (tblFind · k) (stored_spansSeen s o v _).eng).trans h) _ _ m _
  · exact left_loadEffect h v m

end

/-! Beginning (R306). -/

section
variable {s : State} {k : Nat} {o : EngOp} {v : Wave}

/-- Begun, or failed. -/
def BegunOrFailed (o : EngOp) : Prop := o.begun = true ∨ o.fault.isSome = true

theorem tblFind_beginFailed (s : State) (k : Nat) (o : EngOp) (f : Word × Word) : tblFind (beginFailed s k o f).eng k = none := eng_engDone _ k _

/-- What keeps an instruction whose tokens are settled and whose turn it is from beginning. -/
def ownReady (s : State) (k : Nat) (o : EngOp) (v : Wave) : Prop :=
  match o.pay with
  | .garr _ | .arr _ _ => arriveReady s o = true
  | .mx m => o.badDep = none → mxMayBegin s k o m = true
  | .reg _ _ _ _ => v.relPackage o.mark o.issue = true
  | .post bs _ => postReady s v o.mark o.issue = true ∧ winOpen s (.eng k) bs = false
  | .coll d => engWaits s (dieOf (logicalOf s o.core)) false (bytesOf (collMaps s o d).1) = false
  | .vlds _ _ _ _ => o.badDep.isSome = true
  | _ => True

theorem eng_mxNote (s : State) (core : Nat) (m : MxOp) : (mxNote s core m).eng = s.eng := by
  unfold mxNote
  split <;> rfl

theorem beginDo_garr {g : Nat} (hp : o.pay = .garr g) (hv : waveAt s o.wave = some v) (ha : arriveReady s o = true) : beginDo s k o = some (gateArrive (engDone s k none) v.cohort g o.badDep.isSome) := by
  simp only [beginDo, hp, beginGarr, hv]
  exact if_pos ha

theorem beginDo_arr {g p : Nat} (hp : o.pay = .arr g p) (ha : arriveReady s o = true) : beginDo s k o = some (engDone s k none) := by
  simp only [beginDo, hp]
  exact if_pos ha

theorem beginDo_bad {f : Word × Word} (hb : o.badDep = some f) (hg : ∀ g, o.pay ≠ .garr g) (ha : ∀ g p, o.pay ≠ .arr g p) : beginDo s k o = some (beginFailed s k o f) := by
  unfold beginDo
  split
  · next hp => exact absurd hp (hg _)
  · next hp => exact absurd hp (ha _ _)
  · next h _ _ => rw [hb] at h; cases h; rfl
  all_goals next h => rw [hb] at h; cases h

theorem beginDo_reg {key : Word} {off len : Nat} {res : List Dst} (hp : o.pay = .reg key off len res) (hb : o.badDep = none) (hv : waveAt s o.wave = some v) (hr : v.relPackage o.mark o.issue = true) : ∃ t, beginDo s k o = some (engDone t k none) := by
  simp only [beginDo, hp, hb, hv]
  exact ⟨_, if_pos hr⟩

theorem beginDo_post {bs : List AByte} {res : List Dst} (hp : o.pay = .post bs res) (hb : o.badDep = none) (hv : waveAt s o.wave = some v) (hr : postReady s v o.mark o.issue = true) (hw : winOpen s (.eng k) bs = false) : ∃ t, beginDo s k o = some (engDone t k none) := by
  simp only [beginDo, hp, hb, hv]
  rw [if_pos hr, if_neg (by rw [hw]; exact Bool.false_ne_true)]
  exact ⟨_, rfl⟩

theorem beginDo_left (h : tblFind s.eng k = some o) (hv : waveAt s o.wave = some v) (hown : ownReady s k o v) : ∃ t, beginDo s k o = some t ∧ Left k BegunOrFailed t := by
  have hover : ∀ (t : State) (f : Option (Word × Word)), Left k BegunOrFailed (engDone t k f) := fun t f => left_engDone t k f _
  have hbegun : ∀ t : State, t.eng = s.eng → Left k BegunOrFailed (markBegun t k) := fun t ht => left_modEng ((congrArg (tblFind · k) ht).trans h) (.inl rfl)
  have hbad : ∀ f, o.badDep = some f → (∀ g, o.pay ≠ .garr g) → (∀ g p, o.pay ≠ .arr g p) → ∃ t, beginDo s k o = some t ∧ Left k BegunOrFailed t := fun f hb hg ha => ⟨_, beginDo_bad hb hg ha, .inl (tblFind_beginFailed s k o f)⟩
  unfold ownReady at hown
  cases hp : o.pay with
  | garr g =>
    rw [hp] at hown
    exact ⟨_, beginDo_garr hp hv hown, (hover s none).of_eng (eng_gateArrive _ _ _ _)⟩
  | arr g p =>
    rw [hp] at hown
    exact ⟨_, beginDo_arr hp hown, hover s none⟩
  | kjoin => exact ⟨_, beginDo_kjoin hp s k, hover s _⟩
  | tcopy st r goff soff moved wait =>
    cases hb : o.badDep with
    | some f => exact hbad f hb (by simp [hp]) (by simp [hp])
    | none => exact ⟨_, by simp only [beginDo, hp, hb], left_tcopyCheck (hbegun s rfl)⟩
  | vlds g l moved wait =>
    rw [hp] at hown
    obtain ⟨f, hb⟩ := Option.isSome_iff_exists.1 hown
    exact hbad f hb (by simp [hp]) (by simp [hp])
  | move m =>
    cases hb : o.badDep with
    | some f => exact hbad f hb (by simp [hp]) (by simp [hp])
    | none => exact ⟨_, by simp only [beginDo, hp, hb], left_moveBegin h m fun _ => .inl rfl⟩
  | mx m =>
    rw [hp] at hown
    cases hb : o.badDep with
    | some f => exact hbad f hb (by simp [hp]) (by simp [hp])
    | none =>
      refine ⟨_, ?_, hbegun _ (eng_mxNote s o.core m)⟩
      simp only [beginDo, hp, hb]
      exact if_pos (hown hb)
  | coll d =>
    rw [hp] at hown
    cases hb : o.badDep with
    | some f => exact hbad f hb (by simp [hp]) (by simp [hp])
    | none =>
      refine ⟨_, ?_, left_collBegin h d⟩
      simp only [beginDo, hp, hb]
      exact if_neg (by rw [hown]; exact Bool.false_ne_true)
  | reg key off len res =>
    rw [hp] at hown
    cases hb : o.badDep with
    | some f => exact hbad f hb (by simp [hp]) (by simp [hp])
    | none =>
      obtain ⟨t, ht⟩ := beginDo_reg (k := k) hp hb hv hown
      exact ⟨_, ht, hover t none⟩
  | post bs res =>
    rw [hp] at hown
    cases hb : o.badDep with
    | some f => exact hbad f hb (by simp [hp]) (by simp [hp])
    | none =>
      obtain ⟨t, ht⟩ := beginDo_post hp hb hv hown.1 hown.2
      exact ⟨_, ht, hover t none⟩

end

/-! The clauses of O52. -/

section
variable {s : State} {k : Nat} {o : EngOp} {v : Wave} (h : tblFind s.eng k = some o) (hv : waveAt s o.wave = some v)
include h hv

theorem tcopyChunk_left {st : Bool} {r : TRec} {goff : Word} {soff : Nat} {moved wait : List Nat} {c : Nat} (hp : o.pay = .tcopy st r goff soff moved wait) (hb : o.begun = true) (hg : o.gap = none) (hf : o.fault = none) (hs : stalled s k o = false) (hc : chunkOk st r goff c = true) (hm : c ∉ moved) (hw : c ∉ wait)
    (hopen : r.clipped (c / 8) = true ∨ ∀ fb, chunkLook s (physCore s v.core) o st r goff c = .ok fb → engWaits s (dieOf v.core) st fb = false) :
    ∃ t, exec (.tcopyChunk k c) s = .next t ∧ Left k (fun o' => ∃ m' w', o'.pay = .tcopy st r goff soff m' w' ∧ (c ∈ m' ∨ c ∈ w' ∨ o'.fault.isSome = true)) t := by
  obtain ⟨hclip, hlost, hlook⟩ := exec_tcopyChunk h hv hp hb hg hf hs hc hm hw
  cases hcl : r.clipped (c / 8) with
  | true =>
    obtain ⟨t, ht, hx⟩ := hclip hcl
    exact ⟨_, hx, ((left_progress h hp ht _ _).mono fun o' ho' => ⟨_, _, ho', .inl List.mem_cons_self⟩).settle⟩
  | false =>
    cases hl : chunkLost s v r soff (c / 8) (chunkSpan (r.gaddr goff (c / 8)) r.esz (c % 8)).1 (chunkSpan (r.gaddr goff (c / 8)) r.esz (c % 8)).2 with
    | true =>
      obtain ⟨f, hx⟩ := hlost hcl hl
      exact ⟨_, hx, (left_engFail h f fun _ => ⟨_, _, hp, .inr (.inr rfl)⟩).settle⟩
    | false =>
      cases hlk : chunkLook s (physCore s v.core) o st r goff c with
      | error f =>
        obtain ⟨low, hx⟩ := (hlook hcl hl).1 f hlk
        refine ⟨_, hx, Left.settle ?_⟩
        unfold engFault
        split
        · exact .inr ⟨_, tblFind_engGap h _ _ _ _ _, _, _, hp, .inr (.inr rfl)⟩
        · exact left_engFail h _ fun _ => ⟨_, _, hp, .inr (.inr rfl)⟩
      | ok fb =>
        obtain ⟨t, ht, hx⟩ := (hlook hcl hl).2 fb hlk (hopen.elim (fun hc => absurd hc (by rw [hcl]; exact Bool.false_ne_true)) fun ho => ho fb hlk)
        refine ⟨_, hx, ((left_moveChunk ((congrArg (tblFind · k) ht.eng).trans h) hp fb).1.mono ?_).settle⟩
        rintro o' ⟨m', w', hp', hin⟩
        exact ⟨m', w', hp', hin.imp id .inl⟩

theorem vldsComplete_left {g : Nat} {l : List (List AByte × List Place)} {moved wait : List Nat} (hp : o.pay = .vlds g l moved wait) (hb : o.begun = true ∨ mayBegin s o = true) (hs : stalled s k o = false)
    (hgo : (∃ i ∈ vldsUnits l, i ∉ moved ∧ engWaits s (dieOf v.core) false (vldsUnit l i).1 = false) ∨ ((∀ i ∈ vldsUnits l, i ∈ moved) ∧ wait = [] ∧ arriveReady s o = true)) :
    ∃ t, exec (.vldsComplete k) s = .next t ∧ Left k (fun o' => ∃ m' w', o'.pay = .vlds g l m' w' ∧ ∃ i ∈ m', i ∉ moved) t := by
  rcases hgo with hrest | ⟨hall, hw, ha⟩
  · obtain ⟨u, hu, hum, hx⟩ := exec_vldsMove h hv hp hb hs hrest
    obtain ⟨o', moved', wait', ho', hpay, -, i, hi, -, hnew⟩ := tblFind_vldsMove h v g l moved wait hu hum
    exact ⟨_, hx, Left.settle (.inr ⟨o', ho', _, _, hpay, i, hi, hnew⟩)⟩
  · exact ⟨_, exec_vldsArrive h hv hp hb hs hall hw ha, ((left_engDone s k none _).of_eng (eng_gateArrive _ _ _ _)).settle⟩

theorem matrixComplete_left {m : MxOp} (hp : o.pay = .mx m) (hgo : m.landed = true ∨ (o.begun = true ∧ o.gap = none ∧ o.fault = none ∧ mxStalled s k o m = false ∧ mxTurn s k o m = true ∧ loadWaits s o v m = false)) :
    ∃ t, exec (.matrixComplete k) s = .next t ∧ Left k MxMoved t := by
  cases hl : m.landed with
  | true => exact ⟨_, exec_matrixLanded h hv hp hl, (left_engDone _ _ _ _).settle⟩
  | false =>
    obtain ⟨hb, hg, hf, hs, ht, hw⟩ := hgo.resolve_left (by rw [hl]; exact Bool.false_ne_true)
    exact ⟨_, exec_matrixEffect h hv hp hl hb hg hf hs ht hw, (left_mxEffect h v m).settle⟩

end

/-- Settles O52: a tile form leaves its wave to its completion, and an engine step leaves its instruction over, further on or failed. -/
theorem engineStepsAndTileFormsComplete : Obligations.EngineStepsAndTileFormsComplete := by
  refine ⟨fun f s w x v u => ⟨fun hi hok ha hr => treg_retires hi hok ha hr, fun hi hb => tdrop_retires hi hb, fun hi => tfind_retires hi, fun hi h1 h2 h3 h4 h5 h6 hq => tmove_retires hi h1 h2 h3 h4 h5 h6 hq⟩, fun s k o v h hv => ⟨fun hb hg hm hd ho hs hown => ?_, fun st r goff soff moved wait c hp hb hg hf hs hc hm hw hopen => tcopyChunk_left h hv hp hb hg hf hs hc hm hw hopen, fun g l moved wait hp hb hs hgo => vldsComplete_left h hv hp hb hs hgo, fun m hp hgo => matrixComplete_left h hv hp hgo⟩,
    fun s core ch n y hy hval ha => ?_, fun s ctx core harea => ?_⟩
  · obtain ⟨t, ht, hleft⟩ := beginDo_left h hv (v := v) hown
    exact ⟨_, exec_engineBegin h hb hg hm hd ho hs ht, hleft.settle⟩
  · obtain ⟨t, hx, hch, -, -⟩ := channelEntry_arrives hy hval ha
    refine ⟨t, hx, fun e he hid => ?_⟩
    rw [hch] at he
    obtain ⟨e0, -, rfl⟩ := List.mem_map.1 he
    split at hid
    · next hn => rw [if_pos hn]
    · next hn => exact absurd hid hn
  · obtain ⟨t, hx, hgone, -⟩ := tileAreaWithdraw_leaves harea
    exact ⟨t, hx, hgone⟩

end Sys2Proof.Machine
end

section
/-! PROOFS. What the device's own work leaves of its links: bring-up, the tables of contexts, and the numbers of frames (R216, R447, R449, R481). -/

namespace Sys2Proof.Machine

/-- `t` comes of `s` by work inside the device: bring-up and the contexts' tables stand, no frame has been received, frames sent have new numbers and are for no access, and the host is told no less. -/
structure Outer (s t : State) : Prop where
  boot : t.boot = s.boot
  tables : ∀ c, (ctxAt t c).t = (ctxAt s c).t
  rxSeq : t.net.rxSeq = s.net.rxSeq
  txSeq : ∀ d, tblGet 0 s.net.txSeq d ≤ tblGet 0 t.net.txSeq d
  tx : ∀ y ∈ t.net.tx, y ∈ s.net.tx ∨ (tblGet 0 s.net.txSeq y.fr.dst ≤ y.fr.seq ∧ ∀ w k p n, y.tx ≠ .acc w k p n)
  out : ∃ ms, t.out = s.out ++ ms

/-- The case in which nothing is told and nothing is sent. -/
theorem outer_quiet {s t : State} (hb : t.boot = s.boot) (hc : t.ctxs = s.ctxs) (hr : t.net.rxSeq = s.net.rxSeq) (hs : t.net.txSeq = s.net.txSeq) (ht : t.net.tx = s.net.tx) (ho : t.out = s.out) : Outer s t :=
  ⟨hb, fun c => congrArg Ctx.t (ctxAt_congr hc c), hr, fun d => Nat.le_of_eq (by rw [hs]), fun y hy => .inl (ht ▸ hy), [], by rw [ho, List.append_nil]⟩

theorem Outer.refl (s : State) : Outer s s := outer_quiet rfl rfl rfl rfl rfl rfl

theorem Outer.trans {a b c : State} (h : Outer a b) (g : Outer b c) : Outer a c := by
  obtain ⟨ms, hm⟩ := h.out
  obtain ⟨ns, hn⟩ := g.out
  refine ⟨g.boot.trans h.boot, fun x => (g.tables x).trans (h.tables x), g.rxSeq.trans h.rxSeq, fun d => Nat.le_trans (h.txSeq d) (g.txSeq d), fun y hy => ?_, ms ++ ns, by rw [hn, hm, List.append_assoc]⟩
  rcases g.tx y hy with hb | ⟨hseq, hacc⟩
  · exact h.tx y hb
  · exact .inr ⟨Nat.le_trans (h.txSeq _) hseq, hacc⟩

theorem Outer.foldl {α : Type} {f : State → α → State} (h : ∀ s x, Outer s (f s x)) (xs : List α) (s : State) : Outer s (xs.foldl f s) := by
  induction xs generalizing s with
  | nil => exact .refl s
  | cons x xs ih => exact (h s x).trans (ih _)

/-! The changes of one component. -/

section
variable (s : State)

theorem outer_modWave (w : Nat) (f : Wave → Wave) : Outer s (modWave s w f) := outer_quiet rfl rfl rfl rfl rfl rfl
theorem outer_modCore (p : Nat) (f : Core → Core) : Outer s (modCore s p f) := outer_quiet rfl rfl rfl rfl rfl rfl
theorem outer_modEng (k : Nat) (f : EngOp → EngOp) : Outer s (modEng s k f) := outer_quiet rfl rfl rfl rfl rfl rfl
theorem outer_modAcc (w k : Nat) (f : Acc → Acc) : Outer s (modAcc s w k f) := outer_quiet rfl rfl rfl rfl rfl rfl
theorem outer_modAnswer (stamp p : Nat) (f : CAns → CAns) : Outer s (modAnswer s stamp p f) := outer_quiet rfl rfl rfl rfl rfl rfl

theorem outer_tellHost (m : HostMsg) : Outer s (tellHost s m) := ⟨rfl, fun _ => rfl, rfl, fun _ => Nat.le_refl _, fun _ hy => .inl hy, [m], rfl⟩

theorem outer_modCtx (c : Nat) {f : Ctx → Ctx} (hf : ∀ x, (f x).t = x.t) : Outer s (modCtx s c f) := by
  refine ⟨rfl, fun d => ?_, rfl, fun _ => Nat.le_refl _, fun _ hy => .inl hy, [], (List.append_nil _).symm⟩
  show ((tblFind (tblMod s.ctxs c f) d).getD {}).t = ((tblFind s.ctxs d).getD {}).t
  by_cases h : d = c
  · rw [h, tblFind_mod_self]
    cases tblFind s.ctxs c with
    | none => rfl
    | some x => exact hf x
  · rw [tblFind_mod_ne _ _ h]

theorem outer_sendFrame (ty ctx dst addr core : Nat) (bytes : List Byte) (op : FrameOp) {tx : TxFor} (htx : ∀ w k p n, tx ≠ .acc w k p n) : Outer s (sendFrame s ty ctx dst addr core bytes op tx) := by
  refine ⟨rfl, fun _ => rfl, rfl, fun d => ?_, fun y hy => ?_, _, rfl⟩
  · show _ ≤ tblGet 0 (tblSet 0 s.net.txSeq dst (tblGet 0 s.net.txSeq dst + 1)) d
    by_cases h : d = dst
    · rw [h, tblGet_set_self]
      exact Nat.le_succ _
    · exact Nat.le_of_eq (tblGet_set_ne _ _ _ h).symm
  · rcases List.mem_append.1 hy with h | h
    · exact .inl h
    · rw [List.mem_singleton.1 h]
      exact .inr ⟨Nat.le_refl _, htx⟩

theorem Stored.outer {s t : State} (h : Stored s t) : Outer s t :=
  ⟨h.boot, fun c => congrArg Ctx.t (ctxAt_congr h.ctxs c), congrArg Net.rxSeq h.net, fun d => Nat.le_of_eq (by rw [h.net]), fun y hy => .inl (h.net ▸ hy), h.out⟩

theorem outer_dropEntries (l : List (Nat × Nat × Nat)) : Outer s (dropEntries s l) := by
  unfold dropEntries
  exact Outer.foldl (fun t d => outer_modCore t _ _) l s

theorem outer_freeDsts (l : List Dst) : Outer s (freeDsts s l) := outer_dropEntries s _

theorem outer_landAll (w : Nat) (l : List Wr) : Outer s (landAll s w l) := by
  induction l generalizing s with
  | nil => exact .refl s
  | cons x l ih =>
    refine Outer.trans ?_ (ih _)
    unfold landWr
    split
    · exact outer_modCore s _ _
    · exact (stored_modAlloc s _ _).outer
    · exact outer_modWave s _ _

end

/-! The engines' queue (R303 to R306). -/

section
variable (s : State) (k : Nat)

theorem outer_engDone (f : Option (Word × Word)) : Outer s (engDone s k f) := by
  unfold engDone
  split
  · exact .refl s
  · dsimp only
    split <;> exact outer_quiet rfl rfl rfl rfl rfl rfl

theorem outer_engEnd : Outer s (engEnd s k) := by
  unfold engEnd
  split
  · split
    · exact outer_engDone s k _
    · exact .refl s
  · exact .refl s

theorem outer_engFail (f : Word × Word) : Outer s (engFail s k f) := (outer_modEng s k _).trans (outer_engEnd _ k)

theorem outer_engGap (o : EngOp) (core init : Nat) (kind : Kind) (f : MemFault) (low : Word × Word) : Outer s (engGap s k o core init kind f low) := by
  unfold engGap
  dsimp only
  exact ((outer_modCtx s o.ctx (f := fun c => { c with gapSeq := c.gapSeq + 1, gaps := _ }) (fun _ => rfl)).trans (outer_modEng _ k _)).trans (outer_tellHost _ _)

theorem outer_tcopyCheck : Outer s (tcopyCheck s k) := by
  unfold tcopyCheck
  split
  · split
    · split
      · exact outer_engEnd s k
      · split
        · exact outer_engDone s k none
        · exact .refl s
    · exact .refl s
  · exact .refl s

theorem outer_setPiece (core work p : Nat) (l : List Nat) : Outer s (setPiece s core work p l) := by
  unfold setPiece
  exact outer_modCore s _ _

theorem outer_loadFailed (core work : Nat) (m : MxOp) (f : Word × Word) : Outer s (loadFailed s k core work m f) := (outer_setPiece s core work m.target _).trans (outer_engFail _ k f)

theorem outer_opFailed (o : EngOp) (f : Word × Word) : Outer s (opFailed s k o f) := by
  unfold opFailed
  split
  · exact outer_loadFailed s k _ _ _ f
  · exact outer_engFail s k f

/-! Collectives (R453, R454). -/

theorem outer_collFault (o : EngOp) (l : List (MemFault × Kind)) : Outer s (collFault s k o l) := by
  unfold collFault
  split
  · exact .refl s
  · dsimp only
    split
    · exact outer_engGap s k o _ _ _ _ _
    · exact outer_engFail s k _

theorem outer_collOver : Outer s (collOver s k) := by
  unfold collOver
  split
  · split
    · split
      · split
        · exact outer_engEnd s k
        · exact outer_engDone s k none
      · split
        · exact outer_engEnd s k
        · exact .refl s
    · exact .refl s
  · exact .refl s

theorem outer_putRun (o : EngOp) (n : Nat) (bs : List AByte) (data : List Byte) : Outer s (putRun s k o n bs data).1 := by
  unfold putRun
  exact (Stored.foldl (fun t x => stored_engPut t _ _) _ s).outer.trans (Outer.foldl (fun t r => outer_sendFrame t _ _ _ _ _ _ _ (by nofun)) _ _)

theorem outer_collStored (o : EngOp) (n m : Nat) (bs cs : List AByte) (data rest : List Byte) (q : Seen) : Outer s (matchAccess (putRun (putRun s k o n bs data).1 k o m cs rest).1 q) :=
  ((outer_putRun s k o n bs data).trans (outer_putRun _ k o m cs rest)).trans (stored_matchAccess _ q).outer

theorem outer_collEnd (o : EngOp) (d : CollDesc) (st : Nat) : Outer s (collEnd s k o d st) := by
  unfold collEnd
  extract_lets core m ds hs s1 s2 s3 net s4
  split
  · have h3 : Outer s s3 := outer_collStored s k o 0 d.len ds hs (collResult s o.ctx d) (leBytes 8 st ++ leBytes 8 (collMissing s o.ctx d)) _
    clear_value s3
    have h4 : Outer s3 s4 := outer_quiet rfl rfl rfl rfl rfl rfl
    exact (h3.trans h4).trans (outer_collOver s4 k)
  · exact outer_collFault s k o _

theorem outer_collGive (o : EngOp) (d : CollDesc) : Outer s (collGive s k o d) := by
  unfold collGive
  extract_lets own data s1 net
  have h1 : Outer s s1 := Outer.foldl (fun t r => Outer.foldl (fun u b => outer_sendFrame u _ _ _ _ _ _ _ (by nofun)) _ t) _ s
  clear_value s1
  exact h1.trans (outer_quiet rfl rfl rfl rfl rfl rfl)

theorem outer_collCheck : Outer s (collCheck s k) := by
  unfold collCheck
  split
  · split
    · split
      · split
        · exact outer_collEnd s k _ _ _
        · next o _ _ d _ _ _ =>
          refine (outer_collGive s k o d).trans ?_
          dsimp only
          split
          · split
            · split
              · exact outer_collEnd _ k _ _ _
              · exact .refl _
            · exact .refl _
          · exact .refl _
      · exact .refl s
    · exact .refl s
  · exact .refl s

theorem outer_collAnswer (o : EngOp) (d : CollDesc) (c : Nat) (bytes : List Byte) (bad : Option (Word × Word)) : Outer s (collAnswer s k o d c bytes bad) := by
  unfold collAnswer
  dsimp only
  split
  · exact (outer_modEng s k _).trans (outer_engFail _ k _)
  · split
    · exact (outer_modEng s k _).trans (outer_collOver _ k)
    · exact (outer_modEng s k _).trans (outer_collCheck _ k)

end

end Sys2Proof.Machine
end

section
/-! PROOFS. What traps, gaps, tile areas and the answers of peers leave of the device's links (R216, R224, R339, R402, R403, R447). -/

namespace Sys2Proof.Machine

/-! Traps and gaps (R224, R391 to R394). -/

section
variable (s : State)

theorem outer_contextFault (w : Nat) (c : Cause) : Outer s (contextFault s w c) := by
  unfold contextFault
  split
  · exact .refl s
  · next v _ =>
    split
    · exact outer_modWave s w _
    · refine (outer_modCtx s v.ctx (f := fun x => { x with faulted := some (v.frame, causeCode c) }) fun _ => rfl).trans ?_
      exact ⟨rfl, fun _ => rfl, rfl, fun _ => Nat.le_refl _, fun _ hy => .inl hy, [_], rfl⟩

theorem outer_enterTrap (w x : Nat) (t : Trap) : Outer s (enterTrap s w x t) := by
  unfold enterTrap
  split
  · exact .refl s
  · split
    · exact outer_modWave s w _
    · split
      · exact outer_contextFault s w _
      · exact outer_modWave s w _

theorem outer_raiseTrap (w x : Nat) (t : Trap) : Outer s (raiseTrap s w x t) := by
  unfold raiseTrap
  split
  · exact .refl s
  · split
    · exact outer_modWave s w _
    · exact outer_enterTrap s w x t
    · exact .refl s

theorem outer_releaseEntries (l : List Acc) : Outer s (releaseEntries s l) := outer_freeDsts s _

theorem outer_accFault (w : Nat) (a : Acc) (t : Trap) : Outer s (accFault s w a t) := (outer_releaseEntries s [a]).trans (outer_modWave _ w _)

theorem outer_accRecheck (w : Nat) (v : Wave) (a : Acc) : Outer s (accRecheck s w v a) := by
  unfold accRecheck
  split
  · split
    · exact outer_accFault s w a _
    · exact outer_modAcc s w _ _
  · split
    · extract_lets c s1
      have h1 : Outer s s1 := outer_modCtx s v.ctx fun _ => rfl
      exact (h1.trans (outer_modAcc s1 w _ _)).trans (outer_tellHost _ _)
    · exact outer_accFault s w a _

theorem outer_gapResume (g : Nat) (x : Gap) : Outer s (gapResume s g x) := by
  unfold gapResume
  split
  · split
    · exact (outer_modEng s _ _).trans (outer_collCheck _ _)
    · exact .refl s
  · split
    · exact .refl s
    · split
      · exact outer_modWave s _ _
      · split
        · exact outer_accRecheck s _ _ _
        · exact .refl s
  · exact .refl s

theorem outer_dropGap (ctx g : Nat) : Outer s (dropGap s ctx g) := outer_modCtx s ctx fun _ => rfl

theorem outer_gapFilled (ctx g : Nat) (x : Gap) : Outer s (gapFilled s ctx g x) := (outer_dropGap s ctx g).trans (outer_gapResume _ g x)

theorem outer_gapUnmapped (ctx g : Nat) (x : Gap) : Outer s (gapUnmapped s ctx g x) := by
  unfold gapUnmapped
  extract_lets s1
  have h1 : Outer s s1 := outer_dropGap s ctx g
  split
  · split
    · split
      · exact h1.trans (outer_opFailed s1 _ _ _)
      · exact h1
    · exact h1
  · split
    · exact h1
    · split
      · extract_lets s2
        have h2 : Outer s s2 := h1.trans (outer_modWave s1 _ _)
        split
        · exact outer_modCtx s ctx fun _ => rfl
        · split
          · exact h2.trans (outer_raiseTrap s2 _ _ _)
          · exact h2
      · split
        · exact h1.trans (outer_accFault s1 _ _ _)
        · exact h1
  · exact h1

theorem outer_regap (ctx : Nat) : Outer s (regap s ctx) := by
  unfold regap
  exact (outer_modCtx s ctx (f := fun c => { c with gapSeq := 0, gaps := [] }) fun _ => rfl).trans (Outer.foldl (fun t (g : Nat × Gap) => outer_gapResume t g.1 g.2) _ _)

/-! Tile areas (R339, R340, R348). -/

theorem outer_cardMoved (c n r : Nat) : Outer s (cardMoved s c n r) := by
  unfold cardMoved
  split
  · exact .refl s
  · next k _ =>
    split
    · exact outer_quiet rfl rfl rfl rfl rfl rfl
    · have h := (outer_quiet (s := s) (t := { s with cards := tblErase s.cards c }) rfl rfl rfl rfl rfl rfl).trans (outer_tellHost _ (.card k.stream 3 0))
      refine h.trans ?_
      unfold cardFreed
      split
      · unfold placeFreed
        split
        · split
          · exact outer_quiet rfl rfl rfl rfl rfl rfl
          · exact .refl _
        · exact .refl _
      · exact .refl _

theorem outer_landOwed (w : Nat) (res : List Dst) (x : Nat) : Outer s (landOwed s w res x) := (outer_landAll s w _).trans (outer_modWave _ w _)

theorem outer_moveEnd (k : Nat) (o : EngOp) (m : MoveSt) (r : Nat) (f : Option (Word × Word)) : Outer s (moveEnd s k o m r f) := by
  unfold moveEnd
  dsimp only
  refine Outer.trans ?_ (outer_engDone _ k f)
  split
  · exact outer_cardMoved s _ _ _
  · exact outer_landOwed s _ _ _

theorem outer_moveAbort (o : EngOp) (m : MoveSt) (e : KeyEntry) : Outer s (moveAbort s o m e) := by
  unfold moveAbort
  extract_lets p ds s0 s1
  have h0 : Outer s s0 := by
    show Outer s (match e.mig with | some (co, k) => pieceBack s co k e.off e.len | none => s)
    split
    · exact outer_quiet rfl rfl rfl rfl rfl rfl
    · exact .refl s
  exact ((h0.trans (outer_modCore s0 _ _)).trans (outer_modCore s1 _ _)).trans (outer_modCore _ _ _)

theorem outer_moveLost (p ctx k : Nat) : Outer s (moveLost p ctx s k) := by
  unfold moveLost
  split
  · split
    · split
      · exact .refl s
      · dsimp only
        split
        · split
          · exact (outer_moveAbort s _ _ _).trans (outer_moveEnd _ k _ _ _ _)
          · exact .refl s
        · split
          · refine Outer.trans ?_ (outer_moveEnd _ k _ _ _ _)
            split
            · exact (Outer.foldl (fun t x => outer_modAnswer t _ _ _) _ s).trans (outer_modCore _ _ _)
            · exact .refl s
          · exact .refl s
    · exact .refl s
  · exact .refl s

theorem outer_withdrawArea (p ctx : Nat) : Outer s (withdrawArea s p ctx) := by
  unfold withdrawArea
  exact ((Outer.foldl (fun t k => outer_moveLost t p ctx k) _ s).trans (Outer.foldl (fun t m => outer_modAnswer t _ _ _) _ _)).trans (outer_modCore _ _ _)

theorem outer_grantAreas (ctx : Nat) (tb : CtxTable) : Outer s (grantAreas s ctx tb) := by
  refine Outer.foldl (fun u core => ?_) _ s
  dsimp only
  split
  · exact .refl u
  · exact outer_withdrawArea u _ _
  · exact outer_modCore u _ _
  · split
    · exact .refl u
    · exact (outer_withdrawArea u _ _).trans (outer_modCore _ _ _)

/-! Answers of peers and of the host (R402, R403, R478). -/

theorem outer_waitvGot (w x : Nat) (q : WaitV) (awake : Bool) (val : Nat) : Outer s (waitvGot s w x q awake val) := by
  unfold waitvGot
  split
  · exact ((outer_dropEntries s _).trans (outer_landAll _ w _)).trans (outer_modWave _ w _)
  · exact outer_modWave s w _

theorem outer_acqDrop (core : Nat) (a : Acc) : Outer s (acqDrop s core a) := by
  unfold acqDrop
  split
  · exact outer_modCore s _ _
  · exact .refl s

theorem outer_peerEffect (w : Nat) (v : Wave) (a : Acc) : Outer s (peerEffect s w v a) := by
  have h1 : Outer s (acqDrop (dropAcc s w a.id) (physCore s v.core) a) := (outer_modWave s w _).trans (outer_acqDrop _ _ a)
  unfold peerEffect
  dsimp only
  split
  · exact (h1.trans (outer_landAll _ w _)).trans (stored_matchAccess _ _).outer
  · exact h1.trans (outer_landAll _ w _)
  · split
    · exact h1.trans (outer_waitvGot _ w _ _ _ _)
    · exact h1
  · exact h1

theorem outer_slotAnswer (w : Nat) (a : Acc) (next : Word) (pops : List (Nat × Nat × Nat)) (link : List Dst) (x : Nat) : Outer s (slotAnswer s w a next pops link x) := by
  unfold slotAnswer
  split
  · exact (outer_modWave s w _).trans (outer_enterTrap _ w _ _)
  · split
    · exact outer_modWave s w _
    · exact ((outer_dropEntries s pops).trans (outer_landAll _ w _)).trans (outer_modWave _ w _)

theorem outer_peerFinish (w : Nat) (v : Wave) (grp : Nat) : Outer s (peerFinish s w v grp) := by
  unfold peerFinish
  extract_lets l sub gone t s1 a
  clear_value l
  have hgone : Outer s gone := outer_modWave s w _
  split
  · split
    · split
      · have h1 : Outer s s1 := (hgone.trans (outer_modWave gone w _)).trans (outer_releaseEntries _ l)
        split
        · exact h1.trans (outer_enterTrap s1 w sub t)
        · exact h1
      · exact (hgone.trans (outer_releaseEntries gone l)).trans (outer_modWave _ w _)
    · have hl : ∀ t0 : State, Outer t0 (l.foldl (fun t a => peerEffect t w v a) t0) := fun t0 => Outer.foldl (fun t a => outer_peerEffect t w v a) l t0
      split
      · split
        · exact (hgone.trans (outer_acqDrop gone _ _)).trans (outer_slotAnswer _ w _ _ _ _ _)
        · exact ((outer_dropEntries s _).trans (outer_modWave _ w _)).trans (hl _)
      · exact hl s
  · exact .refl s

theorem outer_hostEffect (w : Nat) (v : Wave) (k : Nat) : Outer s (hostEffect s w v k) := by
  unfold hostEffect
  split
  · exact outer_peerEffect s w v _
  · exact .refl s

theorem outer_recordFailed (w k : Nat) : Outer s (recordFailed s w k) := by
  unfold recordFailed
  split
  · exact .refl s
  · split
    · exact .refl s
    · exact (outer_modWave s w _).trans (outer_modWave _ w _)

theorem outer_accAnswer (w k at_ : Nat) (bytes : List Byte) (bad : Option (Bool × Nat × Nat)) : Outer s (accAnswer s w k at_ bytes bad) := by
  unfold accAnswer
  split
  · exact .refl s
  · split
    · exact .refl s
    · extract_lets s1
      have h1 : Outer s s1 := outer_modAcc s w k _
      split
      · split
        · exact h1.trans (outer_recordFailed s1 w k)
        · split
          · exact h1.trans (outer_modAcc s1 w k _)
          · exact h1
      · split
        · split
          · split
            · exact h1.trans (outer_hostEffect s1 w _ k)
            · exact h1
          · exact h1.trans (outer_peerFinish s1 w _ _)
        · exact h1

theorem outer_mxAnswered (k c : Nat) : Outer s (mxAnswered s k c) := outer_modEng s k _

theorem outer_chunkAnswer (k c : Nat) (bytes : List Byte) (bad : Option Nat) : Outer s (chunkAnswer s k c bytes bad) := by
  unfold chunkAnswer
  split
  · exact .refl s
  · split
    · split
      · exact .refl s
      · split
        · exact outer_modEng s k _
        · exact ((stored_vldsPut s _ _ c bytes).trans (stored_engSeen _ _ _ _ _ _)).outer.trans (outer_modEng _ k _)
    · split
      · exact (outer_mxAnswered s k c).trans (outer_loadFailed _ k _ _ _ _)
      · split
        · exact (outer_mxAnswered s k c).trans (outer_engEnd _ k)
        · exact outer_modEng s k _
    · exact outer_collAnswer s k _ _ c bytes _
    · dsimp only
      split
      · exact (outer_modEng s k _).trans (outer_engFail _ k _)
      · split
        · exact (outer_modEng s k _).trans (outer_tcopyCheck _ k)
        · exact (((stored_chunkLoad s _ _ _ _ _ _ _).trans (stored_chunkSeen _ _ _ _ _ _ _ _ c false)).outer.trans (outer_modEng _ k _)).trans (outer_tcopyCheck _ k)
    · exact .refl s

theorem outer_winAnswer (who : WinFor) (pa : Nat) (bytes : List Byte) (bad : Option Nat) : Outer s (winAnswer s who pa bytes bad) := by
  unfold winAnswer
  extract_lets n any net put
  have hput : ∀ l f, Outer s (put l f) := fun _ _ => outer_quiet rfl rfl rfl rfl rfl rfl
  split
  · exact (outer_quiet (s := s) (t := winDrop s _) rfl rfl rfl rfl rfl rfl).trans (outer_modWave _ _ _)
  · exact hput _ _
  · exact hput _ _

end

end Sys2Proof.Machine
end

section
/-! PROOFS. What a frame that is performed leaves (R351, R358, R402, R403, R447 to R453, R478). -/

namespace Sys2Proof.Machine

section
variable (s : State) (fr : Frame)

theorem outer_answerFrame (ty status : Nat) (bytes : List Byte) : Outer s (answerFrame s fr ty status bytes) := by
  refine ⟨rfl, fun _ => rfl, rfl, fun d => ?_, fun y hy => .inl hy, _, rfl⟩
  show _ ≤ tblGet 0 (tblSet 0 s.net.txSeq fr.src (tblGet 0 s.net.txSeq fr.src + 1)) d
  by_cases h : d = fr.src
  · rw [h, tblGet_set_self]
    exact Nat.le_succ _
  · exact Nat.le_of_eq (tblGet_set_ne _ _ _ h).symm

/-- Frames that no longer await an answer are not kept. -/
theorem outer_kept {s t : State} (hb : t.boot = s.boot) (hc : t.ctxs = s.ctxs) (hr : t.net.rxSeq = s.net.rxSeq) (hs : t.net.txSeq = s.net.txSeq) (ht : ∀ y ∈ t.net.tx, y ∈ s.net.tx) (ho : t.out = s.out) : Outer s t :=
  ⟨hb, fun c => congrArg Ctx.t (ctxAt_congr hc c), hr, fun d => Nat.le_of_eq (by rw [hs]), fun y hy => .inl (ht y hy), [], by rw [ho, List.append_nil]⟩

theorem outer_peerEvent (k : Kind) (fault : Nat) : Outer s (peerEvent s fr k fault) := by
  unfold peerEvent
  extract_lets n b s1
  have h1 : Outer s s1 := outer_quiet rfl rfl rfl rfl rfl rfl
  split
  · exact h1
  · exact h1.trans (stored_packagePutAll _ _ _ _).outer

theorem outer_refuseFrame (k : Kind) (fault : Nat) : Outer s (refuseFrame s fr k fault) := (outer_peerEvent s fr k fault).trans (outer_answerFrame _ fr 4 fault [])

theorem outer_inLoad (op : FrameOp) : Outer s (inLoad s fr op) := by
  unfold inLoad
  split
  · exact outer_refuseFrame s fr _ _
  · exact (stored_matchAccess s _).outer.trans (outer_answerFrame _ fr _ _ _)

theorem outer_inStore : Outer s (inStore s fr) := by
  unfold inStore
  split
  · exact outer_refuseFrame s fr _ _
  · exact ((stored_packagePutAll _ _ _ _).trans (stored_matchAccess _ _)).outer.trans (outer_answerFrame _ fr _ _ _)

theorem outer_inAtomic (op : FrameOp) : Outer s (inAtomic s fr op) := by
  unfold inAtomic
  split
  · exact outer_refuseFrame s fr _ _
  · extract_lets n old s1 s2
    have h1 : Outer s s1 := outer_quiet rfl rfl rfl rfl rfl rfl
    have h2 : Outer s1 s2 := by
      show Outer s1 (match atomicNew _ _ _ _ _ with | some y => packagePutAll s1 _ _ _ | none => s1)
      split
      · exact (stored_packagePutAll _ _ _ _).outer
      · exact .refl s1
    exact ((h1.trans h2).trans (stored_matchAccess s2 _).outer).trans (outer_answerFrame _ fr _ _ _)

theorem outer_txDrop (t : TxFrame) : Outer s (txDrop s t) := outer_kept rfl rfl rfl rfl (fun _ hy => (List.mem_filter.1 hy).1) rfl

/-- A response takes the frame it answers off those kept, and what follows is the device's own work. -/
theorem outer_inResponse_of {t : TxFrame} (h : txFor s fr [1, 2, 3] = some t) : Outer (txDrop s t) (inResponse s fr) := by
  unfold inResponse
  rw [h]
  dsimp only
  split
  · exact outer_accAnswer _ _ _ _ _ _
  · exact outer_chunkAnswer _ _ _ _ _
  · exact outer_winAnswer _ _ _ _ _
  · split
    · exact .refl _
    · exact outer_tellHost _ _
  all_goals exact .refl _

theorem outer_inResponse : Outer s (inResponse s fr) := by
  cases h : txFor s fr [1, 2, 3] with
  | some t => exact (outer_txDrop s t).trans (outer_inResponse_of s fr h)
  | none =>
    rw [inResponse, h]
    exact .refl s

theorem outer_inAck_of {t : TxFrame} (h : txFor s fr [2, 7, 8, 17, 18] = some t) : Outer (txDrop s t) (inAck s fr) := by
  unfold inAck
  rw [h]
  dsimp only
  split
  · exact outer_accAnswer _ _ _ _ _ _
  · exact outer_chunkAnswer _ _ _ _ _
  all_goals exact .refl _

theorem outer_inAck : Outer s (inAck s fr) := by
  cases h : txFor s fr [2, 7, 8, 17, 18] with
  | some t => exact (outer_txDrop s t).trans (outer_inAck_of s fr h)
  | none =>
    rw [inAck, h]
    exact .refl s

theorem outer_stampCensus (k : Nat) (c : Census) : Outer s (stampCensus s k c) := by
  unfold stampCensus
  extract_lets st peers so c1 src s1
  have h1 : Outer s s1 := outer_quiet rfl rfl rfl rfl rfl rfl
  exact h1.trans (Outer.foldl (fun t r => outer_sendFrame t _ _ _ _ _ _ _ (by nofun)) _ _)

theorem outer_inSolicit : Outer s (inSolicit s fr) := by
  unfold inSolicit
  dsimp only
  split
  · exact outer_answerFrame s fr _ _ _
  · refine Outer.trans ?_ (outer_stampCensus _ _ _)
    exact outer_quiet rfl rfl rfl rfl rfl rfl

theorem outer_inCensusAnswer : Outer s (inCensusAnswer s fr) := by
  unfold inCensusAnswer
  refine Outer.trans ?_ (outer_answerFrame _ fr _ _ _)
  exact outer_kept rfl rfl rfl rfl (fun _ hy => (List.mem_filter.1 hy).1) rfl

theorem outer_inCollective : Outer s (inCollective s fr) := by
  unfold inCollective
  extract_lets net s1
  have h1 : Outer s s1 := by
    refine Outer.trans ?_ (outer_answerFrame _ fr 5 0 [])
    exact outer_quiet rfl rfl rfl rfl rfl rfl
  exact h1.trans (Outer.foldl (fun t k => outer_collCheck t k) _ _)

theorem outer_rxDo (x : RxFrame) : Outer s (rxDo s x) := by
  unfold rxDo
  split
  · exact outer_inLoad s _ _
  · exact outer_inStore s _
  · exact outer_inAtomic s _ _
  · exact outer_inResponse s _
  · exact outer_inAck s _
  · exact outer_inSolicit s _
  · exact outer_inCensusAnswer s _
  · exact outer_inCollective s _

end

/-! The order of a pair (R449). -/

theorem rxNext_rxStep (s : State) (x : RxFrame) : rxNext (rxStep s x) x.fr.src = x.fr.seq + 1 := by
  unfold rxStep rxNext
  rw [(outer_rxDo _ x).rxSeq]
  show tblGet 0 (tblSet 0 s.net.rxSeq x.fr.src (x.fr.seq + 1)) x.fr.src = _
  rw [tblGet_set_self]

theorem rxNext_rxHeld (src n : Nat) (s : State) : rxNext s src ≤ rxNext (rxHeld s src n) src := by
  induction n generalizing s with
  | zero => exact Nat.le_refl _
  | succ n ih =>
    rw [rxHeld]
    split
    · exact Nat.le_refl _
    · next x hx =>
      have hcond := List.find?_some hx
      simp only [Bool.and_eq_true, decide_eq_true_eq] at hcond
      obtain ⟨hsrc, hseq⟩ := hcond
      have h := rxNext_rxStep { s with net := { s.net with held := s.net.held.filter (· ≠ x) } } x
      rw [hsrc, hseq] at h
      refine Nat.le_trans ?_ (ih _)
      rw [h]
      exact Nat.le_succ _

section
variable {s : State} {ty : Nat} {fr : Frame} {op : FrameOp} (hport : fr.port ∈ s.boot.links) (hheat : s.heat.tripped = false)
include hport hheat

theorem rxFrame_open : rxFrame ty fr op s = if !(frameOk s ty fr) then nextOf s s
    else if fr.seq = rxNext s fr.src then nextOf s (settle (rxHeld (rxStep s { ty := ty, fr := fr, op := op }) fr.src s.net.held.length))
    else if fr.seq < rxNext s fr.src then nextOf s (rxAgain s fr)
    else nextOf s { s with net := { s.net with held := s.net.held.filter (fun x => !(decide (x.fr.src = fr.src) && decide (x.fr.seq = fr.seq))) ++ [{ ty := ty, fr := fr, op := op }] } } := by
  unfold rxFrame
  rw [if_neg]
  rw [hheat, decide_eq_true hport]
  exact Bool.false_ne_true

theorem rxFrame_dropped (hok : frameOk s ty fr = false) : rxFrame ty fr op s = .next (finish s s) := by
  rw [rxFrame_open hport hheat, hok]
  rfl

theorem rxFrame_again (hok : frameOk s ty fr = true) (hseq : fr.seq < rxNext s fr.src) :
    ∃ t : State, rxFrame ty fr op s = .next t ∧ t.net = s.net ∧ t.waves = s.waves ∧ t.cores = s.cores ∧ ∀ r, s.net.replies.find? (fun r => decide (r.1 = fr.src) && decide (r.2.1 = fr.seq)) = some r → t.out = s.out ++ [.frame r.2.2.2] := by
  refine ⟨finish s (rxAgain s fr), ?_, ?_, ?_, ?_, fun r hr => ?_⟩
  · rw [rxFrame_open hport hheat, hok, if_neg (by exact Bool.false_ne_true), if_neg (Nat.ne_of_lt hseq), if_pos hseq]
    rfl
  · show (rxAgain s fr).net = _
    unfold rxAgain
    split <;> rfl
  · show (rxAgain s fr).waves = _
    unfold rxAgain
    split <;> rfl
  · show (rxAgain s fr).cores = _
    unfold rxAgain
    split <;> rfl
  · show (rxAgain s fr).out = _
    rw [rxAgain, hr]
    rfl

theorem rxFrame_early (hok : frameOk s ty fr = true) (hseq : rxNext s fr.src < fr.seq) :
    ∃ t : State, rxFrame ty fr op s = .next t ∧ (∃ h ∈ t.net.held, h.ty = ty ∧ h.fr = fr) ∧ rxNext t fr.src = rxNext s fr.src ∧ t.waves = s.waves ∧ t.cores = s.cores ∧ t.out = s.out := by
  refine ⟨finish s { s with net := { s.net with held := s.net.held.filter (fun x => !(decide (x.fr.src = fr.src) && decide (x.fr.seq = fr.seq))) ++ [{ ty := ty, fr := fr, op := op }] } }, ?_, ⟨_, List.mem_append_right _ List.mem_cons_self, rfl, rfl⟩, rfl, rfl, rfl, rfl⟩
  rw [rxFrame_open hport hheat, hok, if_neg (by exact Bool.false_ne_true), if_neg (Nat.ne_of_gt hseq), if_neg (Nat.lt_asymm hseq)]
  rfl

theorem rxFrame_next (hok : frameOk s ty fr = true) (hseq : fr.seq = rxNext s fr.src) : rxFrame ty fr op s = nextOf s (settle (rxHeld (rxStep s { ty := ty, fr := fr, op := op }) fr.src s.net.held.length)) := by
  rw [rxFrame_open hport hheat, hok, if_neg (by exact Bool.false_ne_true), if_pos hseq]

theorem rxFrame_counts (hok : frameOk s ty fr = true) (hseq : fr.seq = rxNext s fr.src) : ∃ t : State, rxFrame ty fr op s = .next t ∧ fr.seq < rxNext t fr.src := by
  refine ⟨_, rxFrame_next hport hheat hok hseq, ?_⟩
  show fr.seq < tblGet 0 (settle _).net.rxSeq fr.src
  rw [settle_net]
  exact Nat.lt_of_lt_of_le (by rw [rxNext_rxStep]; exact Nat.lt_succ_self _) (rxNext_rxHeld fr.src s.net.held.length (rxStep s { ty := ty, fr := fr, op := op }))

end

/-- The state in which the frame next in order is performed. -/
def rxTook (s : State) (fr : Frame) : State := { s with net := { s.net with rxSeq := tblSet 0 s.net.rxSeq fr.src (fr.seq + 1), held := [] } }

theorem rxFrame_alone {s : State} {ty : Nat} {fr : Frame} {op : FrameOp} (hport : fr.port ∈ s.boot.links) (hheat : s.heat.tripped = false) (hok : frameOk s ty fr = true) (hseq : fr.seq = rxNext s fr.src) (hheld : s.net.held = []) :
    rxFrame ty fr op s = nextOf s (settle (rxDo (rxTook s fr) { ty := ty, fr := fr, op := op })) := by
  rw [rxFrame_next hport hheat hok hseq, hheld]
  show nextOf s (settle (rxStep s _)) = _
  unfold rxStep
  rw [hheld]
  rfl

/-- The forms of frames that arrive. -/
theorem frame_forms {i : Instr} {ty : Nat} {fr : Frame} {op : FrameOp} (h : (i, ty, op) ∈ ([(.pyzanLoad fr op, 1, op), (.pyzanStore fr, 2, {}), (.pyzanAtomic fr op, 3, op), (.pyzanResponse fr, 4, {}), (.pyzanAcknowledgement fr, 5, {}), (.pyzanSolicit fr, 6, {}), (.pyzanCensusAnswer fr, 7, {}), (.pyzanCollective fr, 8, {})] : List (Instr × Nat × FrameOp))) (s : State) :
    exec i s = rxFrame ty fr op s := by
  simp only [List.mem_cons, Prod.mk.injEq, List.not_mem_nil, or_false] at h
  rcases h with ⟨rfl, rfl, -⟩ | ⟨rfl, rfl, rfl⟩ | ⟨rfl, rfl, -⟩ | ⟨rfl, rfl, rfl⟩ | ⟨rfl, rfl, rfl⟩ | ⟨rfl, rfl, rfl⟩ | ⟨rfl, rfl, rfl⟩ | ⟨rfl, rfl, rfl⟩ <;> rfl

end Sys2Proof.Machine
end

section
/-! PROOFS. Frames of peers, and the limits of what peers owe (R351, R358, R402, R403, R447 to R454, R476). -/

namespace Sys2Proof.Machine

theorem settle_tx (s : State) : (settle s).net.tx = s.net.tx := congrArg Net.tx (settle_net s)

/-! An inbound access performed at home, or refused (R448, R451). -/

theorem homeBytes_rxTook (s : State) (fr : Frame) (key tag n pa : Nat) : homeBytes (rxTook s fr) key pa tag n = homeBytes s key pa tag n := by
  induction n generalizing pa with
  | zero => rfl
  | succ n ih =>
    rw [homeBytes, homeBytes, ih]
    rfl

theorem inLoad_granted {s : State} {fr : Frame} {op : FrameOp} {g : Grant} (hg : grantCheck s fr op.size .load = .ok g) (hw : ∀ d, (dieAt s d).watch.wctl = []) : inLoad (rxTook s fr) fr op = answerFrame (rxTook s fr) fr 4 0 (homeBytes s g.key fr.addr 0 op.size) := by
  have hg' : grantCheck (rxTook s fr) fr op.size .load = .ok g := hg
  rw [inLoad, hg']
  dsimp only
  rw [matchAccess_of_wctl (s := rxTook s fr) hw, homeBytes_rxTook]

theorem watch_packagePutAll (key : Nat) (l : List Byte) (s : State) (pa d : Nat) : (dieAt (packagePutAll s key pa l) d).watch = (dieAt s d).watch := by
  induction l generalizing s pa with
  | nil => rfl
  | cons b r ih =>
    rw [packagePutAll, ih]
    exact (keepsBytes_wakeAll _ _ _).watch d |>.trans (((keepsBytes_invalidateOthers _ _ _).watch d).trans ((keepsBytes_lineTake s key (lineOf pa)).watch d))

theorem inStore_granted {s : State} {fr : Frame} {g : Grant} (hg : grantCheck s fr fr.bytes.length .store = .ok g) (hw : ∀ d, (dieAt s d).watch.wctl = []) : inStore (rxTook s fr) fr = answerFrame (packagePutAll (rxTook s fr) g.key fr.addr fr.bytes) fr 5 0 [] := by
  have hg' : grantCheck (rxTook s fr) fr fr.bytes.length .store = .ok g := hg
  rw [inStore, hg']
  dsimp only
  rw [matchAccess_of_wctl fun d => by rw [watch_packagePutAll]; exact hw d]

theorem grantCheck_inDevice {s : State} {fr : Frame} {n : Nat} {k : Kind} {g : Grant} (h : grantCheck s fr n k = .ok g) : ∀ i < n, inDevice (fr.addr + i) = true := by
  unfold grantCheck at h
  dsimp only at h
  split at h
  · cases h
  · split at h
    · cases h
    · split at h
      · cases h
      · next hd =>
        intro i hi
        have hall : (List.range n).all (fun i => inDevice (fr.addr + i)) = true := by simpa using hd
        exact List.all_eq_true.1 hall i (List.mem_range.2 hi)

theorem out_peerEvent (s : State) (fr : Frame) (k : Kind) (fault : Nat) : (peerEvent s fr k fault).out = s.out := by
  unfold peerEvent
  dsimp only
  split
  · rfl
  · exact out_packagePutAll _ _ _ _

theorem out_answerFrame (s : State) (fr : Frame) (ty st : Nat) (bytes : List Byte) : ∃ a : Frame, (answerFrame s fr ty st bytes).out = s.out ++ [.frame a] ∧ a.dst = fr.src ∧ a.addr = fr.addr ∧ a.status = st ∧ a.bytes = bytes :=
  ⟨_, rfl, rfl, rfl, rfl, rfl⟩

theorem out_inCollective (s : State) (fr : Frame) : ∃ a : Frame, HostMsg.frame a ∈ (inCollective s fr).out ∧ a.dst = fr.src ∧ a.addr = fr.addr ∧ a.status = 0 := by
  unfold inCollective
  extract_lets net s1
  obtain ⟨a, ha, hd, haddr, hst, -⟩ := out_answerFrame { s with net := net } fr 5 0 []
  obtain ⟨ms, hms⟩ := (Outer.foldl (fun t k => outer_collCheck t k) (tblKeys s1.eng) s1).out
  refine ⟨a, ?_, hd, haddr, hst⟩
  rw [hms, show s1.out = s.out ++ [.frame a] from ha]
  exact List.mem_append_left _ (List.mem_append_right _ List.mem_cons_self)

/-- What a step that answers a frame tells the host. -/
theorem out_answered {s : State} {fr : Frame} {ty st : Nat} {bytes : List Byte} : ∃ a : Frame, (settle (answerFrame s fr ty st bytes)).out = s.out ++ [.frame a] ∧ a.dst = fr.src ∧ a.addr = fr.addr ∧ a.status = st ∧ a.bytes = bytes := by
  obtain ⟨a, ho, h⟩ := out_answerFrame s fr ty st bytes
  exact ⟨a, (settle_out _).trans ho, h⟩

theorem out_refused {s : State} {fr : Frame} {k : Kind} {f : Nat} : ∃ a : Frame, (settle (refuseFrame s fr k f)).out = s.out ++ [.frame a] ∧ a.status = f ∧ a.bytes = [] := by
  obtain ⟨a, ho, -, -, hst, hb⟩ := out_answered (s := peerEvent s fr k f) (fr := fr) (ty := 4) (st := f) (bytes := [])
  exact ⟨a, by rw [refuseFrame, ho, out_peerEvent], hst, hb⟩

theorem mem_packagePutAll (key : Nat) (l : List Byte) (s : State) (pa : Nat) : (packagePutAll s key pa l).mem = s.mem := by
  obtain ⟨_, _, _, _, _, _, _, _, _, _, _, h⟩ := (stored_packagePutAll key l s pa).only
  rw [h]

theorem rdByte_settled {s u : State} {pa : Nat} (hm : u.mem = s.mem) (hpa : inDevice pa = true) : rdByte (finish s (settle u)) pa = rdByte u pa := by
  rw [rdByte_finish _ _ _ ((settle_mem u).trans hm) hpa]
  unfold rdByte
  rw [if_pos hpa, if_pos hpa, settle_mem, settle_wlog]

/-- The census of a peer is stamped, and goes to no other device. -/
theorem stampCensus_peer {s : State} {k : Nat} {c : Census} {a : Nat × Nat} (h : c.fromPeer = some a) :
    (stampCensus s k c).lastStamp = (s.lastStamp + 1) % 2 ^ 32 ∧ (stampCensus s k c).solicits = s.solicits ++ [{ c.so with stamp := (s.lastStamp + 1) % 2 ^ 32 }] := by
  have hp : ¬ (c.so.scope = 3 ∧ c.fromPeer = none) := fun hn => by rw [h] at hn; cases hn.2
  unfold stampCensus
  dsimp only
  rw [if_neg hp]
  exact ⟨rfl, rfl⟩

section
variable {s : State} {fr : Frame} {op : FrameOp} (hport : fr.port ∈ s.boot.links) (hheat : s.heat.tripped = false) (hseq : fr.seq = rxNext s fr.src) (hheld : s.net.held = [])
include hport hheat hseq hheld

theorem load_answered {g : Grant} (hok : frameOk s 1 fr = true) (hg : grantCheck s fr op.size .load = .ok g) (hw : ∀ d, (dieAt s d).watch.wctl = []) :
    ∃ (t : State) (a : Frame), exec (.pyzanLoad fr op) s = .next t ∧ t.out = s.out ++ [.frame a] ∧ a.dst = fr.src ∧ a.addr = fr.addr ∧ a.status = 0 ∧ a.bytes = homeBytes s g.key fr.addr 0 op.size := by
  obtain ⟨a, ho, hd, haddr, hst, hb⟩ := out_answered (s := rxTook s fr) (fr := fr) (ty := 4) (st := 0) (bytes := homeBytes s g.key fr.addr 0 op.size)
  have hx : exec (.pyzanLoad fr op) s = nextOf s (settle (inLoad (rxTook s fr) fr op)) := rxFrame_alone hport hheat hok hseq hheld
  rw [inLoad_granted hg hw] at hx
  exact ⟨_, a, hx, ho, hd, haddr, hst, hb⟩

theorem store_performed {g : Grant} (hok : frameOk s 2 fr = true) (hg : grantCheck s fr fr.bytes.length .store = .ok g) (hw : ∀ d, (dieAt s d).watch.wctl = []) :
    ∃ (t : State) (a : Frame), exec (.pyzanStore fr) s = .next t ∧ t.out = s.out ++ [.frame a] ∧ a.dst = fr.src ∧ a.status = 0 ∧ (∀ n < fr.bytes.length, rdByte t (fr.addr + n) = fr.bytes.getD n 0)
      ∧ ∀ pa, inDevice pa = true → ¬ (fr.addr ≤ pa ∧ pa < fr.addr + fr.bytes.length) → s.wlog = [] → rdByte t pa = rdByte s pa := by
  have hx : exec (.pyzanStore fr) s = nextOf s (settle (inStore (rxTook s fr) fr)) := rxFrame_alone hport hheat hok hseq hheld
  rw [inStore_granted hg hw] at hx
  have hrd : ∀ pa, inDevice pa = true → rdByte (finish s (settle (answerFrame (packagePutAll (rxTook s fr) g.key fr.addr fr.bytes) fr 5 0 []))) pa = rdByte (packagePutAll (rxTook s fr) g.key fr.addr fr.bytes) pa := fun pa hpa =>
    rdByte_settled (u := answerFrame _ fr 5 0 []) (mem_packagePutAll g.key fr.bytes (rxTook s fr) fr.addr) hpa
  obtain ⟨a, ho, hd, -, hst, -⟩ := out_answered (s := packagePutAll (rxTook s fr) g.key fr.addr fr.bytes) (fr := fr) (ty := 5) (st := 0) (bytes := [])
  have hdev := grantCheck_inDevice hg
  refine ⟨_, a, hx, ho.trans (congrArg (· ++ _) (out_packagePutAll _ _ _ _)), hd, hst, fun n hn => ?_, fun pa hpa hout _ => ?_⟩
  · rw [hrd _ (hdev n hn)]
    have hall := rdBytes_packagePutAll (rxTook s fr) g.key fr.bytes hdev
    rw [rdBytes_eq_map] at hall
    have hget := congrArg (·.getD n 0) hall
    simpa [hn] using hget
  · rw [hrd pa hpa, rdByte_packagePutAll_ne _ _ _ hout]
    rfl

theorem load_refused {f : Nat} (hok : frameOk s 1 fr = true) (hg : grantCheck s fr op.size .load = .error f) : ∃ (t : State) (a : Frame), exec (.pyzanLoad fr op) s = .next t ∧ t.out = s.out ++ [.frame a] ∧ a.status = f ∧ a.bytes = [] := by
  obtain ⟨a, ho, hst, hb⟩ := out_refused (s := rxTook s fr) (fr := fr) (k := .load) (f := f)
  have hx : exec (.pyzanLoad fr op) s = nextOf s (settle (inLoad (rxTook s fr) fr op)) := rxFrame_alone hport hheat hok hseq hheld
  rw [inLoad, show grantCheck (rxTook s fr) fr op.size .load = .error f from hg] at hx
  exact ⟨_, a, hx, ho, hst, hb⟩

theorem store_refused {f : Nat} (hok : frameOk s 2 fr = true) (hg : grantCheck s fr fr.bytes.length .store = .error f) : ∃ (t : State) (a : Frame), exec (.pyzanStore fr) s = .next t ∧ t.out = s.out ++ [.frame a] ∧ a.status = f ∧ a.bytes = [] := by
  obtain ⟨a, ho, hst, hb⟩ := out_refused (s := rxTook s fr) (fr := fr) (k := .store) (f := f)
  have hx : exec (.pyzanStore fr) s = nextOf s (settle (inStore (rxTook s fr) fr)) := rxFrame_alone hport hheat hok hseq hheld
  rw [inStore, show grantCheck (rxTook s fr) fr fr.bytes.length .store = .error f from hg] at hx
  exact ⟨_, a, hx, ho, hst, hb⟩

theorem atomic_refused {f : Nat} (hok : frameOk s 3 fr = true) (hg : grantCheck s fr op.size .atomic = .error f) : ∃ (t : State) (a : Frame), exec (.pyzanAtomic fr op) s = .next t ∧ t.out = s.out ++ [.frame a] ∧ a.status = f ∧ a.bytes = [] := by
  obtain ⟨a, ho, hst, hb⟩ := out_refused (s := rxTook s fr) (fr := fr) (k := .atomic) (f := f)
  have hx : exec (.pyzanAtomic fr op) s = nextOf s (settle (inAtomic (rxTook s fr) fr op)) := rxFrame_alone hport hheat hok hseq hheld
  rw [inAtomic, show grantCheck (rxTook s fr) fr op.size .atomic = .error f from hg] at hx
  exact ⟨_, a, hx, ho, hst, hb⟩

end

/-! Answers (R402, R449). -/

/-- After the device's own work the frame that had its answer is not kept: frames sent since have later numbers. -/
theorem dropped_gone {s t : State} {x : TxFrame} (h : Outer (txDrop s x) t) (hseq : x.fr.seq < tblGet 0 s.net.txSeq x.fr.dst) : ∀ y ∈ t.net.tx, ¬ (y.fr.dst = x.fr.dst ∧ y.fr.seq = x.fr.seq) := by
  rintro y hy ⟨hdst, hys⟩
  rcases h.tx y hy with hold | ⟨hnew, -⟩
  · have := (List.mem_filter.1 hold).2
    rw [hdst, hys] at this
    simp at this
  · rw [hdst, hys] at hnew
    exact absurd hnew (Nat.not_le.2 hseq)

section
variable {s : State} {fr : Frame} (hport : fr.port ∈ s.boot.links) (hheat : s.heat.tripped = false) (hseq : fr.seq = rxNext s fr.src) (hheld : s.net.held = [])
include hport hheat hseq hheld

theorem response_ends {x : TxFrame} (hok : frameOk s 4 fr = true) (hx : txFor s fr [1, 2, 3] = some x) (hn : x.fr.seq < tblGet 0 s.net.txSeq x.fr.dst) : ∃ t : State, exec (.pyzanResponse fr) s = .next t ∧ ∀ y ∈ t.net.tx, ¬ (y.fr.dst = x.fr.dst ∧ y.fr.seq = x.fr.seq) := by
  refine ⟨_, rxFrame_alone hport hheat hok hseq hheld, fun y hy => ?_⟩
  have hy' : y ∈ (inResponse (rxTook s fr) fr).net.tx := settle_tx (inResponse (rxTook s fr) fr) ▸ hy
  exact dropped_gone (s := rxTook s fr) (outer_inResponse_of (rxTook s fr) fr hx) hn y hy'

theorem ack_ends {x : TxFrame} (hok : frameOk s 5 fr = true) (hx : txFor s fr [2, 7, 8, 17, 18] = some x) (hn : x.fr.seq < tblGet 0 s.net.txSeq x.fr.dst) : ∃ t : State, exec (.pyzanAcknowledgement fr) s = .next t ∧ ∀ y ∈ t.net.tx, ¬ (y.fr.dst = x.fr.dst ∧ y.fr.seq = x.fr.seq) := by
  refine ⟨_, rxFrame_alone hport hheat hok hseq hheld, fun y hy => ?_⟩
  have hy' : y ∈ (inAck (rxTook s fr) fr).net.tx := settle_tx (inAck (rxTook s fr) fr) ▸ hy
  exact dropped_gone (s := rxTook s fr) (outer_inAck_of (rxTook s fr) fr hx) hn y hy'

theorem solicit_stamped {ctx : Nat} (hok : frameOk s 6 fr = true) (hc : tagCtx s fr.tag = some ctx) :
    ∃ (t : State) (so : Solicit), exec (.pyzanSolicit fr) s = .next t ∧ t.lastStamp = (s.lastStamp + 1) % 2 ^ 32 ∧ t.solicits = s.solicits ++ [so] ∧ so.ctx = ctx ∧ so.stamp = t.lastStamp := by
  have hx : exec (.pyzanSolicit fr) s = nextOf s (settle (inSolicit (rxTook s fr) fr)) := rxFrame_alone hport hheat hok hseq hheld
  simp only [inSolicit, show tagCtx (rxTook s fr) fr.tag = some ctx from hc] at hx
  generalize hc' : ({ so := _, comb := _, fromPeer := _ } : Census) = c at hx
  obtain ⟨hl, hs⟩ := stampCensus_peer (s := { rxTook s fr with censuses := (rxTook s fr).censuses ++ [c] }) (k := (rxTook s fr).censuses.length) (show c.fromPeer = some (fr.src, fr.addr) from hc' ▸ rfl)
  exact ⟨_, _, hx, (settle_lastStamp _).trans hl, (settle_solicits _).trans hs, hc' ▸ rfl, ((settle_lastStamp _).trans hl).symm⟩

theorem censusAnswer_counted {c : Census} (hmem : c ∈ s.censuses) (hok : frameOk s 7 fr = true) (hst : c.stamped = true) (haddr : c.so.stamp = fr.addr) (hp : fr.src ∈ c.peers) :
    ∃ (t : State) (c' : Census), exec (.pyzanCensusAnswer fr) s = .next t ∧ c' ∈ t.censuses ∧ c'.so = c.so ∧ fr.src ∉ c'.peers ∧ peerAnsOf fr ∈ c'.peerAns := by
  have hx : exec (.pyzanCensusAnswer fr) s = nextOf s (settle (inCensusAnswer (rxTook s fr) fr)) := rxFrame_alone hport hheat hok hseq hheld
  have hin : { c with peers := c.peers.filter (· ≠ fr.src), peerAns := c.peerAns ++ [peerAnsOf fr] } ∈ (inCensusAnswer (rxTook s fr) fr).censuses := List.mem_map.2 ⟨c, hmem, if_pos ⟨hst, haddr, hp⟩⟩
  obtain ⟨c', hc', cs, rfl⟩ := (settled_settle _).censuses _ hin
  exact ⟨_, _, hx, hc', rfl, by simp, List.mem_append_right _ List.mem_cons_self⟩

theorem collective_acknowledged (hok : frameOk s 8 fr = true) : ∃ (t : State) (a : Frame), exec (.pyzanCollective fr) s = .next t ∧ HostMsg.frame a ∈ t.out ∧ a.dst = fr.src ∧ a.addr = fr.addr ∧ a.status = 0 := by
  have hx : exec (.pyzanCollective fr) s = nextOf s (settle (inCollective (rxTook s fr) fr)) := rxFrame_alone hport hheat hok hseq hheld
  obtain ⟨a, ha, h⟩ := out_inCollective (rxTook s fr) fr
  exact ⟨_, a, hx, (settle_out (inCollective (rxTook s fr) fr)).symm ▸ ha, h⟩

end

/-! Frames sent again, and the limits (R402, R449, R454, R476). -/

theorem putHost_leaves (s : State) (i : Nat) : (putHost s i).net.tx = s.net.tx ∧ (putHost s i).waves = s.waves ∧ (putHost s i).out = s.out
    ∧ ∀ m, s.out[i]? = some m → (putHost s i).net.wire = (if ((lastMs s).map (·.2)).sum + m.size ≤ Config.msBytes ∧ hostPort ∈ s.boot.links then s.net.wire ++ [i] else s.net.wire) := by
  unfold putHost
  cases s.out[i]? with
  | none => exact ⟨rfl, rfl, rfl, nofun⟩
  | some m =>
    refine ⟨?_, ?_, ?_, fun m' hm => ?_⟩
    · dsimp only
      split <;> rfl
    · dsimp only
      split <;> rfl
    · dsimp only
      split <;> rfl
    · cases hm
      dsimp only
      split <;> rfl

section
variable {s : State} (hheat : s.heat.tripped = false)
include hheat

theorem resend_sends {dst seq : Nat} {x : TxFrame} (h : s.net.tx.find? (fun t => decide (t.fr.dst = dst) && decide (t.fr.seq = seq)) = some x) (hdue : x.sent + Config.resendCycles ≤ s.clock) :
    ∃ t : State, exec (.pyzanResend dst seq) s = .next t ∧ t.net.tx.length = s.net.tx.length ∧ t.waves = s.waves
      ∧ ((∀ i, x.tx ≠ .msg i) → t.out = s.out ++ [.frame x.fr]) ∧ (∀ i m, x.tx = .msg i → s.out[i]? = some m → t.out = s.out ∧ t.net.wire = (if ((lastMs s).map (·.2)).sum + m.size ≤ Config.msBytes ∧ hostPort ∈ s.boot.links then s.net.wire ++ [i] else s.net.wire)) := by
  let s1 : State := { s with net := { s.net with tx := s.net.tx.map (fun x => if x.fr.dst = dst ∧ x.fr.seq = seq then { x with sent := s.clock, tries := x.tries + 1 } else x) } }
  have hx : exec (.pyzanResend dst seq) s = nextOf s (match x.tx with | .msg i => putHost s1 i | _ => tellHost s1 (.frame x.fr)) := by
    show execPyzanResend dst seq s = _
    simp only [execPyzanResend, h]
    exact if_pos ⟨hdue, hheat⟩
  have hlen : s1.net.tx.length = s.net.tx.length := List.length_map _
  cases htx : x.tx with
  | msg i =>
    rw [htx] at hx
    obtain ⟨htx', hw, ho, hwire⟩ := putHost_leaves s1 i
    exact ⟨_, hx, (congrArg List.length htx').trans hlen, hw, fun hn => absurd rfl (hn i), fun j m hj hm => by cases hj; exact ⟨ho, hwire m hm⟩⟩
  | _ =>
    rw [htx] at hx
    exact ⟨_, hx, hlen, rfl, fun _ => rfl, fun i m hi => nomatch hi⟩

theorem nonPyzan_dropped {port : Nat} (hp : port ∈ s.boot.links) : ∃ t : State, exec (.nonPyzanFrame port) s = .next t ∧ t.host.dropped = s.host.dropped + 1 ∧ t.waves = s.waves ∧ t.net = s.net :=
  ⟨finish s { s with host := { s.host with dropped := s.host.dropped + 1 } }, if_pos ⟨hp, hheat⟩, rfl, rfl, rfl⟩

omit hheat in
theorem peerLimit_forgets {w k : Nat} {v : Wave} {pre : List Acc} {a : Acc} (h : accAt s w k = some (v, pre, a)) (hn : 0 < a.need) (hb : a.bad = none) (hl : a.sent + (ctxAt s v.ctx).t.peerLimit ≤ s.clock) (hp : a.bytes.any (fun b => b.at_.isPeer) = true) :
    ∃ t : State, exec (.peerAccessLimit w k) s = .next t ∧ ∀ y ∈ t.net.tx, ∀ p n, y.tx ≠ .acc w k p n := by
  have hx : exec (.peerAccessLimit w k) s = nextOf s (settle (accAnswer (txForget s w k) w k 0 [] (some (true, a.rank, 0)))) := by
    show execPeerAccessLimit w k s = _
    simp only [execPeerAccessLimit, h]
    exact if_pos (by simp [hn, hb, hl, hp])
  refine ⟨_, hx, fun y hy p n => ?_⟩
  have hy' : y ∈ (accAnswer (txForget s w k) w k 0 [] (some (true, a.rank, 0))).net.tx := settle_tx (accAnswer (txForget s w k) w k 0 [] (some (true, a.rank, 0))) ▸ hy
  rcases (outer_accAnswer (txForget s w k) w k 0 [] (some (true, a.rank, 0))).tx y hy' with hold | ⟨-, hacc⟩
  · obtain ⟨y0, -, rfl⟩ := List.mem_map.1 hold
    cases htx : y0.tx with
    | acc w1 k1 p1 n1 =>
      dsimp only
      split
      · nofun
      · next hne =>
        rw [htx]
        rintro hc
        cases hc
        exact hne ⟨rfl, rfl⟩
    | _ =>
      dsimp only
      rw [htx]
      nofun
  · exact hacc w k p n

omit hheat in
theorem Left.finish {k : Nat} {P : EngOp → Prop} {t : State} (h : Left k P t) (v : State) : Left k P (finish v t) := h

omit hheat in
theorem collGoes_ok {k : Nat} {o : EngOp} {d : CollDesc} (hx : s.heat.tripped = false) (hgo : collGoes s k o d = true) : (collGoes s k o d && !s.heat.tripped) = true := by
  rw [hgo, hx]
  rfl

theorem exec_collectiveLimit_due {k : Nat} {o : EngOp} {d : CollDesc} (h : tblFind s.eng k = some o) (hp : o.pay = .coll d) (hgo : collGoes s k o d = true) (hd : collDue s o d = true) : exec (.collectiveLimit k) s = nextOf s (settle (collCheck s k)) := by
  show execCollectiveLimit k s = _
  simp only [execCollectiveLimit, h, hp]
  rw [if_pos (collGoes_ok hheat hgo), if_pos hd]

theorem exec_collectiveLimit_over {k : Nat} {o : EngOp} {d : CollDesc} (h : tblFind s.eng k = some o) (hp : o.pay = .coll d) (hgo : collGoes s k o d = true) (hd : collDue s o d = false) (hlim : o.issue + (ctxAt s o.ctx).t.collectiveLimit ≤ s.clock) : exec (.collectiveLimit k) s = nextOf s (settle (collEnd s k o d (collStatus s o.ctx d))) := by
  show execCollectiveLimit k s = _
  simp only [execCollectiveLimit, h, hp]
  rw [if_pos (collGoes_ok hheat hgo), if_neg (by rw [hd]; exact Bool.false_ne_true), if_pos hlim]

theorem collective_limit {k : Nat} {o : EngOp} {d : CollDesc} (h : tblFind s.eng k = some o) (hp : o.pay = .coll d) (hgo : collGoes s k o d = true) (hdue : collDue s o d = true ∨ o.issue + (ctxAt s o.ctx).t.collectiveLimit ≤ s.clock) :
    ∃ t : State, exec (.collectiveLimit k) s = .next t ∧ (tblFind t.eng k = none ∨ ∃ o', tblFind t.eng k = some o' ∧ (o'.fault.isSome = true ∨ ∃ d', o'.pay = .coll d' ∧ (d'.given = true ∨ d'.closing = true))) := by
  cases hd : collDue s o d with
  | true =>
    have hleft : Left k (fun o' => o'.fault.isSome = true ∨ ∃ d', o'.pay = .coll d' ∧ (d'.given = true ∨ d'.closing = true)) (collCheck s k) := left_collCheck_due h hp (by rw [hgo, hd]; rfl) (fun _ _ _ => .inl rfl) fun d hd => .inr ⟨d, rfl, hd⟩
    exact ⟨_, exec_collectiveLimit_due hheat h hp hgo hd, hleft.settle.finish s⟩
  | false =>
    have hlim := hdue.resolve_left (by rw [hd]; exact Bool.false_ne_true)
    have hleft : Left k (fun o' => o'.fault.isSome = true ∨ ∃ d', o'.pay = .coll d' ∧ (d'.given = true ∨ d'.closing = true)) (collEnd s k o d (collStatus s o.ctx d)) := left_collEnd h (fun _ _ => .inl rfl) (fun d hc => .inr ⟨d, rfl, .inr hc⟩) d _
    exact ⟨_, exec_collectiveLimit_over hheat h hp hgo hd hlim, hleft.settle.finish s⟩

end

/-- Settles O57: the order of each pair, then what each frame performed leaves, which the device's own work does not undo. -/
theorem peerFrames : Obligations.PeerFrames := by
  intro s hheat
  refine ⟨fun i ty fr op hi hport => ?_, fun fr op hport hseq hheld => ?_, fun dst seq x h hdue => resend_sends hheat h hdue, fun port hp => nonPyzan_dropped hheat hp, fun w k v pre a h hn hb hl hp => peerLimit_forgets h hn hb hl hp, fun k o d h hp hgo hdue => collective_limit hheat h hp hgo hdue⟩
  · rw [frame_forms hi]
    exact ⟨rxFrame_dropped hport hheat, rxFrame_again hport hheat, rxFrame_early hport hheat, rxFrame_counts hport hheat⟩
  · exact ⟨fun g hok hg hw => load_answered hport hheat hseq hheld hok hg hw, fun g hok hg hw => store_performed hport hheat hseq hheld hok hg hw, fun f hok hg => load_refused hport hheat hseq hheld hok hg, fun f hok hg => store_refused hport hheat hseq hheld hok hg, fun f hok hg => atomic_refused hport hheat hseq hheld hok hg,
      fun x hok hx hn => response_ends hport hheat hseq hheld hok hx hn, fun x hok hx hn => ack_ends hport hheat hseq hheld hok hx hn, fun ctx hok hc => solicit_stamped hport hheat hseq hheld hok hc, fun c hmem hok hst haddr hp => censusAnswer_counted hport hheat hseq hheld hmem hok hst haddr hp, fun hok => collective_acknowledged hport hheat hseq hheld hok⟩

end Sys2Proof.Machine
end

section
/-! PROOFS. Commands of a session that have their turn (R216, R223, R224, R235, R236, R361, R405, R412 to R422, R447, R448, R478, R481 to R484). -/

namespace Sys2Proof.Machine

theorem getLast_reply (s : State) (op : Nat) (res : List Byte) : (settle (reply s op 0 res)).out.getLast? = some (.reply op 0 res) := by
  rw [settle_out]
  exact List.getLast?_concat

/-- A context, once a command is answered. -/
theorem ctxAt_replied (v u : State) (op : Nat) (res : List Byte) (ctx : Nat) : ctxAt (finish v (settle (reply u op 0 res))) ctx = ctxAt u ctx := ctxAt_congr (settle_ctxs (reply u op 0 res)) ctx

/-! A command whose turn has come. -/

section
variable {s : State} {p : Payload} (hup : hostUp s = true) (hseq : p.seq = cmdNext s) (hq : s.host.queue = []) (hb : cmdBusy s = false)
include hup hseq hq hb

/-- A command that is accepted and done: it has its effect and is answered 0. -/
theorem command_done {i : Instr} {c : HostCmd} {op len : Nat} {zeros : List (Nat × Nat)} {always during : Bool} {act : State → Ans} {u : State} {res : List Byte} {P : State → Prop} (hx : exec i s = command c op len zeros always during p s act)
    (hh : headOk p len zeros = true) (hst : stateOk s always = true) (ha : act (cmdTook s p.seq) = (u, 0, res)) (hP : P (finish (cmdTook s p.seq) (settle (reply u op 0 res)))) :
    ∃ t, exec i s = .next t ∧ t.out.getLast? = some (.reply op 0 res) ∧ P t := by
  refine ⟨finish (cmdTook s p.seq) (settle (reply u op 0 res)), ?_, getLast_reply u op res, hP⟩
  rw [hx, command_gate, cmdGate_turn hup hseq hq hb, tested_accepted hh (show stateOk (cmdTook s p.seq) always = true from hst), answered, ha]
  rfl

theorem open_done (hh : headOk p 8 [(4, 4)] = true) : ∃ t, exec (.openSession p) s = .next t ∧ t.out.getLast? = some (.reply 0x01 0 []) ∧ t.boot.session = some (opNat p 0 4) ∧ t.host.waiting = none ∧ t.boot.st = openState s.boot.st := by
  refine ⟨finish (cmdTook s p.seq) (reply (openDo p (cmdTook s p.seq)) 0x01 0 []), ?_, List.getLast?_concat, rfl, rfl, rfl⟩
  rw [exec_openSession, cmdGate_turn hup hseq hq hb, openRun, hh]
  rfl

theorem status_done (hse : s.boot.session.isSome = true) (hh : headOk p 0 [] = true) : ∃ t, exec (.status p) s = .next t ∧ t.out.getLast? = some (.reply 0x02 0 (statusBytes s)) ∧ t.boot = s.boot :=
  command_done hup hseq hq hb (P := fun t => t.boot = s.boot) (u := cmdTook s p.seq) rfl hh (by rw [stateOk, hse]; rfl) rfl (settle_boot _)

theorem attest_done (hse : s.boot.session.isSome = true) (hh : headOk p 64 [] = true) : ∃ t, exec (.attest p) s = .next t ∧ t.out.getLast? = some (.reply 0x03 0 (report s p.ops)) ∧ t.boot.st = attestState s.boot.st :=
  command_done hup hseq hq hb (P := fun t => t.boot.st = attestState s.boot.st) (u := { cmdTook s p.seq with boot := { s.boot with st := attestState s.boot.st } }) rfl hh (by rw [stateOk, hse]; rfl) rfl (congrArg Boot.st (settle_boot _))

end

/-! Contexts (R216, R237, R361). -/

section
variable {s : State} {p : Payload} (hup : hostUp s = true) (hseq : p.seq = cmdNext s) (hq : s.host.queue = []) (hb : cmdBusy s = false) (hst : stateOk s false = true)
include hup hseq hq hb hst

theorem ctxSet_installs {tb : CtxTable} (hh : headOk p 16 [(4, 4)] = true) (ha : opNat p 8 8 ≠ 0) (hr : tb.root % 4096 = 0) (hd : inDevice tb.root = true) (hc : class0Taken s (opNat p 0 4) tb = false) :
    ∃ t, exec (.ctxSet p tb) s = .next t ∧ t.out.getLast? = some (.reply 0x10 0 []) ∧ (ctxAt t (opNat p 0 4)).t = tb := by
  let s0 : State := { cmdTook s p.seq with ctxs := tblPut s.ctxs (opNat p 0 4) { (ctxAt s (opNat p 0 4)) with t := tb, mem0 := s.mem, faulted := none } }
  have hact : installCtx (cmdTook s p.seq) (opNat p 0 4) tb = ansOk (regap (grantAreas s0 (opNat p 0 4) tb) (opNat p 0 4)) := by
    unfold installCtx
    rw [if_neg (by rw [hr, hd]; simp), show class0Taken (cmdTook s p.seq) (opNat p 0 4) tb = false from hc]
    rfl
  have htable : (ctxAt s0 (opNat p 0 4)).t = tb := congrArg Ctx.t (tblGet_put_self ({} : Ctx) s.ctxs (opNat p 0 4) _)
  have hout := ((outer_grantAreas s0 (opNat p 0 4) tb).trans (outer_regap _ (opNat p 0 4))).tables (opNat p 0 4)
  generalize regap (grantAreas s0 (opNat p 0 4) tb) (opNat p 0 4) = u at hact hout
  refine command_done hup hseq hq hb (P := fun t => (ctxAt t (opNat p 0 4)).t = tb) (u := u) (res := []) rfl hh hst ((if_neg ha).trans hact) ?_
  rw [ctxAt_replied, hout, htable]

omit hup hseq hq hb hst in
theorem clearCtx_leaves (s : State) (ctx : Nat) : tblFind (clearCtx s ctx).ctxs ctx = none ∧ ∀ e ∈ (clearCtx s ctx).waves, e.2.ctx ≠ ctx := by
  unfold clearCtx
  extract_lets s0 ports s1
  clear_value s0
  have hw : s1.waves = s0.waves.filter (fun e => decide (e.2.ctx ≠ ctx)) := waves_freeChans _ _
  clear_value s1
  refine ⟨tblFind_erase_self _ _, fun e he => ?_⟩
  have hin : e ∈ s1.waves := he
  rw [hw] at hin
  exact of_decide_eq_true (List.mem_filter.1 hin).2

theorem ctxSet_clears {tb : CtxTable} (hh : headOk p 16 [(4, 4)] = true) (ha : opNat p 8 8 = 0) :
    ∃ t, exec (.ctxSet p tb) s = .next t ∧ t.out.getLast? = some (.reply 0x10 0 []) ∧ tblFind t.ctxs (opNat p 0 4) = none ∧ ∀ e ∈ t.waves, e.2.ctx ≠ opNat p 0 4 := by
  obtain ⟨hctxs, hwaves⟩ := clearCtx_leaves (cmdTook s p.seq) (opNat p 0 4)
  obtain ⟨u, hu⟩ : ∃ u, clearCtx (cmdTook s p.seq) (opNat p 0 4) = u := ⟨_, rfl⟩
  rw [hu] at hctxs hwaves
  refine command_done hup hseq hq hb (P := fun t => tblFind t.ctxs (opNat p 0 4) = none ∧ ∀ e ∈ t.waves, e.2.ctx ≠ opNat p 0 4) (u := u) (res := []) rfl hh hst ((if_pos ha).trans (congrArg ansOk hu)) ⟨(congrArg (tblFind · _) (settle_ctxs (reply u 0x10 0 []))).trans hctxs, fun e he => ?_⟩
  obtain ⟨e0, he0, as, r, hw⟩ := (settled_settle (reply u 0x10 0 [])).waves e he
  rw [hw]
  exact hwaves e0 he0

theorem streamWrite_done (hh : headOk p 8 [] = true) (hi : installed s (opNat p 0 4) = true) (hr : opNat p 4 4 < ringSize (ctxAt s (opNat p 0 4)).t) :
    ∃ t, exec (.streamWrite p) s = .next t ∧ t.out.getLast? = some (.reply 0x11 0 []) ∧ (ctxAt t (opNat p 0 4)).writeIdx = opNat p 4 4 := by
  obtain ⟨c, hc⟩ := Option.isSome_iff_exists.1 hi
  refine command_done hup hseq hq hb (P := fun t => (ctxAt t (opNat p 0 4)).writeIdx = opNat p 4 4) (u := modCtx (cmdTook s p.seq) (opNat p 0 4) (fun c => { c with writeIdx := opNat p 4 4 })) (res := []) rfl hh hst (if_neg ?_) ?_
  · show ¬ (!(installed s (opNat p 0 4)) || decide (ringSize (ctxAt s (opNat p 0 4)).t ≤ opNat p 4 4)) = true
    rw [hi, decide_eq_false (by omega)]
    exact Bool.false_ne_true
  · rw [ctxAt_replied]
    exact congrArg Ctx.writeIdx (ctxAt_modCtx_of (s := cmdTook s p.seq) hc _)

/-! Translations (R223). -/

/-- No entry of a core's TLBs translates an address of a range of a context. -/
def TlbClear (ctx va n : Nat) (c : Core) : Prop := ∀ e ∈ c.tlb ++ c.walk, ¬ (e.ctx = ctx ∧ e.base < va + n ∧ va < e.base + 2 ^ e.leaf.size)

omit hup hseq hq hb hst in
theorem tlbClear_invalidate (c : Core) (ctx va n : Nat) (mem : List Host.Cell) : TlbClear ctx va n (c.invalidate ctx va n mem) := by
  intro e he
  have hdrop : e ∈ tlbDrop ctx va n (c.tlb ++ c.walk) := by
    rw [tlbDrop, List.filter_append]
    exact he
  have hkeep := (List.mem_filter.1 hdrop).2
  rintro ⟨h1, h2, h3⟩
  simp [h1, h2, h3] at hkeep

omit hup hseq hq hb hst in
theorem TlbClear.invalidate {c : Core} {ctx va n : Nat} (h : TlbClear ctx va n c) (ctx' va' n' : Nat) (mem : List Host.Cell) : TlbClear ctx va n (c.invalidate ctx' va' n' mem) := by
  intro e he
  refine h e ?_
  rcases List.mem_append.1 he with he | he
  · exact List.mem_append_left _ (List.mem_filter.1 he).1
  · exact List.mem_append_right _ (List.mem_filter.1 he).1

omit hup hseq hq hb hst in
theorem tlbClear_foldl {ctx va n : Nat} {mem : List Host.Cell} (l : List Nat) (t : State) {q : Nat} (h : TlbClear ctx va n (coreAt t q)) : TlbClear ctx va n (coreAt (l.foldl (fun t c => modCore t (physCore t c) (fun x => x.invalidate ctx va n mem)) t) q) := by
  induction l generalizing t with
  | nil => exact h
  | cons c l ih =>
    refine ih _ ?_
    by_cases hc : q = physCore t c
    · rw [hc, coreAt_modCore_self]
      exact tlbClear_invalidate _ _ _ _ _
    · rw [coreAt_modCore_ne _ _ hc]
      exact h

omit hup hseq hq hb hst in
theorem tlbClear_named {ctx va n : Nat} {mem : List Host.Cell} (l : List Nat) (t : State) {c : Nat} (h : c ∈ l) : TlbClear ctx va n (coreAt (l.foldl (fun t c => modCore t (physCore t c) (fun x => x.invalidate ctx va n mem)) t) (physCore t c)) := by
  induction l generalizing t with
  | nil => exact absurd h List.not_mem_nil
  | cons d l ih =>
    rcases List.mem_cons.1 h with rfl | h
    · refine tlbClear_foldl l _ ?_
      rw [coreAt_modCore_self]
      exact tlbClear_invalidate _ _ _ _ _
    · exact ih (modCore t (physCore t d) (fun x => x.invalidate ctx va n mem)) h

theorem invalidate_done (hh : headOk p 64 [(4, 4)] = true) (hi : installed s (opNat p 0 4) = true) :
    ∃ t, exec (.invalidate p) s = .next t ∧ t.out.getLast? = some (.reply 0x12 0 []) ∧ ∀ c ∈ maskCores p 24, ∀ e ∈ (coreAt t (physCore s c)).tlb ++ (coreAt t (physCore s c)).walk, ¬ (e.ctx = opNat p 0 4 ∧ e.base < opNat p 8 8 + opNat p 16 8 ∧ opNat p 8 8 < e.base + 2 ^ e.leaf.size) := by
  let u := (maskCores p 24).foldl (fun t c => modCore t (physCore t c) (fun x => x.invalidate (opNat p 0 4) (opNat p 8 8) (opNat p 16 8) s.mem)) (cmdTook s p.seq)
  refine command_done hup hseq hq hb (P := fun t => ∀ c ∈ maskCores p 24, TlbClear (opNat p 0 4) (opNat p 8 8) (opNat p 16 8) (coreAt t (physCore s c))) (u := u) (res := []) rfl hh hst (if_neg ?_) fun c hc => ?_
  · show ¬ (!(installed s (opNat p 0 4))) = true
    rw [hi]
    exact Bool.false_ne_true
  · have hcl := tlbClear_named (mem := s.mem) (ctx := opNat p 0 4) (va := opNat p 8 8) (n := opNat p 16 8) (maskCores p 24) (cmdTook s p.seq) hc
    show TlbClear _ _ _ (coreAt (settle (reply u 0x12 0 [])) (physCore s c))
    have htlb : ∀ q, (coreAt (settle (reply u 0x12 0 [])) q).tlb = (coreAt u q).tlb := coreAt_settle Core.tlb (fun _ _ _ _ _ => rfl) (reply u 0x12 0 [])
    have hwalk : ∀ q, (coreAt (settle (reply u 0x12 0 [])) q).walk = (coreAt u q).walk := coreAt_settle Core.walk (fun _ _ _ _ _ => rfl) (reply u 0x12 0 [])
    unfold TlbClear
    rw [htlb, hwalk]
    exact hcl

end

end Sys2Proof.Machine
end

section
/-! PROOFS. Commands of a session that wait, or that change keys, grants, registers and stopped waves (R224, R235, R236, R405, R412 to R422, R447, R448, R478, R483, R484). -/

namespace Sys2Proof.Machine

/-! Commands that wait (R405, R412, R484). -/

/-- What a command that may wait comes to: answered, or it waits and the host has been told nothing. -/
def AnsweredOrWaits (s t : State) (op : Nat) : Prop := (t.host.waiting = none ∧ t.out.getLast? = some (.reply op 0 [])) ∨ (t.host.waiting.isSome = true ∧ t.out = s.out)

section
variable {s : State} {p : Payload} (hup : hostUp s = true) (hseq : p.seq = cmdNext s) (hq : s.host.queue = []) (hb : cmdBusy s = false)
include hup hseq hq hb

theorem command_waits {i : Instr} {c : HostCmd} {op len : Nat} {zeros : List (Nat × Nat)} {bad : State → Bool} {begin : State → State} (hx : exec i s = cmdGate c false p s (tested op len zeros false p (waitRun op bad begin)))
    (hh : headOk p len zeros = true) (hst : stateOk s false = true) (hbad : bad (cmdTook s p.seq) = false) : exec i s = nextOf (cmdTook s p.seq) (hostSettle (settle (begin (cmdTook s p.seq)))) := by
  rw [hx, cmdGate_turn hup hseq hq hb, tested_accepted hh (show stateOk (cmdTook s p.seq) false = true from hst), waitRun, hbad]
  rfl

omit hup hseq hq hb in
theorem hostSettle_preempt {u : State} {cs : List Nat} (h : u.host.waiting = some (.preempt cs)) : (hostSettle (settle u)).waves = (settle u).waves ∧ AnsweredOrWaits u (hostSettle (settle u)) 0x13 := by
  have hw : (settle u).host.waiting = some (.preempt cs) := (congrArg HostSide.waiting (settle_host u)).trans h
  unfold hostSettle
  rw [hw]
  dsimp only
  split
  · exact ⟨rfl, .inl ⟨rfl, List.getLast?_concat⟩⟩
  · exact ⟨rfl, .inr ⟨by rw [hw]; rfl, settle_out u⟩⟩

omit hup hseq hq hb in
theorem ctxs_areaSave (s : State) (ctx core : Nat) : (areaSave s ctx core).ctxs = s.ctxs := by
  refine (Stored.foldl (fun t f => Stored.foldl (fun u x => ?_) _ t) _ s).ctxs
  split
  · exact stored_packagePut u _ _ _
  · exact .refl u

omit hup hseq hq hb in
theorem ctxs_foldl {α : Type} {f : State → α → State} (h : ∀ s x, (f s x).ctxs = s.ctxs) (xs : List α) (s : State) : (xs.foldl f s).ctxs = s.ctxs := by
  induction xs generalizing s with
  | nil => rfl
  | cons x xs ih => exact (ih _).trans (h s x)

omit hup hseq hq hb in
theorem ctxs_areaRestore (s : State) (ctx core : Nat) : (areaRestore s ctx core).ctxs = s.ctxs := by
  unfold areaRestore
  refine (ctxs_foldl (fun t e => ?_) _ _).trans (ctxs_foldl (fun t i => ?_) _ s)
  · unfold slotRestore
    split <;> rfl
  · unfold keyRestore
    dsimp only
    split
    · rfl
    · split <;> rfl

omit hup hseq hq hb in
/-- The answer that ends a wait. -/
theorem answered_ends (u t : State) (op : Nat) (h : t.ctxs = u.ctxs) : (reply { t with host := { t.host with waiting := none } } op 0 []).ctxs = u.ctxs ∧ AnsweredOrWaits u (reply { t with host := { t.host with waiting := none } } op 0 []) op :=
  ⟨h, .inl ⟨rfl, List.getLast?_concat⟩⟩

omit hup hseq hq hb in
theorem settle_waits {u : State} (h : u.host.waiting.isSome = true) (op : Nat) : (settle u).ctxs = u.ctxs ∧ AnsweredOrWaits u (settle u) op :=
  ⟨settle_ctxs u, .inr ⟨(congrArg (·.waiting.isSome) (settle_host u)).trans h, settle_out u⟩⟩

omit hup hseq hq hb in
theorem hostSettle_of_save {v : State} {ctx core : Nat} (h : v.host.waiting = some (.save ctx core)) : hostSettle v = if areaReady v ctx then reply { areaSave v ctx core with host := { (areaSave v ctx core).host with waiting := none } } 0x14 0 [] else v := by
  rw [hostSettle, h]

omit hup hseq hq hb in
theorem hostSettle_of_restore {v : State} {ctx core : Nat} (h : v.host.waiting = some (.restore ctx core)) : hostSettle v = if areaReady v ctx then reply { areaRestore v ctx core with host := { (areaRestore v ctx core).host with waiting := none } } 0x15 0 [] else v := by
  rw [hostSettle, h]

omit hup hseq hq hb in
theorem hostSettle_save {u : State} {ctx core : Nat} (h : u.host.waiting = some (.save ctx core)) : (hostSettle (settle u)).ctxs = u.ctxs ∧ AnsweredOrWaits u (hostSettle (settle u)) 0x14 := by
  have hc := (ctxs_areaSave (settle u) ctx core).trans (settle_ctxs u)
  have hwait := settle_waits (u := u) (by rw [h]; rfl) 0x14
  rw [hostSettle_of_save ((congrArg HostSide.waiting (settle_host u)).trans h)]
  generalize areaSave (settle u) ctx core = t at hc
  have ha := answered_ends u t 0x14 hc
  split <;> assumption

omit hup hseq hq hb in
theorem hostSettle_restore {u : State} {ctx core : Nat} (h : u.host.waiting = some (.restore ctx core)) : (hostSettle (settle u)).ctxs = u.ctxs ∧ AnsweredOrWaits u (hostSettle (settle u)) 0x15 := by
  have hc := (ctxs_areaRestore (settle u) ctx core).trans (settle_ctxs u)
  have hwait := settle_waits (u := u) (by rw [h]; rfl) 0x15
  rw [hostSettle_of_restore ((congrArg HostSide.waiting (settle_host u)).trans h)]
  generalize areaRestore (settle u) ctx core = t at hc
  have ha := answered_ends u t 0x15 hc
  split <;> assumption

omit hup hseq hq hb in
theorem preemptWave_asked (s : State) (v : Wave) : (preemptWave s v).preemptAt.isSome = true ∧ (preemptWave s v).ended = v.ended := by
  have h1 : (if v.preemptAt.isSome then v.preemptAt else some s.clock).isSome = true := by
    split
    · assumption
    · rfl
  have hpark : ∀ v1 : Wave, (parkAsk 16 false v1).preemptAt = v1.preemptAt ∧ (parkAsk 16 false v1).ended = v1.ended := fun v1 => by
    unfold parkAsk
    split <;> exact ⟨rfl, rfl⟩
  unfold preemptWave
  extract_lets v1
  split
  · obtain ⟨ha, he⟩ := hpark v1
    exact ⟨by rw [ha]; exact h1, he⟩
  · split <;> exact ⟨h1, rfl⟩

omit hup hseq hq hb in
/-- What a command that waits leaves, from what settles once its effect has begun. -/
theorem waits_of_settled {i : Instr} {u v : State} {op : Nat} (h : (hostSettle (settle u)).ctxs = u.ctxs ∧ AnsweredOrWaits u (hostSettle (settle u)) op) (hx : exec i s = nextOf v (hostSettle (settle u))) (hc : u.ctxs = s.ctxs) (ho : u.out = s.out) : ∃ t, exec i s = .next t ∧ t.ctxs = s.ctxs ∧ AnsweredOrWaits s t op := by
  generalize hostSettle (settle u) = r at h hx
  obtain ⟨hctxs, hans⟩ := h
  refine ⟨_, hx, hctxs.trans hc, ?_⟩
  rw [AnsweredOrWaits, ho] at hans
  exact hans

theorem preempt_later (hst : stateOk s false = true) (hh : headOk p 48 [(4, 4)] = true) (hi : installed s (opNat p 0 4) = true) :
    ∃ t, exec (.preempt p) s = .next t ∧ (∀ w v, waveAt s w = some v → v.ctx = opNat p 0 4 → v.cohort ∈ preempted s (opNat p 0 4) (maskCores p 8) → v.isResponder = false → v.ended = false → ∃ v', waveAt t w = some v' ∧ v'.preemptAt.isSome = true) ∧ AnsweredOrWaits s t 0x13 := by
  have hx := command_waits hup hseq hq hb (exec_preempt p s) hh hst (by show (!(installed s (opNat p 0 4))) = false; rw [hi]; rfl)
  obtain ⟨hw, ha⟩ := hostSettle_preempt (u := preemptDo (cmdTook s p.seq) (opNat p 0 4) (maskCores p 8)) rfl
  refine ⟨_, hx, fun w v hv hctx hco hr he => ?_, ha⟩
  have hmap : waveAt (preemptDo (cmdTook s p.seq) (opNat p 0 4) (maskCores p 8)) w = some (preemptWave (cmdTook s p.seq) v) := by
    refine (tblFind_map_where s.waves (fun v => v.ctx = opNat p 0 4 ∧ v.cohort ∈ preempted s (opNat p 0 4) (maskCores p 8) ∧ v.isResponder = false ∧ v.ended = false) (preemptWave (cmdTook s p.seq)) w).trans ?_
    rw [show tblFind s.waves w = some v from hv]
    exact congrArg some (if_pos ⟨hctx, hco, hr, he⟩)
  obtain ⟨hasked, hended⟩ := preemptWave_asked (cmdTook s p.seq) v
  obtain ⟨as, hset⟩ := waveAt_settle hmap (.inl (hended.trans he))
  exact ⟨_, (congrArg (tblFind · w) hw).trans hset, hasked⟩

theorem coreSave_later (hst : stateOk s false = true) (hh : headOk p 8 [(6, 2)] = true) (hi : installed s (opNat p 0 4) = true) (hc : opNat p 4 2 < 320) : ∃ t, exec (.coreSave p) s = .next t ∧ t.ctxs = s.ctxs ∧ AnsweredOrWaits s t 0x14 := by
  have hx := command_waits hup hseq hq hb (exec_coreSave p s) hh hst (by show (!(installed s (opNat p 0 4)) || decide (319 < opNat p 4 2)) = false; rw [hi, decide_eq_false (by omega)]; rfl)
  exact waits_of_settled (hostSettle_save (ctx := opNat p 0 4) (core := opNat p 4 2) rfl) hx rfl rfl

theorem coreRestore_later (hst : stateOk s false = true) (hh : headOk p 8 [(6, 2)] = true) (hi : installed s (opNat p 0 4) = true) (hc : opNat p 4 2 < 320) : ∃ t, exec (.coreRestore p) s = .next t ∧ t.ctxs = s.ctxs ∧ AnsweredOrWaits s t 0x15 := by
  have hx := command_waits hup hseq hq hb (exec_coreRestore p s) hh hst (by show (!(installed s (opNat p 0 4)) || decide (319 < opNat p 4 2)) = false; rw [hi, decide_eq_false (by omega)]; rfl)
  exact waits_of_settled (hostSettle_restore (ctx := opNat p 0 4) (core := opNat p 4 2) rfl) hx rfl rfl

end

/-! Gaps, keys and partitions (R224, R228, R235, R236). -/

section
variable {s : State} {p : Payload} (hup : hostUp s = true) (hseq : p.seq = cmdNext s) (hq : s.host.queue = []) (hb : cmdBusy s = false) (hst : stateOk s false = true)
include hup hseq hq hb hst

theorem gapAnswer_done {x : Gap} (hh : headOk p 16 [(5, 3)] = true) (ha : opNat p 4 1 ≤ 1) (hi : installed s (opNat p 0 4) = true) (hg : tblFind (ctxAt s (opNat p 0 4)).gaps (opNat p 8 8) = some x) :
    ∃ t, exec (.gapAnswer p) s = .next t ∧ t.out.getLast? = some (.reply 0x16 0 []) ∧ t.boot = s.boot := by
  obtain ⟨u, hu⟩ : ∃ u, (if opNat p 4 1 = 0 then gapFilled (cmdTook s p.seq) (opNat p 0 4) (opNat p 8 8) x else gapUnmapped (cmdTook s p.seq) (opNat p 0 4) (opNat p 8 8) x) = u := ⟨_, rfl⟩
  have hboot : u.boot = s.boot := by
    rw [← hu]
    split
    · exact (outer_gapFilled (cmdTook s p.seq) _ _ x).boot
    · exact (outer_gapUnmapped (cmdTook s p.seq) _ _ x).boot
  have hact : gapAnswerDo (cmdTook s p.seq) (opNat p 0 4) (opNat p 4 1) (opNat p 8 8) = ansOk u := by
    have hnot : ¬ (1 < opNat p 4 1 ∨ installed (cmdTook s p.seq) (opNat p 0 4) = false) := by
      rintro (h | h)
      · omega
      · exact Bool.noConfusion (hi.symm.trans h)
    rw [gapAnswerDo, if_neg hnot, show tblFind (ctxAt (cmdTook s p.seq) (opNat p 0 4)).gaps (opNat p 8 8) = some x from hg]
    exact congrArg ansOk hu
  exact command_done hup hseq hq hb (P := fun t => t.boot = s.boot) (u := u) (res := []) rfl hh hst hact ((settle_boot _).trans hboot)

theorem keyLoad_done {key : List Byte} (hh : headOk p 520 [(2, 6)] = true) (h0 : 0 < opNat p 0 2) (h1 : opNat p 0 2 < 4096) (hk : Config.unwrapKey (p.ops.drop 8) = some key) :
    ∃ t, exec (.keyLoad p) s = .next t ∧ t.out.getLast? = some (.reply 0x20 0 []) ∧ tblFind t.host.keys (opNat p 0 2) = some key := by
  have hnot : ¬ (opNat p 0 2 = 0 ∨ 4095 < opNat p 0 2) := by omega
  have hact : ∃ v : State, keyLoadDo (cmdTook s p.seq) (opNat p 0 2) (p.ops.drop 8) = ansOk { v with host := { v.host with keys := tblPut v.host.keys (opNat p 0 2) key } } := by
    rw [keyLoadDo, if_neg hnot, hk]
    exact ⟨_, rfl⟩
  obtain ⟨v, hv⟩ := hact
  refine command_done hup hseq hq hb (P := fun t => tblFind t.host.keys (opNat p 0 2) = some key) (res := []) rfl hh hst hv ?_
  exact (congrArg (fun h : HostSide => tblFind h.keys (opNat p 0 2)) (settle_host _)).trans (tblFind_put_self _ _ _)

theorem keyRetire_done (hh : headOk p 8 [(2, 6)] = true) (h0 : 0 < opNat p 0 2) (h1 : opNat p 0 2 < 4096) :
    ∃ t, exec (.keyRetire p) s = .next t ∧ t.out.getLast? = some (.reply 0x21 0 []) ∧ tblFind t.host.keys (opNat p 0 2) = none ∧ ∀ e ∈ t.cores, ∀ l ∈ e.2.l1, l.2.key ≠ opNat p 0 2 := by
  have hnot : ¬ (opNat p 0 2 = 0 ∨ 4095 < opNat p 0 2) := by omega
  let u : State := { keyLost (keyDrop (cmdTook s p.seq) (opNat p 0 2)) (opNat p 0 2) with host := { s.host with keys := tblErase s.host.keys (opNat p 0 2) } }
  refine command_done hup hseq hq hb (P := fun t => tblFind t.host.keys (opNat p 0 2) = none ∧ ∀ e ∈ t.cores, ∀ l ∈ e.2.l1, l.2.key ≠ opNat p 0 2) (u := u) (res := []) rfl hh hst (if_neg hnot) ⟨?_, fun e he l hl => ?_⟩
  · exact (congrArg (fun h : HostSide => tblFind h.keys (opNat p 0 2)) (settle_host _)).trans (tblFind_erase_self _ _)
  · obtain ⟨e', he', hl'⟩ := (settled_settle (reply u 0x21 0 [])).lines e he l hl
    obtain ⟨e0, -, rfl⟩ := List.mem_map.1 (show e' ∈ (keyDrop (cmdTook s p.seq) (opNat p 0 2)).cores from he')
    exact of_decide_eq_true (List.mem_filter.1 hl').2

theorem partitionSet_done (hh : headOk p 8 [(4, 4)] = true) (h0 : opNat p 0 1 ≤ 3) (h1 : opNat p 1 1 ≤ 15) :
    ∃ t, exec (.partitionSet p) s = .next t ∧ t.out.getLast? = some (.reply 0x22 0 []) ∧ tblGet 0xFFFF (dieAt t (opNat p 0 1)).partition (opNat p 1 1) = opNat p 2 2 := by
  have hnot : ¬ (3 < opNat p 0 1 ∨ 15 < opNat p 1 1) := by omega
  refine command_done hup hseq hq hb (P := fun t => tblGet 0xFFFF (dieAt t (opNat p 0 1)).partition (opNat p 1 1) = opNat p 2 2) (u := partitionDo (cmdTook s p.seq) (opNat p 0 1) (opNat p 1 1) (opNat p 2 2)) (res := []) rfl hh hst (if_neg hnot) ?_
  have hd : dieAt (settle (reply (partitionDo (cmdTook s p.seq) (opNat p 0 1) (opNat p 1 1) (opNat p 2 2)) 0x22 0 [])) (opNat p 0 1) = dieAt (partitionDo (cmdTook s p.seq) (opNat p 0 1) (opNat p 1 1) (opNat p 2 2)) (opNat p 0 1) := congrArg (tblGet ({} : Die) · (opNat p 0 1)) (settle_dies _)
  refine (congrArg (fun d : Die => tblGet 0xFFFF d.partition (opNat p 1 1)) hd).trans ?_
  unfold partitionDo
  rw [dieAt_modDie, if_pos rfl]
  exact tblGet_set_self (0xFFFF : Nat) _ _ _

/-! Grants (R447, R448, R478). -/

theorem grantSet_done {i : Instr} {c : HostCmd} {table : Nat} {act : State → Nat → Nat → Ans} {u : State} {P : State → Prop} (hx : exec i s = grantSet c table p s act) (hh : headOk p 40 [(1, 1), (4, 4)] = true) (ht : opNat p 0 1 = table)
    (ha : act (cmdTook s p.seq) (opNat p 2 2) (opNat p 8 32) = ansOk u) (hP : P (finish (cmdTook s p.seq) (settle (reply u 0x23 0 [])))) : ∃ t, exec i s = .next t ∧ t.out.getLast? = some (.reply 0x23 0 []) ∧ P t := by
  have hopen : ¬ (headOk p 40 [(1, 1), (4, 4)] && decide (opNat p 0 1 ≠ table) && decide (opNat p 0 1 ≤ 3 ∨ table ≠ 0)) = true := by
    rw [decide_eq_false (fun h => h ht), Bool.and_false, Bool.false_and]
    exact Bool.false_ne_true
  exact command_done hup hseq hq hb (u := u) (res := []) (hx.trans (if_neg hopen)) hh hst ((if_neg (fun h => h ht)).trans ha) hP

omit hup hseq hq hb hst in
theorem exec_grantSetHost (p : Payload) (s : State) : exec (.grantSetHost p) s = grantSet (.grantSetHost p) 0 p s (fun s i e => if 15 < i ∨ grantOk e = false then ansNo s 2 else ansOk { s with host := { s.host with hostGrants := tblSet {} s.host.hostGrants i (grantOf e) } }) := rfl

omit hup hseq hq hb hst in
theorem exec_grantSetInbound (p : Payload) (s : State) : exec (.grantSetInbound p) s = grantSet (.grantSetInbound p) 1 p s (fun s i e => if 255 < i ∨ grantOk e = false then ansNo s 2 else ansOk { s with host := { s.host with inbound := tblSet {} s.host.inbound i (grantOf e) } }) := rfl

omit hup hseq hq hb hst in
theorem exec_grantSetRoute (p : Payload) (s : State) : exec (.grantSetRoute p) s = grantSet (.grantSetRoute p) 2 p s (fun s i e => if 63 < i ∨ 15 < e then ansNo s 2 else ansOk { s with net := { s.net with routes := tblPut s.net.routes i e } }) := rfl

omit hup hseq hq hb hst in
theorem exec_grantSetRank (p : Payload) (s : State) : exec (.grantSetRank p) s = grantSet (.grantSetRank p) 3 p s (fun s i e =>
    if i = 0 then (if 63 < e then ansNo s 2 else ansOk { s with net := { s.net with rank := some e } })
    else if !(installed s (bits e 0 32)) || decide (2 ^ 64 ≤ e) then ansNo s 2
    else ansOk (modCtx s (bits e 0 32) (fun c => { c with t := { c.t with inDomain := true, domainTag := bits e 32 32 } }))) := rfl

omit hup hseq hq hb hst in
theorem grant_fits {n : Nat} (h1 : opNat p 2 2 ≤ n) (h2 : grantOk (opNat p 8 32) = true) : ¬ (n < opNat p 2 2 ∨ grantOk (opNat p 8 32) = false) := by
  rintro (h | h)
  · omega
  · exact Bool.noConfusion (h2.symm.trans h)

theorem grantSetHost_done (hh : headOk p 40 [(1, 1), (4, 4)] = true) (ht : opNat p 0 1 = 0) (hn : opNat p 2 2 ≤ 15) (hok : grantOk (opNat p 8 32) = true) :
    ∃ t, exec (.grantSetHost p) s = .next t ∧ t.out.getLast? = some (.reply 0x23 0 []) ∧ tblGet {} t.host.hostGrants (opNat p 2 2) = grantOf (opNat p 8 32) := by
  let u : State := { cmdTook s p.seq with host := { s.host with hostGrants := tblSet {} s.host.hostGrants (opNat p 2 2) (grantOf (opNat p 8 32)) } }
  have hP : tblGet {} (settle (reply u 0x23 0 [])).host.hostGrants (opNat p 2 2) = grantOf (opNat p 8 32) := by
    rw [settle_host]
    exact tblGet_set_self ({} : Grant) s.host.hostGrants (opNat p 2 2) (grantOf (opNat p 8 32))
  exact grantSet_done hup hseq hq hb hst (u := u) (P := fun t => tblGet ({} : Grant) t.host.hostGrants (opNat p 2 2) = grantOf (opNat p 8 32)) (exec_grantSetHost p s) hh ht (if_neg (grant_fits hn hok)) hP

theorem grantSetInbound_done (hh : headOk p 40 [(1, 1), (4, 4)] = true) (ht : opNat p 0 1 = 1) (hn : opNat p 2 2 ≤ 255) (hok : grantOk (opNat p 8 32) = true) :
    ∃ t, exec (.grantSetInbound p) s = .next t ∧ t.out.getLast? = some (.reply 0x23 0 []) ∧ tblGet {} t.host.inbound (opNat p 2 2) = grantOf (opNat p 8 32) := by
  let u : State := { cmdTook s p.seq with host := { s.host with inbound := tblSet {} s.host.inbound (opNat p 2 2) (grantOf (opNat p 8 32)) } }
  have hP : tblGet {} (settle (reply u 0x23 0 [])).host.inbound (opNat p 2 2) = grantOf (opNat p 8 32) := by
    rw [settle_host]
    exact tblGet_set_self ({} : Grant) s.host.inbound (opNat p 2 2) (grantOf (opNat p 8 32))
  exact grantSet_done hup hseq hq hb hst (u := u) (P := fun t => tblGet ({} : Grant) t.host.inbound (opNat p 2 2) = grantOf (opNat p 8 32)) (exec_grantSetInbound p s) hh ht (if_neg (grant_fits hn hok)) hP

theorem grantSetRoute_done (hh : headOk p 40 [(1, 1), (4, 4)] = true) (ht : opNat p 0 1 = 2) (hn : opNat p 2 2 ≤ 63) (hr : opNat p 8 32 ≤ 15) :
    ∃ t, exec (.grantSetRoute p) s = .next t ∧ t.out.getLast? = some (.reply 0x23 0 []) ∧ tblFind t.net.routes (opNat p 2 2) = some (opNat p 8 32) := by
  let u : State := { cmdTook s p.seq with net := { (cmdTook s p.seq).net with routes := tblPut s.net.routes (opNat p 2 2) (opNat p 8 32) } }
  have hP : tblFind (settle (reply u 0x23 0 [])).net.routes (opNat p 2 2) = some (opNat p 8 32) := by
    rw [settle_net]
    exact tblFind_put_self s.net.routes (opNat p 2 2) (opNat p 8 32)
  exact grantSet_done hup hseq hq hb hst (u := u) (P := fun t => tblFind t.net.routes (opNat p 2 2) = some (opNat p 8 32)) (exec_grantSetRoute p s) hh ht (if_neg (by omega)) hP

theorem grantSetRank_done (hh : headOk p 40 [(1, 1), (4, 4)] = true) (ht : opNat p 0 1 = 3) (hn : opNat p 2 2 = 0) (hr : opNat p 8 32 ≤ 63) :
    ∃ t, exec (.grantSetRank p) s = .next t ∧ t.out.getLast? = some (.reply 0x23 0 []) ∧ t.net.rank = some (opNat p 8 32) := by
  let u : State := { cmdTook s p.seq with net := { (cmdTook s p.seq).net with rank := some (opNat p 8 32) } }
  have hP : (settle (reply u 0x23 0 [])).net.rank = some (opNat p 8 32) := by
    rw [settle_net]
    rfl
  exact grantSet_done hup hseq hq hb hst (u := u) (P := fun t => t.net.rank = some (opNat p 8 32)) (exec_grantSetRank p s) hh ht ((if_pos hn).trans (if_neg (by omega))) hP

/-! Debug registers (R414, R417, R420). -/

theorem debugControl_done {c : Nat} (hh : headOk p 16 [] = true) (hi : installed s c = true) (hok : controlOk (opNat p 8 8) = true) :
    ∃ t, exec (.debugWrite p (.control c)) s = .next t ∧ t.out.getLast? = some (.reply 0x30 0 []) ∧ (ctxAt t c).dbgWord = BitVec.ofNat 64 (opNat p 8 8) := by
  obtain ⟨x, hx⟩ := Option.isSome_iff_exists.1 hi
  refine command_done hup hseq hq hb (P := fun t => (ctxAt t c).dbgWord = BitVec.ofNat 64 (opNat p 8 8)) (u := modCtx (cmdTook s p.seq) c (fun x => { x with dbgWord := BitVec.ofNat 64 (opNat p 8 8) })) (res := []) rfl hh hst (if_neg ?_) ?_
  · show ¬ (!(installed s c) || !(controlOk (opNat p 8 8))) = true
    rw [hi, hok]
    exact Bool.false_ne_true
  · rw [ctxAt_replied]
    exact congrArg Ctx.dbgWord (ctxAt_modCtx_of (s := cmdTook s p.seq) hx _)

theorem stopRecord_read {w : Nat} {r : StopRec} (hh : headOk p 8 [] = true) (hr : (waveAt s w).bind (·.stopRec) = some r) :
    ∃ t, exec (.debugRead p (.stopRecord w)) s = .next t ∧ t.out.getLast? = some (.reply 0x31 0 r.bytes) ∧ t.boot = s.boot := by
  have hact : debugGet (cmdTook s p.seq) (.stopRecord w) = (cmdTook s p.seq, 0, r.bytes) := by
    rw [debugGet, show (waveAt (cmdTook s p.seq) w).bind (·.stopRec) = some r from hr]
  exact command_done hup hseq hq hb (P := fun t => t.boot = s.boot) rfl hh hst hact (settle_boot _)

/-! STOP, STEP and RESUME (R419, R422). -/

theorem stop_sounds (hh : headOk p 16 [] = true) (hi : installed s (opNat p 0 4) = true) (ht : targetOk (opNat p 4 4) = true) (hz : opNat p 8 8 = 0) (hw : bitAt (opNat p 4 4) 15 = false) :
    ∃ t f, exec (.stop p) s = .next t ∧ t.out = s.out ∧ t.fogs = s.fogs ++ [f] ∧ f.ctx = opNat p 0 4 ∧ f.core = bits (opNat p 4 4) 0 9 ∧ f.ask = true ∧ f.cause = 0 ∧ f.wave = none := by
  refine ⟨finish (cmdTook s p.seq) (soundFog (cmdTook s p.seq) { seq := 0, cycle := 0, core := bits (opNat p 4 4) 0 9, ctx := opNat p 0 4, cause := 0, ask := true }), _, ?_, rfl, rfl, rfl, rfl, rfl, rfl, rfl⟩
  rw [exec_stop, cmdGate_turn hup hseq hq hb, tested_accepted hh (show stateOk (cmdTook s p.seq) false = true from hst), stopRun]
  refine if_neg ?_
  show ¬ (!(installed s (opNat p 0 4)) || !(targetOk (opNat p 4 4)) || bitAt (opNat p 4 4) 15 || decide (opNat p 8 8 ≠ 0)) = true
  simp [hi, ht, hw, hz]

theorem step_steps {w : Nat} {v : Wave} (hh : headOk p 16 [] = true) (hi : installed s (opNat p 0 4) = true) (ht : targetOk (opNat p 4 4) = true) (hz : opNat p 8 8 ≤ 1) (hw : bitAt (opNat p 4 4) 15 = true) (htw : targetWave s (opNat p 0 4) (opNat p 4 4) = some (w, v)) (hstop : v.stopped = true) (hstep : v.stepping = false) :
    ∃ t, exec (.step p) s = .next t ∧ t.out = s.out ∧ ∀ v', waveAt t w = some v' → v'.stepping = true ∧ v'.stepAsk = true ∧ v'.stepDeliver = bitAt (opNat p 8 8) 0 := by
  refine ⟨finish (cmdTook s p.seq) (modWave (cmdTook s p.seq) w (fun u => { u with stepping := true, stepDeliver := bitAt (opNat p 8 8) 0, stepAsk := true })), ?_, rfl, fun v' hv' => ?_⟩
  · rw [exec_step, cmdGate_turn hup hseq hq hb, tested_accepted hh (show stateOk (cmdTook s p.seq) false = true from hst), stepRun]
    rw [if_neg, show targetWave (cmdTook s p.seq) (opNat p 0 4) (opNat p 4 4) = some (w, v) from htw]
    · exact if_pos (by rw [hstop, hstep]; rfl)
    · show ¬ (!(installed s (opNat p 0 4)) || !(targetOk (opNat p 4 4)) || !(bitAt (opNat p 4 4) 15) || decide (1 < opNat p 8 8)) = true
      simp [hi, ht, hw, hz]
  · have hm : waveAt (modWave (cmdTook s p.seq) w (fun u => { u with stepping := true, stepDeliver := bitAt (opNat p 8 8) 0, stepAsk := true })) w = some v' := hv'
    rw [waveAt_modWave_self] at hm
    obtain ⟨v0, -, rfl⟩ := Option.map_eq_some_iff.1 hm
    exact ⟨rfl, rfl, rfl⟩

/-- No stopped wave keeps the record of an event. -/
def EventGone (seq : Nat) (t : State) : Prop := ∀ e ∈ t.waves, e.2.stopped = true → ∀ r, e.2.stopRec = some r → r.seq ≠ seq

omit hup hseq hq hb hst in
theorem eventGone_resumeEvent (t : State) (seq : Nat) : EventGone seq (resumeEvent t seq) := by
  intro e he hs r hr hseq
  obtain ⟨e0, -, rfl⟩ := List.mem_map.1 he
  split at hs
  · cases hs
  · next hne =>
    rw [if_neg hne] at hr
    exact hne ⟨hs, by rw [hr, ← hseq]; rfl⟩

omit hup hseq hq hb hst in
theorem EventGone.resumeEvent {seq : Nat} {t : State} (h : EventGone seq t) (other : Nat) : EventGone seq (resumeEvent t other) := by
  intro e he hs r hr
  obtain ⟨e0, he0, rfl⟩ := List.mem_map.1 he
  split at hs
  · cases hs
  · next hne =>
    rw [if_neg hne] at hr
    exact h e0 he0 hs r hr

omit hup hseq hq hb hst in
theorem eventGone_foldl (l : List Nat) (t : State) (seq : Nat) (h : EventGone seq t ∨ seq ∈ l) : EventGone seq (l.foldl resumeEvent t) := by
  induction l generalizing t with
  | nil => exact h.resolve_right List.not_mem_nil
  | cons x l ih =>
    refine ih _ ?_
    rcases h with h | h
    · exact .inl (h.resumeEvent x)
    · rcases List.mem_cons.1 h with rfl | h
      · exact .inl (eventGone_resumeEvent t seq)
      · exact .inr h

theorem resume_done (hh : headOk p 16 [] = true) (hi : installed s (opNat p 0 4) = true) (ht : targetOk (opNat p 4 4) = true) (hz : opNat p 8 8 = 0) (hne : resumed s (opNat p 0 4) (opNat p 4 4) ≠ []) :
    ∃ t, exec (.resume p) s = .next t ∧ t.out.getLast? = some (.reply 0x34 0 []) ∧ ∀ w v, waveAt t w = some v → v.stopped = true → ∀ r, v.stopRec = some r → r.seq ∉ resumed s (opNat p 0 4) (opNat p 4 4) := by
  refine command_done hup hseq hq hb (P := fun t => ∀ w v, waveAt t w = some v → v.stopped = true → ∀ r, v.stopRec = some r → r.seq ∉ resumed s (opNat p 0 4) (opNat p 4 4)) (u := (resumed s (opNat p 0 4) (opNat p 4 4)).foldl resumeEvent (cmdTook s p.seq)) (res := []) rfl hh hst ?_ fun w v hv hs r hr hin => ?_
  · refine (if_neg ?_).trans ?_
    rotate_left
    · show (match resumed s (opNat p 0 4) (opNat p 4 4) with | [] => ansNo (cmdTook s p.seq) 1 | l => ansOk (l.foldl resumeEvent (cmdTook s p.seq))) = _
      split
      · next h => exact absurd h hne
      · rfl
    · show ¬ (!(installed s (opNat p 0 4)) || !(targetOk (opNat p 4 4)) || decide (opNat p 8 8 ≠ 0)) = true
      simp [hi, ht, hz]
  · obtain ⟨e', he', as, b, hw⟩ := (settled_settle _).waves (w, v) (mem_of_tblFind (t := (settle (reply _ 0x34 0 [])).waves) hv)
    have hgone := eventGone_foldl _ (cmdTook s p.seq) r.seq (.inr hin)
    simp only at hw
    rw [hw] at hs hr
    exact hgone e' he' hs r hr rfl

end

/-- Settles O60: the frame has its turn, the payload and the state are accepted, and each command's next state is the one its definition builds. -/
theorem hostCommands : Obligations.HostCommands := by
  intro s p hup hseq hq hb
  refine ⟨fun hh => open_done hup hseq hq hb hh, fun hse hh => status_done hup hseq hq hb hse hh, fun hse hh => attest_done hup hseq hq hb hse hh, fun hse hready => ?_⟩
  have hst : stateOk s false = true := by
    rw [stateOk, hse, hready]
    rfl
  exact ⟨fun tb hh ha hr hd hc => ctxSet_installs hup hseq hq hb hst hh ha hr hd hc, fun tb hh ha => ctxSet_clears hup hseq hq hb hst hh ha, fun hh hi hr => streamWrite_done hup hseq hq hb hst hh hi hr, fun hh hi => invalidate_done hup hseq hq hb hst hh hi, fun hh hi => preempt_later hup hseq hq hb hst hh hi,
    fun hh hi hc => ⟨coreSave_later hup hseq hq hb hst hh hi hc, coreRestore_later hup hseq hq hb hst hh hi hc⟩, fun x hh ha hi hg => gapAnswer_done hup hseq hq hb hst hh ha hi hg, fun key hh h0 h1 hk => keyLoad_done hup hseq hq hb hst hh h0 h1 hk, fun hh h0 h1 => keyRetire_done hup hseq hq hb hst hh h0 h1,
    fun hh h0 h1 => partitionSet_done hup hseq hq hb hst hh h0 h1, fun hh => ⟨fun ht hn hok => grantSetHost_done hup hseq hq hb hst hh ht hn hok, fun ht hn hok => grantSetInbound_done hup hseq hq hb hst hh ht hn hok, fun ht hn hr => grantSetRoute_done hup hseq hq hb hst hh ht hn hr, fun ht hn hr => grantSetRank_done hup hseq hq hb hst hh ht hn hr⟩, fun c hh hi hok => debugControl_done hup hseq hq hb hst hh hi hok, fun w r hh hr => stopRecord_read hup hseq hq hb hst hh hr, fun hh hi ht hz hw => stop_sounds hup hseq hq hb hst hh hi ht hz hw,
    fun w v hh hi ht hz hw htw hstop hstep => step_steps hup hseq hq hb hst hh hi ht hz hw htw hstop hstep, fun hh hi ht hz hne => resume_done hup hseq hq hb hst hh hi ht hz hne⟩

end Sys2Proof.Machine
end
